-- ==== Sys2Proof/Word.lean ====
section
/-! DEFINITION. The word types of the block. -/
namespace Sys2Proof

/-- A register word (R564): every register of a page is 32 bits wide. -/
abbrev Word := BitVec 32

/-- A byte of memory or of a frame. -/
abbrev Byte := BitVec 8

end Sys2Proof
end

