-- ==== Sys2Proof/Syntax.lean ====
section
/-! DEFINITION. The commands of the block: one constructor of `Instr` per row of spec/opcode_table.json, with the
operands a row needs. A row is either a host access (it carries the path it arrives on), a command code written to a page's
PCMD register (path, instance of the page, argument), or an event the spec describes (a frame that arrives, an edge of a pin,
the end of an interval); an event carries what the outside world decides: the levels, the data, the time.

Times `t` are system time in its LSB of 62.5 ps (R19). -/
namespace Sys2Proof

/-- The access path of a host command (R565, R568). -/
inductive Path where
  /-- PCI Express. -/
  | pcie
  /-- The SPI management port. -/
  | spi
deriving DecidableEq, Repr

/-- A port of a station (east or west). -/
inductive Port where
  | e | w
deriving DecidableEq, Repr

abbrev RingId := Fin 4
abbrev AxisId := Fin 256
abbrev PairId := Fin 18
abbrev CoreId := Fin 4
abbrev CapId := Fin 16
abbrev FbuId := Fin 8
abbrev StepId := Fin 16
abbrev GroupId := Fin 8
abbrev DmaId := Fin 4
abbrev TaskId := Fin 1024

/-- A serial lane: a port of a ring, or a port of the system link. -/
inductive Lane where
  | ring (r : RingId) (port : Port)
  | sys (port : Port)
deriving DecidableEq, Repr

/-- A frame as it stands on a lane: the port it arrives on, the system time of its SOF symbol, the 56 bits of its SOF block
after the block type (R71), its payload, its payload CRC as received, and whether a symbol error marks it bad. -/
structure RawFrame where
  port : Port
  tag : Nat
  sof : BitVec 56
  data : List Byte
  crc : Word
  bad : Bool
deriving DecidableEq, Repr

/-- The content of a PDX message (*PDX message data*): HOPS, LIDX, M, CYC. -/
structure PdxMsg where
  hops : Byte
  lidx : Byte
  m : Word
  cyc : Word
deriving DecidableEq, Repr

/-- Why the system link loses synchronism (R140). -/
inductive SysLoss where
  | drift | silent
deriving DecidableEq, Repr

/-- Why a pair stops (R345; the codes of `CEP.CFLT.FCAUSE`). -/
inductive PairCause where
  | lockstep | eccProgram | eccX | eccY
deriving DecidableEq, Repr

/-- Where an uncorrectable ECC error falls (R13): a pair's memories, the shared SRAM by byte offset, the DRAM by BAR2
offset. -/
inductive EccSite where
  | pair (pair : PairId) (cause : PairCause)
  | shared (off : Nat)
  | dram (off : Nat)
deriving DecidableEq, Repr

/-- A register as the parity scrubber names it (R575): page, window selection, byte offset. -/
structure RegRef where
  page : Nat
  sel : Nat
  off : Nat
deriving DecidableEq, Repr

/-- What tells mailbox messages in reassembly apart (R582). -/
structure MailKey where
  src : BitVec 16
  ch : Byte
  seq : Byte
deriving DecidableEq, Repr

/-- A write request as it arrives (R564): path, BAR0 offset, length in words, byte enables, data. -/
structure BusWrite where
  path : Path
  addr : Nat
  len : Nat
  be : BitVec 8
  data : BitVec 64
deriving DecidableEq, Repr

/-- A read request as it arrives (R564). -/
structure BusRead where
  path : Path
  addr : Nat
  len : Nat
  be : BitVec 8
deriving DecidableEq, Repr

/-! Instruction words of the engines, by format (R311). -/

/-- A parallel move (*Move field*, R311). -/
structure MoveField where
  mop : BitVec 2
  reg : BitVec 4
  ar : BitVec 3
  upd : BitVec 3
  sz : BitVec 2
  bsc : BitVec 3
  rsvd : BitVec 3
deriving DecidableEq, Repr

/-- *Format P*: arithmetic with two parallel moves. -/
structure FmtP where
  acd : BitVec 2
  sa : BitVec 4
  sb : BitVec 4
  acs : BitVec 2
  sm : BitVec 2
  rsvd : BitVec 4
  xmv : MoveField
  ymv : MoveField
deriving DecidableEq, Repr

/-- *Format R*: register operations. -/
structure FmtR where
  dd : BitVec 4
  da : BitVec 4
  db : BitVec 4
  ac : BitVec 2
  sh : BitVec 6
  rsvd : BitVec 3
  sat : Bool
  mod : Bool
  ims : Bool
  imm : Word
deriving DecidableEq, Repr

/-- *Format C*: control. -/
structure FmtC where
  cond : BitVec 4
  csrc : Bool
  dc : BitVec 4
  rsvd : BitVec 1
  tgt : BitVec 16
  imm : Word
deriving DecidableEq, Repr

/-- *Format M*: single memory access. -/
structure FmtM where
  dd : BitVec 4
  ar : BitVec 3
  upd : BitVec 3
  sz : BitVec 2
  bsc : BitVec 3
  rsvd : BitVec 11
  disp : Word
deriving DecidableEq, Repr

/-! The Quinas image: its bytes stand in DRAM; what its sections hold, in the structured form that
`IMAGE_AUTH_COMPLETE` carries (notes/assumptions/6.md). -/

/-- A RING section (*Section types* 0x03): ring, slot table entries in table order (SLTLO, SLTHI), nominal geometry (PTAB
words), HOTINS and NSTAC of RCFG, and the output sections of its command frames (R85): STA, place in the output area in 8-byte
units (notes/assumptions/98.md), LEN8. -/
structure ImageRing where
  ring : RingId
  slots : List (Word × Word)
  ptab : List (Fin 64 × Word)
  rcfg : Word
  outs : List (Byte × Nat × Byte)
deriving DecidableEq, Repr

/-- The sections of an image. -/
structure ImageCfg where
  /-- ENGINE: program words by address, and the initial X and Y user data by byte address. -/
  program : List (BitVec 14 × BitVec 64)
  xdata : List (BitVec 16 × Byte)
  ydata : List (BitVec 16 × Byte)
  /-- CLUSTER: head pairing (PAIRED), NCFG, nominal SYS hop delay in ST LSB, route table (destination, ROUTE word). -/
  paired : Bool
  ncfg : Byte
  sysHop : Nat
  routes : List (Byte × Word)
  /-- RING, one per configured ring. -/
  rings : List ImageRing
  /-- AXIS: page images of the configured axis tables (table, then offset and value). -/
  axes : List (AxisId × List (BitVec 12 × Word))
  /-- PAGES: register writes in order (page, window selection, offset, value). -/
  pages : List (RegRef × Word)
  /-- PIMG: OSIZE, and the process-image binding words MIMG (core), GPIMG, LIMG (channel). -/
  osize : BitVec 14
  mimg : List (CoreId × Word)
  gpimg : Word
  limg : List (FbuId × Word)
  /-- CALU: the user calibration set, 33 words. -/
  calu : Option (List Word)
  /-- CAM: initial content of the cam and path region, from its start. -/
  cam : List Byte
  /-- LOCAL: step channels bound (channel, axis table), and local axes with local feedback. -/
  steps : List (StepId × AxisId)
deriving DecidableEq, Repr

/-- The commands: one constructor per row of spec/opcode_table.json. -/
inductive Instr where
  /-- PORST_ASSERT (R538): PORST_N goes low and the whole device, including the KEEP domain, is reset. -/
  | porstAssert
  /-- PORST_RELEASE (R529): PORST_N is released with VKEEP present, so HEAD_SEL and BOOT_SRC are read and the device heads for
  KEEPER. -/
  | porstRelease (headSel bootHost presentLow : Bool)
  /-- VKEEP_LOSS (R613): VKEEP falls below its threshold, with the same effect as PORST_N low. -/
  | vkeepLoss
  /-- PERST_ASSERT (R538): PERST_N goes low, which resets the PCI Express endpoint, HIF and DMC and ends every DMA transfer in
  progress. -/
  | perstAssert
  /-- TRST_ASSERT (R538): TRST_N goes low and resets the JTAG TAP. -/
  | trstAssert
  /-- SUPPLY_OUT_OF_RANGE (R533): A CORE-domain supply is out of range for 10 us and the device drops to KEEPER with DCAUSE 2. -/
  | supplyOutOfRange
  /-- PLL_LOSS_OF_LOCK (R533): The PLL loses lock, for example when REFCLK stops, and the device drops to KEEPER with DCAUSE 3. -/
  | pllLossOfLock
  /-- PRESENCE_DEBOUNCED (R552): PRESENT_N has been low for 500 ms without a break, so the presence condition holds. -/
  | presenceDebounced
  /-- PRESENCE_LOST (R553): PRESENT_N is high for 10 us in LANTERN or FULL, so the device drops to KEEPER with DCAUSE 4 and
  lowers every INSERT pin. -/
  | presenceLost
  /-- KEEPER_EXIT (R529): Once supplies, presence, KHOLD, REFCLK and the restart limit allow it, the device leaves KEEPER for
  LANTERN by itself. -/
  | keeperExit
  /-- LANTERN_POWERUP_DONE (R530): The PLL is locked, the domains are released and OTP has been read, so the TEST step starts. -/
  | lanternPowerupDone
  /-- SELF_TEST_COMPLETE (R546): The shared SRAM march, the DRAM march and the engine BIST end and set SRAMOK, DRAMOK and
  BISTOK. -/
  | selfTestComplete (sramOk dramOk : Bool) (bist : BitVec 18)
  /-- IMAGE_READ_COMPLETE (R542): Copying the Quinas image from QSPI flash into the engine images region ends. -/
  | imageReadComplete (img : Option (List Byte))
  /-- IMAGE_READ_TIMEOUT (R555): No image has arrived within 5 s of READ, so the load fails with LFAIL 12. -/
  | imageReadTimeout
  /-- IMAGE_AUTH_COMPLETE (R541): The image checks end: the first failed check ends the load with its LFAIL, and otherwise
  PROGRAM starts. -/
  | imageAuthComplete (cfg : ImageCfg)
  /-- PROGRAM_COMPLETE (R530): Pages, pairs, axis tables and the calibration set are programmed, and LSTEP becomes READY. -/
  | programComplete
  /-- CAL_VALIDATION_DONE (R551): Calibration validation of every fitted core ends and sets CALOK and VRES. -/
  | calValidationDone (codes : List (List (BitVec 24)))
  /-- GO_FULL (R531): The STG command that requests FULL; it checks the FULLOK flags and starts re-verifying the image and the
  ICRC of every pair. -/
  | goFull (p : Path) (arg : BitVec 16)
  /-- FULL_ENTRY (R531): After re-verification passes, the device enters FULL at the next tick. -/
  | fullEntry
  /-- GO_LANTERN (R556): The STG command that drops the device from FULL to LANTERN with DCAUSE 7. -/
  | goLantern (p : Path) (arg : BitVec 16)
  /-- LOAD (R544): The STG command that loads an image from the primary flash, the alternate flash or the host region. -/
  | load (p : Path) (arg : BitVec 16)
  /-- UNLOAD (R545): The STG command that returns loaded pages to reset, disables the axis tables, clears the pairs and returns
  to WAITHOST. -/
  | unload (p : Path) (arg : BitVec 16)
  /-- STG_LANTERN (R556): The STG LANTERN command, accepted in KEEPER, clears KHOLD and WDRUN and then applies R529. -/
  | stgLantern (p : Path) (arg : BitVec 16)
  /-- PARK (R554): The STG command that lowers SYS_INSERT and drops the device to KEEPER with DCAUSE 6. -/
  | park (p : Path) (arg : BitVec 16)
  /-- SRST (R556): The STG command that drops the device to KEEPER with DCAUSE 5 and then restarts it under R529. -/
  | srst (p : Path) (arg : BitVec 16)
  /-- STG_CLRCNT (R556): The STG command that clears STG.RCNT. -/
  | stgClrcnt (p : Path) (arg : BitVec 16)
  /-- WATCHDOG_KICK (R535): A write of 0xA5 to STG.WDOG.KEY over an allowed path restarts the stage watchdog. -/
  | watchdogKick (p : Path) (value : Word)
  /-- WATCHDOG_WARN (R535): Half the watchdog period has passed without a kick, so WD_WARN is posted. -/
  | watchdogWarn
  /-- WATCHDOG_EXPIRE (R535): The watchdog period has passed without a kick, so the device drops to KEEPER with DCAUSE 1. -/
  | watchdogExpire
  /-- WATCHDOG_RESTART (R537): With WDAUTO set, after 100 ms in KEEPER following a watchdog drop, the device applies R529 again
  unless WDRUN has reached 3. -/
  | watchdogRestart
  /-- WDRUN_CLEAR (R537): After 10 s in FULL the count of consecutive watchdog drops clears. -/
  | wdrunClear
  /-- RESTORE_FACTORY (R549): The CAL command that copies the factory calibration set into the active set and restarts
  validation. -/
  | restoreFactory (p : Path) (arg : BitVec 16)
  /-- VALIDATE (R559): The CAL command that restarts calibration validation. -/
  | validate (p : Path) (arg : BitVec 16)
  /-- CAL_SET_WRITE (R548): A write to the active calibration set in LANTERN sets SRC 3, recomputes CCRC, clears CALOK and
  restarts validation. -/
  | calSetWrite (p : Path) (off : Nat) (value : Word)
  /-- PROGKEY (R561): The OTP command that programs the key hash from KSTG into KHASH once. -/
  | progkey (p : Path) (arg : BitVec 16)
  /-- BUMPVER (R561): The OTP command that raises MINVER to the VERSION of the image in force. -/
  | bumpver (p : Path) (arg : BitVec 16)
  /-- OTP_PROGRAM_DONE (R561): OTP programming completes or fails, BUSY clears, and OTP_DONE or OTP_FAIL is posted. -/
  | otpProgramDone (ok : Bool)
  /-- TICK (R31): The tick of cycle k falls at ST = k x P and starts the cycle on every ring. -/
  | tick (gpio : Word)
  /-- END_OF_UPSTREAM_WINDOW (R40): At the end of the upstream window, every axis task of the cycle still lacking its record is
  made ready. -/
  | endOfUpstreamWindow
  /-- BEACON_MISS_LIMIT (R133): The miss count reaches 8 on a node or a non-commanding head, which leaves SYNC with cause 3. -/
  | beaconMissLimit
  /-- RING_POOL_DISAGREE (R136): A ring's offset average differs from the pool by more than 400 LSB for 3 double cycles, so that
  ring leaves SYNC with cause 4. -/
  | ringPoolDisagree (r : RingId)
  /-- SLOT_MUTE (R157): A node's slot is violated in 3 consecutive occurrences, so the head mutes it, moors its axes and orders
  it PASSIVE. -/
  | slotMute (r : RingId) (slot : Byte)
  /-- OWN_SLOT_VIOLATED (R161): A head finds its own SYNC slot violated for 3 cycles on a ring and enters PASSIVE there. -/
  | ownSlotViolated (r : RingId)
  /-- CWD (R41): At the command window deadline, the compute window closes and command records or HOLD are fixed for the command
  frame. -/
  | cwd
  /-- HELD_REQUEST_EXPIRE (R519): A held RED request is dropped after 256 cycles. -/
  | heldRequestExpire
  /-- NIT_START (R129): NIT begins: the offset correction is slewed and the retiming buffer may recentre. -/
  | nitStart
  /-- ASYNC_WINDOW_START (R111): At the start of the async window, each device sends a SYNC frame out of each SYS port. -/
  | asyncWindowStart
  /-- SETRATE (R52): The TIM command that accepts a new cycle rate in LANTERN with every axis MOORED. -/
  | setrate (p : Path) (arg : BitVec 16)
  /-- RATE_SWITCH (R53): At the second super-cycle boundary after acceptance, every ring switches to the new rate and the axes
  are reassigned. -/
  | rateSwitch
  /-- TIM_CLRCNT (R63): The TIM command that clears OVRCNT and LATECNT. -/
  | timClrcnt (p : Path) (arg : BitVec 16)
  /-- PIXCTL_ACQ (R56): Writing ACQ swaps the host and newest input banks if NEW is 1, then clears NEW. -/
  | pixctlAcq (p : Path)
  /-- PIXCTL_PUB (R57): Writing PUB swaps the host and newest output banks and sets FRESH, or sets DISAGREE on a standby. -/
  | pixctlPub (p : Path)
  /-- BLOCK_LOCK_ACQUIRE (R68): A receiver gains block lock after 64 valid sync headers. -/
  | blockLockAcquire (lane : Lane)
  /-- BLOCK_LOCK_LOSS (R68): A receiver loses block lock after 16 of 64 blocks have invalid sync headers. -/
  | blockLockLoss (lane : Lane)
  /-- BREAK_DETECT (R100): After 2 us without block lock on a port, the station reports a break and sends BREAK out of both
  ports. -/
  | breakDetect (r : RingId) (port : Port)
  /-- HEAL_SEND (R102): A broken port that has held block lock for 1 ms sends HEAL once. -/
  | healSend (r : RingId) (port : Port)
  /-- AXIS_FRAME_RECEIVE (R15): An AXIS frame is accepted, its records are written into the axis tables and the task event flags
  are set. -/
  | axisFrameReceive (r : RingId) (f : RawFrame)
  /-- IO_FRAME_RECEIVE (R87): The payload of an IO frame is written into the process image at PIOFS. -/
  | ioFrameReceive (r : RingId) (f : RawFrame)
  /-- SYNC_FRAME_RECEIVE (R126): The deviation of an accepted SYNC copy is computed, and the peer is heard. -/
  | syncFrameReceive (r : RingId) (f : RawFrame)
  /-- COMMAND_FRAME_RECEIVE (R512): A COMMAND frame from the peer head is accepted, so the peer is heard for the takeover
  condition. -/
  | commandFrameReceive (r : RingId) (f : RawFrame)
  /-- COLDSTART_FRAME_RECEIVE (R147): A COLDSTART frame is accepted; the station yields to a frame of higher priority or
  integrates on it. -/
  | coldstartFrameReceive (r : RingId) (f : RawFrame)
  /-- MIRROR_FRAME_RECEIVE (R491): A MIRROR frame from the peer is taken whole: its header, journal, shared bytes, digests or
  replies. -/
  | mirrorFrameReceive (r : RingId) (f : RawFrame)
  /-- MIRROR_SLOT_END (R495): At the end of the mirror slot, the journalled host writes and commands it carried reach the pages
  of both heads. -/
  | mirrorSlotEnd
  /-- ASYNC_FRAME_RECEIVE (R89): An ASYNC frame is received; channel 0 goes to ring management and other channels to mailboxes. -/
  | asyncFrameReceive (r : RingId) (f : RawFrame)
  /-- REJOIN (R159): The head accepts a REJOIN from a muted node, unmutes it and sends RESUME with an ACT. -/
  | rejoin (r : RingId) (sta : BitVec 6)
  /-- RANGING_REPLY_RECEIVE (R97): A node's RANGING reply with DELTA and FWD is collected for the geometry. -/
  | rangingReplyReceive (r : RingId) (f : RawFrame)
  /-- STOP_OS_RECEIVE (R79): A STOP ordered set from another station trips the safe chain with cause 5. -/
  | stopOsReceive (lane : Lane) (arg : BitVec 48)
  /-- BREAK_OS_RECEIVE (R101): A BREAK ordered set records a break location, sets BROKEN and posts BREAK. -/
  | breakOsReceive (lane : Lane) (arg : BitVec 48)
  /-- HEAL_OS_RECEIVE (R102): A HEAL ordered set is received from a station whose lost port has relocked. -/
  | healOsReceive (lane : Lane) (arg : BitVec 48)
  /-- UNKNOWN_OS_RECEIVE (R75): An ordered set of unknown code is counted in OSERR and forwarded unchanged. -/
  | unknownOsReceive (lane : Lane) (code : Byte) (arg : BitVec 48)
  /-- FRAME_TRANSMIT (R71): At a slot's action point, the station launches its own frame out of both ports. -/
  | frameTransmit (r : RingId) (slot : Byte) (busyE busyW : Bool)
  /-- RANGE (R119): The RING command that ranges the ring. -/
  | range (p : Path) (r : RingId) (arg : BitVec 16)
  /-- RANGING_COMPLETE (R93): Ranging ends: the slot table is checked against the new geometry and SCHOK is set. -/
  | rangingComplete (r : RingId)
  /-- GEO_ACT (R107): At the ACT of a GEO message, the geometry takes effect and stations leave resettle. -/
  | geoAct (r : RingId)
  /-- RESETTLE_TIMEOUT (R107): A station leaves resettle after 256 cycles without a GEO message. -/
  | resettleTimeout (r : RingId)
  /-- GRANT (R108): The RING command that announces the insertion of a station. -/
  | grant (p : Path) (r : RingId) (arg : BitVec 16)
  /-- WITHDRAW (R108): The RING command that announces the withdrawal of a station. -/
  | withdraw (p : Path) (r : RingId) (arg : BitVec 16)
  /-- RING_CLRCNT (R119): The RING command that clears the ring counters and BCNT. -/
  | ringClrcnt (p : Path) (r : RingId) (arg : BitVec 16)
  /-- INSERT_BY_GRANT (R105): A synchronised, bypassed head named in INSG raises INSERT 1.5 us before the tick ending the cycle
  with RCC 63. -/
  | insertByGrant (r : RingId)
  /-- INSERT_LOWER_BY_WITHDRAW (R106): A station named for withdrawal lowers INSERT at the same point. -/
  | insertLowerByWithdraw (r : RingId)
  /-- SYS_SYNC_FRAME_RECEIVE (R111): A neighbour's SYNC frame on a SYS port is tagged for peer delay and steering. -/
  | sysSyncFrameReceive (port : Port) (f : RawFrame)
  /-- SYS_ASYNC_FRAME_RECEIVE (R110): An ASYNC frame on the system link is forwarded store-and-forward by the route table, or
  dropped into RTFAIL. -/
  | sysAsyncFrameReceive (port : Port) (f : RawFrame)
  /-- PDX_RECEIVE (R138): A PDX message gives the hop delay and the offset to the neighbour. -/
  | pdxReceive (port : Port) (m : PdxMsg)
  /-- SYS_SYNC_ACQUIRE (R140): |o| stays at or below 320 LSB for 8 double cycles, so SSYNC becomes 1. -/
  | sysSyncAcquire
  /-- SYS_SYNC_LOSS (R140): Drift beyond 480 LSB or no PDX from the parent for 64 cycles clears SSYNC and posts event 62. -/
  | sysSyncLoss (cause : SysLoss)
  /-- SYS_CLRCNT (R122): The SYS command that clears SYS.SCNT. -/
  | sysClrcnt (p : Path) (arg : BitVec 16)
  /-- LISTEN_TIMEOUT (R144): A coldstart station's listen timer reaches its timeout and the station enters COLDSTART. -/
  | listenTimeout (r : RingId)
  /-- COLDSTART_COMPLETE (R146): After 8 COLDSTART frames, the station sends SYNC frames and enters SYNC. -/
  | coldstartComplete (r : RingId)
  /-- INTEGRATE_TO_SYNC (R153): After 4 good double cycles in INTEGRATE, the station enters SYNC. -/
  | integrateToSync (r : RingId)
  /-- HEAD_RING_TAKEOVER (R151): A synchronised head that has heard only role-0 SYNC frames for 64 cycles raises INSERT and
  enters COLDSTART on that ring. -/
  | headRingTakeover (r : RingId)
  /-- AXIS_TASK_RUN (R165): An axis task runs the kernel stages of its table for the cycle and commits the axis state. -/
  | axisTaskRun (n : AxisId) (t : Nat)
  /-- MSIX_HOLD_EXPIRE (R595): The coalescing time of a vector has passed, so its pending message is sent. -/
  | msixHoldExpire (v : Fin 32)
  /-- ENABLE (R228): The AXP command that takes a MOORED axis to READY and adopts its mooring parameters. -/
  | enable (p : Path) (n : AxisId) (arg : BitVec 16)
  /-- DISABLE (R228): The AXP command that stops the axis and then moors it. -/
  | disable (p : Path) (n : AxisId) (arg : BitVec 16)
  /-- AXP_HALT (R228): The AXP HALT command that stops a running axis back to READY. -/
  | axpHalt (p : Path) (n : AxisId) (arg : BitVec 16)
  /-- START (R228): The AXP command that takes a READY axis to RUN and adopts its start parameters. -/
  | start (p : Path) (n : AxisId) (arg : BitVec 16)
  /-- SWAP (R208): The AXP command that requests a coefficient bank swap. -/
  | swap (p : Path) (n : AxisId) (arg : BitVec 16)
  /-- CLEAR (R225): The AXP command that clears FLATCH and FCODE of a MOORED axis. -/
  | clear (p : Path) (n : AxisId) (arg : BitVec 16)
  /-- MOOR (R228): The AXP command that moors the axis at once. -/
  | moor (p : Path) (n : AxisId) (arg : BitVec 16)
  /-- AXP_CLRCNT (R228): The AXP command that clears IDXCNT, CNT and AOV. -/
  | axpClrcnt (p : Path) (n : AxisId) (arg : BitVec 16)
  /-- DEFERRED_EVALUATION (R212): In the axis task of cycle k+2, journalled commands are evaluated and live writes are adopted
  on both heads. -/
  | deferredEvaluation (n : AxisId)
  /-- AXP_WRITE (R206): A host write to an AXP page, refused as a bus error when it hits the bank in use while that bank is
  read. -/
  | axpWrite (p : Path) (n : AxisId) (off : Nat) (value : Word)
  /-- LEARN (R248): The SEA command that puts a Season table into LEARN. -/
  | learn (p : Path) (arg : BitVec 16)
  /-- FREEZE (R248): The SEA command that puts a Season table into FREEZE. -/
  | freeze (p : Path) (arg : BitVec 16)
  /-- SEA_OFF (R248): The SEA OFF command that turns a Season table off. -/
  | seaOff (p : Path) (arg : BitVec 16)
  /-- SEA_RESET (R248): The SEA RESET command that fills a Season table with 0 and sets BUSY. -/
  | seaReset (p : Path) (arg : BitVec 16)
  /-- COPY (R248): The SEA command that copies one Season table into another. -/
  | copy (p : Path) (arg : BitVec 16)
  /-- SEA_CLRCNT (R248): The SEA command that clears STRIDE, JUMPC, UPDC and SATF of a table. -/
  | seaClrcnt (p : Path) (arg : BitVec 16)
  /-- SEA_DONE (R250): A RESET or COPY completes at the task of cycle k+2+N/16, clears BUSY and posts SEA_DONE. -/
  | seaDone (n : AxisId)
  /-- MOVE (R267): The PRF command that starts a move descriptor at once. -/
  | move (p : Path) (arg : BitVec 16)
  /-- QUEUE (R267): The PRF command that appends a move descriptor to the queue. -/
  | queue (p : Path) (arg : BitVec 16)
  /-- FLUSH (R267): The PRF command that discards the queue entries not yet started. -/
  | flush (p : Path) (arg : BitVec 16)
  /-- HOME (R278): The PRF command that starts homing. -/
  | home (p : Path) (arg : BitVec 16)
  /-- PRF_CLRCNT (R267): The PRF command that clears DRAISED, TGTPASS and HFC. -/
  | prfClrcnt (p : Path) (arg : BitVec 16)
  /-- GSTART (R290): The PGRP command that starts a path group. -/
  | gstart (p : Path) (g : GroupId) (arg : BitVec 16)
  /-- GHOLD (R291): The PGRP command that decelerates the path to rest. -/
  | ghold (p : Path) (g : GroupId) (arg : BitVec 16)
  /-- GRESUME (R291): The PGRP command that continues a held path. -/
  | gresume (p : Path) (g : GroupId) (arg : BitVec 16)
  /-- GABORT (R291): The PGRP command that stops the path and discards every segment. -/
  | gabort (p : Path) (g : GroupId) (arg : BitVec 16)
  /-- PGRP_CLRCNT (R302): The PGRP command that clears PLATE. -/
  | pgrpClrcnt (p : Path) (g : GroupId) (arg : BitVec 16)
  /-- NOP (R321): An instruction that performs its parallel moves only. -/
  | nop (pair : PairId) (w : FmtP)
  /-- MAC (R316): An instruction that adds the exact product to an accumulator. -/
  | mac (pair : PairId) (w : FmtP)
  /-- MSU (R316): An instruction that subtracts the exact product from an accumulator. -/
  | msu (pair : PairId) (w : FmtP)
  /-- MPY (R316): An instruction that sets an accumulator to the exact product. -/
  | mpy (pair : PairId) (w : FmtP)
  /-- FTAP (R322): An instruction that accumulates a delay-line tap product and shifts the delay line. -/
  | ftap (pair : PairId) (w : FmtP)
  /-- ADDA (R321): An instruction that adds one accumulator to another. -/
  | adda (pair : PairId) (w : FmtP)
  /-- SUBA (R321): An instruction that subtracts one accumulator from another. -/
  | suba (pair : PairId) (w : FmtP)
  /-- CLRA (R321): An instruction that clears an accumulator. -/
  | clra (pair : PairId) (w : FmtP)
  /-- ADD (R321): An instruction that adds two 32-bit operands, wrapping or saturating. -/
  | add (pair : PairId) (w : FmtR)
  /-- SUB (R321): An instruction that subtracts two 32-bit operands, wrapping or saturating. -/
  | sub (pair : PairId) (w : FmtR)
  /-- AND (R321): An instruction that forms the bitwise AND. -/
  | and (pair : PairId) (w : FmtR)
  /-- OR (R321): An instruction that forms the bitwise OR. -/
  | or (pair : PairId) (w : FmtR)
  /-- XOR (R321): An instruction that forms the bitwise XOR. -/
  | xor (pair : PairId) (w : FmtR)
  /-- ASH (R321): An instruction that shifts arithmetically, rounding right shifts by RMODE. -/
  | ash (pair : PairId) (w : FmtR)
  /-- LSH (R321): An instruction that shifts logically. -/
  | lsh (pair : PairId) (w : FmtR)
  /-- MOV (R321): An instruction that moves an operand into a D register. -/
  | mov (pair : PairId) (w : FmtR)
  /-- CMP (R321): An instruction that sets the flags of a subtraction. -/
  | cmp (pair : PairId) (w : FmtR)
  /-- MIN (R321): An instruction that gives the signed minimum. -/
  | min (pair : PairId) (w : FmtR)
  /-- MAX (R321): An instruction that gives the signed maximum. -/
  | max (pair : PairId) (w : FmtR)
  /-- ABS (R321): An instruction that gives the absolute value, saturated. -/
  | abs (pair : PairId) (w : FmtR)
  /-- SAT (R321): An instruction that limits a value to plus or minus |op2|. -/
  | sat (pair : PairId) (w : FmtR)
  /-- LDA (R321): An instruction that loads an accumulator from a D register at the Q1.31 position. -/
  | lda (pair : PairId) (w : FmtR)
  /-- STA (R318): An instruction that converts an accumulator to Q1.31 with one rounding and saturation. -/
  | sta (pair : PairId) (w : FmtR)
  /-- SHA (R321): An instruction that shifts an accumulator. -/
  | sha (pair : PairId) (w : FmtR)
  /-- EXPA (R321): An instruction that counts the redundant sign bits of an accumulator. -/
  | expa (pair : PairId) (w : FmtR)
  /-- RNDA (R321): An instruction that rounds an accumulator to a multiple of 2^31. -/
  | rnda (pair : PairId) (w : FmtR)
  /-- SATA (R321): An instruction that limits an accumulator to the Q1.31 range. -/
  | sata (pair : PairId) (w : FmtR)
  /-- LDAW (R321): An instruction that loads an accumulator from a 64-bit register pair. -/
  | ldaw (pair : PairId) (w : FmtR)
  /-- STAW (R318): An instruction that converts an accumulator to a saturated 64-bit integer. -/
  | staw (pair : PairId) (w : FmtR)
  /-- SINCOS (R323): An instruction that computes the cosine and sine of a U0.32 angle from the table. -/
  | sincos (pair : PairId) (w : FmtR)
  /-- DIVI (R324): An instruction that starts a fractional or integer division. -/
  | divi (pair : PairId) (w : FmtR)
  /-- DIVS (R324): An instruction that performs one divide step. -/
  | divs (pair : PairId) (w : FmtR)
  /-- DIVF (R324): An instruction that applies sign and saturation to the quotient. -/
  | divf (pair : PairId) (w : FmtR)
  /-- DREM (R324): An instruction that gives the signed remainder of an integer division. -/
  | drem (pair : PairId) (w : FmtR)
  /-- MOVA (R328): An instruction that writes an A, M or L register, in effect from instruction n+2. -/
  | mova (pair : PairId) (w : FmtR)
  /-- MOVS (R309): An instruction that reads or writes a special register. -/
  | movs (pair : PairId) (w : FmtR)
  /-- RDT (R338): An instruction that reads ST bits [31:0], trapping NONDET in deterministic code. -/
  | rdt (pair : PairId) (w : FmtR)
  /-- JMP (R312): An instruction that jumps when its condition holds. -/
  | jmp (pair : PairId) (w : FmtC)
  /-- CALL (R312): An instruction that calls when its condition holds. -/
  | call (pair : PairId) (w : FmtC)
  /-- RET (R312): An instruction that returns when its condition holds. -/
  | ret (pair : PairId) (w : FmtC)
  /-- REP (R325): An instruction that starts a block repeat. -/
  | rep (pair : PairId) (w : FmtC)
  /-- BRKL (R327): An instruction that leaves the innermost block after its present pass. -/
  | brkl (pair : PairId) (w : FmtC)
  /-- YIELD (R331): An instruction that marks a point where the TSU may switch tasks. -/
  | yield (pair : PairId) (w : FmtC)
  /-- DONE (R332): An instruction that ends a user task or hook; its flow instance may then be released. -/
  | done (pair : PairId) (w : FmtC)
  /-- POST (R333): An instruction that posts event 224+n with an argument. -/
  | post (pair : PairId) (w : FmtC)
  /-- BKPT (R343): An instruction that halts the pair in LANTERN with BKPTEN, and otherwise traps. -/
  | bkpt (pair : PairId) (w : FmtC)
  /-- LD (R321): An instruction that loads a D register from memory. -/
  | ld (pair : PairId) (w : FmtM)
  /-- ST (R321): An instruction that stores a D register to memory. -/
  | st (pair : PairId) (w : FmtM)
  /-- PAIR_FAULT (R345): A lockstep mismatch or an uncorrectable ECC error in a pair stops the pair, marks it FAULTED and hands
  its work to the TSU. -/
  | pairFault (pair : PairId) (cause : PairCause)
  /-- UNCORRECTABLE_ECC (R13): An uncorrectable ECC error in SRAM or DRAM is handled as a pair fault, an axis mooring or a unit
  error event. -/
  | uncorrectableEcc (site : EccSite)
  /-- CEP_HALT (R348): The CEP HALT command that halts the pair at the next instruction boundary. -/
  | cepHalt (p : Path) (pair : PairId) (arg : BitVec 16)
  /-- STEP (R348): The CEP command that runs one instruction on a halted pair. -/
  | step (p : Path) (pair : PairId) (arg : BitVec 16)
  /-- CEP_RESUME (R348): The CEP RESUME command that recomputes ICRC and resumes the pair. -/
  | cepResume (p : Path) (pair : PairId) (arg : BitVec 16)
  /-- BIST (R348): The CEP command that runs the engine built-in self-test. -/
  | bist (p : Path) (pair : PairId) (arg : BitVec 16)
  /-- INJECT (R348): The CEP command that forces one lockstep mismatch as a test. -/
  | inject (p : Path) (pair : PairId) (arg : BitVec 16)
  /-- REVIVE (R346): The CEP command that runs BIST on a FAULTED pair to return it to service. -/
  | revive (p : Path) (pair : PairId) (arg : BitVec 16)
  /-- CEP_CLRCNT (R348): The CEP command that clears FCNT, TCNT, TCODE, CORR and the trap record. -/
  | cepClrcnt (p : Path) (pair : PairId) (arg : BitVec 16)
  /-- BIST_COMPLETE (R346): A BIST or REVIVE ends with the pair IDLE with BISTOK, or FAULTED with FCAUSE 6. -/
  | bistComplete (pair : PairId) (pass : Bool)
  /-- CWDAT_ACCESS (R347): A read or write of CWDATLO or CWDATHI reaches engine memory or registers, and is a bus error unless
  the pair is OFF or HALTED. -/
  | cwdatAccess (p : Path) (pair : PairId) (hi : Bool) (write : Option Word)
  /-- TASK_DISPATCH (R361): The TSU places a READY task on a pair, pre-empting a lower-priority task where PMODE allows. -/
  | taskDispatch (task : TaskId) (t : Nat)
  /-- TASK_RESUME (R362): A PREEMPTED task resumes on the pair that ran it once that pair is free for it. -/
  | taskResume (task : TaskId)
  /-- REPLAY_TASK (R509): The replay of a mismatching axis task runs as a priority-1 device task on another pair. -/
  | replayTask (n : AxisId)
  /-- TRIGGER (R380): The TSU command that triggers a user task once. -/
  | trigger (p : Path) (arg : BitVec 16)
  /-- CANCEL (R380): The TSU command that returns a READY or PENDING task to IDLE. -/
  | cancel (p : Path) (arg : BitVec 16)
  /-- TSU_CLRCNT (R380): The TSU command that clears the TSU counters. -/
  | tsuClrcnt (p : Path) (arg : BitVec 16)
  /-- TSU_WRITE_ADOPT (R378): A write to TCTL, TRUN, TTRIG or TARG is adopted when the task is next IDLE, no earlier than tick
  k+2. -/
  | tsuWriteAdopt (task : TaskId)
  /-- FBU_COUNT_STEP (R383): An encoder input edge produces a counting step that updates RAW and COUNT. -/
  | fbuCountStep (c : FbuId) (a b z : Bool) (t : Nat)
  /-- COMPARE_PULSE_END (R397): A compare pulse of CPW x 10 ns ends. -/
  | comparePulseEnd (c : FbuId) (u : Fin 2) (t : Nat)
  /-- LINE_FAULT (R385): A differential pair reads equal levels for LFT x 10 ns, so a line fault is recorded and LINEF is
  raised. -/
  | lineFault (c : FbuId) (lines : Fin 3)
  /-- SERIAL_FRAME (R387): A clocked serial encoder frame completes and updates RAW, or sets SERR. -/
  | serialFrame (c : FbuId) (delay : Nat) (bits : BitVec 64)
  /-- INDEX_EDGE (R391): A Z edge records IPOS and ITAG and is checked against IPER. -/
  | indexEdge (c : FbuId) (t : Nat)
  /-- LATCH_EDGE (R393): A latch edge records LPOS and LTAG and sets LFULL, or counts in LMISS. -/
  | latchEdge (c : FbuId) (rising : Bool) (t : Nat)
  /-- LATCH_LEVEL_DEBOUNCE (R395): A LAT pin level has held for LDEB x 0.1 ms and is accepted for the input area. -/
  | latchLevelDebounce (pin : FbuId) (level : Bool)
  /-- CVAL_WRITE (R398): A write of CVAL arms the compare unit and handles a value that is behind. -/
  | cvalWrite (p : Path) (c : FbuId) (u : Fin 2) (value : Word)
  /-- FBU_CONFIG_WRITE (R389): A write to FCFG or SCFG is refused while the channel is in use, and a mode change clears counts
  and records. -/
  | fbuConfigWrite (p : Path) (c : FbuId) (serial : Bool) (value : Word)
  /-- LARM (R417): The FBU command that arms the latch. -/
  | larm (p : Path) (c : FbuId) (arg : BitVec 16)
  /-- LDISARM (R417): The FBU command that disarms the latch. -/
  | ldisarm (p : Path) (c : FbuId) (arg : BitVec 16)
  /-- CDISARM (R417): The FBU command that disarms a compare unit. -/
  | cdisarm (p : Path) (c : FbuId) (arg : BitVec 16)
  /-- CLRERR (R417): The FBU command that clears the index fault IXF. -/
  | clrerr (p : Path) (c : FbuId) (arg : BitVec 16)
  /-- FBU_CLRCNT (R417): The FBU command that clears FCNT, IDEVC, LMISS and BEHIND. -/
  | fbuClrcnt (p : Path) (c : FbuId) (arg : BitVec 16)
  /-- RING_COMPARE_WRITE (R401): A write to the ring compare window, adopted in the task of cycle k+2 and arming the unit. -/
  | ringCompareWrite (p : Path) (off : Nat) (value : Word)
  /-- RDISARM (R419): The SGU command that disarms a ring compare unit. -/
  | rdisarm (p : Path) (arg : BitVec 16)
  /-- SGU_CLRCNT (R419): The SGU command that clears RMISS and BEHIND of every unit. -/
  | sguClrcnt (p : Path) (arg : BitVec 16)
  /-- STEP_PULSE (R406): A step channel emits a step pulse at its computed time within the cycle. -/
  | stepPulse (n : StepId) (t : Nat)
  /-- SGC_CLRCNT (R420): The SGC command that clears LAGF. -/
  | sgcClrcnt (p : Path) (n : StepId) (arg : BitVec 16)
  /-- PULSE_INPUT_EDGE (R408): A pulse input edge updates PCNT, PT1 and PT2. -/
  | pulseInputEdge (i : Fin 4) (a b : Bool) (t : Nat)
  /-- SAFE_INPUT_DEMAND (R410): A safe input channel at its stop level for SFILT is a demand and trips the safe chain. -/
  | safeInputDemand (n : Fin 4) (a b : Bool)
  /-- SAFE_DISCREPANCY (R410): The two channels of a safe input disagree for DISC x 0.1 ms, so a discrepancy is latched. -/
  | safeDiscrepancy (n : Fin 4)
  /-- STO_FB_MISMATCH (R411): STOn_FB differs from STOn for more than 10 us, which is a trip cause. -/
  | stoFbMismatch (n : Fin 4)
  /-- STO_DELAY_EXPIRE (R412): STODLY ms after the trip, the STO output goes low. -/
  | stoDelayExpire (n : Fin 4)
  /-- TRIP (R414): The SAF command that trips the safe chain. -/
  | trip (p : Path) (arg : BitVec 16)
  /-- RELEASE (R413): The SAF command that requests release of the safe chain, evaluated at tick k+2. -/
  | release (p : Path) (arg : BitVec 16)
  /-- SAF_CLRCNT (R422): The SAF command that clears SCNT. -/
  | safClrcnt (p : Path) (arg : BitVec 16)
  /-- MFC_TRIGGER (R431): A trigger of the selected source arrives, so a scan becomes due after TDLY, or pending. -/
  | mfcTrigger (c : CoreId) (t : Nat)
  /-- SCAN_START (R431): A scan starts at trigger plus TDLY with the configuration in force, and its first entry switches the
  input. -/
  | scanStart (c : CoreId) (t : Nat)
  /-- SETTLE_END (R433): The settling time of an entry ends and its aperture starts. -/
  | settleEnd (c : CoreId) (t : Nat)
  /-- APERTURE_END (R433): The integration aperture ends and the rundown starts. -/
  | apertureEnd (c : CoreId) (t : Nat)
  /-- RUNDOWN_COMPLETE (R435): The rundown ends and the result is written to CRES and the process image. -/
  | rundownComplete (c : CoreId) (code : BitVec 25) (t : Nat)
  /-- BURNOUT_TEST_COMPLETE (R444): The 50 us burn-out test ends and sets OW when the input exceeds 0.9 x FS. -/
  | burnoutTestComplete (c : CoreId) (high : Bool) (t : Nat)
  /-- OVERLOAD_TRIP (R440): The integrator overload comparator trips, the aperture ends at once and an overranged result is
  written. -/
  | overloadTrip (c : CoreId) (positive : Bool) (t : Nat)
  /-- DUMP_COMPLETE (R441): The integrator dump of DUMPT us after an overrange ends. -/
  | dumpComplete (c : CoreId) (t : Nat)
  /-- WAKE_START (R439): A sleeping core starts waking, 200 us before a predictable scan or on a trigger. -/
  | wakeStart (c : CoreId) (t : Nat)
  /-- WAKE_COMPLETE (R439): A core finishes waking and may start its scan. -/
  | wakeComplete (c : CoreId) (t : Nat)
  /-- LINE_CROSSING (R428): A rising LINE_SENSE crossing is tagged, updates LPER and may lock the line. -/
  | lineCrossing (t : Nat)
  /-- LINE_LOST (R429): A period out of range or 25 ms without a crossing loses the line lock. -/
  | lineLost (t : Nat)
  /-- MFE_DIE_FAULT (R446): An MFE supply leaves its range or the die link fails its CRC, so every core abandons its work and
  goes OFF. -/
  | mfeDieFault (bits : BitVec 5)
  /-- MFE_FAULT_RECOVERY (R446): All DSTAT bits have read 1 for 10 ms, so the cores resume. -/
  | mfeFaultRecovery
  /-- CONV (R451): The MFC command that triggers one scan. -/
  | conv (p : Path) (c : CoreId) (arg : BitVec 16)
  /-- MFC_ABORT (R451): The MFC ABORT command that ends the scan and clears PEND. -/
  | mfcAbort (p : Path) (c : CoreId) (arg : BitVec 16)
  /-- MFC_CLRCNT (R451): The MFC command that clears MCNT, CHKFC and ERRC. -/
  | mfcClrcnt (p : Path) (c : CoreId) (arg : BitVec 16)
  /-- MFE_CLRCNT (R449): The MFE command that clears MFE.DCNT. -/
  | mfeClrcnt (p : Path) (arg : BitVec 16)
  /-- EDGE_PROBE_EDGE (R457): An edge probe takes an edge of its pin with a tag, merging edges closer than 4 ns. -/
  | edgeProbeEdge (e : BitVec 6) (rising : Bool) (t : Nat)
  /-- AUTO_TIMEOUT (R468): In AUTO mode, ATMO ms in ARMED without a trigger make the unit trigger itself. -/
  | autoTimeout (u : CapId) (t : Nat)
  /-- REARM_DONE (R466): The header is written, HOLD has passed and the next record is reserved, so the unit re-enters ARMED. -/
  | rearmDone (u : CapId) (t : Nat)
  /-- ARM (R464): The CAPU command that reserves the first record and enters ARMED. -/
  | arm (p : Path) (u : CapId) (arg : BitVec 16)
  /-- CAPU_STOP (R470): The CAPU STOP command that truncates or discards the open record and stops the unit. -/
  | capuStop (p : Path) (u : CapId) (arg : BitVec 16)
  /-- FORCE (R470): The CAPU command that triggers an ARMED unit at once. -/
  | force (p : Path) (u : CapId) (arg : BitVec 16)
  /-- CAPU_RESET (R485): The CAPU RESET command that discards unread bytes and returns the unit to IDLE. -/
  | capuReset (p : Path) (u : CapId) (arg : BitVec 16)
  /-- CAPU_CLRCNT (R485): The CAPU command that clears TRGIGN. -/
  | capuClrcnt (p : Path) (u : CapId) (arg : BitVec 16)
  /-- CAP_CLRCNT (R483): The CAP command that clears CMISS. -/
  | capClrcnt (p : Path) (arg : BitVec 16)
  /-- RCNT_WRITE (R479): A host write of RCNT releases capture buffer bytes, or is a bus error. -/
  | rcntWrite (p : Path) (u : CapId) (value : Word)
  /-- HREL_WRITE (R480): A host write of HREL grants host-ring credit for streaming, or is a bus error. -/
  | hrelWrite (p : Path) (u : CapId) (value : Word)
  /-- THROTTLE (R483): Capture writes have been held at the R27 limit for 1 ms, so THROTTLE is raised. -/
  | throttle
  /-- JOURNALLED_WRITE (R496): A host write to a journalled page is admitted to the journal, queued, or held on a standby. -/
  | journalledWrite (p : Path) (addr : BitVec 24) (value : Word)
  /-- REPAIR_INSTALL (R507): The standby installs a received repair block and reruns the table's tasks from its histories. -/
  | repairInstall (n : AxisId) (blk : List (BitVec 64))
  /-- REPAIR_TIMEOUT (R507): A repair not installed within 256 cycles makes the standby SILENT by D8. -/
  | repairTimeout (n : AxisId)
  /-- HANDOVER (R525): The RED command that journals a handover of the commanding role for cycle k+2. -/
  | handover (p : Path) (arg : BitVec 16)
  /-- SILENCE (R525): The RED command that takes the head to SILENT by D8 or D12. -/
  | silence (p : Path) (arg : BitVec 16)
  /-- RESYNC (R525): The RED command that starts the JOIN phase of resynchronisation. -/
  | resync (p : Path) (arg : BitVec 16)
  /-- MANDATE (R525): The RED command that takes the ALONE role by D11. -/
  | mandate (p : Path) (arg : BitVec 16)
  /-- CLRREQ (R525): The RED command that drops the held request and clears DISAGREE. -/
  | clrreq (p : Path) (arg : BitVec 16)
  /-- RED_CLRCNT (R525): The RED command that clears JRETX, MCNT, MCNT2 and RFAIL. -/
  | redClrcnt (p : Path) (arg : BitVec 16)
  /-- MGMT_HINT_WRITE (R518): A write of RED.MGMT.HINT restarts HAGE, and a peer-alive hint delays D6 and D7. -/
  | mgmtHintWrite (p : Path) (value : Word)
  /-- JOIN_COMPLETE (R520): The joining head finds configuration and image equal to the peer's, and BULK begins, or
  resynchronisation fails with cause 1. -/
  | joinComplete (equal : Bool)
  /-- BULK_PASS_END (R520): A bulk pass ends with at most 1 MB marked, or after the third pass, so SNAPSHOT begins. -/
  | bulkPassEnd
  /-- SNAPSHOT_COMPLETE (R520): Every captured block has arrived, so REPLAY begins. -/
  | snapshotComplete
  /-- REPLAY_CATCH_UP (R520): The joining head reaches the present cycle, so CHECK begins. -/
  | replayCatchUp
  /-- CHECK_COMPLETE (R520): 128 cycles in CHECK without a mismatch end resynchronisation by D10. -/
  | checkComplete
  /-- RESYNC_TIMEOUT (R521): Resynchronisation exceeds 10 s and fails with cause 6. -/
  | resyncTimeout
  /-- REGISTER_WRITE (R564): A 32-bit write to a register with no row of its own, subject to the access, bus-error and LOCK
  rules. -/
  | registerWrite (q : BusWrite)
  /-- RC_READ (R566): A read of an RC register clears exactly the bits it returns as 1, unless PEEK is set. -/
  | rcRead (p : Path) (addr : BitVec 24)
  /-- PAIR_LOW_READ (R565): A 32-bit read of a 64-bit pair's low word latches its high word for that path. -/
  | pairLowRead (p : Path) (addr : BitVec 24)
  /-- PAIR_LOW_WRITE (R565): A 32-bit write of a pair's low word is held until the high word lands with it. -/
  | pairLowWrite (p : Path) (addr : BitVec 24) (value : Word)
  /-- HELD_LOW_WORD_TIMEOUT (R565): A held low word lands alone 10 us after it was written. -/
  | heldLowWordTimeout (p : Path)
  /-- ALIAS_SET (R567): A write to the SET view ORs the value into the RW fields. -/
  | aliasSet (p : Path) (addr : BitVec 24) (value : Word)
  /-- ALIAS_CLR (R567): A write to the CLR view clears the written bits of RW and RC fields. -/
  | aliasClr (p : Path) (addr : BitVec 24) (value : Word)
  /-- ALIAS_TOG (R567): A write to the TOG view inverts the written bits of the RW fields. -/
  | aliasTog (p : Path) (addr : BitVec 24) (value : Word)
  /-- PARITY_SCRUB (R575): The scrubber checks parity of every RW field each 1 ms and applies the parity reaction of the page. -/
  | parityScrub (bad : List RegRef)
  /-- BAR2_WRITE (R577): A host write to BAR2 lands in DRAM as the BAR2 map allows, marked under R497 for cam and path data. -/
  | bar2Write (off : BitVec 28) (bytes : List (Option Byte))
  /-- BAR4_WRITE (R580): A host write to BAR4 lands in the output area or the mailbox transmit ring, or is a bus error. -/
  | bar4Write (off : BitVec 24) (bytes : List (Option Byte))
  /-- DMA_DESCRIPTOR (R586): An enabled DMA engine processes the next descriptor between DHEAD and DTAIL and writes back STATUS.
  -/
  | dmaDescriptor (e : DmaId) (desc : List Byte) (data : List Byte) (hostErr : Bool)
  /-- DMA_TRANSFER (R588): An engine moves up to 4 KB round-robin for descriptors and streaming capture units, within host
  credit. -/
  | dmaTransfer (e : DmaId) (u : CapId)
  /-- DMC_RESUME (R610): The DMC RESUME command that clears HALT of an engine. -/
  | dmcResume (p : Path) (arg : BitVec 16)
  /-- DMC_CLRCNT (R610): The DMC command that clears every DONE counter. -/
  | dmcClrcnt (p : Path) (arg : BitVec 16)
  /-- MAILBOX_TIMEOUT (R582): A message not complete within RTMO cycles of its first fragment is discarded into RXBAD. -/
  | mailboxTimeout (key : MailKey)
  /-- RXR_WRITE (R585): A write of RXR releases receive-ring bytes, or is a bus error. -/
  | rxrWrite (p : Path) (value : Word)
  /-- TXW_WRITE (R585): A write of TXW offers transmit-ring records for sending, or is a bus error. -/
  | txwWrite (p : Path) (value : Word)
  /-- HIF_CLRCNT (R606): The HIF command that clears BECNT, HCNT and MBCNT. -/
  | hifClrcnt (p : Path) (arg : BitVec 16)
  /-- MBRESET (R606): The HIF command that resets the mailbox ring pointers. -/
  | mbreset (p : Path) (arg : BitVec 16)
  /-- SPI_READ (R589): An SPI READ frame performs a 32-bit register read and returns STATUS, data and CRC. -/
  | spiRead (mosi : List Byte)
  /-- SPI_WRITE (R589): An SPI WRITE frame performs a 32-bit register write and returns STATUS and CRC. -/
  | spiWrite (mosi : List Byte)
  /-- SPI_FRAME_ABORT (R591): SPI_CS_N rises before the last request byte, so the frame has no effect and counts in FRMERR. -/
  | spiFrameAbort (mosi : List Byte)
  /-- SAFOWN_WRITE (R592): Setting SAFOWN over SPI makes PCI Express writes to the SAF page bus errors until a drop to KEEPER. -/
  | safownWrite (p : Path) (value : Word)
  /-- LOGR_WRITE (R603): A write of LOGR marks event log entries as read, or is a bus error. -/
  | logrWrite (p : Path) (value : Word)
  /-- EVT_CLRCNT (R604): The EVT command that clears LOST. -/
  | evtClrcnt (p : Path) (arg : BitVec 16)
  /-- LOGRESET (R604): The EVT command that sets LOGR to LOGW and LSEQ to 0. -/
  | logreset (p : Path) (arg : BitVec 16)
  /-- GLB_CLRCNT (R602): The GLB command that clears PCNT, DECC and SECC. -/
  | glbClrcnt (p : Path) (arg : BitVec 16)
  /-- SPM_CLRCNT (R608): The SPM command that clears SSTAT. -/
  | spmClrcnt (p : Path) (arg : BitVec 16)
  /-- IMAGE_READ_START (R530): The READ step begins once the DRAM test has cleared the engine images and configuration region,
  overlapping the rest of the test. -/
  | imageReadStart
  /-- SAFE_INPUT_OK (R410): A safe input returns to its OK level, which ends the demand, updates SIOK and starts the SDEB period
  that RELEASE needs. -/
  | safeInputOk (n : Fin 4) (a b : Bool)
  /-- STO_FB_MATCH (R411): STOn_FB comes to match STOn again, ending the STO_FB condition that blocks RELEASE. -/
  | stoFbMatch (n : Fin 4)
  /-- LINE_FAULT_END (R385): A differential pair stops reading equal levels, so the live line fault in FSTAT and LINEF end. -/
  | lineFaultEnd (c : FbuId) (lines : Fin 3)
  /-- PRESENT_N_CHANGE (R552): PRESENT_N falls and starts the 500 ms presence debounce, or rises and breaks it before the
  presence condition holds. -/
  | presentNChange (level : Bool)
  /-- PERST_RELEASE (R538): PERST_N rises, the PCI Express endpoint leaves reset and the link trains again. -/
  | perstRelease
  /-- COMPARE_FIRING_IN_TURN (R399): In regular mode, a further compare value already passed fires 2 x CPW x 10 ns after the
  previous firing. -/
  | compareFiringInTurn (c : FbuId) (u : Fin 2) (t : Nat)
  /-- REGISTER_READ (R569): A PCI Express BAR0 read that meets a bus error cause, such as a reserved offset, an alias view or a
  WO register, is recorded in BEADR and BECAUSE, raises BUSERR and completes with Completer Abort. -/
  | registerRead (q : BusRead)
deriving DecidableEq, Repr

end Sys2Proof
end

