-- ==== Sys2Proof/Decode.lean ====
section
/-! DEFINITION. The command a word of spec/opcode_table.json spells. The table gives none of its rows any bits (every row's
"fields" is empty): the block's commands are events and host accesses, not words. So no word spells a command. -/
namespace Sys2Proof

/-- The command that `nbits` bits `w`, numbered as the opcode table numbers them, spell: none, for every word. -/
def decodeTableWord (nbits w : Nat) : Option Instr :=
  match nbits, w with
  | _, _ => none

end Sys2Proof
end

