-- ==== Sys2Proof/Config.lean ====
section
/-! DEFINITION. What the spec leaves open: the free values.

`freeValue i` is the i-th value the spec does not give. Nothing in Lean can evaluate it, so a statement that mentions one holds
for every value (notes/assumptions/9.md). -/
namespace Sys2Proof.Config

/-- The i-th free value. -/
opaque freeValue : Nat → BitVec 64

/-- The Vendor ID of `HIF.PCIID` (R576). -/
opaque vendorId : BitVec 16

/-- The words of the kernel ROM of a pair, which the spec does not give (*Program address map*; notes/assumptions/106.md). -/
opaque kernelRom : BitVec 16 → BitVec 64

end Sys2Proof.Config
end

