-- ==== Sys2Proof/Machine/Arith.lean ====
section
/-! DEFINITION. Integer arithmetic the whole model shares: reading bits as signed or unsigned numbers, rounding, saturation
and limiting (R170, R317 to R319), bit fields, and the sine table (R323). Values of the fixed-point formats are `Int`: computed
exactly and narrowed once, as the rules say. -/
namespace Sys2Proof.Machine

/-- Bits `lsb .. lsb+w-1` of a natural number. -/
def bitsOf (x lsb w : Nat) : Nat := (x / 2 ^ lsb) % 2 ^ w

/-- Bit `i` of a natural number. -/
def bitOf (x i : Nat) : Bool := (x / 2 ^ i) % 2 == 1

/-- 1 for true, 0 for false. -/
def b2n (b : Bool) : Nat := if b then 1 else 0

/-- `x` with bits `lsb .. lsb+w-1` replaced by `v`. -/
def putBits (x lsb w v : Nat) : Nat :=
  x - bitsOf x lsb w * 2 ^ lsb + (v % 2 ^ w) * 2 ^ lsb

/-- The low `w` bits of `x` read as a two's complement number. -/
def sxt (w x : Nat) : Int :=
  let y := x % 2 ^ w
  if y < 2 ^ (w - 1) then (y : Int) else (y : Int) - (2 ^ w : Nat)

/-- The two's complement pattern of `x` in `w` bits. -/
def toBits (w : Nat) (x : Int) : Nat := (x % ((2 ^ w : Nat) : Int)).toNat

/-- Least and greatest value of a signed `w`-bit format. -/
def smin (w : Nat) : Int := -((2 ^ (w - 1) : Nat) : Int)
def smax (w : Nat) : Int := ((2 ^ (w - 1) : Nat) : Int) - 1

/-- Limit `x` to `lo .. hi`. -/
def clampI (lo hi x : Int) : Int := if x < lo then lo else if hi < x then hi else x

/-- Saturate to a signed `w`-bit format. -/
def satS (w : Nat) (x : Int) : Int := clampI (smin w) (smax w) x

/-- Saturate to an unsigned `w`-bit format. -/
def satU (w : Nat) (x : Int) : Nat := (clampI 0 (((2 ^ w : Nat) : Int) - 1) x).toNat

/-- `x / 2^k` rounded down. -/
def floorShr (x : Int) (k : Nat) : Int := x / ((2 ^ k : Nat) : Int)

/-- `x / 2^k` rounded to the nearest integer, halves toward +∞ (R170). -/
def rnd (x : Int) (k : Nat) : Int :=
  if k = 0 then x else floorShr (x + ((2 ^ (k - 1) : Nat) : Int)) k

/-- `x / 2^k` rounded as RMODE says (`SR.RMODE`: false nearest, true toward −∞). -/
def rndMode (rmode : Bool) (x : Int) (k : Nat) : Int := if rmode then floorShr x k else rnd x k

/-- `x * 2^s` rounded once to an integer by RMODE. -/
def scaleRnd (rmode : Bool) (x s : Int) : Int :=
  if 0 ≤ s then x * ((2 ^ s.toNat : Nat) : Int) else rndMode rmode x (-s).toNat

/-- `a / b` rounded toward zero (R170); 0 where `b = 0`. -/
def divTrunc (a b : Int) : Int := a.tdiv b

/-- Add `d` to a counter of `w` bits that saturates. -/
def addSat (w x d : Nat) : Nat := min (x + d) (2 ^ w - 1)

/-- How many bits below the sign bit of a signed `w`-bit number repeat it. -/
def redundantSign (w : Nat) (x : Int) : Nat :=
  let m : Nat := if x < 0 then (-x - 1).toNat else x.toNat
  (List.range (w - 1)).foldl (fun acc i => if m < 2 ^ (w - 2 - i) && acc == i then acc + 1 else acc) 0

/-- The least power of two at or above `n` (R313), for `n ≤ 2^32`. -/
def powCeil (n : Nat) : Nat :=
  (List.range 33).foldr (fun i acc => if n ≤ 2 ^ i then 2 ^ i else acc) (2 ^ 32)

/-- `n` ones. -/
def ones (n : Nat) : Nat := 2 ^ n - 1

/-- Exclusive or of naturals. -/
def xorN (a b : Nat) : Nat := Nat.xor a b

/-- `π · 2^128`, rounded to the nearest integer. -/
def piFix : Nat := 0x3243F6A8885A308D313198A2E03707345

/-- One term of the sine series: from `term = x^(2j-1)/(2j-1)!` (scaled by 2^128) the next one. -/
def sinTerm (x2 : Nat) (term j : Nat) : Nat := term * x2 / 2 ^ 128 / ((2 * j) * (2 * j + 1))

/-- The sine series from term `j` on, alternating, `fuel` terms; all scaled by 2^128. -/
def sinSeries (x2 : Nat) : Nat → Nat → Nat → Int
  | 0, _, _ => 0
  | fuel + 1, term, j => (term : Int) - sinSeries x2 fuel (sinTerm x2 term j) (j + 1)

/-- `sin(2π i / 4096) · 2^128` for `0 ≤ i ≤ 1024`. -/
def sinFix (i : Nat) : Int :=
  let x := 2 * piFix * i / 4096
  sinSeries (x * x / 2 ^ 128) 24 x 1

/-- Entry `i` of the sine table (R323): `T[i] = rnd(sin(2π i/4096) · 2^31)` for `i ≤ 1023`, `T[1024] = 0x7FFF_FFFF`. -/
def sineTable (i : Nat) : Int := if 1024 ≤ i then 0x7FFFFFFF else rnd (sinFix i) 97

/-- The interpolated quarter wave of R323, for `0 ≤ y ≤ 2^30`. -/
def quarterSine (y : Nat) : Int :=
  let i : Nat := y / 2 ^ 20
  let f : Nat := y % 2 ^ 20
  if f = 0 then sineTable i
  else rnd (sineTable i * 2 ^ 20 + (sineTable (i + 1) - sineTable i) * (f : Int)) 20

/-- Sine and cosine (Q1.31) of a U0.32 angle (R323). -/
def sinCos (a : Nat) : Int × Int :=
  let x := a % 2 ^ 30
  let xc := 2 ^ 30 - x
  match bitsOf a 30 2 with
  | 0 => (quarterSine x, quarterSine xc)
  | 1 => (quarterSine xc, -quarterSine x)
  | 2 => (-quarterSine x, -quarterSine xc)
  | _ => (-quarterSine xc, quarterSine x)

end Sys2Proof.Machine
end

