-- ==== Sys2Proof/Machine/Regs.lean ====
section
/-! DEFINITION. The register map, taken from the register tables of spec/ (one table per page, spec/02 to spec/15;
the common header is R563's): for every implemented register its offset, its reset value, and which of its bits the host
may write (RW), which clear on read (RC), which are write-only (WO) or write-one pulses (W1P), which bits belong to a field; and
one name per field.

A register that stands several times at a fixed distance is one row with a stride and a count. A bit in none of the four masks
is RO or reserved. Reset values the tables leave open ("—") stand as 0 here and are supplied by the one function that reads a
register (`Dev.reg` in Ops.lean, notes/assumptions/3.md). -/
namespace Sys2Proof.Machine

/-- One register, or a row of equally laid out registers: `off + i * stride` for `i < count`. -/
structure RegRow where
  off : Nat
  stride : Nat
  count : Nat
  reset : Nat
  rw : Nat
  rc : Nat
  wo : Nat
  w1p : Nat
  /-- 0 no 64-bit pair, 1 low word of a pair, 2 high word of a pair (R564, R565). -/
  pair : Nat
  /-- The bits of every field that is not RSVD: the others read as 0 (R6). -/
  bits : Nat
deriving DecidableEq, Repr

/-- A field of a register: the register's offset in its page, the field's lowest bit, its width. -/
structure Fld where
  off : Nat
  lsb : Nat
  width : Nat
deriving DecidableEq, Repr

/-- The same field of instance `i` of registers `stride` bytes apart. -/
def Fld.nth (f : Fld) (stride i : Nat) : Fld := ⟨f.off + stride * i, f.lsb, f.width⟩

/-- The page classes of *Page index* (R562). -/
inductive Cls where
  | glb | stg | tim | evt | hif | spm | cal | otp | saf | red | tsu | dmc | ring | sys | cep | mfe | mfc | cap | capu | fbu
  | sgu | sgc | prf | sea | pgrp | axp
deriving DecidableEq, Repr

/-- The block type of a page class (*Page index*). -/
def Cls.btype : Cls → Nat
  | .glb => 0x0
  | .stg => 0x1
  | .tim => 0x2
  | .evt => 0x3
  | .hif => 0x4
  | .spm => 0x5
  | .cal => 0x6
  | .otp => 0x7
  | .saf => 0x8
  | .red => 0x9
  | .tsu => 0xa
  | .dmc => 0xb
  | .ring => 0x10
  | .sys => 0x14
  | .cep => 0x20
  | .mfe => 0x40
  | .mfc => 0x41
  | .cap => 0x48
  | .capu => 0x50
  | .fbu => 0x60
  | .sgu => 0x68
  | .sgc => 0x70
  | .prf => 0x80
  | .sea => 0x81
  | .pgrp => 0xc0
  | .axp => 0x100

/-- The first page of a class (*Page index*). -/
def Cls.base : Cls → Nat
  | .glb => 0x000
  | .stg => 0x001
  | .tim => 0x002
  | .evt => 0x003
  | .hif => 0x004
  | .spm => 0x005
  | .cal => 0x006
  | .otp => 0x007
  | .saf => 0x008
  | .red => 0x009
  | .tsu => 0x00a
  | .dmc => 0x00b
  | .ring => 0x010
  | .sys => 0x014
  | .cep => 0x020
  | .mfe => 0x040
  | .mfc => 0x041
  | .cap => 0x048
  | .capu => 0x050
  | .fbu => 0x060
  | .sgu => 0x068
  | .sgc => 0x070
  | .prf => 0x080
  | .sea => 0x081
  | .pgrp => 0x0c0
  | .axp => 0x100

/-- How many pages a class has (*Page index*). -/
def Cls.count : Cls → Nat
  | .glb => 1
  | .stg => 1
  | .tim => 1
  | .evt => 1
  | .hif => 1
  | .spm => 1
  | .cal => 1
  | .otp => 1
  | .saf => 1
  | .red => 1
  | .tsu => 1
  | .dmc => 1
  | .ring => 4
  | .sys => 1
  | .cep => 18
  | .mfe => 1
  | .mfc => 4
  | .cap => 1
  | .capu => 16
  | .fbu => 8
  | .sgu => 1
  | .sgc => 16
  | .prf => 1
  | .sea => 1
  | .pgrp => 8
  | .axp => 256

/-- Every class, in page order. -/
def Cls.all : List Cls :=
  [.glb, .stg, .tim, .evt, .hif, .spm, .cal, .otp, .saf, .red, .tsu, .dmc, .ring, .sys, .cep, .mfe, .mfc, .cap, .capu, .fbu,
   .sgu, .sgc, .prf, .sea, .pgrp, .axp]

/-- The class of a page number, `none` for a page number that *Page index* does not list. -/
def clsOf (page : Nat) : Option Cls :=
  Cls.all.find? fun c => decide (c.base ≤ page) && decide (page < c.base + c.count)

/-- The common page header (R563). -/
def regsHeader : List RegRow := [
  ⟨0x000, 0x0, 1, 0x0, 0x0, 0x0, 0x0, 0x0, 0, 0xffffffff⟩,
  ⟨0x004, 0x0, 1, 0x0, 0x0, 0x0, 0x0, 0x0, 0, 0xffff0007⟩,
  ⟨0x008, 0x0, 1, 0x5, 0x7, 0x0, 0x0, 0x0, 0, 0x7⟩,
  ⟨0x00c, 0x0, 1, 0x0, 0x0, 0xffffffff, 0x0, 0x0, 0, 0xffffffff⟩,
  ⟨0x010, 0x0, 1, 0x0, 0xffffffff, 0x0, 0x0, 0x0, 0, 0xffffffff⟩,
  ⟨0x014, 0x0, 1, 0x0, 0x0, 0x0, 0x0, 0x0, 0, 0xffffffff⟩,
  ⟨0x018, 0x0, 1, 0x0, 0x0, 0x0, 0xffffffff, 0x0, 0, 0xffff00ff⟩,
  ⟨0x01c, 0x0, 1, 0x0, 0x0, 0x0, 0x0, 0x0, 0, 0xffff3fff⟩,
  ⟨0x020, 0x0, 1, 0x0, 0x0, 0xffffffff, 0x0, 0x0, 0, 0x10fff⟩]

/-- Registers of the GLB page class (spec/15_host_interface_registers.md, R7, R601). -/
def regsGlb : List RegRow := [
  ⟨0x040, 0x0, 1, 0x4128b100, 0x0, 0x0, 0x0, 0x0, 0, 0xffffffff⟩,
  ⟨0x044, 0x0, 1, 0x0, 0x1, 0x0, 0x0, 0x0, 0, 0x1⟩,
  ⟨0x048, 0x0, 1, 0x0, 0x0, 0x0, 0x0, 0x0, 0, 0xffffffff⟩,
  ⟨0x04c, 0x0, 1, 0x0, 0x0, 0x0, 0x0, 0x0, 0, 0xffffff⟩,
  ⟨0x050, 0x0, 1, 0x0, 0x0, 0x0, 0x0, 0x0, 0, 0xffffffff⟩,
  ⟨0x054, 0x0, 1, 0x0, 0x0, 0x0, 0x0, 0x0, 0, 0xfffffff⟩,
  ⟨0x058, 0x0, 1, 0x0, 0x0, 0x0, 0x0, 0x0, 0, 0xffffffff⟩,
  ⟨0x05c, 0x0, 1, 0x0, 0x0, 0x0, 0x0, 0x0, 0, 0xffffff⟩,
  ⟨0x060, 0x0, 1, 0x0, 0x0, 0x0, 0x0, 0x0, 0, 0xfff⟩]

/-- Registers of the STG page class (spec/14_stages_reset_hotplug_calibration.md, R555). -/
def regsStg : List RegRow := [
  ⟨0x040, 0x0, 1, 0x0, 0x0, 0x0, 0x0, 0x0, 0, 0xff1fff⟩,
  ⟨0x044, 0x0, 1, 0x4, 0x7, 0x0, 0x0, 0x0, 0, 0x7⟩,
  ⟨0x048, 0x0, 1, 0x66, 0x7f, 0x0, 0x0, 0x0, 0, 0x7f⟩,
  ⟨0x04c, 0x0, 1, 0x0, 0x0, 0x0, 0xffffffff, 0x0, 0, 0xff⟩,
  ⟨0x050, 0x0, 1, 0x0, 0x0, 0x0, 0x0, 0x0, 0, 0xfffffff⟩,
  ⟨0x054, 0x0, 1, 0x0, 0x0, 0x0, 0x0, 0x0, 0, 0xff⟩,
  ⟨0x058, 0x0, 1, 0x0, 0x0, 0x0, 0x0, 0x0, 0, 0xffffffff⟩,
  ⟨0x05c, 0x0, 1, 0x0, 0x0, 0x0, 0x0, 0x0, 0, 0xffffffff⟩,
  ⟨0x060, 0x0, 1, 0x0, 0x0, 0x0, 0x0, 0x0, 0, 0xffffffff⟩,
  ⟨0x064, 0x0, 1, 0x0, 0x0, 0x0, 0x0, 0x0, 0, 0x3ff⟩]

/-- Registers of the TIM page class (spec/02_control_cycle.md, R62). -/
def regsTim : List RegRow := [
  ⟨0x040, 0x0, 1, 0x5, 0x100, 0x0, 0x0, 0x0, 0, 0x11f⟩,
  ⟨0x044, 0x0, 1, 0x0, 0x0, 0x0, 0x0, 0x0, 0, 0xffffff07⟩,
  ⟨0x048, 0x0, 1, 0x0, 0x0, 0x0, 0x0, 0x0, 1, 0xffffffff⟩,
  ⟨0x04c, 0x0, 1, 0x0, 0x0, 0x0, 0x0, 0x0, 2, 0xffffffff⟩,
  ⟨0x050, 0x0, 1, 0x7a120, 0x0, 0x0, 0x0, 0x0, 1, 0xffffffff⟩,
  ⟨0x054, 0x0, 1, 0x0, 0x0, 0x0, 0x0, 0x0, 2, 0xffffffff⟩,
  ⟨0x058, 0x0, 1, 0x0, 0x0, 0x0, 0x0, 0x0, 1, 0xffffffff⟩,
  ⟨0x05c, 0x0, 1, 0x0, 0x0, 0x0, 0x0, 0x0, 2, 0xffffffff⟩,
  ⟨0x060, 0x0, 1, 0x0, 0x0, 0x0, 0x0, 0x0, 0, 0xffff⟩,
  ⟨0x064, 0x0, 1, 0x0, 0x0, 0x0, 0x0, 0x0, 0, 0x800fffff⟩,
  ⟨0x068, 0x0, 1, 0x0, 0x0, 0x0, 0x0, 0x0, 0, 0xffffffff⟩,
  ⟨0x06c, 0x0, 1, 0x0, 0x0, 0x0, 0x0, 0x0, 0, 0xffff⟩,
  ⟨0x070, 0x0, 1, 0x0, 0x0, 0x0, 0x0, 0x0, 0, 0x3fff⟩,
  ⟨0x074, 0x0, 1, 0x4, 0x0, 0x0, 0x0, 0x0, 0, 0xffff001f⟩,
  ⟨0x078, 0x0, 1, 0x4, 0x0, 0x0, 0x0, 0x0, 0, 0xffff003f⟩,
  ⟨0x07c, 0x0, 1, 0x0, 0x0, 0x0, 0x0, 0xffffffff, 0, 0x3⟩]

/-- Registers of the EVT page class (spec/15_host_interface_registers.md, R603). -/
def regsEvt : List RegRow := [
  ⟨0x040, 0x0, 1, 0x1, 0x1, 0x0, 0x0, 0x0, 0, 0x1⟩,
  ⟨0x044, 0x0, 1, 0x0, 0x0, 0x0, 0x0, 0x0, 0, 0x3ff⟩,
  ⟨0x048, 0x0, 1, 0x0, 0x3ff, 0x0, 0x0, 0x0, 0, 0x3ff⟩,
  ⟨0x04c, 0x0, 1, 0x0, 0x0, 0x0, 0x0, 0x0, 0, 0xffff0fff⟩,
  ⟨0x050, 0x0, 1, 0x0, 0x0, 0x0, 0x0, 0x0, 0, 0x3⟩,
  ⟨0x080, 0x4, 8, 0x0, 0x0, 0xffffffff, 0x0, 0x0, 0, 0xffffffff⟩,
  ⟨0x100, 0x4, 256, 0x100, 0x1ff, 0x0, 0x0, 0x0, 0, 0x1ff⟩,
  ⟨0x500, 0x4, 32, 0x0, 0xffff, 0x0, 0x0, 0x0, 0, 0xffff⟩]

/-- Registers of the HIF page class (spec/15_host_interface_registers.md, R605). -/
def regsHif : List RegRow := [
  ⟨0x040, 0x0, 1, 0x0, 0x0, 0x0, 0x0, 0x0, 0, 0xff⟩,
  ⟨0x044, 0x0, 1, 0x41280000, 0x0, 0x0, 0x0, 0x0, 0, 0xffffffff⟩,
  ⟨0x048, 0x0, 1, 0x0, 0x0, 0x0, 0x0, 0x0, 0, 0xffffffff⟩,
  ⟨0x04c, 0x0, 1, 0x0, 0x0, 0x0, 0x0, 0x0, 0, 0xffff000f⟩,
  ⟨0x050, 0x0, 1, 0x0, 0x0, 0x0, 0x0, 0x0, 0, 0xffff007f⟩,
  ⟨0x054, 0x0, 1, 0x400000, 0xffff0003, 0x0, 0x0, 0x0, 0, 0xffff0003⟩,
  ⟨0x058, 0x0, 1, 0x0, 0x0, 0x0, 0x0, 0x0, 0, 0xffffffff⟩,
  ⟨0x05c, 0x0, 1, 0x0, 0xffffffff, 0x0, 0x0, 0x0, 0, 0xffffffff⟩,
  ⟨0x060, 0x0, 1, 0x0, 0xffffffff, 0x0, 0x0, 0x0, 0, 0xffffffff⟩,
  ⟨0x064, 0x0, 1, 0x0, 0x0, 0x0, 0x0, 0x0, 0, 0xffffffff⟩,
  ⟨0x068, 0x0, 1, 0x0, 0x0, 0x0, 0x0, 0x0, 0, 0xffffffff⟩,
  ⟨0x070, 0x4, 8, 0x0, 0xffffffff, 0x0, 0x0, 0x0, 0, 0xffffffff⟩,
  ⟨0x800, 0x4, 128, 0x0, 0xffffffff, 0x0, 0x0, 0x0, 0, 0xffffffff⟩,
  ⟨0xa00, 0x0, 1, 0x0, 0x0, 0x0, 0x0, 0x0, 0, 0xffffffff⟩]

/-- Registers of the SPM page class (spec/15_host_interface_registers.md, R607). -/
def regsSpm : List RegRow := [
  ⟨0x040, 0x0, 1, 0x0, 0x0, 0x0, 0x0, 0x0, 0, 0xffffffff⟩,
  ⟨0x044, 0x0, 1, 0x0, 0x1, 0x0, 0x0, 0x0, 0, 0x1⟩,
  ⟨0x048, 0x0, 1, 0x0, 0x0, 0x0, 0x0, 0x0, 0, 0xffffffff⟩]

/-- Registers of the CAL page class (spec/14_stages_reset_hotplug_calibration.md, R558). -/
def regsCal : List RegRow := [
  ⟨0x040, 0x0, 1, 0x0, 0x0, 0x0, 0x0, 0x0, 0, 0xf1f⟩,
  ⟨0x044, 0x0, 1, 0x0, 0x0, 0x0, 0x0, 0x0, 0, 0xffffffff⟩,
  ⟨0x048, 0x0, 1, 0x400, 0xffffff, 0x0, 0x0, 0x0, 0, 0xffffff⟩,
  ⟨0x080, 0x20, 4, 0x40000000, 0xffffffff, 0x0, 0x0, 0x0, 0, 0xffffffff⟩,
  ⟨0x084, 0x20, 4, 0x0, 0xffffffff, 0x0, 0x0, 0x0, 0, 0xffffffff⟩,
  ⟨0x088, 0x20, 4, 0x40000000, 0xffffffff, 0x0, 0x0, 0x0, 0, 0xffffffff⟩,
  ⟨0x08c, 0x20, 4, 0x0, 0xffffffff, 0x0, 0x0, 0x0, 0, 0xffffffff⟩,
  ⟨0x090, 0x20, 4, 0x40000000, 0xffffffff, 0x0, 0x0, 0x0, 0, 0xffffffff⟩,
  ⟨0x094, 0x20, 4, 0x0, 0xffffffff, 0x0, 0x0, 0x0, 0, 0xffffffff⟩,
  ⟨0x098, 0x20, 4, 0x40000000, 0xffffffff, 0x0, 0x0, 0x0, 0, 0xffffffff⟩,
  ⟨0x09c, 0x20, 4, 0x0, 0xffffff, 0x0, 0x0, 0x0, 0, 0xffffff⟩,
  ⟨0x100, 0x0, 1, 0x0, 0xffffffff, 0x0, 0x0, 0x0, 0, 0xffffffff⟩]

/-- Registers of the OTP page class (spec/14_stages_reset_hotplug_calibration.md, R560). -/
def regsOtp : List RegRow := [
  ⟨0x040, 0x0, 1, 0x0, 0x0, 0x0, 0x0, 0x0, 0, 0x3f07⟩,
  ⟨0x044, 0x0, 1, 0x0, 0x0, 0x0, 0x0, 0x0, 1, 0xffffffff⟩,
  ⟨0x048, 0x0, 1, 0x0, 0x0, 0x0, 0x0, 0x0, 2, 0xffffffff⟩,
  ⟨0x050, 0x4, 8, 0x0, 0x0, 0x0, 0x0, 0x0, 0, 0xffffffff⟩,
  ⟨0x070, 0x4, 8, 0x0, 0xffffffff, 0x0, 0x0, 0x0, 0, 0xffffffff⟩,
  ⟨0x100, 0x4, 33, 0x0, 0x0, 0x0, 0x0, 0x0, 0, 0xffffffff⟩,
  ⟨0x184, 0x0, 1, 0x0, 0x0, 0x0, 0x0, 0x0, 0, 0xffffffff⟩]

/-- Registers of the SAF page class (spec/10_local_feedback_io.md, R421). -/
def regsSaf : List RegRow := [
  ⟨0x040, 0x4, 4, 0x640a01, 0x3ffff03, 0x0, 0x0, 0x0, 0, 0x3ffff03⟩,
  ⟨0x050, 0x0, 1, 0x64, 0x3ff, 0x0, 0x0, 0x0, 0, 0x3ff⟩,
  ⟨0x054, 0x4, 4, 0x10000, 0x1ffff, 0x0, 0x0, 0x0, 0, 0x1ffff⟩,
  ⟨0x064, 0x0, 1, 0x10001, 0x0, 0x0, 0x0, 0x0, 0, 0xff3fff⟩,
  ⟨0x068, 0x0, 1, 0x4000, 0x0, 0x0, 0x0, 0x0, 0, 0xffff⟩,
  ⟨0x070, 0x0, 1, 0x0, 0x0, 0x0, 0x0, 0x0, 1, 0xffffffff⟩,
  ⟨0x074, 0x0, 1, 0x0, 0x0, 0x0, 0x0, 0x0, 2, 0xffffffff⟩,
  ⟨0x078, 0x0, 1, 0x0, 0x0, 0x0, 0x0, 0x0, 0, 0xffff⟩]

/-- Registers of the RED page class (spec/13_head_pair_redundancy.md, R524). -/
def regsRed : List RegRow := [
  ⟨0x040, 0x0, 1, 0x0, 0x0, 0x0, 0x0, 0x0, 0, 0xff01⟩,
  ⟨0x044, 0x0, 1, 0x38, 0x0, 0x0, 0x0, 0x0, 0, 0xffff3fff⟩,
  ⟨0x048, 0x0, 1, 0x0, 0x0, 0x0, 0x0, 0x0, 0, 0xffffffff⟩,
  ⟨0x04c, 0x0, 1, 0xff00, 0x3, 0x0, 0x0, 0x0, 0, 0xff03⟩,
  ⟨0x050, 0x0, 1, 0x0, 0x0, 0x0, 0x0, 0x0, 0, 0xffff01ff⟩,
  ⟨0x054, 0x0, 1, 0x0, 0x0, 0x0, 0x0, 0x0, 0, 0xffff07ff⟩,
  ⟨0x058, 0x0, 1, 0x0, 0x0, 0x0, 0x0, 0x0, 0, 0xffffffff⟩,
  ⟨0x05c, 0x0, 1, 0x0, 0x0, 0x0, 0x0, 0x0, 0, 0xffffffff⟩,
  ⟨0x060, 0x0, 1, 0x0, 0x0, 0x0, 0x0, 0x0, 0, 0xffffffff⟩,
  ⟨0x064, 0x0, 1, 0x0, 0x0, 0x0, 0x0, 0x0, 0, 0x3fff0f⟩,
  ⟨0x068, 0x0, 1, 0x0, 0x0, 0x0, 0x0, 0x0, 0, 0xffffffff⟩,
  ⟨0x06c, 0x0, 1, 0x0, 0x0, 0x0, 0x0, 0x0, 0, 0xffffff⟩,
  ⟨0x070, 0x0, 1, 0x0, 0x0, 0x0, 0x0, 0x0, 0, 0xffffffff⟩]

/-- Registers of the TSU page class (spec/09_task_scheduler.md, R379). -/
def regsTsu : List RegRow := [
  ⟨0x040, 0x0, 1, 0x0, 0x0, 0x0, 0x0, 0x0, 0, 0xfff⟩,
  ⟨0x044, 0x0, 1, 0x3ff, 0x0, 0x0, 0x0, 0x0, 0, 0xff03ff⟩,
  ⟨0x048, 0x0, 1, 0x0, 0x0, 0x0, 0x0, 0x0, 0, 0xffffffff⟩,
  ⟨0x04c, 0x0, 1, 0x0, 0x0, 0x0, 0x0, 0x0, 0, 0xffffffff⟩,
  ⟨0x050, 0x0, 1, 0x7fffffff, 0x0, 0x0, 0x0, 0x0, 0, 0xffffffff⟩,
  ⟨0x054, 0x0, 1, 0x0, 0x3ff, 0x0, 0x0, 0x0, 0, 0x3ff⟩,
  ⟨0x058, 0x0, 1, 0x5e, 0xff7ff, 0x0, 0x0, 0x0, 0, 0xff7ff⟩,
  ⟨0x05c, 0x0, 1, 0x30000, 0xffffffff, 0x0, 0x0, 0x0, 0, 0xffffffff⟩,
  ⟨0x060, 0x0, 1, 0x0, 0x3fffffff, 0x0, 0x0, 0x0, 0, 0x3fffffff⟩,
  ⟨0x064, 0x0, 1, 0x0, 0xffffffff, 0x0, 0x0, 0x0, 0, 0xffffffff⟩,
  ⟨0x068, 0x0, 1, 0xf8, 0x0, 0x0, 0x0, 0x0, 0, 0xffffffff⟩,
  ⟨0x06c, 0x0, 1, 0x0, 0x0, 0x0, 0x0, 0x0, 0, 0xffffffff⟩,
  ⟨0x070, 0x0, 1, 0x0, 0x3f, 0x0, 0x0, 0x0, 0, 0x3f⟩,
  ⟨0x074, 0x0, 1, 0x0, 0xfff, 0x0, 0x0, 0x0, 0, 0xfff⟩,
  ⟨0x078, 0x0, 1, 0x0, 0x0, 0x0, 0x0, 0x0, 0, 0x3ffff⟩,
  ⟨0x07c, 0x0, 1, 0x0, 0x0, 0x0, 0x0, 0x0, 0, 0xffffffff⟩,
  ⟨0x080, 0x0, 1, 0x0, 0x0, 0x0, 0x0, 0x0, 0, 0xffffffff⟩,
  ⟨0x084, 0x0, 1, 0x0, 0x0, 0x0, 0x0, 0x0, 0, 0xffffffff⟩,
  ⟨0x088, 0x0, 1, 0x0, 0x0, 0x0, 0x0, 0x0, 0, 0xffffffff⟩,
  ⟨0x0c0, 0x4, 16, 0x0, 0x0, 0x0, 0x0, 0x0, 0, 0xfff0fff⟩,
  ⟨0x100, 0x4, 18, 0x0, 0x0, 0x0, 0x0, 0x0, 0, 0x1ffffff⟩,
  ⟨0x148, 0x0, 1, 0x0, 0x0, 0x0, 0x0, 0x0, 0, 0xfff0fff⟩]

/-- Registers of the DMC page class (spec/15_host_interface_registers.md, R609). -/
def regsDmc : List RegRow := [
  ⟨0x040, 0x20, 4, 0x8, 0x1f, 0x0, 0x0, 0x0, 0, 0x1f⟩,
  ⟨0x044, 0x20, 4, 0x0, 0x0, 0x0, 0x0, 0x0, 0, 0xffff003f⟩,
  ⟨0x048, 0x20, 4, 0x0, 0xffffffff, 0x0, 0x0, 0x0, 1, 0xffffffff⟩,
  ⟨0x04c, 0x20, 4, 0x0, 0xffffffff, 0x0, 0x0, 0x0, 2, 0xffffffff⟩,
  ⟨0x050, 0x20, 4, 0x0, 0xfff, 0x0, 0x0, 0x0, 0, 0xfff⟩,
  ⟨0x054, 0x20, 4, 0x0, 0x0, 0x0, 0x0, 0x0, 0, 0xfff⟩,
  ⟨0x058, 0x20, 4, 0x0, 0x0, 0x0, 0x0, 0x0, 0, 0xffff⟩]

/-- Registers of the RING page class (spec/03_ring_link_and_frames.md, R118). -/
def regsRing : List RegRow := [
  ⟨0x040, 0x0, 1, 0x0, 0x0, 0x0, 0x0, 0x0, 0, 0x7f7f⟩,
  ⟨0x044, 0x0, 1, 0x0, 0x0, 0x0, 0x0, 0x0, 0, 0x7f07ff⟩,
  ⟨0x048, 0x0, 1, 0x0, 0x0, 0x0, 0x0, 0x0, 0, 0xffffffff⟩,
  ⟨0x04c, 0x0, 1, 0x0, 0x0, 0x0, 0x0, 0x0, 0, 0xfffff⟩,
  ⟨0x050, 0x0, 1, 0x0, 0x0, 0x0, 0x0, 0x0, 0, 0xfffff⟩,
  ⟨0x054, 0x0, 1, 0x0, 0x0, 0x0, 0x0, 0x0, 0, 0x1ff⟩,
  ⟨0x058, 0x0, 1, 0x0, 0x0, 0x0, 0x0, 0x0, 0, 0xffffffff⟩,
  ⟨0x05c, 0x0, 1, 0x0, 0x0, 0x0, 0x0, 0x0, 0, 0xffffffff⟩,
  ⟨0x060, 0x0, 1, 0x0, 0x0, 0x0, 0x0, 0x0, 0, 0xffffffff⟩,
  ⟨0x064, 0x0, 1, 0x0, 0x0, 0x0, 0x0, 0x0, 0, 0xffffffff⟩,
  ⟨0x068, 0x0, 1, 0x0, 0x0, 0x0, 0x0, 0x0, 0, 0xff⟩,
  ⟨0x06c, 0x0, 1, 0x0, 0x0, 0x0, 0x0, 0x0, 0, 0x1ff⟩,
  ⟨0x070, 0x0, 1, 0x0, 0x0, 0x0, 0x0, 0x0, 0, 0xffffffff⟩,
  ⟨0x074, 0x0, 1, 0x0, 0x0, 0x0, 0x0, 0x0, 0, 0xffffffff⟩,
  ⟨0x100, 0x4, 64, 0xfffff, 0x0, 0x0, 0x0, 0x0, 0, 0xffffffff⟩,
  ⟨0x400, 0x8, 256, 0x0, 0x0, 0x0, 0x0, 0x0, 1, 0xdfff7fff⟩,
  ⟨0x404, 0x8, 256, 0x0, 0x0, 0x0, 0x0, 0x0, 2, 0x1fffffff⟩]

/-- Registers of the SYS page class (spec/03_ring_link_and_frames.md, R121). -/
def regsSys : List RegRow := [
  ⟨0x040, 0x0, 1, 0x0, 0x0, 0x0, 0x0, 0x0, 0, 0x1ff⟩,
  ⟨0x044, 0x0, 1, 0x0, 0x0, 0x0, 0x0, 0x0, 0, 0xf⟩,
  ⟨0x048, 0x0, 1, 0x0, 0x0, 0x0, 0x0, 0x0, 0, 0xfffff⟩,
  ⟨0x04c, 0x0, 1, 0x0, 0x0, 0x0, 0x0, 0x0, 0, 0xfffff⟩,
  ⟨0x050, 0x0, 1, 0x0, 0x0, 0x0, 0x0, 0x0, 0, 0xffffffff⟩,
  ⟨0x400, 0x4, 256, 0xf, 0x0, 0x0, 0x0, 0x0, 0, 0xf⟩]

/-- Registers of the CEP page class (spec/08_engine_programming.md, R347). -/
def regsCep : List RegRow := [
  ⟨0x040, 0x0, 1, 0x0, 0x0, 0x0, 0x0, 0x0, 0, 0x1f3f⟩,
  ⟨0x044, 0x0, 1, 0x0, 0x0, 0x0, 0x0, 0x0, 0, 0xff7fff⟩,
  ⟨0x048, 0x0, 1, 0x0, 0x0, 0x0, 0x0, 0x0, 0, 0xffff⟩,
  ⟨0x04c, 0x0, 1, 0x0, 0x0, 0x0, 0x0, 0x0, 0, 0xfffffff7⟩,
  ⟨0x050, 0x0, 1, 0x0, 0x0, 0x0, 0x0, 0x0, 0, 0xffffffff⟩,
  ⟨0x054, 0x0, 1, 0x0, 0x0, 0x0, 0x0, 0x0, 0, 0xffffff0f⟩,
  ⟨0x058, 0x0, 1, 0x0, 0x0, 0x0, 0x0, 0x0, 0, 0xff03ff⟩,
  ⟨0x05c, 0x0, 1, 0x0, 0x0, 0x0, 0x0, 0x0, 0, 0x3ffff⟩,
  ⟨0x060, 0x0, 1, 0x0, 0x0, 0x0, 0x0, 0x0, 0, 0x3ffff⟩,
  ⟨0x064, 0x0, 1, 0x0, 0x0, 0x0, 0x0, 0x0, 0, 0xffff⟩,
  ⟨0x068, 0x0, 1, 0x0, 0x0, 0x0, 0x0, 0x0, 0, 0xffffffff⟩,
  ⟨0x06c, 0x0, 1, 0x0, 0x1, 0x0, 0x0, 0x0, 0, 0x1⟩,
  ⟨0x070, 0x0, 1, 0x0, 0xffff, 0x0, 0x0, 0x0, 0, 0xffff⟩,
  ⟨0x078, 0x0, 1, 0x0, 0xffffffff, 0x0, 0x0, 0x0, 1, 0xffffffff⟩,
  ⟨0x07c, 0x0, 1, 0x0, 0xffffffff, 0x0, 0x0, 0x0, 2, 0xffffffff⟩]

/-- Registers of the MFE page class (spec/11_measurement_front_end.md, R448). -/
def regsMfe : List RegRow := [
  ⟨0x040, 0x0, 1, 0x1, 0x3, 0x0, 0x0, 0x0, 0, 0x3⟩,
  ⟨0x044, 0x0, 1, 0x0, 0x0, 0x0, 0x0, 0x0, 0, 0xffff0001⟩,
  ⟨0x048, 0x0, 1, 0x1312d00, 0x0, 0x0, 0x0, 0x0, 0, 0xffffffff⟩,
  ⟨0x04c, 0x0, 1, 0x0, 0x0, 0x0, 0x0, 0x0, 0, 0x1f⟩,
  ⟨0x050, 0x0, 1, 0x0, 0x0, 0x0, 0x0, 0x0, 0, 0xffffffff⟩]

/-- Registers of the MFC page class (spec/11_measurement_front_end.md, R450). -/
def regsMfc : List RegRow := [
  ⟨0x040, 0x0, 1, 0x12c0000, 0x3fff0f1f, 0x0, 0x0, 0x0, 0, 0x3fff0f1f⟩,
  ⟨0x044, 0x0, 1, 0x0, 0x1fffffff, 0x0, 0x0, 0x0, 0, 0x1fffffff⟩,
  ⟨0x048, 0x0, 1, 0x0, 0xfff, 0x0, 0x0, 0x0, 0, 0xfff⟩,
  ⟨0x04c, 0x0, 1, 0x3e8, 0xffffff, 0x0, 0x0, 0x0, 0, 0xffffff⟩,
  ⟨0x050, 0x0, 1, 0x0, 0xffffff, 0x0, 0x0, 0x0, 0, 0xffffff⟩,
  ⟨0x054, 0x0, 1, 0x76543210, 0xffffffff, 0x0, 0x0, 0x0, 0, 0xffffffff⟩,
  ⟨0x058, 0x0, 1, 0x76543210, 0xffffffff, 0x0, 0x0, 0x0, 0, 0xffffffff⟩,
  ⟨0x05c, 0x0, 1, 0x1000000, 0xffffffff, 0x0, 0x0, 0x0, 0, 0xffffffff⟩,
  ⟨0x060, 0x0, 1, 0x0, 0x0, 0x0, 0x0, 0x0, 0, 0x1ffffff⟩,
  ⟨0x064, 0x0, 1, 0x0, 0x0, 0x0, 0x0, 0x0, 0, 0xff⟩,
  ⟨0x068, 0x0, 1, 0x0, 0x0, 0x0, 0x0, 0x0, 0, 0xffffffff⟩,
  ⟨0x06c, 0x0, 1, 0x0, 0x0, 0x0, 0x0, 0x0, 0, 0xffffffff⟩,
  ⟨0x070, 0x0, 1, 0x0, 0x0, 0x0, 0x0, 0x0, 0, 0x8001ffff⟩,
  ⟨0x080, 0x20, 8, 0x140000, 0xffff0777, 0x0, 0x0, 0x0, 0, 0xffff0777⟩,
  ⟨0x084, 0x20, 8, 0x64, 0x1ffff, 0x0, 0x0, 0x0, 0, 0x1ffff⟩,
  ⟨0x088, 0x20, 8, 0x0, 0x0, 0x0, 0x0, 0x0, 0, 0xffffffff⟩,
  ⟨0x08c, 0x20, 8, 0x0, 0x0, 0x0, 0x0, 0x0, 0, 0xffffffff⟩,
  ⟨0x090, 0x20, 8, 0x0, 0x0, 0x0, 0x0, 0x0, 1, 0xffffffff⟩,
  ⟨0x094, 0x20, 8, 0x0, 0x0, 0x0, 0x0, 0x0, 2, 0xffffffff⟩]

/-- Registers of the CAP page class (spec/12_capture_engine.md, R482). -/
def regsCap : List RegRow := [
  ⟨0x040, 0x0, 1, 0x0, 0x0, 0x0, 0x0, 0x0, 0, 0x3f⟩,
  ⟨0x044, 0x0, 1, 0x0, 0x0, 0x0, 0x0, 0x0, 0, 0xffff⟩,
  ⟨0x048, 0x0, 1, 0x0, 0x0, 0x0, 0x0, 0x0, 0, 0xffff⟩,
  ⟨0x04c, 0x0, 1, 0x0, 0xfff, 0x0, 0x0, 0x0, 0, 0xfff⟩,
  ⟨0x050, 0x0, 1, 0x0, 0x1ffff7, 0x0, 0x0, 0x0, 0, 0x1ffff7⟩,
  ⟨0x100, 0x4, 64, 0x0, 0xff, 0x0, 0x0, 0x0, 0, 0xff⟩]

/-- Registers of the CAPU page class (spec/12_capture_engine.md, R484). -/
def regsCapu : List RegRow := [
  ⟨0x040, 0x0, 1, 0x100, 0x3ffff, 0x0, 0x0, 0x0, 0, 0x3ffff⟩,
  ⟨0x044, 0x0, 1, 0x0, 0x3ffff, 0x0, 0x0, 0x0, 0, 0x3ffff⟩,
  ⟨0x048, 0x0, 1, 0x0, 0xffffffff, 0x0, 0x0, 0x0, 0, 0xffffffff⟩,
  ⟨0x04c, 0x0, 1, 0x0, 0xffffffff, 0x0, 0x0, 0x0, 0, 0xffffffff⟩,
  ⟨0x050, 0x0, 1, 0x0, 0xffffffff, 0x0, 0x0, 0x0, 1, 0xffffffff⟩,
  ⟨0x054, 0x0, 1, 0x0, 0xffffffff, 0x0, 0x0, 0x0, 2, 0xffffffff⟩,
  ⟨0x058, 0x0, 1, 0x0, 0xffffffff, 0x0, 0x0, 0x0, 1, 0xffffffff⟩,
  ⟨0x05c, 0x0, 1, 0x0, 0xffffffff, 0x0, 0x0, 0x0, 2, 0xffffffff⟩,
  ⟨0x060, 0x0, 1, 0x0, 0xffffff, 0x0, 0x0, 0x0, 0, 0xffffff⟩,
  ⟨0x064, 0x0, 1, 0x1, 0xffffff, 0x0, 0x0, 0x0, 0, 0xffffff⟩,
  ⟨0x068, 0x0, 1, 0x3e8, 0xffffffff, 0x0, 0x0, 0x0, 0, 0xffffffff⟩,
  ⟨0x06c, 0x0, 1, 0x100000, 0xfff07ff, 0x0, 0x0, 0x0, 0, 0xfff07ff⟩,
  ⟨0x070, 0x0, 1, 0x0, 0xffffffff, 0x0, 0x0, 0x0, 0, 0xffffffff⟩,
  ⟨0x074, 0x0, 1, 0x0, 0xffffffff, 0x0, 0x0, 0x0, 0, 0xffffffff⟩,
  ⟨0x078, 0x0, 1, 0x0, 0xffffffff, 0x0, 0x0, 0x0, 0, 0xffffffff⟩,
  ⟨0x080, 0x0, 1, 0x0, 0xffffffff, 0x0, 0x0, 0x0, 1, 0xffffffff⟩,
  ⟨0x084, 0x0, 1, 0x0, 0xffffffff, 0x0, 0x0, 0x0, 2, 0xffffffff⟩,
  ⟨0x088, 0x0, 1, 0xc, 0x1f, 0x0, 0x0, 0x0, 0, 0x1f⟩,
  ⟨0x08c, 0x0, 1, 0x0, 0xffffffff, 0x0, 0x0, 0x0, 0, 0xffffffff⟩,
  ⟨0x090, 0x0, 1, 0x0, 0x0, 0x0, 0x0, 0x0, 0, 0xffffffff⟩,
  ⟨0x098, 0x0, 1, 0x0, 0x0, 0x0, 0x0, 0x0, 0, 0xffffffff⟩,
  ⟨0x09c, 0x0, 1, 0x0, 0x0, 0x0, 0x0, 0x0, 0, 0xffffffff⟩,
  ⟨0x0a0, 0x0, 1, 0x0, 0xffffffff, 0x0, 0x0, 0x0, 0, 0xffffffff⟩,
  ⟨0x0a4, 0x0, 1, 0x0, 0x0, 0x0, 0x0, 0x0, 0, 0xf7f⟩,
  ⟨0x0a8, 0x0, 1, 0x0, 0x0, 0x0, 0x0, 0x0, 0, 0xffffffff⟩,
  ⟨0x0ac, 0x0, 1, 0x0, 0x0, 0x0, 0x0, 0x0, 0, 0xffffff⟩,
  ⟨0x0b0, 0x0, 1, 0x0, 0x0, 0x0, 0x0, 0x0, 0, 0xffffffff⟩,
  ⟨0x0b4, 0x0, 1, 0x0, 0x0, 0x0, 0x0, 0x0, 1, 0xffffffff⟩,
  ⟨0x0b8, 0x0, 1, 0x0, 0x0, 0x0, 0x0, 0x0, 2, 0xffffffff⟩,
  ⟨0x100, 0x4, 64, 0x0, 0x3ffff, 0x0, 0x0, 0x0, 0, 0x3ffff⟩]

/-- Registers of the FBU page class (spec/10_local_feedback_io.md, R416). -/
def regsFbu : List RegRow := [
  ⟨0x040, 0x0, 1, 0xa0200, 0xff07ff, 0x0, 0x0, 0x0, 0, 0xff07ff⟩,
  ⟨0x044, 0x0, 1, 0x11400659, 0xffffffff, 0x0, 0x0, 0x0, 0, 0xffffffff⟩,
  ⟨0x048, 0x0, 1, 0x0, 0x0, 0x0, 0x0, 0x0, 0, 0xffffffff⟩,
  ⟨0x04c, 0x0, 1, 0x0, 0x0, 0x0, 0x0, 0x0, 0, 0xffffffff⟩,
  ⟨0x050, 0x0, 1, 0x0, 0x0, 0x0, 0x0, 0x0, 0, 0xff00ff⟩,
  ⟨0x054, 0x0, 1, 0x0, 0x0, 0x0, 0x0, 0x0, 0, 0xffffffff⟩,
  ⟨0x058, 0x0, 1, 0x80000000, 0xffffffff, 0x0, 0x0, 0x0, 0, 0xffffffff⟩,
  ⟨0x05c, 0x0, 1, 0x7fffffff, 0xffffffff, 0x0, 0x0, 0x0, 0, 0xffffffff⟩,
  ⟨0x060, 0x0, 1, 0x0, 0xffffffff, 0x0, 0x0, 0x0, 0, 0xffffffff⟩,
  ⟨0x064, 0x0, 1, 0x0, 0xffffffff, 0x0, 0x0, 0x0, 0, 0xffffffff⟩,
  ⟨0x068, 0x0, 1, 0x0, 0x3ffff, 0x0, 0x0, 0x0, 0, 0x3ffff⟩,
  ⟨0x06c, 0x0, 1, 0x0, 0x0, 0x0, 0x0, 0x0, 0, 0xffffffff⟩,
  ⟨0x070, 0x0, 1, 0x0, 0x0, 0x0, 0x0, 0x0, 0, 0xffffffff⟩,
  ⟨0x074, 0x0, 1, 0x0, 0x0, 0x0, 0x0, 0x0, 0, 0xffffffff⟩,
  ⟨0x078, 0x0, 1, 0x0, 0x0, 0x0, 0x0, 0x0, 1, 0xffffffff⟩,
  ⟨0x07c, 0x0, 1, 0x0, 0x0, 0x0, 0x0, 0x0, 2, 0xffffffff⟩,
  ⟨0x080, 0x0, 1, 0xa0000, 0x3ff007f, 0x0, 0x0, 0x0, 0, 0x3ff007f⟩,
  ⟨0x084, 0x0, 1, 0x0, 0x0, 0x0, 0x0, 0x0, 0, 0xffffffff⟩,
  ⟨0x088, 0x0, 1, 0x0, 0x0, 0x0, 0x0, 0x0, 1, 0xffffffff⟩,
  ⟨0x08c, 0x0, 1, 0x0, 0x0, 0x0, 0x0, 0x0, 2, 0xffffffff⟩,
  ⟨0x090, 0x0, 1, 0x0, 0x0, 0x1, 0x0, 0x0, 0, 0xffffff03⟩,
  ⟨0x094, 0x0, 1, 0x0, 0x0, 0x0, 0x0, 0x0, 0, 0x803fffff⟩,
  ⟨0x0a0, 0x20, 2, 0x1000, 0xffff7ff, 0x0, 0x0, 0x0, 0, 0xffff7ff⟩,
  ⟨0x0a4, 0x20, 2, 0x0, 0xffffffff, 0x0, 0x0, 0x0, 0, 0xffffffff⟩,
  ⟨0x0a8, 0x20, 2, 0x0, 0xffffffff, 0x0, 0x0, 0x0, 0, 0xffffffff⟩,
  ⟨0x0ac, 0x20, 2, 0x0, 0xffff, 0x0, 0x0, 0x0, 0, 0xffff⟩,
  ⟨0x0b0, 0x20, 2, 0x0, 0x0, 0x0, 0x0, 0x0, 0, 0xffff0007⟩,
  ⟨0x0b4, 0x20, 2, 0x0, 0x0, 0x0, 0x0, 0x0, 1, 0xffffffff⟩,
  ⟨0x0b8, 0x20, 2, 0x0, 0x0, 0x0, 0x0, 0x0, 2, 0xffffffff⟩]

/-- Registers of the SGU page class (spec/10_local_feedback_io.md, R418). -/
def regsSgu : List RegRow := [
  ⟨0x040, 0x10, 4, 0x0, 0x3f, 0x0, 0x0, 0x0, 0, 0x3f⟩,
  ⟨0x044, 0x10, 4, 0x0, 0x0, 0x0, 0x0, 0x0, 0, 0xffffffff⟩,
  ⟨0x048, 0x10, 4, 0x0, 0x0, 0x0, 0x0, 0x0, 0, 0xffffffff⟩,
  ⟨0x04c, 0x10, 4, 0x0, 0x0, 0x0, 0x0, 0x0, 0, 0xffffffff⟩,
  ⟨0x080, 0x0, 1, 0x0, 0xffffffff, 0x0, 0x0, 0x0, 0, 0xffffffff⟩,
  ⟨0x084, 0x0, 1, 0x0, 0xffffffff, 0x0, 0x0, 0x0, 0, 0xffffffff⟩,
  ⟨0x088, 0x0, 1, 0x0, 0x0, 0x0, 0x0, 0x0, 0, 0xffffffff⟩,
  ⟨0x08c, 0x0, 1, 0x0, 0x0, 0x0, 0x0, 0x0, 0, 0x8001ffff⟩,
  ⟨0x090, 0x0, 1, 0x0, 0xf, 0x0, 0x0, 0x0, 0, 0xf⟩,
  ⟨0x0a0, 0x0, 1, 0x0, 0xff7f, 0x0, 0x0, 0x0, 0, 0xff7f⟩,
  ⟨0x0a4, 0x0, 1, 0x0, 0xffff, 0x0, 0x0, 0x0, 0, 0xffff⟩,
  ⟨0x0a8, 0x0, 1, 0x0, 0xffffffff, 0x0, 0x0, 0x0, 1, 0xffffffff⟩,
  ⟨0x0ac, 0x0, 1, 0x0, 0xffffffff, 0x0, 0x0, 0x0, 2, 0xffffffff⟩,
  ⟨0x0b0, 0x0, 1, 0x0, 0xffffffff, 0x0, 0x0, 0x0, 1, 0xffffffff⟩,
  ⟨0x0b4, 0x0, 1, 0x0, 0xffffffff, 0x0, 0x0, 0x0, 2, 0xffffffff⟩,
  ⟨0x0b8, 0x0, 1, 0x0, 0x0, 0x0, 0x0, 0x0, 0, 0xffffff0f⟩]

/-- Registers of the SGC page class (spec/10_local_feedback_io.md, R420). -/
def regsSgc : List RegRow := [
  ⟨0x040, 0x0, 1, 0x0, 0x3f0, 0x0, 0x0, 0x0, 0, 0xff03f1⟩,
  ⟨0x044, 0x0, 1, 0x140014, 0xffffffff, 0x0, 0x0, 0x0, 0, 0xffffffff⟩,
  ⟨0x048, 0x0, 1, 0x0, 0x0, 0x0, 0x0, 0x0, 0, 0xffffffff⟩,
  ⟨0x04c, 0x0, 1, 0x0, 0x0, 0x0, 0x0, 0x0, 0, 0xffff0007⟩,
  ⟨0x050, 0x0, 1, 0x0, 0xffff, 0x0, 0x0, 0x0, 0, 0xffff⟩]

/-- Registers of the PRF page class (spec/07_profiles_homing_stepping.md, R299). -/
def regsPrf : List RegRow := [
  ⟨0x040, 0x0, 1, 0x0, 0xff, 0x0, 0x0, 0x0, 0, 0xff⟩,
  ⟨0x050, 0x4, 4, 0x0, 0x1ffff, 0x0, 0x0, 0x0, 0, 0x1ffff⟩,
  ⟨0x080, 0x0, 1, 0x0, 0xffff0003, 0x0, 0x0, 0x0, 0, 0xffff0003⟩,
  ⟨0x084, 0x0, 1, 0x0, 0xffffffff, 0x0, 0x0, 0x0, 0, 0xffffffff⟩,
  ⟨0x088, 0x0, 1, 0x0, 0xffffffff, 0x0, 0x0, 0x0, 1, 0xffffffff⟩,
  ⟨0x08c, 0x0, 1, 0x0, 0xffffffff, 0x0, 0x0, 0x0, 2, 0xffffffff⟩,
  ⟨0x090, 0x0, 1, 0x0, 0xffffffff, 0x0, 0x0, 0x0, 0, 0xffffffff⟩,
  ⟨0x094, 0x0, 1, 0x0, 0xffffffff, 0x0, 0x0, 0x0, 0, 0xffffffff⟩,
  ⟨0x098, 0x0, 1, 0x0, 0xffffffff, 0x0, 0x0, 0x0, 0, 0xffffffff⟩,
  ⟨0x09c, 0x0, 1, 0x0, 0xffffffff, 0x0, 0x0, 0x0, 0, 0xffffffff⟩,
  ⟨0x0a0, 0x0, 1, 0x0, 0xffffffff, 0x0, 0x0, 0x0, 0, 0xffffffff⟩,
  ⟨0x0a4, 0x0, 1, 0x0, 0x0, 0x0, 0x0, 0x0, 0, 0xffffff⟩,
  ⟨0x0a8, 0x0, 1, 0x0, 0x0, 0x0, 0x0, 0x0, 0, 0xffffffff⟩,
  ⟨0x0ac, 0x0, 1, 0x100, 0xff01, 0x0, 0x0, 0x0, 0, 0xff01⟩,
  ⟨0x0b0, 0x0, 1, 0x0, 0xc03fffff, 0x0, 0x0, 0x0, 0, 0xc03fffff⟩,
  ⟨0x0b4, 0x0, 1, 0x0, 0xc03fffff, 0x0, 0x0, 0x0, 0, 0xc03fffff⟩,
  ⟨0x0b8, 0x0, 1, 0x0, 0xc03fffff, 0x0, 0x0, 0x0, 0, 0xc03fffff⟩,
  ⟨0x0bc, 0x0, 1, 0x0, 0xff01ff, 0x0, 0x0, 0x0, 0, 0xff01ff⟩,
  ⟨0x0c0, 0x0, 1, 0x0, 0xffffffff, 0x0, 0x0, 0x0, 0, 0xffffffff⟩,
  ⟨0x0c4, 0x0, 1, 0x0, 0xffffffff, 0x0, 0x0, 0x0, 0, 0xffffffff⟩,
  ⟨0x0c8, 0x0, 1, 0x0, 0xffffffff, 0x0, 0x0, 0x0, 0, 0xffffffff⟩,
  ⟨0x0cc, 0x0, 1, 0x0, 0xffffffff, 0x0, 0x0, 0x0, 0, 0xffffffff⟩,
  ⟨0x0d0, 0x0, 1, 0x0, 0xffffffff, 0x0, 0x0, 0x0, 1, 0xffffffff⟩,
  ⟨0x0d4, 0x0, 1, 0x0, 0xffffffff, 0x0, 0x0, 0x0, 2, 0xffffffff⟩,
  ⟨0x0d8, 0x0, 1, 0x0, 0xffffffff, 0x0, 0x0, 0x0, 0, 0xffffffff⟩,
  ⟨0x0dc, 0x0, 1, 0x0, 0xffffffff, 0x0, 0x0, 0x0, 0, 0xffffffff⟩,
  ⟨0x0e0, 0x0, 1, 0x0, 0xffffffff, 0x0, 0x0, 0x0, 0, 0xffffffff⟩,
  ⟨0x0e4, 0x0, 1, 0x0, 0xffff001f, 0x0, 0x0, 0x0, 0, 0xffff001f⟩,
  ⟨0x0e8, 0x0, 1, 0x0, 0xffffffff, 0x0, 0x0, 0x0, 0, 0xffffffff⟩]

/-- Registers of the SEA page class (spec/06_season_unit.md, R258). -/
def regsSea : List RegRow := [
  ⟨0x040, 0x0, 1, 0x0, 0xff, 0x0, 0x0, 0x0, 0, 0xff⟩,
  ⟨0x044, 0x0, 1, 0x0, 0x0, 0x0, 0x0, 0x0, 0, 0x1ff01ff⟩,
  ⟨0x048, 0x0, 1, 0x0, 0x0, 0x0, 0x0, 0x0, 0, 0xffffffff⟩,
  ⟨0x080, 0x0, 1, 0x808, 0xff01ffff, 0x0, 0x0, 0x0, 0, 0xff01ffff⟩,
  ⟨0x084, 0x0, 1, 0x0, 0xffffffff, 0x0, 0x0, 0x0, 0, 0xffffffff⟩,
  ⟨0x088, 0x0, 1, 0x0, 0xffffffff, 0x0, 0x0, 0x0, 1, 0xffffffff⟩,
  ⟨0x08c, 0x0, 1, 0x0, 0xffffffff, 0x0, 0x0, 0x0, 2, 0xffffffff⟩,
  ⟨0x090, 0x0, 1, 0x0, 0xffffff, 0x0, 0x0, 0x0, 0, 0xffffff⟩,
  ⟨0x094, 0x0, 1, 0x0, 0xffffff, 0x0, 0x0, 0x0, 0, 0xffffff⟩,
  ⟨0x098, 0x0, 1, 0x0, 0xffffffff, 0x0, 0x0, 0x0, 0, 0xffffffff⟩,
  ⟨0x09c, 0x0, 1, 0x0, 0xffffffff, 0x0, 0x0, 0x0, 0, 0xffffffff⟩,
  ⟨0x0a0, 0x0, 1, 0x0, 0xffffffff, 0x0, 0x0, 0x0, 0, 0xffffffff⟩,
  ⟨0x0a4, 0x0, 1, 0x0, 0xffffffff, 0x0, 0x0, 0x0, 0, 0xffffffff⟩,
  ⟨0x0a8, 0x0, 1, 0x0, 0x0, 0x0, 0x0, 0x0, 0, 0xffffff7f⟩,
  ⟨0x0ac, 0x0, 1, 0x0, 0x0, 0x0, 0x0, 0x0, 0, 0xffffffff⟩,
  ⟨0x0b0, 0x0, 1, 0x0, 0x0, 0x0, 0x0, 0x0, 0, 0xffffffff⟩,
  ⟨0x0b4, 0x0, 1, 0x0, 0x0, 0x0, 0x0, 0x0, 0, 0xffffffff⟩,
  ⟨0x0b8, 0x0, 1, 0x0, 0x0, 0x0, 0x0, 0x0, 0, 0xffffffff⟩,
  ⟨0x0bc, 0x0, 1, 0x0, 0x0, 0x0, 0x0, 0x0, 0, 0x0⟩,
  ⟨0x0c0, 0x0, 1, 0x0, 0x0, 0x0, 0x0, 0x0, 1, 0xffffffff⟩,
  ⟨0x0c4, 0x0, 1, 0x0, 0x0, 0x0, 0x0, 0x0, 2, 0xffffffff⟩,
  ⟨0x800, 0x4, 256, 0x0, 0x0, 0x0, 0x0, 0x0, 0, 0x3f⟩]

/-- Registers of the PGRP page class (spec/07_profiles_homing_stepping.md, R301). -/
def regsPgrp : List RegRow := [
  ⟨0x040, 0x0, 1, 0x0, 0xf, 0x0, 0x0, 0x0, 0, 0xf⟩,
  ⟨0x044, 0x0, 1, 0x0, 0xffffffff, 0x0, 0x0, 0x0, 0, 0xffffffff⟩,
  ⟨0x048, 0x0, 1, 0x0, 0xffffffff, 0x0, 0x0, 0x0, 0, 0xffffffff⟩,
  ⟨0x04c, 0x0, 1, 0x4000000, 0xfffffff, 0x0, 0x0, 0x0, 0, 0xfffffff⟩,
  ⟨0x050, 0x0, 1, 0x0, 0xffff, 0x0, 0x0, 0x0, 0, 0xffff⟩,
  ⟨0x054, 0x0, 1, 0x0, 0x0, 0x0, 0x0, 0x0, 0, 0xffffffff⟩,
  ⟨0x058, 0x0, 1, 0x0, 0xffffffff, 0x0, 0x0, 0x0, 0, 0xffffffff⟩,
  ⟨0x05c, 0x0, 1, 0x0, 0xffffffff, 0x0, 0x0, 0x0, 0, 0xffffffff⟩,
  ⟨0x060, 0x0, 1, 0x0, 0xffffffff, 0x0, 0x0, 0x0, 0, 0xffffffff⟩,
  ⟨0x064, 0x0, 1, 0x0, 0xffffffff, 0x0, 0x0, 0x0, 0, 0xffffffff⟩,
  ⟨0x068, 0x0, 1, 0x0, 0x0, 0x0, 0x0, 0x0, 0, 0xffffff3f⟩,
  ⟨0x06c, 0x0, 1, 0x0, 0x0, 0x0, 0x0, 0x0, 0, 0x0⟩,
  ⟨0x070, 0x0, 1, 0x0, 0x0, 0x0, 0x0, 0x0, 1, 0xffffffff⟩,
  ⟨0x074, 0x0, 1, 0x0, 0x0, 0x0, 0x0, 0x0, 2, 0xffffffff⟩,
  ⟨0x078, 0x0, 1, 0x0, 0x0, 0x0, 0x0, 0x0, 0, 0xffffffff⟩,
  ⟨0x07c, 0x0, 1, 0x0, 0x0, 0x0, 0x0, 0x0, 0, 0x0⟩]

/-- Registers of the AXP page class (spec/05_axis_control.md, R227). -/
def regsAxp : List RegRow := [
  ⟨0x040, 0x0, 1, 0x30, 0xe8007fff, 0x0, 0x0, 0x0, 0, 0xffff7fff⟩,
  ⟨0x044, 0x0, 1, 0x0, 0x0, 0x0, 0x0, 0x0, 0, 0xffffff⟩,
  ⟨0x048, 0x0, 1, 0x0, 0xffffffff, 0x0, 0x0, 0x0, 0, 0xffffffff⟩,
  ⟨0x04c, 0x0, 1, 0x1002, 0xff07, 0x0, 0x0, 0x0, 0, 0xff07⟩,
  ⟨0x050, 0x0, 1, 0x0, 0xffffffff, 0x0, 0x0, 0x0, 0, 0xffffffff⟩,
  ⟨0x054, 0x0, 1, 0x0, 0xffffffff, 0x0, 0x0, 0x0, 0, 0xffffffff⟩,
  ⟨0x058, 0x0, 1, 0x0, 0xffffffff, 0x0, 0x0, 0x0, 0, 0xffffffff⟩,
  ⟨0x05c, 0x0, 1, 0x0, 0xffffffff, 0x0, 0x0, 0x0, 0, 0xffffffff⟩,
  ⟨0x060, 0x0, 1, 0x0, 0xffffffff, 0x0, 0x0, 0x0, 0, 0xffffffff⟩,
  ⟨0x064, 0x0, 1, 0x0, 0xffffffff, 0x0, 0x0, 0x0, 0, 0xffffffff⟩,
  ⟨0x068, 0x0, 1, 0x0, 0xffffffff, 0x0, 0x0, 0x0, 0, 0xffffffff⟩,
  ⟨0x06c, 0x0, 1, 0x0, 0xffffffff, 0x0, 0x0, 0x0, 0, 0xffffffff⟩,
  ⟨0x070, 0x0, 1, 0x0, 0xffffffff, 0x0, 0x0, 0x0, 0, 0xffffffff⟩,
  ⟨0x074, 0x0, 1, 0x0, 0xffffffff, 0x0, 0x0, 0x0, 0, 0xffffffff⟩,
  ⟨0x078, 0x0, 1, 0x1, 0xffffffff, 0x0, 0x0, 0x0, 0, 0xffffffff⟩,
  ⟨0x07c, 0x0, 1, 0x600000, 0xffff3f, 0x0, 0x0, 0x0, 0, 0xffff3f⟩,
  ⟨0x080, 0x0, 1, 0x0, 0xffffffff, 0x0, 0x0, 0x0, 0, 0xffffffff⟩,
  ⟨0x084, 0x0, 1, 0x0, 0xffffffff, 0x0, 0x0, 0x0, 0, 0xffffffff⟩,
  ⟨0x088, 0x0, 1, 0x0, 0xffffffff, 0x0, 0x0, 0x0, 0, 0xffffffff⟩,
  ⟨0x08c, 0x0, 1, 0x0, 0xffffffff, 0x0, 0x0, 0x0, 0, 0xffffffff⟩,
  ⟨0x090, 0x0, 1, 0x0, 0xffffffff, 0x0, 0x0, 0x0, 0, 0xffffffff⟩,
  ⟨0x094, 0x0, 1, 0x0, 0xffffffff, 0x0, 0x0, 0x0, 0, 0xffffffff⟩,
  ⟨0x098, 0x0, 1, 0x0, 0xffffffff, 0x0, 0x0, 0x0, 0, 0xffffffff⟩,
  ⟨0x09c, 0x0, 1, 0x0, 0xffffffff, 0x0, 0x0, 0x0, 0, 0xffffffff⟩,
  ⟨0x0a0, 0x0, 1, 0x0, 0x3ffff, 0x0, 0x0, 0x0, 0, 0x3ffff⟩,
  ⟨0x0a4, 0x0, 1, 0x0, 0x0, 0x0, 0x0, 0x0, 0, 0xffffffff⟩,
  ⟨0x0a8, 0x0, 1, 0x0, 0x0, 0x0, 0x0, 0x0, 0, 0xffffffff⟩,
  ⟨0x0ac, 0x0, 1, 0x0, 0x0, 0x0, 0x0, 0x0, 0, 0xffffffff⟩,
  ⟨0x0b0, 0x0, 1, 0x0, 0xffffffff, 0x0, 0x0, 0x0, 0, 0xffffffff⟩,
  ⟨0x0b4, 0x0, 1, 0x0, 0xffffffff, 0x0, 0x0, 0x0, 0, 0xffffffff⟩,
  ⟨0x0b8, 0x0, 1, 0x0, 0xffffffff, 0x0, 0x0, 0x0, 0, 0xffffffff⟩,
  ⟨0x0bc, 0x0, 1, 0x0, 0xffffffff, 0x0, 0x0, 0x0, 0, 0xffffffff⟩,
  ⟨0x0c0, 0x0, 1, 0x0, 0xffffffff, 0x0, 0x0, 0x0, 0, 0xffffffff⟩,
  ⟨0x0c4, 0x0, 1, 0x0, 0xffffffff, 0x0, 0x0, 0x0, 0, 0xffffffff⟩,
  ⟨0x0c8, 0x0, 1, 0x0, 0xffffffff, 0x0, 0x0, 0x0, 0, 0xffffffff⟩,
  ⟨0x0cc, 0x0, 1, 0x0, 0xffffffff, 0x0, 0x0, 0x0, 0, 0xffffffff⟩,
  ⟨0x0d0, 0x0, 1, 0x0, 0xffffffff, 0x0, 0x0, 0x0, 0, 0xffffffff⟩,
  ⟨0x0d4, 0x0, 1, 0x0, 0xffff, 0x0, 0x0, 0x0, 0, 0xffff⟩,
  ⟨0x0d8, 0x0, 1, 0x0, 0xffffff0f, 0x0, 0x0, 0x0, 0, 0xffffff0f⟩,
  ⟨0x0dc, 0x0, 1, 0x0, 0x1ffff, 0x0, 0x0, 0x0, 0, 0x1ffff⟩,
  ⟨0x0e0, 0x0, 1, 0x1, 0xffffffff, 0x0, 0x0, 0x0, 0, 0xffffffff⟩,
  ⟨0x0e4, 0x0, 1, 0x1, 0xffffffff, 0x0, 0x0, 0x0, 0, 0xffffffff⟩,
  ⟨0x0e8, 0x0, 1, 0x0, 0xfff, 0x0, 0x0, 0x0, 0, 0xfff⟩,
  ⟨0x0f0, 0x0, 1, 0x0, 0xffffffff, 0x0, 0x0, 0x0, 1, 0xffffffff⟩,
  ⟨0x0f4, 0x0, 1, 0x80000000, 0xffffffff, 0x0, 0x0, 0x0, 2, 0xffffffff⟩,
  ⟨0x0f8, 0x0, 1, 0xffffffff, 0xffffffff, 0x0, 0x0, 0x0, 1, 0xffffffff⟩,
  ⟨0x0fc, 0x0, 1, 0x7fffffff, 0xffffffff, 0x0, 0x0, 0x0, 2, 0xffffffff⟩,
  ⟨0x100, 0x100, 2, 0x0, 0xffffffff, 0x0, 0x0, 0x0, 0, 0xffffffff⟩,
  ⟨0x104, 0x100, 2, 0x0, 0xffffffff, 0x0, 0x0, 0x0, 0, 0xffffffff⟩,
  ⟨0x108, 0x100, 2, 0x0, 0xffffffff, 0x0, 0x0, 0x0, 0, 0xffffffff⟩,
  ⟨0x10c, 0x100, 2, 0x0, 0xffffffff, 0x0, 0x0, 0x0, 0, 0xffffffff⟩,
  ⟨0x110, 0x100, 2, 0x0, 0xffffffff, 0x0, 0x0, 0x0, 0, 0xffffffff⟩,
  ⟨0x114, 0x100, 2, 0x0, 0xffffffff, 0x0, 0x0, 0x0, 0, 0xffffffff⟩,
  ⟨0x118, 0x100, 2, 0x0, 0xffffffff, 0x0, 0x0, 0x0, 0, 0xffffffff⟩,
  ⟨0x11c, 0x100, 2, 0x0, 0xffffffff, 0x0, 0x0, 0x0, 0, 0xffffffff⟩,
  ⟨0x120, 0x100, 2, 0x0, 0xffffffff, 0x0, 0x0, 0x0, 0, 0xffffffff⟩,
  ⟨0x124, 0x100, 2, 0x0, 0xffffffff, 0x0, 0x0, 0x0, 0, 0xffffffff⟩,
  ⟨0x128, 0x100, 2, 0x7fffffff, 0xffffffff, 0x0, 0x0, 0x0, 0, 0xffffffff⟩,
  ⟨0x12c, 0x100, 2, 0x0, 0xffffffff, 0x0, 0x0, 0x0, 0, 0xffffffff⟩,
  ⟨0x130, 0x100, 2, 0x7ae147ae, 0xffffffff, 0x0, 0x0, 0x0, 0, 0xffffffff⟩,
  ⟨0x134, 0x100, 2, 0x0, 0xf, 0x0, 0x0, 0x0, 0, 0xf⟩,
  ⟨0x140, 0x4, 20, 0x0, 0xffffffff, 0x0, 0x0, 0x0, 0, 0xffffffff⟩,
  ⟨0x240, 0x4, 20, 0x0, 0xffffffff, 0x0, 0x0, 0x0, 0, 0xffffffff⟩,
  ⟨0x300, 0x8, 8, 0x0, 0xb7ff, 0x0, 0x0, 0x0, 0, 0xb7ff⟩,
  ⟨0x304, 0x8, 8, 0x0, 0xffffffff, 0x0, 0x0, 0x0, 0, 0xffffffff⟩,
  ⟨0x340, 0x4, 5, 0x0, 0x8fffffff, 0x0, 0x0, 0x0, 0, 0x8fffffff⟩,
  ⟨0x400, 0x0, 1, 0x0, 0x0, 0x0, 0x0, 0x0, 1, 0xffffffff⟩,
  ⟨0x404, 0x0, 1, 0x0, 0x0, 0x0, 0x0, 0x0, 2, 0xffffffff⟩,
  ⟨0x408, 0x0, 1, 0x0, 0x0, 0x0, 0x0, 0x0, 1, 0xffffffff⟩,
  ⟨0x40c, 0x0, 1, 0x0, 0x0, 0x0, 0x0, 0x0, 2, 0xffffffff⟩,
  ⟨0x410, 0x0, 1, 0x0, 0x0, 0x0, 0x0, 0x0, 0, 0xffffffff⟩,
  ⟨0x414, 0x0, 1, 0x0, 0x0, 0x0, 0x0, 0x0, 0, 0xffffffff⟩,
  ⟨0x418, 0x0, 1, 0x0, 0x0, 0x0, 0x0, 0x0, 0, 0xffffffff⟩,
  ⟨0x41c, 0x0, 1, 0x0, 0x0, 0x0, 0x0, 0x0, 0, 0xffffffff⟩,
  ⟨0x420, 0x0, 1, 0x0, 0x0, 0x0, 0x0, 0x0, 0, 0xffffffff⟩,
  ⟨0x424, 0x0, 1, 0x0, 0x0, 0x0, 0x0, 0x0, 0, 0xffffffff⟩,
  ⟨0x428, 0x0, 1, 0x0, 0x0, 0x0, 0x0, 0x0, 0, 0xffffffff⟩,
  ⟨0x42c, 0x0, 1, 0x0, 0x0, 0x0, 0x0, 0x0, 0, 0xffffffff⟩,
  ⟨0x430, 0x0, 1, 0x0, 0x0, 0x0, 0x0, 0x0, 0, 0xffffffff⟩,
  ⟨0x434, 0x0, 1, 0x0, 0x0, 0x0, 0x0, 0x0, 0, 0xffffffff⟩,
  ⟨0x438, 0x0, 1, 0x0, 0x0, 0x0, 0x0, 0x0, 0, 0xffffff⟩,
  ⟨0x43c, 0x0, 1, 0x0, 0x0, 0x0, 0x0, 0x0, 0, 0xffffffff⟩,
  ⟨0x440, 0x0, 1, 0x0, 0x0, 0x0, 0x0, 0x0, 0, 0xffffffff⟩,
  ⟨0x444, 0x0, 1, 0x0, 0x0, 0x0, 0x0, 0x0, 0, 0xfff⟩]

/-- The block registers of a class. -/
def Cls.regs : Cls → List RegRow
  | .glb => regsGlb
  | .stg => regsStg
  | .tim => regsTim
  | .evt => regsEvt
  | .hif => regsHif
  | .spm => regsSpm
  | .cal => regsCal
  | .otp => regsOtp
  | .saf => regsSaf
  | .red => regsRed
  | .tsu => regsTsu
  | .dmc => regsDmc
  | .ring => regsRing
  | .sys => regsSys
  | .cep => regsCep
  | .mfe => regsMfe
  | .mfc => regsMfc
  | .cap => regsCap
  | .capu => regsCapu
  | .fbu => regsFbu
  | .sgu => regsSgu
  | .sgc => regsSgc
  | .prf => regsPrf
  | .sea => regsSea
  | .pgrp => regsPgrp
  | .axp => regsAxp

/-- Does offset `off` fall on a register of this row? -/
def RegRow.hits (r : RegRow) (off : Nat) : Bool :=
  if r.stride = 0 then off == r.off
  else decide (r.off ≤ off) && (off - r.off) % r.stride == 0 && decide ((off - r.off) / r.stride < r.count)

/-- The bits of PEVT, and of PEVE beside it, that a page's own chapter defines; every other bit is RSVD (R563). -/
def Cls.events : Cls → Nat
  | .glb => 0x7
  | .stg => 0x1f
  | .tim => 0x3f
  | .evt => 0x1
  | .hif => 0x1f
  | .spm => 0x3
  | .cal => 0x3
  | .otp => 0x3
  | .saf => 0xf
  | .red => 0x7f
  | .tsu => 0x3f
  | .dmc => 0xff
  | .ring => 0x7f
  | .sys => 0xf
  | .cep => 0x1f
  | .mfe => 0x7
  | .mfc => 0x3f
  | .cap => 0x3
  | .capu => 0x3f
  | .fbu => 0xff
  | .sgu => 0x7
  | .sgc => 0x1
  | .prf => 0x0
  | .sea => 0xf
  | .pgrp => 0xf
  | .axp => 0xffff

/-- A row of the common header as it stands on a page of class `c`: PEVT and PEVE hold the bits the class defines, and no chapter
defines a bit of PLIVE (R563). -/
def RegRow.onPage (c : Cls) (r : RegRow) : RegRow :=
  match r.off with
  | 0x00c => { r with rc := c.events, bits := c.events }
  | 0x010 => { r with rw := c.events, bits := c.events }
  | 0x014 => { r with bits := 0 }
  | _ => r

/-- The register at an offset of a page of class `c`: the common header, then the block registers; `none` at a reserved
offset. -/
def regRow (c : Cls) (off : Nat) : Option RegRow :=
  if off < 0x40 then (regsHeader.find? (fun r => r.hits off)).map (RegRow.onPage c) else c.regs.find? (fun r => r.hits off)

end Sys2Proof.Machine
end

