-- ==== Sys2Proof/Machine/Fields.lean ====
section
/-! DEFINITION. One name per register field, taken from the register tables of spec/ (`Fld` = offset, lowest bit,
width; for a register that stands several times, the field of the first one: `Fld.nth` gives the others). -/
namespace Sys2Proof.Machine

namespace HDR
def MINOR : Fld := ⟨0x000, 0, 4⟩
def MAJOR : Fld := ⟨0x000, 4, 4⟩
def INST : Fld := ⟨0x000, 8, 12⟩
def BTYPE : Fld := ⟨0x000, 20, 12⟩
def JRN : Fld := ⟨0x004, 0, 1⟩
def PARC : Fld := ⟨0x004, 1, 1⟩
def KEEPD : Fld := ⟨0x004, 2, 1⟩
def BCAP : Fld := ⟨0x004, 16, 16⟩
def EN : Fld := ⟨0x008, 0, 1⟩
def LOCK : Fld := ⟨0x008, 1, 1⟩
def EVO : Fld := ⟨0x008, 2, 1⟩
def PEVT : Fld := ⟨0x00c, 0, 32⟩
def PEVE : Fld := ⟨0x010, 0, 32⟩
def PLIVE : Fld := ⟨0x014, 0, 32⟩
def PCMD_CODE : Fld := ⟨0x018, 0, 8⟩
def PCMD_ARG : Fld := ⟨0x018, 16, 16⟩
def PCST_CODE : Fld := ⟨0x01c, 0, 8⟩
def RESULT : Fld := ⟨0x01c, 8, 4⟩
def BUSY : Fld := ⟨0x01c, 12, 1⟩
def LOST : Fld := ⟨0x01c, 13, 1⟩
def PCST_ARG : Fld := ⟨0x01c, 16, 16⟩
def OFS : Fld := ⟨0x020, 0, 12⟩
def V : Fld := ⟨0x020, 16, 1⟩
end HDR

namespace GLB
def CONF : Fld := ⟨0x040, 0, 8⟩
def STEPN : Fld := ⟨0x040, 8, 4⟩
def STEPL : Fld := ⟨0x040, 12, 4⟩
def PART : Fld := ⟨0x040, 16, 16⟩
def PEEK : Fld := ⟨0x044, 0, 1⟩
def PAGE : Fld := ⟨0x048, 0, 10⟩
def WOFS : Fld := ⟨0x048, 10, 10⟩
def WSEL : Fld := ⟨0x048, 20, 12⟩
def PASSES : Fld := ⟨0x04c, 0, 16⟩
def PCNT : Fld := ⟨0x04c, 16, 8⟩
def DECC_CORR : Fld := ⟨0x050, 0, 16⟩
def DECC_UNCOR : Fld := ⟨0x050, 16, 16⟩
def DUADR_ADR : Fld := ⟨0x054, 0, 28⟩
def SECC_CORR : Fld := ⟨0x058, 0, 16⟩
def SECC_UNCOR : Fld := ⟨0x058, 16, 16⟩
def SUADR_ADR : Fld := ⟨0x05c, 0, 24⟩
def TJ : Fld := ⟨0x060, 0, 12⟩
end GLB

namespace STG
def STAGE : Fld := ⟨0x040, 0, 2⟩
def LSTEP : Fld := ⟨0x040, 2, 4⟩
def DRAMOK : Fld := ⟨0x040, 6, 1⟩
def SRAMOK : Fld := ⟨0x040, 7, 1⟩
def BISTOK : Fld := ⟨0x040, 8, 1⟩
def CALOK : Fld := ⟨0x040, 9, 1⟩
def PRES : Fld := ⟨0x040, 10, 1⟩
def FULLOK : Fld := ⟨0x040, 11, 1⟩
def HDUP : Fld := ⟨0x040, 12, 1⟩
def LFAIL : Fld := ⟨0x040, 16, 4⟩
def DCAUSE : Fld := ⟨0x040, 20, 4⟩
def KHOLD : Fld := ⟨0x044, 0, 1⟩
def BSRC : Fld := ⟨0x044, 1, 1⟩
def WDAUTO : Fld := ⟨0x044, 2, 1⟩
def WDPER : Fld := ⟨0x048, 0, 4⟩
def WDEN : Fld := ⟨0x048, 4, 1⟩
def WDSRC : Fld := ⟨0x048, 5, 2⟩
def KEY : Fld := ⟨0x04c, 0, 8⟩
def WDLEFT : Fld := ⟨0x050, 0, 24⟩
def WDRUN : Fld := ⟨0x050, 24, 4⟩
def VERSION : Fld := ⟨0x054, 0, 6⟩
def SRCUSED : Fld := ⟨0x054, 6, 2⟩
def IMGCRC : Fld := ⟨0x058, 0, 32⟩
def LTIME : Fld := ⟨0x05c, 0, 16⟩
def FTIME : Fld := ⟨0x05c, 16, 16⟩
def WDCNT : Fld := ⟨0x060, 0, 8⟩
def FLTCNT : Fld := ⟨0x060, 8, 8⟩
def SRSTCNT : Fld := ⟨0x060, 16, 8⟩
def PERSTCNT : Fld := ⟨0x060, 24, 8⟩
def RLOCK : Fld := ⟨0x064, 0, 8⟩
def SLOCK : Fld := ⟨0x064, 8, 2⟩
end STG

namespace TIM
def RATE : Fld := ⟨0x040, 0, 2⟩
def NRATE : Fld := ⟨0x040, 2, 2⟩
def RPEND : Fld := ⟨0x040, 4, 1⟩
def AMAP : Fld := ⟨0x040, 8, 1⟩
def PHASE : Fld := ⟨0x044, 0, 3⟩
def TOFS : Fld := ⟨0x044, 8, 24⟩
def CYCLO : Fld := ⟨0x048, 0, 32⟩
def CYCHI : Fld := ⟨0x04c, 0, 32⟩
def NTLO : Fld := ⟨0x050, 0, 32⟩
def NTHI : Fld := ⟨0x054, 0, 32⟩
def STLO : Fld := ⟨0x058, 0, 32⟩
def STHI : Fld := ⟨0x05c, 0, 32⟩
def OFS : Fld := ⟨0x060, 0, 16⟩
def RCOR : Fld := ⟨0x064, 0, 20⟩
def SYNC : Fld := ⟨0x064, 31, 1⟩
def MISS : Fld := ⟨0x068, 0, 16⟩
def MOOR : Fld := ⟨0x068, 16, 16⟩
def ABORT : Fld := ⟨0x06c, 0, 16⟩
def OSIZE : Fld := ⟨0x070, 0, 14⟩
def PIXI_HOST : Fld := ⟨0x074, 0, 2⟩
def NEWEST : Fld := ⟨0x074, 2, 2⟩
def NEW : Fld := ⟨0x074, 4, 1⟩
def SEQ : Fld := ⟨0x074, 16, 16⟩
def PIXO_HOST : Fld := ⟨0x078, 0, 2⟩
def PEND : Fld := ⟨0x078, 2, 2⟩
def FRESH : Fld := ⟨0x078, 4, 1⟩
def DISAGREE : Fld := ⟨0x078, 5, 1⟩
def TAKEN : Fld := ⟨0x078, 16, 16⟩
def ACQ : Fld := ⟨0x07c, 0, 1⟩
def PUB : Fld := ⟨0x07c, 1, 1⟩
end TIM

namespace EVT
def LOGEN : Fld := ⟨0x040, 0, 1⟩
def LOGW : Fld := ⟨0x044, 0, 10⟩
def LOGR : Fld := ⟨0x048, 0, 10⟩
def NENT : Fld := ⟨0x04c, 0, 11⟩
def FULL : Fld := ⟨0x04c, 11, 1⟩
def LOST : Fld := ⟨0x04c, 16, 16⟩
def IRQ0 : Fld := ⟨0x050, 0, 1⟩
def IRQ1 : Fld := ⟨0x050, 1, 1⟩
def EPEND : Fld := ⟨0x080, 0, 32⟩
def VEC : Fld := ⟨0x100, 0, 5⟩
def MSIX : Fld := ⟨0x100, 5, 1⟩
def PIN0 : Fld := ⟨0x100, 6, 1⟩
def PIN1 : Fld := ⟨0x100, 7, 1⟩
def LOG : Fld := ⟨0x100, 8, 1⟩
def HOLD : Fld := ⟨0x500, 0, 16⟩
end EVT

namespace HIF
def SPEED : Fld := ⟨0x040, 0, 3⟩
def WIDTH : Fld := ⟨0x040, 3, 3⟩
def LUP : Fld := ⟨0x040, 6, 1⟩
def BME : Fld := ⟨0x040, 7, 1⟩
def VID : Fld := ⟨0x044, 0, 16⟩
def DID : Fld := ⟨0x044, 16, 16⟩
def OFS : Fld := ⟨0x048, 0, 28⟩
def SPACE : Fld := ⟨0x048, 28, 2⟩
def WR : Fld := ⟨0x048, 30, 1⟩
def PATH : Fld := ⟨0x048, 31, 1⟩
def CAUSE : Fld := ⟨0x04c, 0, 4⟩
def BECNT : Fld := ⟨0x04c, 16, 16⟩
def HELD : Fld := ⟨0x050, 0, 7⟩
def HCNT : Fld := ⟨0x050, 16, 16⟩
def RXEN : Fld := ⟨0x054, 0, 1⟩
def TXEN : Fld := ⟨0x054, 1, 1⟩
def RTMO : Fld := ⟨0x054, 16, 16⟩
def RXW : Fld := ⟨0x058, 0, 32⟩
def RXR : Fld := ⟨0x05c, 0, 32⟩
def TXW : Fld := ⟨0x060, 0, 32⟩
def TXR : Fld := ⟨0x064, 0, 32⟩
def RXDROP : Fld := ⟨0x068, 0, 8⟩
def RXBAD : Fld := ⟨0x068, 8, 8⟩
def CHOFF : Fld := ⟨0x068, 16, 8⟩
def TXERR : Fld := ⟨0x068, 24, 8⟩
def MBCH : Fld := ⟨0x070, 0, 32⟩
def MSIXT : Fld := ⟨0x800, 0, 32⟩
def MSIXPBA : Fld := ⟨0xa00, 0, 32⟩
end HIF

namespace SPM
def CRCERR : Fld := ⟨0x040, 0, 8⟩
def FRMERR : Fld := ⟨0x040, 8, 8⟩
def CMDERR : Fld := ⟨0x040, 16, 8⟩
def RETRY : Fld := ⟨0x040, 24, 8⟩
def SAFOWN : Fld := ⟨0x044, 0, 1⟩
def SCNT : Fld := ⟨0x048, 0, 32⟩
end SPM

namespace CAL
def SRC : Fld := ⟨0x040, 0, 2⟩
def UVALID : Fld := ⟨0x040, 2, 1⟩
def VBUSY : Fld := ⟨0x040, 3, 1⟩
def CALOK : Fld := ⟨0x040, 4, 1⟩
def VRES : Fld := ⟨0x040, 8, 4⟩
def CCRC : Fld := ⟨0x044, 0, 32⟩
def VTOL : Fld := ⟨0x048, 0, 24⟩
def GAIN0 : Fld := ⟨0x080, 0, 32⟩
def OFFS0 : Fld := ⟨0x084, 0, 32⟩
def GAIN1 : Fld := ⟨0x088, 0, 32⟩
def OFFS1 : Fld := ⟨0x08c, 0, 32⟩
def GAIN2 : Fld := ⟨0x090, 0, 32⟩
def OFFS2 : Fld := ⟨0x094, 0, 32⟩
def DACG : Fld := ⟨0x098, 0, 32⟩
def EXT1 : Fld := ⟨0x09c, 0, 8⟩
def EXT2 : Fld := ⟨0x09c, 8, 8⟩
def EXT3 : Fld := ⟨0x09c, 16, 8⟩
def TFBU : Fld := ⟨0x100, 0, 8⟩
def TLAT : Fld := ⟨0x100, 8, 8⟩
def TSIO : Fld := ⟨0x100, 16, 8⟩
def TOUT : Fld := ⟨0x100, 24, 8⟩
end CAL

namespace OTP
def FCRCOK : Fld := ⟨0x040, 0, 1⟩
def KSET : Fld := ⟨0x040, 1, 1⟩
def BUSY : Fld := ⟨0x040, 2, 1⟩
def MINVER : Fld := ⟨0x040, 8, 6⟩
def DIEIDLO : Fld := ⟨0x044, 0, 32⟩
def DIEIDHI : Fld := ⟨0x048, 0, 32⟩
def KHASH : Fld := ⟨0x050, 0, 32⟩
def KSTG : Fld := ⟨0x070, 0, 32⟩
def FCAL : Fld := ⟨0x100, 0, 32⟩
def FCRC : Fld := ⟨0x184, 0, 32⟩
end OTP

namespace SAF
def SIEN : Fld := ⟨0x040, 0, 1⟩
def SIMODE : Fld := ⟨0x040, 1, 1⟩
def SFILT : Fld := ⟨0x040, 8, 8⟩
def DISC : Fld := ⟨0x040, 16, 10⟩
def SDEB : Fld := ⟨0x050, 0, 10⟩
def STODLY : Fld := ⟨0x054, 0, 16⟩
def STOEN : Fld := ⟨0x054, 16, 1⟩
def HOLD : Fld := ⟨0x064, 0, 1⟩
def DISAGREE : Fld := ⟨0x064, 1, 1⟩
def SIOK : Fld := ⟨0x064, 2, 4⟩
def STOOUT : Fld := ⟨0x064, 6, 4⟩
def STOFB : Fld := ⟨0x064, 10, 4⟩
def CAUSE : Fld := ⟨0x064, 16, 8⟩
def DEMAND : Fld := ⟨0x068, 0, 4⟩
def DISCL : Fld := ⟨0x068, 4, 4⟩
def STOFBL : Fld := ⟨0x068, 8, 4⟩
def RING : Fld := ⟨0x068, 12, 1⟩
def TRIPC : Fld := ⟨0x068, 13, 1⟩
def POWERUP : Fld := ⟨0x068, 14, 1⟩
def KEEPERD : Fld := ⟨0x068, 15, 1⟩
def STRIPLO : Fld := ⟨0x070, 0, 32⟩
def STRIPHI : Fld := ⟨0x074, 0, 32⟩
def TRIPS : Fld := ⟨0x078, 0, 16⟩
end SAF

namespace RED
def PAIRED : Fld := ⟨0x040, 0, 1⟩
def NCFG : Fld := ⟨0x040, 8, 8⟩
def ROLE : Fld := ⟨0x044, 0, 3⟩
def PROLE : Fld := ⟨0x044, 3, 3⟩
def INSTEP : Fld := ⟨0x044, 6, 1⟩
def DISAGREE : Fld := ⟨0x044, 7, 1⟩
def RPH : Fld := ⟨0x044, 8, 3⟩
def CONFMIS : Fld := ⟨0x044, 11, 1⟩
def DEGR : Fld := ⟨0x044, 12, 1⟩
def RPEND : Fld := ⟨0x044, 13, 1⟩
def REACH : Fld := ⟨0x044, 16, 8⟩
def PREACH : Fld := ⟨0x044, 24, 8⟩
def EPOCH : Fld := ⟨0x048, 0, 16⟩
def HEPOCH : Fld := ⟨0x048, 16, 16⟩
def HINT : Fld := ⟨0x04c, 0, 2⟩
def HAGE : Fld := ⟨0x04c, 8, 8⟩
def RCODE : Fld := ⟨0x050, 0, 8⟩
def RV : Fld := ⟨0x050, 8, 1⟩
def RAGE : Fld := ⟨0x050, 16, 16⟩
def JQ : Fld := ⟨0x054, 0, 11⟩
def JRETX : Fld := ⟨0x054, 16, 16⟩
def ODIRTY : Fld := ⟨0x058, 0, 14⟩
def CDIRTY : Fld := ⟨0x058, 14, 18⟩
def DIGMIS : Fld := ⟨0x05c, 0, 16⟩
def SLMIS : Fld := ⟨0x05c, 16, 16⟩
def REPAIRS : Fld := ⟨0x060, 0, 8⟩
def REPLAYS : Fld := ⟨0x060, 8, 8⟩
def TAKEOVERS : Fld := ⟨0x060, 16, 8⟩
def JGAP : Fld := ⟨0x060, 24, 8⟩
def DCODE : Fld := ⟨0x064, 0, 4⟩
def DAX : Fld := ⟨0x064, 8, 8⟩
def OROLE : Fld := ⟨0x064, 16, 3⟩
def NROLE : Fld := ⟨0x064, 19, 3⟩
def LASTDC : Fld := ⟨0x068, 0, 32⟩
def RMS : Fld := ⟨0x06c, 0, 16⟩
def RFAIL : Fld := ⟨0x06c, 16, 8⟩
def RBULK : Fld := ⟨0x070, 0, 32⟩
end RED

namespace TSU
def NWORK : Fld := ⟨0x040, 0, 5⟩
def NSPARE : Fld := ⟨0x040, 5, 5⟩
def DEGRADED : Fld := ⟨0x040, 10, 1⟩
def DISAGREE : Fld := ⟨0x040, 11, 1⟩
def FROM : Fld := ⟨0x044, 0, 5⟩
def TO : Fld := ⟨0x044, 5, 5⟩
def MIGCNT : Fld := ⟨0x044, 16, 8⟩
def MIGCYC : Fld := ⟨0x048, 0, 32⟩
def CWDSLK : Fld := ⟨0x04c, 0, 32⟩
def MINSLK : Fld := ⟨0x050, 0, 32⟩
def TASK : Fld := ⟨0x054, 0, 10⟩
def TEN : Fld := ⟨0x058, 0, 1⟩
def PRIO : Fld := ⟨0x058, 1, 4⟩
def PMODE : Fld := ⟨0x058, 5, 2⟩
def NDET : Fld := ⟨0x058, 7, 1⟩
def RERUN : Fld := ⟨0x058, 8, 1⟩
def DEADL : Fld := ⟨0x058, 9, 2⟩
def TCTL_FLOW : Fld := ⟨0x058, 12, 6⟩
def FROLE : Fld := ⟨0x058, 18, 2⟩
def PMASK : Fld := ⟨0x05c, 0, 18⟩
def ENTRY : Fld := ⟨0x05c, 18, 14⟩
def EVA : Fld := ⟨0x060, 0, 8⟩
def EVB : Fld := ⟨0x060, 8, 8⟩
def EVAEN : Fld := ⟨0x060, 16, 1⟩
def EVBEN : Fld := ⟨0x060, 17, 1⟩
def ALL : Fld := ⟨0x060, 18, 1⟩
def CPT : Fld := ⟨0x060, 19, 2⟩
def CDIV : Fld := ⟨0x060, 21, 3⟩
def CPH : Fld := ⟨0x060, 24, 6⟩
def TARG : Fld := ⟨0x064, 0, 32⟩
def TSTATE : Fld := ⟨0x068, 0, 3⟩
def PAIR : Fld := ⟨0x068, 3, 5⟩
def LATE : Fld := ⟨0x068, 8, 1⟩
def TRAPF : Fld := ⟨0x068, 9, 1⟩
def RETRIG : Fld := ⟨0x068, 10, 1⟩
def MRG : Fld := ⟨0x068, 11, 5⟩
def RUNS : Fld := ⟨0x068, 16, 16⟩
def WLAST : Fld := ⟨0x06c, 0, 16⟩
def WMAX : Fld := ⟨0x06c, 16, 16⟩
def FSEL_FLOW : Fld := ⟨0x070, 0, 6⟩
def QMAX : Fld := ⟨0x074, 0, 12⟩
def FSTAT_OCC : Fld := ⟨0x078, 0, 12⟩
def STALL : Fld := ⟨0x078, 12, 1⟩
def PEND : Fld := ⟨0x078, 13, 5⟩
def FNSEQ : Fld := ⟨0x07c, 0, 32⟩
def FRSEQ : Fld := ⟨0x080, 0, 32⟩
def FFAIL : Fld := ⟨0x084, 0, 32⟩
def FAILS : Fld := ⟨0x088, 0, 16⟩
def DROPS : Fld := ⟨0x088, 16, 16⟩
def DEPTH : Fld := ⟨0x0c0, 0, 12⟩
def DMAX : Fld := ⟨0x0c0, 16, 12⟩
def BUSY : Fld := ⟨0x100, 0, 18⟩
def PCT : Fld := ⟨0x100, 18, 7⟩
def STORE_OCC : Fld := ⟨0x148, 0, 12⟩
def OMAX : Fld := ⟨0x148, 16, 12⟩
end TSU

namespace DMC
def EN : Fld := ⟨0x040, 0, 1⟩
def DLOG : Fld := ⟨0x040, 1, 4⟩
def BUSY : Fld := ⟨0x044, 0, 1⟩
def HALT : Fld := ⟨0x044, 1, 1⟩
def ERR : Fld := ⟨0x044, 2, 4⟩
def DONE : Fld := ⟨0x044, 16, 16⟩
def DBASELO : Fld := ⟨0x048, 0, 32⟩
def DBASEHI : Fld := ⟨0x04c, 0, 32⟩
def DTAIL : Fld := ⟨0x050, 0, 12⟩
def DHEAD : Fld := ⟨0x054, 0, 12⟩
def CUNITS : Fld := ⟨0x058, 0, 16⟩
end DMC

namespace RING
def MYST : Fld := ⟨0x040, 0, 6⟩
def HOTINS : Fld := ⟨0x040, 6, 1⟩
def NSTAC : Fld := ⟨0x040, 8, 7⟩
def RSTATE : Fld := ⟨0x044, 0, 3⟩
def INS : Fld := ⟨0x044, 3, 1⟩
def BROKEN : Fld := ⟨0x044, 4, 1⟩
def RESETTLE : Fld := ⟨0x044, 5, 1⟩
def RNGV : Fld := ⟨0x044, 6, 1⟩
def SCHOK : Fld := ⟨0x044, 7, 1⟩
def LOCKE : Fld := ⟨0x044, 8, 1⟩
def LOCKW : Fld := ⟨0x044, 9, 1⟩
def ASYM : Fld := ⟨0x044, 10, 1⟩
def NHEARD : Fld := ⟨0x044, 16, 7⟩
def BSTA1 : Fld := ⟨0x048, 0, 6⟩
def BPORT1 : Fld := ⟨0x048, 6, 1⟩
def BV1 : Fld := ⟨0x048, 7, 1⟩
def BSTA2 : Fld := ⟨0x048, 8, 6⟩
def BPORT2 : Fld := ⟨0x048, 14, 1⟩
def BV2 : Fld := ⟨0x048, 15, 1⟩
def BCNT : Fld := ⟨0x048, 16, 16⟩
def LOOPE_LOOP : Fld := ⟨0x04c, 0, 20⟩
def LOOPW_LOOP : Fld := ⟨0x050, 0, 20⟩
def GSTA : Fld := ⟨0x054, 0, 6⟩
def GWD : Fld := ⟨0x054, 6, 1⟩
def GPEND : Fld := ⟨0x054, 7, 1⟩
def GDONE : Fld := ⟨0x054, 8, 1⟩
def CNTDUP : Fld := ⟨0x058, 0, 32⟩
def HCRC : Fld := ⟨0x05c, 0, 16⟩
def PCRC : Fld := ⟨0x05c, 16, 16⟩
def COPYW : Fld := ⟨0x060, 0, 16⟩
def SLOTW : Fld := ⟨0x060, 16, 16⟩
def TXCOLL : Fld := ⟨0x064, 0, 8⟩
def UNKT : Fld := ⟨0x064, 8, 8⟩
def OSERR : Fld := ⟨0x064, 16, 8⟩
def LOCKL : Fld := ⟨0x064, 24, 8⟩
def STOPRX : Fld := ⟨0x068, 0, 1⟩
def STOPTX : Fld := ⟨0x068, 1, 1⟩
def STOPORG : Fld := ⟨0x068, 2, 6⟩
def NSLOT : Fld := ⟨0x06c, 0, 9⟩
def SHASH : Fld := ⟨0x070, 0, 32⟩
def GEOACT : Fld := ⟨0x074, 0, 32⟩
def DE : Fld := ⟨0x100, 0, 20⟩
def FWD : Fld := ⟨0x100, 20, 12⟩
def AP : Fld := ⟨0x400, 0, 15⟩
def LEN : Fld := ⟨0x400, 16, 9⟩
def TYPE : Fld := ⟨0x400, 25, 4⟩
def SLTLO_HOLDER : Fld := ⟨0x400, 30, 2⟩
def SLTHI_HOLDER : Fld := ⟨0x404, 0, 4⟩
def MEXP : Fld := ⟨0x404, 4, 3⟩
def BASE : Fld := ⟨0x404, 7, 6⟩
def PIOFS : Fld := ⟨0x404, 13, 16⟩
end RING

namespace SYS
def SIDX : Fld := ⟨0x040, 0, 8⟩
def HEAD : Fld := ⟨0x040, 8, 1⟩
def LOCKE : Fld := ⟨0x044, 0, 1⟩
def LOCKW : Fld := ⟨0x044, 1, 1⟩
def INS : Fld := ⟨0x044, 2, 1⟩
def SSYNC : Fld := ⟨0x044, 3, 1⟩
def PDLYE_PDLY : Fld := ⟨0x048, 0, 20⟩
def PDLYW_PDLY : Fld := ⟨0x04c, 0, 20⟩
def RTFAIL : Fld := ⟨0x050, 0, 16⟩
def CRCERR : Fld := ⟨0x050, 16, 16⟩
def PRIM : Fld := ⟨0x400, 0, 2⟩
def ALT : Fld := ⟨0x400, 2, 2⟩
end SYS

namespace CEP
def PSTATE : Fld := ⟨0x040, 0, 3⟩
def SPARE : Fld := ⟨0x040, 3, 1⟩
def LOADED : Fld := ⟨0x040, 4, 1⟩
def BISTOK : Fld := ⟨0x040, 5, 1⟩
def NAX : Fld := ⟨0x040, 8, 5⟩
def TID : Fld := ⟨0x044, 0, 10⟩
def TV : Fld := ⟨0x044, 10, 1⟩
def HOOK : Fld := ⟨0x044, 11, 1⟩
def HOOKN : Fld := ⟨0x044, 12, 3⟩
def AXN : Fld := ⟨0x044, 16, 8⟩
def PC : Fld := ⟨0x048, 0, 16⟩
def FCAUSE : Fld := ⟨0x04c, 0, 3⟩
def FTRAP : Fld := ⟨0x04c, 4, 4⟩
def FCNT : Fld := ⟨0x04c, 8, 8⟩
def FPC : Fld := ⟨0x04c, 16, 16⟩
def CFCYC : Fld := ⟨0x050, 0, 32⟩
def TCODE : Fld := ⟨0x054, 0, 4⟩
def TCNT : Fld := ⟨0x054, 8, 8⟩
def TPC : Fld := ⟨0x054, 16, 16⟩
def TTID : Fld := ⟨0x058, 0, 10⟩
def TAXN : Fld := ⟨0x058, 16, 8⟩
def ISS : Fld := ⟨0x05c, 0, 18⟩
def WAIT : Fld := ⟨0x060, 0, 18⟩
def CORR : Fld := ⟨0x064, 0, 16⟩
def CIMG : Fld := ⟨0x068, 0, 32⟩
def BKPTEN : Fld := ⟨0x06c, 0, 1⟩
def SPACE : Fld := ⟨0x070, 0, 2⟩
def WADR : Fld := ⟨0x070, 2, 14⟩
def CWDATLO : Fld := ⟨0x078, 0, 32⟩
def CWDATHI : Fld := ⟨0x07c, 0, 32⟩
end CEP

namespace MFE
def LEN : Fld := ⟨0x040, 0, 1⟩
def LFNOM : Fld := ⟨0x040, 1, 1⟩
def LOCK : Fld := ⟨0x044, 0, 1⟩
def LFREQ : Fld := ⟨0x044, 16, 16⟩
def LPER : Fld := ⟨0x048, 0, 32⟩
def P5OK : Fld := ⟨0x04c, 0, 1⟩
def P15OK : Fld := ⟨0x04c, 1, 1⟩
def N15OK : Fld := ⟨0x04c, 2, 1⟩
def LINKOK : Fld := ⟨0x04c, 3, 1⟩
def REFOK : Fld := ⟨0x04c, 4, 1⟩
def LCRC : Fld := ⟨0x050, 0, 16⟩
def FAULTS : Fld := ⟨0x050, 16, 16⟩
end MFE

namespace MFC
def TSRC : Fld := ⟨0x040, 0, 3⟩
def CONT : Fld := ⟨0x040, 3, 1⟩
def PWRDN : Fld := ⟨0x040, 4, 1⟩
def SEQN : Fld := ⟨0x040, 8, 4⟩
def DUMPT : Fld := ⟨0x040, 16, 14⟩
def TDIV : Fld := ⟨0x044, 0, 4⟩
def TPH : Fld := ⟨0x044, 4, 15⟩
def PDIV : Fld := ⟨0x044, 19, 3⟩
def PJ : Fld := ⟨0x044, 22, 7⟩
def CSEL : Fld := ⟨0x048, 0, 4⟩
def RRING : Fld := ⟨0x048, 4, 2⟩
def RSTA : Fld := ⟨0x048, 6, 6⟩
def TPER : Fld := ⟨0x04c, 0, 24⟩
def TDLY : Fld := ⟨0x050, 0, 24⟩
def MSEQLO : Fld := ⟨0x054, 0, 32⟩
def MSEQHI : Fld := ⟨0x058, 0, 32⟩
def DACV : Fld := ⟨0x05c, 0, 16⟩
def CHKTOL : Fld := ⟨0x05c, 16, 16⟩
def CCODE : Fld := ⟨0x060, 0, 24⟩
def CHKF : Fld := ⟨0x060, 24, 1⟩
def CSTATE : Fld := ⟨0x064, 0, 3⟩
def PEND : Fld := ⟨0x064, 3, 1⟩
def ENTRY : Fld := ⟨0x064, 4, 4⟩
def TRGLOST : Fld := ⟨0x068, 0, 16⟩
def OVRC : Fld := ⟨0x068, 16, 16⟩
def SCANS : Fld := ⟨0x06c, 0, 16⟩
def CHKFC : Fld := ⟨0x06c, 16, 8⟩
def ERRC : Fld := ⟨0x06c, 24, 8⟩
def IOFS : Fld := ⟨0x070, 0, 17⟩
def IEN : Fld := ⟨0x070, 31, 1⟩
def RANGE : Fld := ⟨0x080, 0, 2⟩
def AMODE : Fld := ⟨0x080, 2, 1⟩
def BOMODE : Fld := ⟨0x080, 4, 2⟩
def BOCUR : Fld := ⟨0x080, 6, 1⟩
def EXC : Fld := ⟨0x080, 8, 2⟩
def EXCC : Fld := ⟨0x080, 10, 1⟩
def SETTLE : Fld := ⟨0x080, 16, 16⟩
def APER : Fld := ⟨0x084, 0, 17⟩
def CODE : Fld := ⟨0x088, 0, 24⟩
def OVR : Fld := ⟨0x088, 24, 1⟩
def OW : Fld := ⟨0x088, 25, 1⟩
def NOLOCK : Fld := ⟨0x088, 26, 1⟩
def ERR : Fld := ⟨0x088, 27, 1⟩
def LATE : Fld := ⟨0x088, 28, 1⟩
def RCNT : Fld := ⟨0x088, 29, 3⟩
def CAPT : Fld := ⟨0x08c, 0, 32⟩
def CTAGLO : Fld := ⟨0x090, 0, 32⟩
def CTAGHI : Fld := ⟨0x094, 0, 32⟩
end MFC

namespace CAP
def NRUN : Fld := ⟨0x040, 0, 5⟩
def THR : Fld := ⟨0x040, 5, 1⟩
def WRATE : Fld := ⟨0x044, 0, 16⟩
def EMISS : Fld := ⟨0x048, 0, 16⟩
def PROBE : Fld := ⟨0x04c, 0, 12⟩
def KIND : Fld := ⟨0x050, 0, 3⟩
def IDX : Fld := ⟨0x050, 4, 17⟩
def SRC : Fld := ⟨0x100, 0, 8⟩
end CAP

namespace CAPU
def MODE : Fld := ⟨0x040, 0, 2⟩
def SMODE : Fld := ⟨0x040, 2, 1⟩
def DRAIN : Fld := ⟨0x040, 3, 1⟩
def DIV : Fld := ⟨0x040, 4, 4⟩
def NCH : Fld := ⟨0x040, 8, 7⟩
def MEN : Fld := ⟨0x040, 15, 1⟩
def DSEL : Fld := ⟨0x040, 16, 2⟩
def TKIND : Fld := ⟨0x044, 0, 2⟩
def SLOPE : Fld := ⟨0x044, 2, 2⟩
def TCH : Fld := ⟨0x044, 4, 6⟩
def TEVT : Fld := ⟨0x044, 10, 8⟩
def TLVL : Fld := ⟨0x048, 0, 32⟩
def THYS : Fld := ⟨0x04c, 0, 32⟩
def TMASKLO : Fld := ⟨0x050, 0, 32⟩
def TMASKHI : Fld := ⟨0x054, 0, 32⟩
def TVALLO : Fld := ⟨0x058, 0, 32⟩
def TVALHI : Fld := ⟨0x05c, 0, 32⟩
def PRE : Fld := ⟨0x060, 0, 24⟩
def POST : Fld := ⟨0x064, 0, 24⟩
def ATMO : Fld := ⟨0x068, 0, 16⟩
def HOLD : Fld := ⟨0x068, 16, 16⟩
def BBASE : Fld := ⟨0x06c, 0, 11⟩
def BSIZE : Fld := ⟨0x06c, 16, 12⟩
def MCFG : Fld := ⟨0x070, 0, 32⟩
def MLVL : Fld := ⟨0x074, 0, 32⟩
def MHYS : Fld := ⟨0x078, 0, 32⟩
def HBASELO : Fld := ⟨0x080, 0, 32⟩
def HBASEHI : Fld := ⟨0x084, 0, 32⟩
def HLOG : Fld := ⟨0x088, 0, 5⟩
def HREL : Fld := ⟨0x08c, 0, 32⟩
def HWCNT : Fld := ⟨0x090, 0, 32⟩
def WCNT : Fld := ⟨0x098, 0, 32⟩
def ACNT : Fld := ⟨0x09c, 0, 32⟩
def RCNT : Fld := ⟨0x0a0, 0, 32⟩
def USTATE : Fld := ⟨0x0a4, 0, 3⟩
def PREFULL : Fld := ⟨0x0a4, 3, 1⟩
def OVF : Fld := ⟨0x0a4, 4, 1⟩
def OVC : Fld := ⟨0x0a4, 5, 2⟩
def NPP : Fld := ⟨0x0a4, 8, 4⟩
def SEQ : Fld := ⟨0x0a8, 0, 32⟩
def PRECNT : Fld := ⟨0x0ac, 0, 24⟩
def TRGIGN : Fld := ⟨0x0b0, 0, 16⟩
def RECS : Fld := ⟨0x0b0, 16, 16⟩
def TTRIGLO : Fld := ⟨0x0b4, 0, 32⟩
def TTRIGHI : Fld := ⟨0x0b8, 0, 32⟩
def PNUM : Fld := ⟨0x100, 0, 12⟩
def PEDGE : Fld := ⟨0x100, 12, 1⟩
def PBIT : Fld := ⟨0x100, 13, 5⟩
end CAPU

namespace FBU
def MODE : Fld := ⟨0x040, 0, 2⟩
def QM : Fld := ⟨0x040, 2, 2⟩
def FILT : Fld := ⟨0x040, 4, 3⟩
def HYS : Fld := ⟨0x040, 7, 1⟩
def DIR : Fld := ⟨0x040, 8, 1⟩
def LFEN : Fld := ⟨0x040, 9, 1⟩
def LIMEN : Fld := ⟨0x040, 10, 1⟩
def LFT : Fld := ⟨0x040, 16, 8⟩
def NBITS : Fld := ⟨0x044, 0, 6⟩
def PBITS : Fld := ⟨0x044, 6, 6⟩
def POFS : Fld := ⟨0x044, 12, 6⟩
def GRAY : Fld := ⟨0x044, 18, 1⟩
def EBIT : Fld := ⟨0x044, 19, 1⟩
def SCLK : Fld := ⟨0x044, 20, 8⟩
def MONO : Fld := ⟨0x044, 28, 4⟩
def COUNT : Fld := ⟨0x048, 0, 32⟩
def RAW : Fld := ⟨0x04c, 0, 32⟩
def LF : Fld := ⟨0x050, 0, 3⟩
def SLSAT : Fld := ⟨0x050, 3, 1⟩
def HALLERR : Fld := ⟨0x050, 4, 1⟩
def SERR : Fld := ⟨0x050, 5, 1⟩
def IXF : Fld := ⟨0x050, 6, 1⟩
def FERR : Fld := ⟨0x050, 7, 1⟩
def SDLY : Fld := ⟨0x050, 16, 8⟩
def QERR : Fld := ⟨0x054, 0, 16⟩
def LFC : Fld := ⟨0x054, 16, 16⟩
def SLMIN : Fld := ⟨0x058, 0, 32⟩
def SLMAX : Fld := ⟨0x05c, 0, 32⟩
def IPER : Fld := ⟨0x060, 0, 32⟩
def IREF : Fld := ⟨0x064, 0, 32⟩
def ITOL : Fld := ⟨0x068, 0, 16⟩
def IPOL : Fld := ⟨0x068, 16, 2⟩
def IDEV : Fld := ⟨0x06c, 0, 32⟩
def IDEVC : Fld := ⟨0x070, 0, 16⟩
def ISEEN : Fld := ⟨0x070, 16, 16⟩
def IPOS : Fld := ⟨0x074, 0, 32⟩
def ITAGLO : Fld := ⟨0x078, 0, 32⟩
def ITAGHI : Fld := ⟨0x07c, 0, 32⟩
def LEDGE : Fld := ⟨0x080, 0, 2⟩
def LAUTO : Fld := ⟨0x080, 2, 1⟩
def LSRC : Fld := ⟨0x080, 3, 1⟩
def LPIN : Fld := ⟨0x080, 4, 3⟩
def LDEB : Fld := ⟨0x080, 16, 10⟩
def LPOS : Fld := ⟨0x084, 0, 32⟩
def LTAGLO : Fld := ⟨0x088, 0, 32⟩
def LTAGHI : Fld := ⟨0x08c, 0, 32⟩
def LFULL : Fld := ⟨0x090, 0, 1⟩
def LARMD : Fld := ⟨0x090, 1, 1⟩
def LMISS : Fld := ⟨0x090, 8, 8⟩
def LCNT : Fld := ⟨0x090, 16, 16⟩
def BADR : Fld := ⟨0x094, 0, 22⟩
def LIEN : Fld := ⟨0x094, 31, 1⟩
def CMODE : Fld := ⟨0x0a0, 0, 2⟩
def CDIR : Fld := ⟨0x0a0, 2, 2⟩
def CACT : Fld := ⟨0x0a0, 4, 2⟩
def BPOL : Fld := ⟨0x0a0, 6, 1⟩
def CINV : Fld := ⟨0x0a0, 7, 1⟩
def CSRC : Fld := ⟨0x0a0, 8, 3⟩
def CPW : Fld := ⟨0x0a0, 12, 16⟩
def CVAL : Fld := ⟨0x0a4, 0, 32⟩
def CSTEP : Fld := ⟨0x0a8, 0, 32⟩
def CNUM : Fld := ⟨0x0ac, 0, 16⟩
def ARMED : Fld := ⟨0x0b0, 0, 1⟩
def BEHIND : Fld := ⟨0x0b0, 1, 1⟩
def OUT : Fld := ⟨0x0b0, 2, 1⟩
def CHITS : Fld := ⟨0x0b0, 16, 16⟩
def CTAGLO : Fld := ⟨0x0b4, 0, 32⟩
def CTAGHI : Fld := ⟨0x0b8, 0, 32⟩
end FBU

namespace SGU
def PMODE : Fld := ⟨0x040, 0, 2⟩
def FILT : Fld := ⟨0x040, 2, 3⟩
def PDIR : Fld := ⟨0x040, 5, 1⟩
def PCNT : Fld := ⟨0x044, 0, 32⟩
def PT1 : Fld := ⟨0x048, 0, 32⟩
def PT2 : Fld := ⟨0x04c, 0, 32⟩
def GPDIR : Fld := ⟨0x080, 0, 32⟩
def GPOUT : Fld := ⟨0x084, 0, 32⟩
def GPIN : Fld := ⟨0x088, 0, 32⟩
def IOFS : Fld := ⟨0x08c, 0, 17⟩
def IEN : Fld := ⟨0x08c, 31, 1⟩
def RSEL : Fld := ⟨0x090, 0, 4⟩
def RMODE : Fld := ⟨0x0a0, 0, 2⟩
def RDIR : Fld := ⟨0x0a0, 2, 2⟩
def RBPOL : Fld := ⟨0x0a0, 4, 1⟩
def RCMPO : Fld := ⟨0x0a0, 5, 2⟩
def RAX : Fld := ⟨0x0a0, 8, 8⟩
def RNUM : Fld := ⟨0x0a4, 0, 16⟩
def RVALLO : Fld := ⟨0x0a8, 0, 32⟩
def RVALHI : Fld := ⟨0x0ac, 0, 32⟩
def RSTEPLO : Fld := ⟨0x0b0, 0, 32⟩
def RSTEPHI : Fld := ⟨0x0b4, 0, 32⟩
def ARMED : Fld := ⟨0x0b8, 0, 1⟩
def BEHIND : Fld := ⟨0x0b8, 1, 1⟩
def PEND : Fld := ⟨0x0b8, 2, 1⟩
def DISAGREE : Fld := ⟨0x0b8, 3, 1⟩
def RMISS : Fld := ⟨0x0b8, 8, 8⟩
def RSENT : Fld := ⟨0x0b8, 16, 16⟩
end SGU

namespace SGC
def SEN : Fld := ⟨0x040, 0, 1⟩
def SDIV : Fld := ⟨0x040, 4, 4⟩
def SDINV : Fld := ⟨0x040, 8, 1⟩
def SPINV : Fld := ⟨0x040, 9, 1⟩
def SAX : Fld := ⟨0x040, 16, 8⟩
def SPW : Fld := ⟨0x044, 0, 16⟩
def DSET : Fld := ⟨0x044, 16, 16⟩
def SPOS : Fld := ⟨0x048, 0, 32⟩
def RUN : Fld := ⟨0x04c, 0, 1⟩
def LAG : Fld := ⟨0x04c, 1, 1⟩
def LAGF : Fld := ⟨0x04c, 2, 1⟩
def LAGN : Fld := ⟨0x04c, 16, 16⟩
def LAGMAX : Fld := ⟨0x050, 0, 16⟩
end SGC

namespace PRF
def AXSEL : Fld := ⟨0x040, 0, 8⟩
def TMO : Fld := ⟨0x050, 0, 16⟩
def IEN : Fld := ⟨0x050, 16, 1⟩
def KIND : Fld := ⟨0x080, 0, 2⟩
def DWELL : Fld := ⟨0x080, 16, 16⟩
def MVEL : Fld := ⟨0x084, 0, 32⟩
def MTGTLO : Fld := ⟨0x088, 0, 32⟩
def MTGTHI : Fld := ⟨0x08c, 0, 32⟩
def VMAXP : Fld := ⟨0x090, 0, 32⟩
def AMAXP : Fld := ⟨0x094, 0, 32⟩
def DMAXP : Fld := ⟨0x098, 0, 32⟩
def JMAXP : Fld := ⟨0x09c, 0, 32⟩
def SDECP : Fld := ⟨0x0a0, 0, 32⟩
def MRUN : Fld := ⟨0x0a4, 0, 1⟩
def RKIND : Fld := ⟨0x0a4, 1, 2⟩
def QDEPTH : Fld := ⟨0x0a4, 3, 5⟩
def DRAISED : Fld := ⟨0x0a4, 8, 1⟩
def TGTPASS : Fld := ⟨0x0a4, 9, 1⟩
def DISAGREE : Fld := ⟨0x0a4, 10, 1⟩
def LIMACTN : Fld := ⟨0x0a4, 11, 1⟩
def LIMACTP : Fld := ⟨0x0a4, 12, 1⟩
def LEVEL : Fld := ⟨0x0a4, 13, 4⟩
def LPEND : Fld := ⟨0x0a4, 17, 1⟩
def HOMED : Fld := ⟨0x0a4, 18, 1⟩
def HBUSY : Fld := ⟨0x0a4, 19, 1⟩
def HFC : Fld := ⟨0x0a4, 20, 4⟩
def DEFF : Fld := ⟨0x0a8, 0, 32⟩
def LIMEN : Fld := ⟨0x0ac, 0, 1⟩
def HDEB : Fld := ⟨0x0ac, 8, 8⟩
def LIMN_BADR : Fld := ⟨0x0b0, 0, 22⟩
def LIMN_INV : Fld := ⟨0x0b0, 30, 1⟩
def LIMN_EN : Fld := ⟨0x0b0, 31, 1⟩
def LIMP_BADR : Fld := ⟨0x0b4, 0, 22⟩
def LIMP_INV : Fld := ⟨0x0b4, 30, 1⟩
def LIMP_EN : Fld := ⟨0x0b4, 31, 1⟩
def HSW_BADR : Fld := ⟨0x0b8, 0, 22⟩
def HSW_INV : Fld := ⟨0x0b8, 30, 1⟩
def HSW_EN : Fld := ⟨0x0b8, 31, 1⟩
def HMETH : Fld := ⟨0x0bc, 0, 2⟩
def HDIR : Fld := ⟨0x0bc, 2, 1⟩
def HREV : Fld := ⟨0x0bc, 3, 1⟩
def HIDX : Fld := ⟨0x0bc, 4, 1⟩
def HSRC : Fld := ⟨0x0bc, 5, 1⟩
def HLAT : Fld := ⟨0x0bc, 6, 3⟩
def HCHN : Fld := ⟨0x0bc, 16, 8⟩
def HCWIN : Fld := ⟨0x0c0, 0, 16⟩
def HSTN : Fld := ⟨0x0c0, 16, 16⟩
def HVS : Fld := ⟨0x0c4, 0, 32⟩
def HVL : Fld := ⟨0x0c8, 0, 32⟩
def HILIM : Fld := ⟨0x0cc, 0, 32⟩
def HPOSLO : Fld := ⟨0x0d0, 0, 32⟩
def HPOSHI : Fld := ⟨0x0d4, 0, 32⟩
def HSTV : Fld := ⟨0x0d8, 0, 16⟩
def HSTI : Fld := ⟨0x0d8, 16, 16⟩
def HTMO : Fld := ⟨0x0dc, 0, 32⟩
def HBACK : Fld := ⟨0x0e0, 0, 32⟩
def LMIN : Fld := ⟨0x0e4, 0, 4⟩
def STEPOL : Fld := ⟨0x0e4, 4, 1⟩
def LADV : Fld := ⟨0x0e4, 16, 16⟩
def ISTEP : Fld := ⟨0x0e8, 0, 32⟩
end PRF

namespace SEA
def AXSEL : Fld := ⟨0x040, 0, 8⟩
def NLEARN : Fld := ⟨0x044, 0, 9⟩
def NFREEZE : Fld := ⟨0x044, 16, 9⟩
def EAX : Fld := ⟨0x048, 0, 8⟩
def EIDX : Fld := ⟨0x048, 8, 16⟩
def ECNT : Fld := ⟨0x048, 24, 8⟩
def NLOG : Fld := ⟨0x080, 0, 5⟩
def PSRC : Fld := ⟨0x080, 5, 2⟩
def INJ : Fld := ⟨0x080, 7, 1⟩
def ESEL : Fld := ⟨0x080, 8, 2⟩
def LEAD : Fld := ⟨0x080, 10, 5⟩
def JPOL : Fld := ⟨0x080, 15, 2⟩
def SIDX : Fld := ⟨0x080, 24, 8⟩
def PPER : Fld := ⟨0x084, 0, 32⟩
def PORGLO : Fld := ⟨0x088, 0, 32⟩
def PORGHI : Fld := ⟨0x08c, 0, 32⟩
def TPER : Fld := ⟨0x090, 0, 24⟩
def TOFS : Fld := ⟨0x094, 0, 24⟩
def KL : Fld := ⟨0x098, 0, 32⟩
def QA : Fld := ⟨0x09c, 0, 16⟩
def FORG : Fld := ⟨0x09c, 16, 16⟩
def TLIM : Fld := ⟨0x0a0, 0, 32⟩
def IRAMP : Fld := ⟨0x0a4, 0, 16⟩
def JMAX : Fld := ⟨0x0a4, 16, 16⟩
def STAT_SSTATE : Fld := ⟨0x0a8, 0, 2⟩
def STAT_SUSP : Fld := ⟨0x0a8, 2, 1⟩
def STAT_BUSY : Fld := ⟨0x0a8, 3, 1⟩
def STAT_DISAGREE : Fld := ⟨0x0a8, 4, 1⟩
def STAT_PCHG : Fld := ⟨0x0a8, 5, 1⟩
def SATF : Fld := ⟨0x0a8, 6, 1⟩
def STRIDE : Fld := ⟨0x0a8, 8, 8⟩
def JUMPC : Fld := ⟨0x0a8, 16, 16⟩
def IIDX : Fld := ⟨0x0ac, 0, 16⟩
def UIDX : Fld := ⟨0x0ac, 16, 16⟩
def TSUM : Fld := ⟨0x0b0, 0, 32⟩
def INJV : Fld := ⟨0x0b4, 0, 32⟩
def UPDC : Fld := ⟨0x0b8, 0, 32⟩
def SOFSLO : Fld := ⟨0x0c0, 0, 32⟩
def SOFSHI : Fld := ⟨0x0c4, 0, 32⟩
def AST_SSTATE : Fld := ⟨0x800, 0, 2⟩
def AST_SUSP : Fld := ⟨0x800, 2, 1⟩
def AST_BUSY : Fld := ⟨0x800, 3, 1⟩
def AST_DISAGREE : Fld := ⟨0x800, 4, 1⟩
def AST_PCHG : Fld := ⟨0x800, 5, 1⟩
end SEA

namespace PGRP
def NMEM : Fld := ⟨0x040, 0, 4⟩
def GMEM0 : Fld := ⟨0x044, 0, 32⟩
def GMEM1 : Fld := ⟨0x048, 0, 32⟩
def RBASE : Fld := ⟨0x04c, 0, 24⟩
def RLOG : Fld := ⟨0x04c, 24, 4⟩
def WIDX : Fld := ⟨0x050, 0, 16⟩
def RIDX : Fld := ⟨0x054, 0, 16⟩
def XIDX : Fld := ⟨0x054, 16, 16⟩
def GAMAX : Fld := ⟨0x058, 0, 32⟩
def GDMAX : Fld := ⟨0x05c, 0, 32⟩
def GJMAX : Fld := ⟨0x060, 0, 32⟩
def AJMP : Fld := ⟨0x064, 0, 32⟩
def GSTATE : Fld := ⟨0x068, 0, 3⟩
def DISAGREE : Fld := ⟨0x068, 3, 1⟩
def STARVED : Fld := ⟨0x068, 4, 1⟩
def GFAULT : Fld := ⟨0x068, 5, 1⟩
def NPLAN : Fld := ⟨0x068, 8, 8⟩
def PLATE : Fld := ⟨0x068, 16, 16⟩
def SPOSLO : Fld := ⟨0x070, 0, 32⟩
def SPOSHI : Fld := ⟨0x074, 0, 32⟩
def GVEL : Fld := ⟨0x078, 0, 32⟩
end PGRP

namespace AXP
def MTYPE : Fld := ⟨0x040, 0, 2⟩
def SPSRC : Fld := ⟨0x040, 2, 2⟩
def PLEN : Fld := ⟨0x040, 4, 1⟩
def VLEN : Fld := ⟨0x040, 5, 1⟩
def CPLEN : Fld := ⟨0x040, 6, 1⟩
def PLIMEN : Fld := ⟨0x040, 7, 1⟩
def PAIR : Fld := ⟨0x040, 8, 5⟩
def DIR : Fld := ⟨0x040, 13, 1⟩
def SEAEN : Fld := ⟨0x040, 14, 1⟩
def STA : Fld := ⟨0x040, 16, 6⟩
def RING : Fld := ⟨0x040, 22, 2⟩
def AX : Fld := ⟨0x040, 24, 2⟩
def LOCAL : Fld := ⟨0x040, 26, 1⟩
def LFB : Fld := ⟨0x040, 27, 1⟩
def AEN : Fld := ⟨0x040, 28, 1⟩
def LFBCH : Fld := ⟨0x040, 29, 3⟩
def STATE : Fld := ⟨0x044, 0, 3⟩
def FLATCH : Fld := ⟨0x044, 3, 1⟩
def BANK : Fld := ⟨0x044, 4, 1⟩
def SWPEND : Fld := ⟨0x044, 5, 1⟩
def PCHG : Fld := ⟨0x044, 6, 1⟩
def OBSC : Fld := ⟨0x044, 7, 1⟩
def AWV : Fld := ⟨0x044, 8, 1⟩
def AWD : Fld := ⟨0x044, 9, 1⟩
def AWQ : Fld := ⟨0x044, 10, 1⟩
def STALE : Fld := ⟨0x044, 11, 1⟩
def DISAGREE : Fld := ⟨0x044, 12, 1⟩
def AOV : Fld := ⟨0x044, 13, 1⟩
def MISSN : Fld := ⟨0x044, 14, 2⟩
def FCODE : Fld := ⟨0x044, 16, 8⟩
def BRKON : Fld := ⟨0x048, 0, 16⟩
def BRKOFF : Fld := ⟨0x048, 16, 16⟩
def STALEN : Fld := ⟨0x04c, 0, 3⟩
def FZN : Fld := ⟨0x04c, 8, 8⟩
def IBASE : Fld := ⟨0x050, 0, 32⟩
def UBASE : Fld := ⟨0x054, 0, 32⟩
def VBASE : Fld := ⟨0x058, 0, 32⟩
def PEBASE : Fld := ⟨0x05c, 0, 32⟩
def ISC : Fld := ⟨0x060, 0, 32⟩
def USC : Fld := ⟨0x064, 0, 32⟩
def VSC : Fld := ⟨0x068, 0, 32⟩
def PSC : Fld := ⟨0x06c, 0, 32⟩
def IOFSA : Fld := ⟨0x070, 0, 16⟩
def IOFSB : Fld := ⟨0x070, 16, 16⟩
def IOFSC : Fld := ⟨0x074, 0, 16⟩
def ISUMTOL : Fld := ⟨0x074, 16, 16⟩
def EMUL : Fld := ⟨0x078, 0, 32⟩
def ESH : Fld := ⟨0x07c, 0, 6⟩
def ADV : Fld := ⟨0x07c, 8, 16⟩
def EOFS : Fld := ⟨0x080, 0, 32⟩
def IDREF : Fld := ⟨0x084, 0, 32⟩
def FELIM : Fld := ⟨0x088, 0, 32⟩
def HDEC : Fld := ⟨0x08c, 0, 32⟩
def FZV : Fld := ⟨0x090, 0, 16⟩
def FZI : Fld := ⟨0x090, 16, 16⟩
def DTC : Fld := ⟨0x094, 0, 16⟩
def DTI : Fld := ⟨0x094, 16, 16⟩
def IDXPER : Fld := ⟨0x098, 0, 32⟩
def IDXREF : Fld := ⟨0x09c, 0, 32⟩
def IDXTOL : Fld := ⟨0x0a0, 0, 16⟩
def IDXPOL : Fld := ⟨0x0a0, 16, 2⟩
def IDXDEV : Fld := ⟨0x0a4, 0, 32⟩
def IDXSHF : Fld := ⟨0x0a8, 0, 32⟩
def DEV : Fld := ⟨0x0ac, 0, 16⟩
def SEEN : Fld := ⟨0x0ac, 16, 16⟩
def OBK1 : Fld := ⟨0x0b0, 0, 32⟩
def OBK2 : Fld := ⟨0x0b4, 0, 32⟩
def OBKE : Fld := ⟨0x0b8, 0, 32⟩
def OBKP : Fld := ⟨0x0bc, 0, 32⟩
def OBKI : Fld := ⟨0x0c0, 0, 32⟩
def OBR : Fld := ⟨0x0c4, 0, 32⟩
def OBWSC : Fld := ⟨0x0c8, 0, 32⟩
def OBMINV : Fld := ⟨0x0cc, 0, 16⟩
def OBTOL : Fld := ⟨0x0cc, 16, 16⟩
def OBDEC : Fld := ⟨0x0d0, 0, 32⟩
def OBTMAX : Fld := ⟨0x0d4, 0, 16⟩
def MKIND : Fld := ⟨0x0d8, 0, 3⟩
def MFLT : Fld := ⟨0x0d8, 3, 1⟩
def MIDX : Fld := ⟨0x0d8, 8, 8⟩
def GRAMP : Fld := ⟨0x0d8, 16, 16⟩
def PT : Fld := ⟨0x0dc, 0, 17⟩
def GNUM : Fld := ⟨0x0e0, 0, 32⟩
def GDEN : Fld := ⟨0x0e4, 0, 32⟩
def CAM : Fld := ⟨0x0e8, 0, 12⟩
def PLIMLOLO : Fld := ⟨0x0f0, 0, 32⟩
def PLIMLOHI : Fld := ⟨0x0f4, 0, 32⟩
def PLIMHILO : Fld := ⟨0x0f8, 0, 32⟩
def PLIMHIHI : Fld := ⟨0x0fc, 0, 32⟩
def SAX : Fld := ⟨0x300, 0, 8⟩
def QSEL : Fld := ⟨0x300, 8, 3⟩
def INJ : Fld := ⟨0x300, 12, 2⟩
def TEN : Fld := ⟨0x300, 15, 1⟩
def CPLG : Fld := ⟨0x304, 0, 32⟩
def ENTRY : Fld := ⟨0x340, 0, 16⟩
def BUDGET : Fld := ⟨0x340, 16, 12⟩
def HEN : Fld := ⟨0x340, 31, 1⟩
def KPP : Fld := ⟨0x100, 0, 32⟩
def KVFF : Fld := ⟨0x104, 0, 32⟩
def KAFF : Fld := ⟨0x108, 0, 32⟩
def KVP : Fld := ⟨0x10c, 0, 32⟩
def KVI : Fld := ⟨0x110, 0, 32⟩
def KIP : Fld := ⟨0x114, 0, 32⟩
def KII : Fld := ⟨0x118, 0, 32⟩
def LD : Fld := ⟨0x11c, 0, 32⟩
def LQ : Fld := ⟨0x120, 0, 32⟩
def PSI : Fld := ⟨0x124, 0, 32⟩
def VLIM : Fld := ⟨0x128, 0, 32⟩
def IQLIM : Fld := ⟨0x12c, 0, 32⟩
def VMAX : Fld := ⟨0x130, 0, 32⟩
def BQEN : Fld := ⟨0x134, 0, 4⟩
def BQ0 : Fld := ⟨0x140, 0, 32⟩
def BQ1 : Fld := ⟨0x240, 0, 32⟩
def PACTLO : Fld := ⟨0x400, 0, 32⟩
def PACTHI : Fld := ⟨0x404, 0, 32⟩
def PSETLO : Fld := ⟨0x408, 0, 32⟩
def PSETHI : Fld := ⟨0x40c, 0, 32⟩
def VACT : Fld := ⟨0x410, 0, 32⟩
def VREF : Fld := ⟨0x414, 0, 32⟩
def IDACT : Fld := ⟨0x418, 0, 32⟩
def IQACT : Fld := ⟨0x41c, 0, 32⟩
def IQREF : Fld := ⟨0x420, 0, 32⟩
def THETA : Fld := ⟨0x424, 0, 32⟩
def THOBS : Fld := ⟨0x428, 0, 32⟩
def WOBS : Fld := ⟨0x42c, 0, 32⟩
def UDCPU : Fld := ⟨0x430, 0, 32⟩
def DA : Fld := ⟨0x434, 0, 16⟩
def DB : Fld := ⟨0x434, 16, 16⟩
def DC : Fld := ⟨0x438, 0, 16⟩
def CSEQ : Fld := ⟨0x438, 16, 8⟩
def FERR : Fld := ⟨0x43c, 0, 32⟩
def STALEC : Fld := ⟨0x440, 0, 8⟩
def FROZC : Fld := ⟨0x440, 8, 8⟩
def HOLDS : Fld := ⟨0x440, 16, 16⟩
def HKMAX : Fld := ⟨0x444, 0, 12⟩
end AXP

end Sys2Proof.Machine
end

