-- ==== Sys2Proof/Machine/State.lean ====
section
/-! DEFINITION. The state of the block, as plain data; the machine right after reset; and the reasons a step can stop.

`State` holds the queue of waiting commands, the one-time fuses, and the device `Dev`. `Dev.regs` holds every register of
every page (R562) by page, window selection and offset, in one canonical form: an unlisted register reads its reset value. What
a register shows has its home there; the records below hold what the spec gives the machine beside its registers. -/
namespace Sys2Proof.Machine

/-- Why the block stops with a fault. No command of this block ends so: the type is empty of reasons by the spec, which
gives every command an effect or none (safe). -/
inductive Fault where
  /-- Never raised by any command of this model (safe). -/
  | none
deriving DecidableEq, Repr

/-- Why a step is refused. -/
inductive Refusal where
  /-- Raised by `exec` for a command whose meaning is not written; no arm of this model raises it (safe: the step stops). -/
  | notModelled (mnemonic : String)
deriving DecidableEq, Repr

/-! ## Engine pairs and the task scheduler (spec/08, spec/09) -/

/-- One active level of the loop stack (R325, R326): first and last word of the block, passes left, the call depth at which
its REP ran, and whether BRKL has ended it (R327). -/
structure LoopLevel where
  first : BitVec 16
  last : BitVec 16
  count : Nat
  depth : Nat
  leave : Bool
deriving DecidableEq, Repr

/-- The divide step (R324): partial remainder, divisor, the dividend bits still to come, the mode, and the signs of the
quotient and of the dividend. -/
structure Divider where
  rem : Nat
  dvs : Nat
  dvd : Nat
  integer : Bool
  qneg : Bool
  aneg : Bool
deriving DecidableEq, Repr

/-- The register classes MOVA writes. -/
inductive AddrClass where
  | a | m | l
deriving DecidableEq, Repr

/-- The architectural state of a pair (*Engine registers*, spec/08; both engines of a pair hold the same). -/
structure Eng where
  D : Vector Word 16
  A : Vector Word 8
  M : Vector Word 8
  L : Vector Word 8
  AC : Vector (BitVec 72) 4
  SR : Word
  SCL : Word
  BEXP : Word
  ICNT : Word
  KCYC : Word
  TID : Word
  ARG : Word
  AXN : Word
  /-- The loop stack, innermost level first. -/
  loops : List LoopLevel
  /-- The call stack, newest return address first. -/
  calls : List (BitVec 16)
  div : Divider
  pc : BitVec 16
  /-- A MOVA issued by the previous instruction, not yet in effect for addresses (R328). -/
  mova : Option (AddrClass × Fin 8 × Word)
deriving DecidableEq, Repr

/-- Every register 0, BEXP 31 (R330). -/
def Eng.zero : Eng :=
  { D := Vector.replicate 16 0, A := Vector.replicate 8 0, M := Vector.replicate 8 0, L := Vector.replicate 8 0,
    AC := Vector.replicate 4 0, SR := 0, SCL := 0, BEXP := 31, ICNT := 0, KCYC := 0, TID := 0, ARG := 0, AXN := 0,
    loops := [], calls := [], div := ⟨0, 0, 0, false, false, false⟩, pc := 0, mova := none }

/-- What a pair is running. -/
inductive Running where
  | nothing
  /-- An instance of a user or device task: task number and sequence number. -/
  | task (task seq : Nat)
deriving DecidableEq, Repr

/-- One engine pair: its registers and what it runs. -/
structure Pair where
  eng : Eng
  running : Running
  /-- PSTATE before HALT: whether a task was running (R348). -/
  wasRun : Bool
  /-- Instructions issued in the present cycle (shown by CISS at its end). -/
  issued : Nat
  /-- REVIVE, not BIST, is what put the pair into TEST (R346, R376). -/
  reviving : Bool
deriving DecidableEq, Repr

def Pair.off : Pair := ⟨Eng.zero, .nothing, false, 0, false⟩

/-- The states an instance of a task goes through (R351, R365, R366). `ended` waits for its turn of release. -/
inductive InstState where
  | pending | ready | running | preempted
  | ended (ok : Bool)
deriving DecidableEq, Repr

/-- An instance of a user or device task. -/
structure Inst where
  task : Nat
  /-- Sequence number in its flow (R365); 0 outside flows. -/
  seq : Nat
  state : InstState
  /-- ST at which it became READY. -/
  ready : Nat
  /-- The pair that runs or ran it. -/
  pair : Option Nat
deriving DecidableEq, Repr

/-- The configuration of a user task as adopted (R378). -/
structure TaskCfg where
  tctl : Word
  trun : Word
  ttrig : Word
  targ : Word
deriving DecidableEq, Repr

/-- A write to TCTL, TRUN, TTRIG or TARG of a task that is not adopted yet, and the cycle whose tick is the earliest to adopt it
(R378). -/
structure TaskDue where
  task : Nat
  off : Nat
  value : Word
  cycle : Nat
deriving DecidableEq, Repr

/-- The three trigger flags of a user task (R354). -/
structure TaskFlags where
  task : Nat
  a : Bool
  b : Bool
  c : Bool
deriving DecidableEq, Repr

/-- The saved context of a switched-out instance (R331, R334). -/
structure Context where
  task : Nat
  seq : Nat
  eng : Eng
deriving DecidableEq, Repr

/-- The task scheduler beside its registers. -/
structure Tsu where
  insts : List Inst
  cfg : List (Nat × TaskCfg)
  due : List TaskDue
  flags : List TaskFlags
  ctx : List Context
  /-- The pair of each assigned axis table (R36). -/
  assign : List (Nat × Nat)
  /-- Working pairs and spare pairs now (R371, R372, R376). -/
  work : List Nat
  spare : List Nat
  /-- The time at which the last axis task of the cycle ended, and whether one missed (R368). -/
  lastDone : Option Nat
  /-- Axis tables whose task of the present cycle has ended (R359, R368). -/
  ended : List Nat
  /-- Axis tables whose task of the present cycle became READY, in order of readiness (R357, R373). -/
  order : List Nat
  /-- Tasks that ended FAILED and were not triggered since (R351). -/
  failed : List Nat
deriving DecidableEq, Repr

def Tsu.reset : Tsu := ⟨[], [], [], [], [], [], [], [], none, [], [], []⟩

/-! ## Axis control, Season unit, profiles (spec/05, spec/06, spec/07) -/

/-- An axis record as a frame or a local channel delivers it (*Axis record*, R86). -/
structure AxRec where
  seq : Nat
  idxv : Bool
  latv : Bool
  fberr : Bool
  linef : Bool
  pstf : Bool
  ia : Int
  ib : Int
  ic : Int
  udc : Nat
  temp : Nat
  pos : Nat
  postof : Int
  lpos : Nat
  ltim : Int
  aux : Nat
  nstat : Nat
  cmpf : Nat
deriving DecidableEq, Repr, Inhabited

def AxRec.zero : AxRec := ⟨0, false, false, false, false, false, 0, 0, 0, 0, 0, 0, 0, 0, 0, 0, 0, 0⟩

/-- Delay states of a biquad (R187). -/
structure Biquad where
  x1 : Int
  x2 : Int
  y1 : Int
  y2 : Int
deriving DecidableEq, Repr, Inhabited

def Biquad.zero : Biquad := ⟨0, 0, 0, 0⟩

/-- A command record of an axis (R85, R214). -/
structure CmdRec where
  hold : Bool
  moor : Bool
  en : Bool
  brk : Bool
  cmpv : Bool
  cmpo : Nat
  cseq : Nat
  da : Nat
  db : Nat
  dc : Nat
  cmpt : Nat
deriving DecidableEq, Repr, Inhabited

/-- The command record of a MOORED axis (*Command record by state*). -/
def CmdRec.moored (cseq : Nat) : CmdRec := ⟨false, true, false, false, false, 0, cseq, 0, 0, 0, 0⟩

/-- What other tables read of a table's last commit (R181, R196, R236, R508): p_act with its change, p_act as IN formed it,
p_set, v_set, iq_ref, iq, pofs, whether its record was fresh, its state, and the set-point staged by the generator with the one
before. -/
structure Export where
  pAct : Int
  pIn : Int
  dp : Int
  pSet : Int
  vSet : Int
  iqRef : Int
  iQ : Int
  pofs : Int
  fresh : Bool
  state : Nat
  staged : Int
  stagedPrev : Int
deriving DecidableEq, Repr, Inhabited

def Export.zero : Export := ⟨0, 0, 0, 0, 0, 0, 0, 0, false, 0, 0, 0⟩

/-- The state of an axis table that the kernel keeps from cycle to cycle, beside the registers of its AXP page
(R167, R173 to R221). Positions are in LSB of Q47.16, per-unit values in LSB of Q1.31. -/
structure AxDyn where
  /-- The last record written, and whether one was written in the present cycle (R15). -/
  rcd : AxRec
  arrived : Bool
  /-- Position, index and latch of a table whose position is local, as sampled at the tick (R174, R396, R405). -/
  loc : AxRec
  /-- The fresh record that IN took last; a latch of channel HLAT, as LPOS − COUNT, of the cycle before the present tick and of
  the one before (R279). -/
  used : AxRec
  latNow : Option Int
  latUsed : Option Int
  /-- The task of the cycle is READY (R353); cleared when it ends. -/
  ready : Bool
  /-- ST at which it became READY. -/
  readyTime : Nat
  /-- A fresh record was received since the table was configured (R178). -/
  seen : Bool
  /-- The latest record was fresh (R225); cycles without one, in a row. -/
  fresh : Bool
  staleRun : Nat
  /-- REC_LOST was raised in the present run of such cycles (R178). -/
  recLost : Bool
  cseq : Nat
  /-- Last fresh record's flags (R225). -/
  badRec : Bool
  posRaw : Nat
  pEnc : Int
  pofs : Int
  pAct : Int
  dp : Int
  vAct : Int
  /-- p_act as and v_act as IN formed them in the last task, before any hook (R182). -/
  pIn : Int
  vIn : Int
  ia : Int
  ib : Int
  ic : Int
  udc : Int
  theta : Nat
  /-- The angle MOD used and its step (R192, R177). -/
  modTh : Nat
  dTh : Int
  pSet : Int
  vSet : Int
  aSet : Int
  vRef : Int
  iD : Int
  iQ : Int
  iqRef : Int
  vd : Int
  vq : Int
  sV : Int
  sD : Int
  sQ : Int
  bq : Vector Biquad 4
  uAl : Int
  uBe : Int
  ihAl : Int
  ihBe : Int
  eAl : Int
  eBe : Int
  wInt : Int
  wO : Int
  thO : Nat
  /-- Cycles in a row outside and inside OBTOL, and the diverged condition (R200). -/
  obBad : Nat
  obGood : Nat
  diverged : Bool
  da : Nat
  db : Nat
  dc : Nat
  ferr : Int
  /-- Observer braking (R219), and the quick stop (R220). -/
  wRef : Int
  brakeN : Nat
  qsP : Int
  qsU : Int
  /-- Cycles sent with BRK = 0 at the end of a stop; cycles to go with BRK = 0 after ENABLE (R214). -/
  brkOnN : Nat
  brkOffN : Nat
  /-- STOPPING leads to MOORED (DISABLE), not to READY (HALT). -/
  disabling : Bool
  /-- The stop was accepted in the present task (R271), and in READY. -/
  stopNow : Bool
  stopReady : Bool
  /-- Gearing: cycles since START and remainder (R181); cam origin (R183). -/
  gearN : Nat
  gearRem : Int
  camOrg : Int
  /-- The safe chain held STOP in the last task (*Axis faults*, 0x07). -/
  stopSeen : Bool
  /-- Faults noted between tasks for the next task to detect. -/
  pend : List Nat
  /-- The command record of the present cycle, when its task has committed one. -/
  cmd : Option CmdRec
  /-- The last cycle whose command was sent with HOLD (R41, R47, R199). -/
  holdAt : Option Nat
  /-- The committed state at the start of the present cycle was MOORED (R41). -/
  wasMoored : Bool
  /-- The state in which the task of the present cycle finds the axis, before the commands of the task (R196). -/
  began : Nat
  /-- The feeding station was muted when last looked at (*Axis faults*, 0x03). -/
  wasMuted : Bool
  /-- A mooring parameter, a start parameter is written and not yet adopted (R205). -/
  chgMoor : Bool
  chgStart : Bool
  /-- Firings expected in CMPF (R403), as 16 × cycle + ring compare unit, and CMPF of the last fresh record. -/
  fired : List Nat
  cmpf : Nat
  /-- Ring compare units whose arming the present task adopted (R402). -/
  just : List Nat
  /-- The values of the last commit, as other tables read them in the present cycle. -/
  ex : Export
deriving DecidableEq, Repr, Inhabited

def AxDyn.reset : AxDyn :=
  { rcd := AxRec.zero, arrived := false, loc := AxRec.zero, used := AxRec.zero, latNow := none, latUsed := none,
    ready := false, readyTime := 0, seen := false, fresh := false, staleRun := 0, recLost := false, cseq := 0,
    badRec := false, posRaw := 0, pEnc := 0, pofs := 0, pAct := 0, dp := 0, vAct := 0, pIn := 0, vIn := 0,
    ia := 0, ib := 0, ic := 0, udc := 0, theta := 0, modTh := 0, dTh := 0, pSet := 0, vSet := 0, aSet := 0, vRef := 0,
    iD := 0, iQ := 0, iqRef := 0, vd := 0, vq := 0, sV := 0, sD := 0, sQ := 0, bq := Vector.replicate 4 Biquad.zero,
    uAl := 0, uBe := 0, ihAl := 0, ihBe := 0, eAl := 0, eBe := 0, wInt := 0, wO := 0, thO := 0, obBad := 0, obGood := 0,
    diverged := false, da := 0, db := 0, dc := 0, ferr := 0, wRef := 0, brakeN := 0, qsP := 0, qsU := 0, brkOnN := 0,
    brkOffN := 0, disabling := false, stopNow := false, stopReady := false, gearN := 0, gearRem := 0, camOrg := 0, stopSeen := false,
    pend := [], cmd := none, holdAt := none, wasMoored := false, began := 0, wasMuted := false, chgMoor := false,
    chgStart := false, fired := [], cmpf := 0, just := [], ex := Export.zero }

/-- The Season state of an axis table beside the window registers of the SEA page (R237 to R255). -/
structure Season where
  /-- The last injection indices, newest first, each with its valid bit (R237). -/
  hist : List (Nat × Bool)
  /-- Tasks in which SEA ran since MOORED or since OFF (R239). -/
  m : Nat
  /-- Tasks of learning suspension to go (R253, R254). -/
  susp : Nat
  /-- The cycle in which RESET or COPY ends, and the source of a COPY (R250). -/
  ends : Option Nat
  source : Option Nat
  /-- pofs of the phase-source table as last seen (R253). -/
  pofs : Int
  /-- The injection index of the present cycle and its valid bit (R236, R237). -/
  idx : Nat
  ok : Bool
  /-- A structural register is written and not yet adopted (R251). -/
  chg : Bool
deriving DecidableEq, Repr, Inhabited

def Season.reset : Season := ⟨[], 0, 0, none, none, 0, 0, false, false⟩

/-- A move descriptor (R265 to R267): KIND, DWELL, MVEL as written, MTGT. -/
structure MoveDesc where
  kind : Nat
  dwell : Nat
  mvel : Nat
  mtgt : Int
deriving DecidableEq, Repr, Inhabited

/-- What the profile generator runs for an axis table. -/
inductive Motion where
  | none
  /-- A move of a descriptor; `done` once it has reached its end and its dwell counts. -/
  | move (d : MoveDesc) (done : Bool)
  /-- A stop of R271. -/
  | stop
  | homing
  /-- A member of a path group. -/
  | group (g : Nat)
deriving DecidableEq, Repr, Inhabited

/-- A switch of R276: its level as last debounced and the cycles the input has differed from it. -/
structure Switch where
  level : Bool
  raw : Bool
  run : Nat
deriving DecidableEq, Repr, Inhabited

/-- What homing is doing (R278, R282). -/
inductive HomeStep where
  /-- The first line: decide what to search. -/
  | begin'
  /-- Search until the home switch reads the wanted level; the edge gives the reference when `mark` holds. -/
  | switch (dir : Int) (slow level mark : Bool)
  /-- Search for the first index. -/
  | index (dir : Int)
  /-- Search for a stall against a stop. -/
  | hardStop (dir : Int)
  /-- A stop, then the next step. 0 the first line; 1 search in HDIR; 2 after the first edge; 3 after the exit edge; 4 the end;
  5 reversed search; 6 reversed index search. -/
  | halt (next : Nat)
  /-- The final move by HBACK. -/
  | back
deriving DecidableEq, Repr, Inhabited

/-- Homing (R278 to R284): its step, the direction of the search a reversal turned round, whether a reversal was made, the
reference, the latch candidate of an unconfirmed edge, cycles run, undebounced transitions as (cycle, number) (newest first),
where the index search began, stall cycles. -/
structure Homing where
  step : HomeStep
  dir : Int
  reversed : Bool
  ref : Option Int
  edge : Bool
  cand : Option Int
  cycles : Nat
  chatter : List (Nat × Nat)
  start : Int
  stall : Nat
deriving DecidableEq, Repr, Inhabited

def Homing.reset : Homing := ⟨.begin', 1, false, none, false, none, 0, [], 0, 0⟩

/-- The profile generator's state of an axis table, in the units of R260. -/
structure Prof where
  p : Int
  v : Int
  a : Int
  run : Motion
  /-- Frame sign, target and base of the running move (R262, R265). -/
  s : Int
  x : Int
  lastTgt : Option Int
  /-- Deceleration in force (R273). -/
  dmx : Int
  dwell : Nat
  queue : List MoveDesc
  /-- p_set staged for the present cycle, and for the one before (R261). -/
  staged : Int
  stagedPrev : Int
  limN : Switch
  limP : Switch
  home : Switch
  hom : Homing
  /-- Ladder level and angle (R294, R295). -/
  level : Nat
  ladTh : Nat
  /-- A stop or limit stop uses HDEC in place of SDECP (R277). -/
  hard : Bool
deriving DecidableEq, Repr, Inhabited

def Prof.reset : Prof :=
  { p := 0, v := 0, a := 0, run := .none, s := 1, x := 0, lastTgt := Option.none, dmx := 0, dwell := 0, queue := [], staged := 0,
    stagedPrev := 0, limN := ⟨false, false, 0⟩, limP := ⟨false, false, 0⟩, home := ⟨false, false, 0⟩, hom := Homing.reset,
    level := 0, ladTh := 0, hard := false }

/-- A path segment as accepted (R285 to R288): its number in the ring, KIND, plane members, FEED, centre and changes in
counts, where each member starts (LSB of Q47.16), its length and the part of it that the arc gives, its swept angle (radians in
units of 2^−96), its speed cap and junction speed to the segment before in the units of R260, the cycle from which it may be
executed, whether its planning is complete, whether it is a segment error. -/
structure PathSeg where
  idx : Nat
  kind : Nat
  first : Nat
  second : Nat
  feed : Nat
  ci : Int
  cj : Int
  delta : List Int
  start : List Int
  len : Nat
  angle : Nat
  cap : Int
  vj : Int
  cycle : Nat
  planned : Bool
  bad : Bool
deriving DecidableEq, Repr, Inhabited

/-- What a path group and its members' points were before the step of a cycle (R289): the cycle, the segments, the point of the
path with speed and acceleration, the dwell run, STARVED, the members' points. -/
structure GroupWas where
  cycle : Nat
  segs : List PathSeg
  s : Int
  u : Int
  c : Int
  dwell : Nat
  starved : Bool
  points : List Int
deriving DecidableEq, Repr, Inhabited

/-- A path group (R285 to R292) beside its PGRP page. -/
structure Group where
  /-- Axis tables of the members; a member that was lost keeps its place with 256. -/
  mem : List Nat
  segs : List PathSeg
  /-- Where each member ends after the last accepted segment. -/
  tail : List Int
  /-- Path length travelled in the first of `segs`, speed and acceleration along the path. -/
  s : Int
  u : Int
  c : Int
  /-- A member fault, GABORT or a segment error ends the group at rest. -/
  stopping : Bool
  /-- Cycles spent in a running dwell. -/
  dwell : Nat
  /-- STARVED was posted for the present end of the plan. -/
  starved : Bool
  /-- On a standby, what the present cycle began with, for a PLATE decision that comes after the tick. -/
  was : Option GroupWas
deriving DecidableEq, Repr, Inhabited

def Group.reset : Group := ⟨[], [], [], 0, 0, 0, false, 0, false, none⟩

/-- A command recorded with BUSY that waits for its evaluation (R212, R249, R268, R380): page, code, argument, cycle of its
evaluation, and the descriptor as it stood (R269). -/
structure DueCmd where
  page : Nat
  code : Nat
  arg : Nat
  cycle : Nat
  desc : MoveDesc
deriving DecidableEq, Repr

/-- A register value written and not yet adopted (R205, R251, R272, R401): the axis table whose task adopts it, page, window,
offset, value, cycle. -/
structure DueWrite where
  axis : Nat
  page : Nat
  sel : Nat
  off : Nat
  value : Word
  cycle : Nat
deriving DecidableEq, Repr

/-- A position sampled at the tick: of this cycle and of the one before. -/
structure Sampled where
  now : Int
  prev : Int
  old : Int
deriving DecidableEq, Repr

def Sampled.zero : Sampled := ⟨0, 0, 0⟩

/-- A register that an evaluation changes: page, window, offset, the word before and after. -/
structure RegChange where
  page : Nat
  sel : Nat
  off : Nat
  before : Word
  after : Word
deriving DecidableEq, Repr

/-- What the axis task of a cycle has evaluated and adopted before its commit (R43, R212): table, cycle, the registers it changes,
its axis, Season and profile state, the path groups it changes, the events it will post (page, PEVT bit, argument). -/
structure AxAhead where
  axis : Nat
  cycle : Nat
  regs : List RegChange
  ax : AxDyn
  sea : Season
  prof : Prof
  grps : List (Nat × Group)
  posts : List (Nat × Nat × Nat)
deriving DecidableEq, Repr

/-- The motion state of the device: axis tables, Season states, profiles, path groups, what waits for evaluation or adoption,
what tasks have evaluated and not committed, the masters sampled at the tick (R182), and, while a joining head computes a cycle of
the past, the input area as published at its tick (R520). -/
structure Motor where
  ax : Vector AxDyn 256
  sea : Vector Season 256
  prof : Vector Prof 256
  grp : Vector Group 8
  cmds : List DueCmd
  writes : List DueWrite
  ahead : List AxAhead
  fbu : Vector Sampled 8
  pulse : Vector Sampled 4
  ain : Vector Sampled 32
  image : Option (List Host.Cell)
deriving DecidableEq, Repr

def Motor.reset : Motor :=
  { ax := Vector.replicate 256 AxDyn.reset, sea := Vector.replicate 256 Season.reset,
    prof := Vector.replicate 256 Prof.reset, grp := Vector.replicate 8 Group.reset, cmds := [], writes := [], ahead := [],
    fbu := Vector.replicate 8 Sampled.zero, pulse := Vector.replicate 4 Sampled.zero,
    ain := Vector.replicate 32 Sampled.zero, image := none }

/-- Everything that kernel, profile generator and Season unit keep for an axis table between cycles (R504): their states, the path
groups it belongs to, and its status words (page, window, offset, word). -/
structure TableState where
  ax : AxDyn
  sea : Season
  prof : Prof
  grps : List (Nat × Group)
  words : List (Nat × Nat × Nat × Word)
deriving DecidableEq, Repr, Inhabited

/-! ## Local I/O and the safe chain (spec/10) -/

/-- A change of the level of an input line that the glitch filter has not passed yet (R384): line, new level, time. -/
structure Held where
  line : Nat
  level : Bool
  t : Nat
deriving DecidableEq, Repr

/-- A local compare unit beside its registers (R397 to R399): the change of COUNT that made its last hit; the time of its last
output edge at a firing, and its tag (CTAG); the level of its output before CINV; armed with CNUM = 0. -/
structure Compare where
  span : Option (Int × Int)
  last : Nat
  tag : Nat
  active : Bool
  endless : Bool
deriving DecidableEq, Repr

def Compare.reset : Compare := ⟨none, 0, 0, false, false⟩

/-- A feedback channel beside its FBU page: input levels after the filter and changes before it, the level of its LAT pin, time
of the last edge of A and of B, previous serial position, whether the frame of the present cycle had a serial error, the
debounced level of its LAT pin, the last change of COUNT (time, up), an index recorded since the last tick, a latch taken since
then, the last valid Hall sector (R386), counts lost at the soft limits (R383), its compare units. -/
structure FbuDyn where
  a : Bool
  b : Bool
  z : Bool
  held : List Held
  pin : Bool
  edgeA : Option Nat
  edgeB : Option Nat
  serial : Option Nat
  serr : Bool
  lat : Bool
  change : Option (Nat × Bool)
  indexed : Bool
  latched : Bool
  hall : Option Nat
  lost : Int
  cmp : Vector Compare 2
deriving DecidableEq, Repr

def FbuDyn.reset : FbuDyn :=
  ⟨false, false, false, [], false, none, none, none, false, false, none, false, false, none, 0, Vector.replicate 2 Compare.reset⟩

/-- A step channel beside its SGC page (R406): direction of the last step, steps of the present cycle, steps emitted, the
direction set-up time taken, the tick of the cycle. -/
structure StepDyn where
  neg : Bool
  m : Nat
  i : Nat
  a : Nat
  tick : Nat
deriving DecidableEq, Repr

/-- A pulse input: its levels after the filter and changes before it, the tags of its last two counted edges and their directions
(R296). -/
structure PulseDyn where
  a : Bool
  b : Bool
  held : List Held
  t1 : Nat
  t2 : Nat
  up1 : Option Bool
  up2 : Option Bool
deriving DecidableEq, Repr

structure LocalIo where
  fbu : Vector FbuDyn 8
  stp : Vector StepDyn 16
  pulse : Vector PulseDyn 4
deriving DecidableEq, Repr

def LocalIo.reset : LocalIo :=
  ⟨Vector.replicate 8 FbuDyn.reset, Vector.replicate 16 ⟨false, 0, 0, 0, 0⟩,
   Vector.replicate 4 ⟨false, false, [], 0, 0, none, none⟩⟩

/-- The safe chain beside its SAF page (R410 to R414): pin levels of the inputs, since when each input has been OK, discrepancies
latched, STO_FB conditions, STODLY timers running, the ST of the last STOP set from a node, the cycle at which a RELEASE is
evaluated. -/
structure Safe where
  pins : Vector (Bool × Bool) 4
  okSince : Vector (Option Nat) 4
  disc : Vector Bool 4
  fbBad : Vector Bool 4
  timer : Vector Bool 4
  nodeStop : Option Nat
  release : Option Nat
deriving DecidableEq, Repr

def Safe.reset : Safe :=
  ⟨Vector.replicate 4 (false, false), Vector.replicate 4 none, Vector.replicate 4 false, Vector.replicate 4 false,
    Vector.replicate 4 false, none, none⟩

/-! ## Measurement front end (spec/11) -/

/-- A converter core beside its MFC page: the due starts of scans, in the order of their triggers; whether the results of the
scan carry LATE (before a scan: whether waking has made it late); step of the entry in progress (0 settling, 1 integrating, 2
rundown, 3 after the result), whether its burn-out test runs; start and length in ns of its aperture, NOLOCK, the gain and
offset it started with; a scan ended by ABORT whose dump still runs; the current codes of the excitation pin (*MFC channel*,
EXC) and of the burn-out source (0 off, 1, 2); the ST at which the step in progress, its rundown, test or dump began. -/
structure Core where
  due : List Nat
  late : Bool
  phase : Nat
  testing : Bool
  t0 : Nat
  capt : Nat
  nolock : Bool
  gain : Int
  offs : Int
  aborted : Bool
  exc : Nat
  burn : Nat
  since : Nat
deriving DecidableEq, Repr

def Core.reset : Core := ⟨[], false, 0, false, 0, 0, false, 0, 0, false, 0, 0, 0⟩

/-- The MFE beside its page: the four cores, the last LINE_SENSE crossing and the last periods in ST LSB (newest first), and
whether the cores wait for the end of a fault of R446. -/
structure Mfe where
  core : Vector Core 4
  crossing : Option Nat
  periods : List Nat
  fault : Bool
deriving DecidableEq, Repr

def Mfe.reset : Mfe := ⟨Vector.replicate 4 Core.reset, none, [], false⟩

/-! ## Stages (spec/14) -/

/-- The pins and the KEEP domain beside the STG page: PORST_N and PERST_N low, PRESENT_N low, KEEPER held after a watchdog drop
(R537), the level HEAD_SEL read at release (R539), the stage the last drop to KEEPER left (R557), the ring of the last foreign
frame, or 4 and 5 for SYS east and west (R557), whether a write of 0 to WDEN is void (R536), the ST from which the
watchdog period runs (R535), and the ST of the last entry to FULL (R537). -/
structure Keep where
  porst : Bool
  perst : Bool
  present : Bool
  wdWait : Bool
  head : Bool
  dropFrom : Nat
  dupAt : Nat
  wdLock : Bool
  kicked : Nat
  full : Nat
deriving DecidableEq, Repr

/-- Power up: PORST_N low, PERST_N high, PRESENT_N not yet read. -/
def Keep.reset : Keep := ⟨true, false, false, false, false, 0, 0, false, 0, 0⟩

/-- The load of an image (R530, R542 to R545): what its sections hold once authenticated, its source (*IMG.SRCUSED*), whether a
LOAD command waits for it, whether the tests of step 1 have ended, whether a GO_FULL waits for its re-verification, and the image
CRC of each pair as found at load. -/
structure Load where
  cfg : Option ImageCfg
  source : Nat
  byCmd : Bool
  tested : Bool
  goFull : Bool
  pairCrc : List (Nat × Word)
deriving DecidableEq, Repr

def Load.reset : Load := ⟨none, 0, false, false, false, []⟩

/-! ## Rings and the system link (spec/03, spec/04) -/

/-- The deviation of a beacon in one cycle (R126). -/
structure BeaconDev where
  sta : Nat
  dev : Int
deriving DecidableEq, Repr

/-- A frame this head launched in the present cycle (R540): slot, SOF bits, payload CRC. -/
structure Launched where
  slot : Nat
  sof : BitVec 56
  crc : Word
deriving DecidableEq, Repr

/-- A geometry (R99): le, lw, ACT, GOK, PTAB0 to PTAB63. -/
structure Geometry where
  le : Nat
  lw : Nat
  act : Nat
  gok : Bool
  ptab : List Word
deriving DecidableEq, Repr

/-- A ranging round of this head (R95 to R97): RID, the cycle of its request, launch time, le and lw, replies (station, DELTA,
FWD). -/
structure Ranging where
  rid : Nat
  cycle : Nat
  le : Option Nat
  lw : Option Nat
  replies : List (Nat × Int × Nat)
deriving DecidableEq, Repr

/-- What waits for an own async slot: a mailbox frame payload, or a ranging payload. -/
inductive AsyncMsg where
  | mail (payload : List Byte)
  /-- A PASSIVE order, which leaves in the async window of its own cycle, before everything else (R157). -/
  | order (payload : List Byte)
  | ranging (payload : List Byte)
deriving DecidableEq, Repr

/-- What the head keeps for a ring beside its RING page. -/
structure RingDyn where
  /-- Cycles since a SYNC frame that names a head role was accepted (R150); cycles in a row whose SYNC frames all read role 0
  (R151); whether a SYNC frame of the present cycle was heard and named one. -/
  headless : Nat
  role0 : Nat
  roleNow : Option Bool
  /-- Slots with an accepted copy, slots with a copy outside its window (R94), stations heard, beacon frames and deviations of the
  present cycle; those of the one before. -/
  accepted : List Nat
  outside : List Nat
  heard : List Nat
  /-- Station and SOF tag of its first AXIS or IO frame accepted in the present cycle (R431). -/
  first : List (Nat × Nat)
  nbs : Nat
  nbsPrev : Nat
  dev : List BeaconDev
  devPrev : List BeaconDev
  /-- Listen timer (R144): the ST at which it started. -/
  listen : Nat
  /-- The nominal geometry of the image (R125, R152); empty before an image. -/
  nom : List Word
  /-- A first accepted deviation beyond ±400 LSB keeps the ring in LISTEN (R154). -/
  far : Bool
  /-- A takeover is due in the next NIT (R151). -/
  takeover : Bool
  /-- Cold start (R146): its first full cycle; COLDSTART frames sent; a frame of higher priority stops sending at the next tick
  (R147). -/
  coldFrom : Nat
  csSent : Nat
  yields : Bool
  /-- The deviation of the frame yielded to, and how far ST steps for it at the tick. -/
  yieldDev : Int
  stepBy : Nat
  /-- The cycle in which the ring entered INTEGRATE; good double cycles in INTEGRATE (R153); double cycles of disagreement
  (R136). -/
  intFrom : Nat
  goodRun : Nat
  disagree : Nat
  /-- The double cycle in which INTEGRATED was last posted (R164). -/
  syncDc : Option Nat
  /-- Muted stations, violation counts by slot, stations whose slots count again from a cycle (R156 to R160). -/
  muted : List Nat
  viol : List (Nat × Nat)
  grace : List (Nat × Nat)
  /-- Own SYNC slot (R161): violated cycles in a row; whether a returning copy of the present cycle lay in or out of its window.
  -/
  ownViol : Nat
  ownSeen : Option Bool
  /-- Returning copies of the present cycle's own SYNC frame accepted on E and on W (R102). -/
  backE : Bool
  backW : Bool
  launched : List Launched
  /-- The head has transmitted on this ring (R540). -/
  everSent : Bool
  queue : List AsyncMsg
  rid : Nat
  /-- A ranging is due (R95); one is due for a loop change alone, which waits while the ring is BROKEN (R101); the round
  running. -/
  wantRange : Bool
  loopMoved : Bool
  ranging : Option Ranging
  /-- The geometry that takes effect at its ACT; it is older than the insertion or resettle under way, which it does not end
  (R105, R107); fragments of a GEO message received so far. -/
  geo : Option Geometry
  geoOld : Bool
  frags : List Byte
  /-- The geometry in force, le, lw and PTAB, while PTAB holds one that is ranged and not in force (R93, R97); `none`: PTAB is in
  force. -/
  kept : Option (Nat × Nat × List Word)
  /-- A ranging is due at once, for an insertion or a withdrawal (R95). -/
  rangeNow : Bool
  /-- Break locations seen since the ring was last whole: station, port (R101). -/
  breaks : List (Nat × Nat)
  /-- The cycle with RCC 63 that ends an announcement of GRANT or WITHDRAW. -/
  grantAt : Option Nat
  /-- INSG accepted in the present cycle: station, withdraw; the change of INSERT due in this NIT (raise or lower). -/
  insg : Option (Nat × Bool)
  insert : Option Bool
  /-- Inserted by grant: only ranging replies are sent until a GEO message with GOK = 1 acts (R105). -/
  txWait : Bool
  /-- Resettle begins at the next tick (R107); cycles in resettle. -/
  resettleNext : Bool
  resettleN : Nat
  /-- Own breaks on E and W (R100). -/
  brokenE : Bool
  brokenW : Bool
  /-- A ranging request being tagged (R96): RID, tE, tW. -/
  rtag : Option (Nat × Option Nat × Option Nat)
  /-- Cycles since the ring left SYNC (R583), saturating at 256. -/
  offline : Nat
  /-- Output sections of the command frame (R85); the payload of the command frame of the present cycle, once built. -/
  outs : List (Byte × Nat × Byte)
  command : Option (List Byte)
  /-- Block lock of E and W has been lost and not regained, with no break found yet (R100). -/
  lostE : Bool
  lostW : Bool
deriving DecidableEq, Repr

def RingDyn.reset : RingDyn :=
  { headless := 255, role0 := 0, roleNow := none, accepted := [], outside := [], heard := [], first := [], nbs := 0,
    nbsPrev := 0, dev := [], devPrev := [],
    listen := 0, nom := [], far := false, takeover := false, coldFrom := 0,
    csSent := 0, yields := false, yieldDev := 0, stepBy := 0, intFrom := 0, goodRun := 0, disagree := 0, syncDc := none,
    muted := [], viol := [], grace := [], ownViol := 0,
    ownSeen := none, backE := false, backW := false, launched := [], everSent := false, queue := [], rid := 0,
    wantRange := false, loopMoved := false, ranging := none, geo := none, geoOld := false, frags := [], kept := none,
    rangeNow := false, breaks := [], grantAt := none, insg := none, insert := none,
    txWait := false, resettleNext := false, resettleN := 0, brokenE := false, brokenW := false, rtag := none, offline := 256,
    outs := [], command := none, lostE := false, lostW := false }

/-- One port of the system link: own measurement (cycle of the neighbour's SYNC frame, m), M of the neighbour (cycle of this
head's SYNC frame, M), offset to the neighbour, its system ID as its SYNC frames give it, HOPS and LIDX of its last PDX message,
cycles since that message, saturating; the own PDX message of the cycle waits for the neighbour's SYNC frame (R137). -/
structure SysPort where
  m : Option (Nat × Int)
  theirs : Option (Nat × Int)
  o : Option Int
  nid : Option Nat
  pdxDue : Bool
  hops : Nat
  lidx : Nat
  age : Nat
  launched : List Launched
  everSent : Bool
deriving DecidableEq, Repr

def SysPort.reset : SysPort := ⟨none, none, none, none, false, 255, 0, 255, [], false⟩

/-- The time base of the head and the system link: miss count (R133), the correction of the double cycle to apply (offset in NIT,
rate from the next tick), whether the last double cycle was good (R153), the ports, the parent's offset one double cycle ago,
double cycles within and beyond the limits of R140, whether the parent's offset lies beyond the limit of R141, what ST heard on a
SYS lane is ahead of the own count (R145), the nominal hop delay of the image. -/
structure TimeBase where
  miss : Nat
  ofsNext : Option Int
  rcorNext : Option Int
  good : Bool
  e : SysPort
  w : SysPort
  oPrev : Option Int
  within : Nat
  beyond : Nat
  far : Bool
  sysOff : Option Int
  hop : Nat
  /-- Super-cycle index at which a new rate takes effect (R53). -/
  rateAt : Option Nat
deriving DecidableEq, Repr

def TimeBase.reset : TimeBase :=
  ⟨0, none, none, false, SysPort.reset, SysPort.reset, none, 0, 0, false, none, 0, none⟩

/-! ## Head pair redundancy (spec/13) -/

/-- A host write or command on its way to a page: page, view (0 page, 1 SET, 2 CLR, 3 TOG), offset, value; the high word where it
writes a 64-bit pair. -/
structure HostWrite where
  page : Nat
  view : Nat
  off : Nat
  value : Word
  high : Option Word
deriving DecidableEq, Repr

/-- An entry of the journal (*Journal entries*) in the form the pages take it. -/
inductive JEntry where
  | write (w : HostWrite)
  | outcome (cycle : Nat) (codes : List (Nat × Nat))
  | plate (group cycle : Nat)
  | pub
  | handover (cycle : Nat)
  | mismatch (axis cycle : Nat)
  | verdict (axis cycle : Nat) (equal : Bool)
  | resync (phase : Nat) (crc : Word)
  | repair (axis cycle : Nat)
deriving DecidableEq, Repr

/-- An entry that waits (R496, R497): the entry, and the marked blocks that must be carried before it. -/
structure JWait where
  entry : JEntry
  after : List Nat
deriving DecidableEq, Repr

/-- A replay (R509, R510): table, cycle of the mismatch, the digest of the first run on this head, verdicts of this head and of
the peer. -/
structure Replay where
  axis : Nat
  cycle : Nat
  digest : Nat
  own : Option Bool
  peer : Option Bool
deriving DecidableEq, Repr

/-- A MIRROR frame of the peer taken in the present cycle (R491): first-half flag, PART, NPART, JSEQ or JACK, journal bytes, COFS,
shared bytes. -/
structure MirrorRx where
  first : Bool
  part : Nat
  parts : Nat
  jnew : Nat
  jseq : Nat
  journal : List Byte
  cofs : Nat
  shared : List Byte
  istart : Nat
deriving DecidableEq, Repr

/-- What the head kept at the tick of a cycle for its histories and mirror buffers (R508): the GPIO levels of the tick, registers,
motion state and memory as the commit before it left them. -/
structure Past where
  cycle : Nat
  gpio : Word
  regs : List (Nat × Word)
  mot : Motor
  mem : List Host.Cell
deriving DecidableEq, Repr

/-- What a joining head stores of a cycle from W on (R520): the input area published at its tick, the records that came (table,
record), the journal entries that landed and the marked blocks that came (address, bytes). -/
structure Stored where
  cycle : Nat
  image : List Host.Cell
  recs : List (Nat × AxRec)
  entries : List JEntry
  blocks : List (Nat × List Byte)
deriving DecidableEq, Repr

/-- What the head keeps for the pair beside its RED page. -/
structure Red where
  /-- The peer in the present cycle: heard at all, its role, its reach, rings it has in SYNC; heard since NIT of the cycle before;
  a COMMAND frame of the cycle before was accepted; cycles since a commanding peer or COMMAND frame was heard. -/
  heard : Bool
  role : Option Nat
  reach : Nat
  syncm : Nat
  sinceNit : Bool
  command : Bool
  commandPrev : Bool
  noCmdr : Nat
  /-- Cycles in a row with 2R > N, with 2R < N, and, ring by ring, outside SYNC on a ring that feeds axes. -/
  more : Nat
  less : Nat
  outRun : Vector Nat 4
  /-- Nodes heard in the present cycle: ring, station. -/
  nodes : List (Nat × Nat)
  /-- The same of the peer, by its mirror headers: cycles with 2 × REACH < N, and outside SYNC on a ring that feeds axes. -/
  peerLess : Nat
  peerOut : Vector Nat 4
  /-- Decisions due: cycle of a HANDOVER; D8, D9, D10; MANDATE; SILENCE. -/
  handover : Option Nat
  d8 : Bool
  d9 : Bool
  d10 : Bool
  mandate : Bool
  silence : Bool
  /-- The ring compare unit that the journal selects (R401, R494). -/
  rsel : Nat
  /-- Journal: entries waiting, entries carried this cycle, bytes of the last cycle and of this one with the sequence number of
  the first, sequence number the peer expects, next one expected from the peer. -/
  wait : List JWait
  carried : List JEntry
  jprev : List Byte
  jnow : List Byte
  jseq : Nat
  jack : Nat
  jexpect : Nat
  /-- Marked blocks: output area and cam region, by byte address; items on their way: the one begun, those taken and repairs;
  captured bulk items; item stream byte count. -/
  dirty : List Nat
  items : List Byte
  bulk : List Byte
  istart : Nat
  /-- Frames of the peer's half, payloads of the own half of the present cycle. -/
  rx : List MirrorRx
  tx : List (List Byte)
  /-- Own digests and freshness by table, of the last cycle and the present one (cycle, table, digest, fresh). -/
  digests : List (Nat × Nat × Nat × Bool)
  /-- Outcomes of the last cycles (cycle, table, code), own and received. -/
  outcomes : List (Nat × Nat × Nat)
  replay : Option Replay
  /-- Repairs pending (table, cycle), cycles of the last repairs (R510), repairs installed (table, cycle of the installation),
  parts of state blocks that have come (4 × table + part). -/
  repairs : List (Nat × Nat)
  repairLog : List Nat
  installed : List (Nat × Nat)
  parts : List Nat
  /-- Histories and mirror buffers, newest first (R508). -/
  past : List Past
  /-- Slice differences and verdicts this standby has to report as reply items. -/
  reply : List Byte
  /-- Resynchronisation: ST at its start, passes made in BULK, cycle W; on the commanding head the bulk blocks sent in the pass
  and whether the snapshot is captured; on the joining head the bulk blocks of units not complete yet, by address, and whether
  every captured block has arrived. -/
  since : Nat
  pass : Nat
  w : Nat
  cursor : Nat
  captured : Bool
  bulkIn : List (Nat × List Byte)
  ready : Bool
  /-- On the joining head: was the image CRC of the peer its own; cycles stored from W on, oldest first, and the present one. On
  both: cycles of CHECK in a row without a mismatch. -/
  same : Option Bool
  stored : List Stored
  opened : Option Stored
  clean : Nat
deriving DecidableEq, Repr

def Red.reset : Red :=
  { heard := false, role := none, reach := 0, syncm := 0, sinceNit := false, command := false, commandPrev := false, noCmdr := 64,
    more := 0, less := 0, outRun := Vector.replicate 4 0, peerLess := 0, peerOut := Vector.replicate 4 0, nodes := [],
    handover := none, d8 := false, d9 := false, d10 := false, mandate := false,
    silence := false, rsel := 0, wait := [], carried := [], jprev := [], jnow := [], jseq := 0, jack := 0, jexpect := 0,
    dirty := [], items := [], bulk := [], istart := 0, rx := [], tx := [], digests := [],
    outcomes := [], replay := none, repairs := [], repairLog := [], installed := [], parts := [], past := [], reply := [],
    since := 0, pass := 0, w := 0,
    cursor := 0, captured := false, bulkIn := [], ready := false, same := none, stored := [], opened := none, clean := 0 }

/-! ## Host paths (spec/15) -/

/-- The latches of an access path (R565): the high word latched by a read (page, offset, value), the held low word, and the ST at
which it was written. -/
structure PathLatch where
  high : Option (Nat × Nat × Word)
  held : Option (Nat × Nat × Word)
  since : Nat
deriving DecidableEq, Repr

/-- A mailbox message in reassembly (R582): key, destination, ring, cycle of the first fragment, tag of the last one, fragments by
index, index of the last fragment once known. -/
structure Reasm where
  key : MailKey
  dst : Nat
  ring : Nat
  cycle : Nat
  tag : Nat
  frags : List (Nat × List Byte)
  last : Option Nat
deriving DecidableEq, Repr

/-- The host interface beside its pages: the two paths, writes that wait for the journal (R600), messages in reassembly, data
bytes of the transmit record at TXR already sent, registers the scrubber has reported (R575). -/
structure HostIf where
  pcie : PathLatch
  spi : PathLatch
  held : List HostWrite
  mail : List Reasm
  txSent : Nat
  reported : List RegRef
deriving DecidableEq, Repr

def HostIf.reset : HostIf := ⟨⟨none, none, 0⟩, ⟨none, none, 0⟩, [], [], 0, []⟩

/-! ## Capture (spec/12) -/

/-- A record, pad or mark of a capture unit that is not yet available (R478): where it starts in the unit's byte count, its
length, its number, and whether it may become available now. -/
structure CapRec where
  start : Nat
  len : Nat
  seq : Nat
  /-- TYPE of the header (R475): 1 record, 2 mark, 3 pad. -/
  kind : Nat
  ready : Bool
  mfail : Bool
  /-- The measurement blocks that its post-processing will write, and where in the record. -/
  blocks : List Byte
  mofs : Nat
deriving DecidableEq, Repr

/-- A capture unit beside its registers. -/
structure CapUnit where
  /-- The open record: byte count of its start, its length, its number. -/
  start : Nat
  len : Nat
  seq : Nat
  /-- Pre-trigger slots stored since arming, and post-trigger slots stored. -/
  pre : Nat
  post : Nat
  /-- Header fields of the open record fixed at its trigger. -/
  precnt : Nat
  prefirst : Nat
  flags : Nat
  t0 : Nat
  /-- Tag of the last slot stored. -/
  tlast : Nat
  /-- When the unit entered ARMED, and when the last record closed. -/
  armedAt : Nat
  closedAt : Nat
  /-- In REARM: the next record is reserved (R466). -/
  reserved : Bool
  /-- Cycles begin to count for this record from this cycle index on (R464). -/
  fromCycle : Nat
  /-- Last value of each channel, where one was taken. -/
  last : List (Option Nat)
  /-- Channels whose first value since arming is not yet stored (R460). -/
  due : List Nat
  /-- Conversion results of the present cycle (tag, channel, value) that are stored at its end (R460). -/
  conv : List (Nat × Nat × Nat)
  /-- Edges of each edge channel since the last sampling instant. -/
  edges : List Nat
  /-- Last outcome of the pattern condition. -/
  pattern : Bool
  /-- Hysteresis state of the threshold: below and above bounds seen since the last crossing of each direction. -/
  wasLow : Bool
  wasHigh : Bool
  /-- Triggers ignored since the previous record closed (R466). -/
  ign : Nat
  /-- Bytes staged and not yet drained (R473). -/
  staged : Nat
  /-- Closed records, pads and marks not yet available, oldest first. -/
  waiting : List CapRec
  /-- Records of this unit whose last byte is not yet copied to the host ring: end count and number (R486). -/
  toCopy : List (Nat × Nat)
deriving DecidableEq, Repr

def CapUnit.reset : CapUnit :=
  ⟨0, 0, 0, 0, 0, 0, 0, 0, 0, 0, 0, 0, false, 0, [], [], [], [], false, false, false, 0, 0, [], []⟩

/-- The capture engine beside its registers. -/
structure Cap where
  units : Vector CapUnit 16
  /-- Level and last edge time of each edge probe. -/
  probes : Vector (Bool × Option Nat) 64
  /-- The time up to which staging has been drained, and bytes drained in the present and start of the 1 ms window. -/
  drained : Nat
  wbytes : Nat
  wstart : Nat
deriving DecidableEq, Repr

def Cap.reset : Cap := ⟨Vector.replicate 16 CapUnit.reset, Vector.replicate 64 (false, none), 0, 0, 0⟩

/-! ## Event unit and host interface (spec/15) -/

/-- The event unit beside its registers: entries written since LOGRESET (R597); for each vector the time of its last message and
whether one is pending (R595); the events of an evaluation under way, which its task posts with its commit (R43). -/
structure EvtUnit where
  lseq : Nat
  lastMsg : Vector (Option Nat) 32
  msgPending : Vector Bool 32
  hold : Option (List (Nat × Nat × Nat))
deriving DecidableEq, Repr

def EvtUnit.reset : EvtUnit := ⟨0, Vector.replicate 32 none, Vector.replicate 32 false, none⟩

/-! ## Outputs -/

/-- What the device sends. -/
inductive Out where
  /-- A frame launched on a lane: its SOF bits, payload and payload CRC (R71). -/
  | frame (lane : Lane) (sof : BitVec 56) (data : List Byte) (crc : Word)
  /-- An ordered set inserted on a lane: code, argument (R75). -/
  | os (lane : Lane) (code : Byte) (arg : BitVec 48)
  /-- An MSI-X message on a vector (R595). -/
  | msix (vec : Nat)
  /-- What a PCI Express read completes with; `none` is a Completer Abort (R569). -/
  | completion (data : Option (List Word))
  /-- The MISO bytes of an SPI frame (R589). -/
  | miso (data : List Byte)
  /-- A DMA write to host memory (R586, R588). -/
  | dma (addr : Nat) (data : List Byte)
  /-- An edge of a compare output, with its tag (R397). -/
  | cmp (pin : Nat) (level : Bool) (t : Nat)
  /-- A step of a step channel: the level of DIR (1 for a step down, inverted by SDINV), the level STEP takes (inverted by SPINV),
  when it begins (R406, R420). -/
  | step (chan : Nat) (dir : Bool) (level : Bool) (t : Nat)
deriving DecidableEq, Repr

/-! ## The device and the machine -/

/-- The device: everything but the queue of commands and the one-time fuses. -/
structure Dev where
  /-- Configuration code of the part (R7). -/
  conf : Nat
  /-- System time ST, in its LSB of 62.5 ps. -/
  st : Nat
  /-- Registers by key (`regKey`), in canonical form. -/
  regs : List (Nat × Word)
  /-- DRAM, shared SRAM and the pairs' local memories, in canonical form. -/
  mem : List Host.Cell
  /-- Bytes of DRAM with an uncorrectable ECC error, until they are written (R13). -/
  bad : List Nat
  /-- What the device has sent out, newest first (the model's own record of its outputs). -/
  out : List Out
  /-- Free values used so far (the model's own counter). -/
  free : Nat
  pairs : Vector Pair 18
  mot : Motor
  tsu : Tsu
  cap : Cap
  evt : EvtUnit
  keep : Keep
  load : Load
  safe : Safe
  io : LocalIo
  mfe : Mfe
  ring : Vector RingDyn 4
  time : TimeBase
  red : Red
  host : HostIf
deriving DecidableEq, Repr

/-- The one-time fuses (R560, R561): factory identity and calibration set with its CRC, the key hash and whether it is
programmed, and the lowest image version accepted. -/
structure Fuse where
  dieId : BitVec 64
  fcal : Vector Word 33
  fcrc : Word
  kset : Bool
  khash : Vector Word 8
  minver : BitVec 6
deriving DecidableEq, Repr

/-- The machine: the commands that wait, first in first out; the fuses; the device. -/
structure State where
  pending : List Instr
  fuse : Fuse
  dev : Dev
deriving DecidableEq, Repr

/-- The device right after PORST_N: every register at its reset value, every memory cleared, nothing sent yet. -/
def Dev.reset (conf : Nat) : Dev :=
  { conf := conf, st := 0, regs := [], mem := [], bad := [], out := [], free := 0,
    pairs := Vector.replicate 18 Pair.off, mot := Motor.reset, tsu := Tsu.reset, cap := Cap.reset, evt := EvtUnit.reset,
    keep := Keep.reset, load := Load.reset, safe := Safe.reset, io := LocalIo.reset, mfe := Mfe.reset,
    ring := Vector.replicate 4 RingDyn.reset, time := TimeBase.reset, red := Red.reset, host := HostIf.reset }

/-- The fuses of a part as shipped, in the model (notes/assumptions/7.md): no key programmed, version 0 accepted, die identity
0, and a factory calibration set of nominal values (every GAIN and DACG 1, as R547 has them) with the CRC of its bytes. -/
def Fuse.reset : Fuse :=
  { dieId := 0, fcal := Vector.ofFn fun (i : Fin 33) => if i.val < 32 ∧ i.val % 2 = 0 then 0x4000_0000#32 else 0#32,
    fcrc := 0xC08C_26A6#32, kset := false, khash := Vector.replicate 8 0, minver := 0 }

/-- The machine right after reset (R529, R538): PORST_N low, full configuration, no command waiting. -/
def State.reset : State := { pending := [], fuse := Fuse.reset, dev := Dev.reset 0 }

end Sys2Proof.Machine
end

