-- ==== Sys2Proof/Machine/Ops.lean ====
section
/-! DEFINITION. The named operations over registers and memory. Every meaning reads and writes registers through `Dev.rd`
and `Dev.wr` (or their windowed forms), memory through `Dev.mem8` and the wider accesses built from it. -/
namespace Sys2Proof.Machine

/-! ## Registers -/

/-- The key of a register: window selection (table, task, flow, unit or probe; 0 where a page has no window), page,
offset. Selections from 0x1000 on hold the adopted copies of a window's registers. -/
def regKey (page sel off : Nat) : Nat := (sel * 1024 + page) * 4096 + off

/-- The page header PID (R563). -/
def pidOf (c : Cls) (page : Nat) : Nat := 0x10 + (page - c.base) * 2 ^ 8 + c.btype * 2 ^ 20

/-- The page header PCAP (R563, *Page index*): JRN, PARC, KEEPD. -/
def pcapOf (c : Cls) : Nat :=
  (match c with
    | .tim | .saf | .tsu | .sgu | .prf | .sea | .pgrp | .axp => 1
    | _ => 0) + 2 +
  (match c with
    | .glb | .stg | .saf | .spm => 4
    | _ => 0)

/-- What a register reads when nothing has been written to it: the reset value of its table; for the fields whose tables
leave it open, the value their text gives (page header R563, IDENT.CONF R7, LPIN and CSRC of a feedback unit); Vector Control of
an MSI-X vector resets to masked, as the PCI Express specification has it (R595, notes/assumptions/43.md). -/
def resetWord (conf page off : Nat) : Word :=
  match clsOf page with
  | none => 0
  | some c =>
    if off = 0x000 then BitVec.ofNat 32 (pidOf c page)
    else if off = 0x004 then BitVec.ofNat 32 (pcapOf c)
    else
      match regRow c off with
      | none => 0
      | some r =>
        let own := page - c.base
        let extra := match c with
          | .glb => if off = GLB.CONF.off then conf % 256 else 0
          | .hif => if 0x800 ≤ off ∧ off < 0xA00 ∧ off % 16 = 12 then 1 else 0
          | .fbu =>
            if off = FBU.LPIN.off then own * 2 ^ FBU.LPIN.lsb
            else if off = FBU.CSRC.off || off = FBU.CSRC.off + 0x20 then own * 2 ^ FBU.CSRC.lsb
            else 0
          | _ => 0
        BitVec.ofNat 32 (r.reset + extra)

/-- Look a key up in a list of registers. -/
def regGet : List (Nat × Word) → Nat → Option Word
  | [], _ => none
  | (k, w) :: l, key => if k = key then some w else regGet l key

/-- Insert a key where it belongs in a sorted list. -/
def regInsert (key : Nat) (v : Word) : List (Nat × Word) → List (Nat × Word)
  | [] => [(key, v)]
  | (k, w) :: l => if key < k then (key, v) :: (k, w) :: l else (k, w) :: regInsert key v l

/-- Set a key in a sorted list of registers; the value `dflt` removes it. -/
def regPut (dflt : Word) (l : List (Nat × Word)) (key : Nat) (v : Word) : List (Nat × Word) :=
  let l := l.filter fun (x : Nat × Word) => x.1 != key
  if v = dflt then l else regInsert key v l

/-- The register at a page, window selection and offset. -/
def Dev.reg (d : Dev) (page sel off : Nat) : Word :=
  match regGet d.regs (regKey page sel off) with
  | some w => w
  | none => resetWord d.conf page off

/-- Write a register. -/
def Dev.setReg (page sel off : Nat) (v : Word) (d : Dev) : Dev :=
  { d with regs := regPut (resetWord d.conf page off) d.regs (regKey page sel off) v }

/-- The row of the register map that a page and an offset name. -/
def rowAt (page off : Nat) : Option RegRow :=
  match clsOf page with
  | some c => regRow c off
  | none => none

/-- The RW bits of a register, and the bits of all its fields that are not RSVD (R6); none where no register stands. -/
def rwBits (page off : Nat) : Nat := ((rowAt page off).map RegRow.rw).getD 0
def fieldBits (page off : Nat) : Nat := ((rowAt page off).map RegRow.bits).getD 0

/-- Write those bits of a register that `mask` names; the others stay. -/
def Dev.takeBits (page sel off mask : Nat) (v : Word) (d : Dev) : Dev :=
  let m := BitVec.ofNat 32 mask
  d.setReg page sel off ((d.reg page sel off &&& ~~~m) ||| (v &&& m))

/-- Give a register its whole content: every field, no RSVD bit (R6). -/
def Dev.putFields (page off : Nat) (v : Word) (d : Dev) : Dev := d.takeBits page 0 off (fieldBits page off) v

/-- Read a field, in a window. -/
def Dev.rdS (d : Dev) (page sel : Nat) (f : Fld) : Nat := bitsOf (d.reg page sel f.off).toNat f.lsb f.width

/-- Write a field, in a window; the value is cut to the field's width. -/
def Dev.wrS (page sel : Nat) (f : Fld) (v : Nat) (d : Dev) : Dev :=
  d.setReg page sel f.off (BitVec.ofNat 32 (putBits (d.reg page sel f.off).toNat f.lsb f.width v))

/-- Read a field. -/
def Dev.rd (d : Dev) (page : Nat) (f : Fld) : Nat := d.rdS page 0 f

/-- Write a field. -/
def Dev.wr (page : Nat) (f : Fld) (v : Nat) (d : Dev) : Dev := d.wrS page 0 f v

/-- Is a field not 0? -/
def Dev.on (d : Dev) (page : Nat) (f : Fld) : Bool := d.rd page f != 0
def Dev.onS (d : Dev) (page sel : Nat) (f : Fld) : Bool := d.rdS page sel f != 0

/-- A field read as a signed number. -/
def Dev.rdI (d : Dev) (page : Nat) (f : Fld) : Int := sxt f.width (d.rd page f)
def Dev.rdIS (d : Dev) (page sel : Nat) (f : Fld) : Int := sxt f.width (d.rdS page sel f)

/-- Write a signed number to a field. -/
def Dev.wrI (page : Nat) (f : Fld) (v : Int) (d : Dev) : Dev := d.wr page f (toBits f.width v)
def Dev.wrIS (page sel : Nat) (f : Fld) (v : Int) (d : Dev) : Dev := d.wrS page sel f (toBits f.width v)

/-- Count up a field that saturates, or one that wraps. -/
def Dev.inc (page : Nat) (f : Fld) (d : Dev) : Dev := d.wr page f (addSat f.width (d.rd page f) 1)
def Dev.incS (page sel : Nat) (f : Fld) (d : Dev) : Dev := d.wrS page sel f (addSat f.width (d.rdS page sel f) 1)
def Dev.incW (page : Nat) (f : Fld) (d : Dev) : Dev := d.wr page f (d.rd page f + 1)
def Dev.incWS (page sel : Nat) (f : Fld) (d : Dev) : Dev := d.wrS page sel f (d.rdS page sel f + 1)

/-- A 64-bit pair: its low word stands at `lo`, its high word 4 above. -/
def Dev.rd64 (d : Dev) (page sel lo : Nat) : Nat := (d.reg page sel lo).toNat + (d.reg page sel (lo + 4)).toNat * 2 ^ 32
def Dev.wr64 (page sel lo v : Nat) (d : Dev) : Dev :=
  (d.setReg page sel lo (BitVec.ofNat 32 v)).setReg page sel (lo + 4) (BitVec.ofNat 32 (v / 2 ^ 32))

/-- Put every register of a page, in every window selection, back to its reset value. -/
def Dev.resetPages (p : Nat → Bool) (d : Dev) : Dev :=
  { d with
    regs := d.regs.filter fun kw => !p (kw.1 / 4096 % 1024)
    host := { d.host with reported := d.host.reported.filter fun r => !p r.page } }

/-- Put one window selection of a page back to reset, from offset `lo` up. -/
def Dev.resetWindow (page sel lo : Nat) (d : Dev) : Dev :=
  { d with regs := d.regs.filter fun kw => !(kw.1 / 4096 == sel * 1024 + page && decide (lo ≤ kw.1 % 4096)) }

/-- Copy one register from one window selection to another. -/
def Dev.copyReg (page sel sel' off : Nat) (d : Dev) : Dev := d.setReg page sel' off (d.reg page sel off)

/-! ## Units a configuration leaves out (R20, R21) -/

/-- Pairs the part has (R20): 18, or 10 in the reduced engine option. -/
def fittedPairs (conf : Nat) : List Nat := if conf % 2 = 0 then List.range 18 else List.range 8 ++ [16, 17]

/-- Is a page one of a unit that is absent? Bit 0 of the configuration code reduces the pairs, bit 1 the rings, bit 2 the system
link, bit 3 the measurement die. -/
def Dev.absent (d : Dev) (page : Nat) : Bool :=
  match clsOf page with
  | some .cep => !(fittedPairs d.conf).contains (page - 0x020)
  | some .ring => bitOf d.conf 1 && decide (0x12 ≤ page)
  | some .sys => bitOf d.conf 2
  | some .mfe => bitOf d.conf 3
  | some .mfc => bitOf d.conf 3
  | _ => false

/-! Page numbers (*Page index*). -/
def pgGLB : Nat := 0x000
def pgSTG : Nat := 0x001
def pgTIM : Nat := 0x002
def pgEVT : Nat := 0x003
def pgHIF : Nat := 0x004
def pgSPM : Nat := 0x005
def pgCAL : Nat := 0x006
def pgOTP : Nat := 0x007
def pgSAF : Nat := 0x008
def pgRED : Nat := 0x009
def pgTSU : Nat := 0x00A
def pgDMC : Nat := 0x00B
def pgRing (r : Nat) : Nat := 0x010 + r
def pgSYS : Nat := 0x014
def pgCep (p : Nat) : Nat := 0x020 + p
def pgMFE : Nat := 0x040
def pgMfc (c : Nat) : Nat := 0x041 + c
def pgCAP : Nat := 0x048
def pgCapu (u : Nat) : Nat := 0x050 + u
def pgFbu (c : Nat) : Nat := 0x060 + c
def pgSGU : Nat := 0x068
def pgSgc (n : Nat) : Nat := 0x070 + n
def pgPRF : Nat := 0x080
def pgSEA : Nat := 0x081
def pgPgrp (g : Nat) : Nat := 0x0C0 + g
def pgAxp (n : Nat) : Nat := 0x100 + n

/-! ## Memory -/

/-- DRAM stands at model address 0, by BAR2 offset (R29). -/
def dramBase : Nat := 0
/-- The shared SRAM stands where the engines see it (R305). -/
def sramBase : Nat := 0x1000_0000
/-- Local memories of pair `p`: program RAM, X data, Y data (R303). -/
def pairBase (p : Nat) : Nat := 0x2000_0000 + p * 0x10_0000
def progBase (p : Nat) : Nat := pairBase p
def xBase (p : Nat) : Nat := pairBase p + 0x2_0000
def yBase (p : Nat) : Nat := pairBase p + 0x3_0000
/-- Axis table `n` in shared SRAM: 12 KB each (R28). -/
def tableBase (n : Nat) : Nat := sramBase + n * 0x3000
/-- Bank `b` of the process image: 512 KB each (R28, R305). -/
def bankBase (b : Nat) : Nat := sramBase + 0x30_0000 + b * 0x8_0000
/-- Regions of DRAM (R29). -/
def dramSeason : Nat := 0x000_0000
def dramCapture : Nat := 0x400_0000
def dramCam : Nat := 0xC00_0000
def dramImage : Nat := 0xD00_0000
def dramStaging : Nat := 0xE00_0000
def dramMailRx : Nat := 0xF00_0000
def dramMailTx : Nat := 0xF40_0000
def dramLog : Nat := 0xF80_0000

/-- What an unlisted byte of memory reads as (notes/assumptions/4.md). -/
def memDefault : Byte := 0

/-- Read a byte of a list of cells. -/
def memGet : List Host.Cell → Nat → Byte
  | [], _ => memDefault
  | (k, b) :: l, a => if k = a then b else memGet l a

/-- Insert a cell where it belongs in a sorted list. -/
def memInsert (a : Nat) (v : Byte) : List Host.Cell → List Host.Cell
  | [] => [(a, v)]
  | (k, b) :: l => if a < k then (a, v) :: (k, b) :: l else (k, b) :: memInsert a v l

/-- Write a byte of a sorted list of cells; the default value removes the cell. -/
def memPut (l : List Host.Cell) (a : Nat) (v : Byte) : List Host.Cell :=
  let l := l.filter fun (x : Host.Cell) => x.1 != a
  if v = memDefault then l else memInsert a v l

/-- The canonical form: addresses strictly rising, no cell at the default value. -/
def Memory.wf : List Host.Cell → Bool
  | [] => true
  | (_, b) :: [] => b != memDefault
  | (k, b) :: (k', b') :: l => b != memDefault && decide (k < k') && Memory.wf ((k', b') :: l)

/-- Read one byte. -/
def Dev.mem8 (d : Dev) (a : Nat) : Byte := memGet d.mem a

/-- Write one byte; the error of a byte ends when it is written. -/
def Dev.setMem8 (a : Nat) (v : Byte) (d : Dev) : Dev := { d with mem := memPut d.mem a v, bad := d.bad.filter fun b => b != a }

/-- Read `n` bytes, the lowest address least significant (notes/assumptions/5.md). -/
def Dev.memLE (d : Dev) (a : Nat) : Nat → Nat
  | 0 => 0
  | n + 1 => (d.mem8 a).toNat + 2 ^ 8 * d.memLE (a + 1) n

/-- Write `n` bytes, the lowest address least significant. -/
def Dev.setMemLE (a : Nat) : Nat → Nat → Dev → Dev
  | 0, _, d => d
  | n + 1, v, d => Dev.setMemLE (a + 1) n (v / 2 ^ 8) (d.setMem8 a (BitVec.ofNat 8 v))

/-- Read `n` bytes in address order. -/
def Dev.memBytes (d : Dev) (a n : Nat) : List Byte := (List.range n).map fun i => d.mem8 (a + i)

/-- Write bytes in address order. -/
def Dev.setMemBytes (a : Nat) : List Byte → Dev → Dev
  | [], d => d
  | b :: bs, d => Dev.setMemBytes (a + 1) bs (d.setMem8 a b)

/-- Write the bytes that are present (byte enables). -/
def Dev.setMemOpt (a : Nat) : List (Option Byte) → Dev → Dev
  | [], d => d
  | none :: bs, d => Dev.setMemOpt (a + 1) bs d
  | some b :: bs, d => Dev.setMemOpt (a + 1) bs (d.setMem8 a b)

/-- Forget every byte of `[lo, hi)`: it reads the default again. -/
def Dev.clearMem (lo hi : Nat) (d : Dev) : Dev :=
  { d with
    mem := d.mem.filter fun c => decide (c.1 < lo) || decide (hi ≤ c.1)
    bad := d.bad.filter fun b => decide (b < lo) || decide (hi ≤ b) }

/-- Does an uncorrectable error lie in the `n` bytes from `a` (R13)? -/
def Dev.badIn (d : Dev) (a n : Nat) : Bool := d.bad.any fun b => decide (a ≤ b) && decide (b < a + n)

/-- Copy `len` bytes from `src` to `dst`. -/
def Dev.copyMem (src dst len : Nat) (d : Dev) : Dev :=
  let cells := d.mem.filter fun (c : Host.Cell) => decide (src ≤ c.1) && decide (c.1 < src + len)
  cells.foldl (fun (d : Dev) (c : Host.Cell) => d.setMem8 (dst + (c.1 - src)) c.2) (d.clearMem dst (dst + len))

/-- Bytes of a number, least significant first. -/
def bytesLE : Nat → Nat → List Byte
  | 0, _ => []
  | n + 1, v => BitVec.ofNat 8 v :: bytesLE n (v / 2 ^ 8)

/-- The number bytes spell, least significant first; and most significant first. -/
def numLE : List Byte → Nat
  | [] => 0
  | b :: bs => b.toNat + 2 ^ 8 * numLE bs
def numBE (bs : List Byte) : Nat := bs.foldl (fun acc b => acc * 2 ^ 8 + b.toNat) 0

/-! ## Time, outputs -/

/-- Let system time advance to `t`; it never runs backwards (R123). -/
def Dev.at (t : Nat) (d : Dev) : Dev := { d with st := max d.st t }

/-- A value the spec leaves open: the next free value, cut to `w` bits (notes/assumptions/9.md). -/
def Dev.openBits (d : Dev) (w : Nat) : Nat := (Config.freeValue d.free).toNat % 2 ^ w

/-- The next free value is used up. -/
def Dev.openUsed (d : Dev) : Dev := { d with free := d.free + 1 }

/-- Record an output. -/
def Dev.emit (o : Out) (d : Dev) : Dev := { d with out := o :: d.out }

/-- A frame or an ordered set leaves on a ring or a SYS port; while HDUP = 1 nothing does (R540). -/
def Dev.transmit (o : Out) (d : Dev) : Dev := if d.on pgSTG STG.HDUP then d else d.emit o

/-- Apply `f` for every number of a list, in order. -/
def Dev.each (l : List Nat) (f : Nat → Dev → Dev) (d : Dev) : Dev := l.foldl (fun d i => f i d) d

/-- The stage (R527): 0 KEEPER, 1 LANTERN, 2 FULL. -/
def Dev.stage (d : Dev) : Nat := d.rd pgSTG STG.STAGE

end Sys2Proof.Machine
end

