-- ==== Sys2Proof/Machine/Flags.lean ====
section
/-! DEFINITION. The status register of an engine and the flag computations (*SR, the status register*, R309, R316 to R320). -/
namespace Sys2Proof.Machine

/-- Bit positions of SR. -/
def srZ : Nat := 0
def srN : Nat := 1
def srC : Nat := 2
def srV : Nat := 3
def srAZ : Nat := 4
def srAN : Nat := 5
def srAG : Nat := 6
def srAOV : Nat := 7
def srSOV : Nat := 8
def srDZ : Nat := 9
def srDOV : Nat := 10
def srASAT : Nat := 11
def srAOVE : Nat := 12
def srRMODE : Nat := 13

/-- The bits a MOVS write may change (R309). -/
def srWritable : Nat := 0x3FFF

/-- A flag of SR. -/
def Eng.flag (e : Eng) (i : Nat) : Bool := bitOf e.SR.toNat i

/-- Write a flag of SR. -/
def Eng.setFlag (i : Nat) (v : Bool) (e : Eng) : Eng := { e with SR := BitVec.ofNat 32 (putBits e.SR.toNat i 1 (b2n v)) }

/-- Set a sticky flag when `v` holds. -/
def Eng.stick (i : Nat) (v : Bool) (e : Eng) : Eng := if v then e.setFlag i true else e

/-- SR as it reads: the stored bits with LDEP and CDEP. -/
def Eng.srRead (e : Eng) : Word :=
  BitVec.ofNat 32 (e.SR.toNat % 2 ^ 14 + e.loops.length * 2 ^ 16 + e.calls.length * 2 ^ 19)

/-- SR written by MOVS (R309). -/
def Eng.srWrite (v : Word) (e : Eng) : Eng := { e with SR := BitVec.ofNat 32 (v.toNat % 2 ^ 14) }

/-- Rounding mode of stores and right shifts. -/
def Eng.rmode (e : Eng) : Bool := e.flag srRMODE

/-- Z and N of a 32-bit result. -/
def Eng.flagsZN (v : Word) (e : Eng) : Eng := (e.setFlag srZ (v == 0)).setFlag srN (v.msb)

/-- AZ, AN and AG of an accumulator result (R316). -/
def Eng.flagsAcc (v : BitVec 72) (e : Eng) : Eng :=
  let top := bitsOf v.toNat 63 9
  ((e.setFlag srAZ (v == 0)).setFlag srAN v.msb).setFlag srAG (!(top == 0 || top == 511))

/-- Sum of two words with an incoming 0 or 1: result, carry out, signed overflow. -/
def addCarry (x y : Word) (cin : Nat) : Word × Bool × Bool :=
  let u := x.toNat + y.toNat + cin
  let s : Int := x.toInt + y.toInt + cin
  (BitVec.ofNat 32 u, decide (2 ^ 32 ≤ u), decide (s < smin 32) || decide (smax 32 < s))

/-- Exact value of an accumulator. -/
def accVal (a : BitVec 72) : Int := a.toInt

/-- An accumulator result brought into range (R317): the value stored, and whether it lay outside. -/
def accFit (asat : Bool) (x : Int) : BitVec 72 × Bool :=
  let out := decide (x < smin 72) || decide (smax 72 < x)
  (BitVec.ofInt 72 (if out && asat then satS 72 x else x), out)

end Sys2Proof.Machine
end

