-- ==== Sys2Proof/Machine/Operands.lean ====
section
/-! DEFINITION. Operand forms of the engine: registers, the data address map, address updates, parallel moves, block
scaling (R303, R305 to R307, R311, R313, R314, R318 to R320, R328). -/
namespace Sys2Proof.Machine

/-- Whose code runs on the pair: that of a user task, of a hook, of the kernel (R305). -/
inductive Code where
  | user | hook | kernel
deriving DecidableEq, Repr

/-- What an instruction sees of its surroundings. -/
structure Env where
  pair : Nat
  code : Code
  /-- RDT is allowed (R338). -/
  nondet : Bool
  /-- A BKPT halts the pair instead of trapping (R343). -/
  halts : Bool
deriving DecidableEq, Repr

/-- A 64-bit register pair or a 32-bit register as an unsigned number (R303: the low word in the even register). -/
def Eng.dReg (e : Eng) (i : BitVec 4) : Word := e.D[i.toNat]'(i.isLt)
def Eng.setD (i : BitVec 4) (v : Word) (e : Eng) : Eng := { e with D := e.D.set i.toNat v i.isLt }
def Eng.aReg (e : Eng) (i : BitVec 3) : Word := e.A[i.toNat]'(i.isLt)
def Eng.setA (i : BitVec 3) (v : Word) (e : Eng) : Eng := { e with A := e.A.set i.toNat v i.isLt }
def Eng.mReg (e : Eng) (i : BitVec 3) : Word := e.M[i.toNat]'(i.isLt)
def Eng.lReg (e : Eng) (i : BitVec 3) : Word := e.L[i.toNat]'(i.isLt)
def Eng.acc (e : Eng) (i : BitVec 2) : BitVec 72 := e.AC[i.toNat]'(i.isLt)
def Eng.setAcc (i : BitVec 2) (v : BitVec 72) (e : Eng) : Eng := { e with AC := e.AC.set i.toNat v i.isLt }

/-- The second operand of a format R instruction. -/
def Eng.op2 (e : Eng) (w : FmtR) : Word := if w.ims then w.imm else e.dReg w.db

/-! ## The data address map -/

/-- Does the program counter name the kernel ROM (*Program address map*)? -/
def inKernelRom (pc : BitVec 16) : Bool := decide (0x8000 ≤ pc.toNat) && decide (pc.toNat < 0xC000)

/-- May control go to a word address: program RAM, and for kernel code the kernel ROM (*Program address map*)? -/
def Code.mayJump (code : Code) (pc : BitVec 16) : Bool := decide (pc.toNat < 0x4000) || (code == .kernel && inKernelRom pc)

/-- A program counter as CPC, CFLT and the window show it: kernel ROM addresses read 0x8000. -/
def pcShown (pc : BitVec 16) : Nat := if inKernelRom pc then 0x8000 else pc.toNat

/-- May `code` access the `len` bytes at `addr`, writing or reading (*Engine data address map*)? -/
def mayAccess (code : Code) (addr len : Nat) (write : Bool) : Bool :=
  let within := fun lo hi => decide (lo ≤ addr) && decide (addr + len ≤ hi)
  (match code with
    | .user => within 0x8000 0xFB00 || within 0x1_8000 0x2_0000
    | .hook => within 0xFB00 0x1_0000
    | .kernel => within 0 0x8000 || within 0xFB00 0x1_0000 || within 0x1_0000 0x1_8000 || within 0x1000_0000 0x10B8_0000) ||
  within 0x1080_0000 0x10B8_0000 ||
  (!write && within 0x1000_0000 0x1030_0000 && decide ((addr - 0x1000_0000) % 0x3000 + len ≤ 0x48))

/-- Where a data address of pair `p` lies in the model's memory. -/
def dataAddr (p addr : Nat) : Nat :=
  if addr < 0x1_0000 then xBase p + addr
  else if addr < 0x2_0000 then yBase p + (addr - 0x1_0000)
  else addr

/-- Is this the committed status of an axis table? Its words are the status registers of the AXP page (R305). -/
def isStatus (addr : Nat) : Bool :=
  decide (0x1000_0000 ≤ addr) && decide (addr < 0x1030_0000) && decide ((addr - 0x1000_0000) % 0x3000 < 0x48)

/-- One byte of the data address space. -/
def Dev.engByte (d : Dev) (p addr : Nat) : Nat :=
  if isStatus addr then
    let n := (addr - 0x1000_0000) / 0x3000
    let o := (addr - 0x1000_0000) % 0x3000
    bitsOf (d.reg (pgAxp n) 0 (0x400 + o / 4 * 4)).toNat (8 * (o % 4)) 8
  else (d.mem8 (dataAddr p addr)).toNat

/-- Read `n` bytes of the data address space. -/
def Dev.engRead (d : Dev) (p addr : Nat) : Nat → Nat
  | 0 => 0
  | n + 1 => d.engByte p addr + 2 ^ 8 * d.engRead p (addr + 1) n

/-- Write one byte of the data address space; kernel code alone writes committed status (R305). -/
def Dev.engPut (p addr v : Nat) (d : Dev) : Dev :=
  if isStatus addr then
    let n := (addr - 0x1000_0000) / 0x3000
    let o := (addr - 0x1000_0000) % 0x3000
    let off := 0x400 + o / 4 * 4
    -- RSVD bits stay 0 (R6)
    d.putFields (pgAxp n) off (BitVec.ofNat 32 (putBits (d.reg (pgAxp n) 0 off).toNat (8 * (o % 4)) 8 v))
  else d.setMem8 (dataAddr p addr) (BitVec.ofNat 8 v)

/-- Write `n` bytes of the data address space. -/
def Dev.engWrite (p addr n v : Nat) (d : Dev) : Dev :=
  if isStatus addr then (List.range n).foldl (fun (d : Dev) (i : Nat) => d.engPut p (addr + i) (v / 2 ^ (8 * i))) d
  else d.setMemLE (dataAddr p addr) n v

/-! ## Sizes, scaling, address updates -/

/-- Access size in bytes of SZ 0 to 3 (R313). -/
def szBytes (sz : BitVec 2) : Nat :=
  match sz.toNat with
  | 0 => 4
  | 1 => 2
  | 2 => 8
  | _ => 2

/-- The signed shift BSC names (*Move field*): positive is left. -/
def bscShift (e : Eng) (bsc : BitVec 3) : Int :=
  match bsc.toNat with
  | 0 => 0
  | 1 => sxt 6 e.SCL.toNat
  | 2 => 1
  | 3 => 2
  | 4 => -1
  | 5 => -2
  | 6 => -4
  | _ => -8

/-- Shift a 32-bit value as a move does (R319): the value, and whether a left shift saturated. -/
def bscApply (rmode : Bool) (x s : Int) : Int × Bool :=
  let y := scaleRnd rmode x s
  (satS 32 y, decide (satS 32 y ≠ y))

/-- The address after an update (*Address updates*, R313). -/
def addrUpdate (e : Eng) (ar : BitVec 3) (upd : BitVec 3) (s : Nat) : Word :=
  let a := e.aReg ar
  let step : Int := match upd.toNat with
    | 1 => s
    | 2 => -s
    | 3 => (e.mReg ar).toInt
    | 4 => s
    | 5 => -s
    | 6 => (e.mReg ar).toInt
    | _ => 0
  let l := (e.lReg ar).toNat
  if 4 ≤ upd.toNat ∧ l ≠ 0 then
    let pw := powCeil l
    let b := a.toNat / pw * pw
    BitVec.ofInt 32 ((b : Int) + (((a.toNat - b : Nat) : Int) + step) % (l : Int))
  else BitVec.ofInt 32 (a.toInt + step)

/-- A value as memory gives it, placed in a 32-bit register (R319): SZ 0 the word, SZ 1 the halfword as a fraction, SZ 3 the
halfword as a signed integer. -/
def placeLoad (sz : BitVec 2) (v : Nat) : Int :=
  match sz.toNat with
  | 1 => sxt 16 v * 2 ^ 16
  | 3 => sxt 16 v
  | _ => sxt 32 v

/-- A load into a register (R319); a 64-bit load fills the pair. -/
def Eng.loadReg (reg : BitVec 4) (sz : BitVec 2) (bsc : BitVec 3) (v : Nat) (e : Eng) : Eng :=
  if sz = 2 then (e.setD reg (BitVec.ofNat 32 v)).setD (reg + 1) (BitVec.ofNat 32 (v / 2 ^ 32))
  else
    let (y, so) := bscApply e.rmode (placeLoad sz v) (bscShift e bsc)
    (e.setD reg (BitVec.ofInt 32 y)).stick srSOV so

/-- BEXP after a store of a 32-bit value (R320). -/
def Eng.noteStore (y : Int) (e : Eng) : Eng :=
  let r := redundantSign 32 y
  if r < e.BEXP.toNat then { e with BEXP := BitVec.ofNat 32 r } else e

/-- What a store of a register writes (R319, R320): the bytes' value, and the engine with SOV and BEXP. -/
def Eng.storeReg (reg : BitVec 4) (sz : BitVec 2) (bsc : BitVec 3) (e : Eng) : Nat × Eng :=
  if sz = 2 then ((e.dReg reg).toNat + (e.dReg (reg + 1)).toNat * 2 ^ 32, e)
  else if sz = 3 then ((e.dReg reg).toNat % 2 ^ 16, e)
  else
    let (y, so) := bscApply e.rmode (e.dReg reg).toInt (bscShift e bsc)
    if sz = 1 then
      let h := rndMode e.rmode y 16
      (toBits 16 (satS 16 h), e.stick srSOV (so || decide (satS 16 h ≠ h)))
    else (toBits 32 y, (e.stick srSOV so).noteStore y)

/-- What a store of an accumulator writes (R318, R320). -/
def Eng.storeAcc (ac : BitVec 2) (bsc : BitVec 3) (e : Eng) : Nat × Eng :=
  let y := scaleRnd e.rmode (accVal (e.acc ac)) (bscShift e bsc - 31)
  let z := satS 32 y
  (toBits 32 z, (e.stick srSOV (decide (z ≠ y))).noteStore z)

/-! ## Parallel moves -/

/-- Is a move field well formed (R314)? -/
def moveLegal (m : MoveField) : Bool :=
  if m.mop = 0 then m == ⟨0, 0, 0, 0, 0, 0, 0⟩
  else m.rsvd == 0 && m.upd != 7 && !(m.sz == 2 && m.mop != 3 && m.reg.getLsbD 0) &&
    !(m.bsc != 0 && (m.sz == 2 || m.sz == 3)) && !(m.mop == 3 && (m.sz != 0 || decide (4 ≤ m.reg.toNat)))

/-- The registers a loading move writes. -/
def moveLoads (m : MoveField) : List Nat :=
  if m.mop = 1 then (if m.sz = 2 then [m.reg.toNat, m.reg.toNat + 1] else [m.reg.toNat]) else []

/-- Two moves that load the same register (R314). -/
def moveClash (x y : MoveField) : Bool := (moveLoads x).any fun r => (moveLoads y).contains r

/-- The trap of a move's access (R305 to R307): the X move names A0 to A3 and X data, the Y move A4 to A7 and Y data. -/
def moveTrap (env : Env) (e : Eng) (isY : Bool) (m : MoveField) : Option Nat :=
  if m.mop = 0 then none
  else
    let a := (e.aReg m.ar).toNat
    let n := szBytes m.sz
    let side := if isY then decide (4 ≤ m.ar.toNat) && decide (0x1_0000 ≤ a) && decide (a + n ≤ 0x2_0000)
      else decide (m.ar.toNat < 4) && decide (a + n ≤ 0x1_0000)
    if !side || !mayAccess env.code a n (decide (2 ≤ m.mop.toNat)) then some 2
    else if a % n != 0 then some 3
    else none

/-- A move's load value, read before anything is written (R315). -/
def moveRead (env : Env) (d : Dev) (e : Eng) (m : MoveField) : Nat :=
  if m.mop = 1 then d.engRead env.pair (e.aReg m.ar).toNat (szBytes m.sz) else 0

/-- A move's store: address, size, value; computed from the registers before the instruction (R315). -/
def moveStore (e : Eng) (m : MoveField) : Option (Nat × Nat × Nat) :=
  match m.mop.toNat with
  | 2 => some ((e.aReg m.ar).toNat, szBytes m.sz, (e.storeReg m.reg m.sz m.bsc).1)
  | 3 => some ((e.aReg m.ar).toNat, 4, (e.storeAcc (m.reg.extractLsb' 0 2) m.bsc).1)
  | _ => none

/-- SOV and BEXP of a move's store. -/
def moveStoreFlags (src : Eng) (m : MoveField) (e : Eng) : Eng :=
  match m.mop.toNat with
  | 2 =>
    let r := (src.storeReg m.reg m.sz m.bsc).2
    { (e.stick srSOV (r.flag srSOV)) with BEXP := if r.BEXP.toNat < e.BEXP.toNat then r.BEXP else e.BEXP }
  | 3 =>
    let r := (src.storeAcc (m.reg.extractLsb' 0 2) m.bsc).2
    { (e.stick srSOV (r.flag srSOV)) with BEXP := if r.BEXP.toNat < e.BEXP.toNat then r.BEXP else e.BEXP }
  | _ => e

/-- A move's effect on registers: the load and the address update, with `src` the registers before the instruction. -/
def moveRegs (src : Eng) (v : Nat) (m : MoveField) (e : Eng) : Eng :=
  if m.mop = 0 then e
  else
    let e := moveStoreFlags src m e
    let e := if m.mop = 1 then
        let l := src.loadReg m.reg m.sz m.bsc v
        let e := e.setD m.reg (l.dReg m.reg)
        let e := if m.sz = 2 then e.setD (m.reg + 1) (l.dReg (m.reg + 1)) else e
        e.stick srSOV (l.flag srSOV)
      else e
    if m.upd = 0 then e else e.setA m.ar (addrUpdate src m.ar m.upd (szBytes m.sz))

end Sys2Proof.Machine
end

