-- ==== Sys2Proof/Machine/Engine.lean ====
section
/-! DEFINITION. What each instruction of the control engine computes (*Instruction set*, R309 to R333, R338, R342): one
function per instruction, from the engine and the device to the engine and the device after it, or to the trap code of the
condition it meets. Where an instruction meets several conditions of *Trap codes*, the lowest code is taken
(notes/assumptions/12.md). What the pair does with the outcome (events, the end of a task) is in Pairs.lean. -/
namespace Sys2Proof.Machine

/-- Where control goes after an instruction. -/
inductive Ctl where
  | next
  | jump (target : BitVec 16)
  | yield
  | done
  | halt
  | post (n arg : Nat)
deriving DecidableEq, Repr

/-- An instruction that ran. -/
structure Ran where
  e : Eng
  d : Dev
  ctl : Ctl
  /-- AOV was set with ASAT = 0 and AOVE = 1 (R317). -/
  numeric : Bool
deriving DecidableEq, Repr

/-- The meaning of an instruction: a trap code, or what it leaves. -/
abbrev IFun := Env → Eng → Dev → Except Nat Ran

/-! ## Format P -/

/-- What the arithmetic of a format P instruction does to accumulators and flags. -/
abbrev Alu := Eng → Eng × Bool

/-- Write an accumulator result that may leave the range (R316, R317). -/
def accOp (acd : BitVec 2) (x : Int) (e : Eng) : Eng × Bool :=
  let (v, out) := accFit (e.flag srASAT) x
  (((e.setAcc acd v).flagsAcc v).stick srAOV out, out && !e.flag srASAT && e.flag srAOVE)

/-- The product of two words with the signs SM names (R316). -/
def product (sm : BitVec 2) (a b : Word) : Int :=
  (if sm.getLsbD 0 then (a.toNat : Int) else a.toInt) * (if sm.getLsbD 1 then (b.toNat : Int) else b.toInt)

/-- A format P instruction: its arithmetic and its two moves, every source read first (R315). -/
def runP (w : FmtP) (alu : Alu) : IFun := fun env e d =>
  if w.rsvd ≠ 0 || !moveLegal w.xmv || !moveLegal w.ymv || moveClash w.xmv w.ymv then .error 1
  else
    match moveTrap env e false w.xmv, moveTrap env e true w.ymv with
    | some x, some y => .error (min x y)
    | some x, none => .error x
    | none, some y => .error y
    | none, none =>
      let vx := moveRead env d e w.xmv
      let vy := moveRead env d e w.ymv
      let store := fun m d => match moveStore e m with
        | some (a, n, v) => Dev.engWrite env.pair a n v d
        | none => d
      let (e1, num) := alu e
      let e2 := moveRegs e vy w.ymv (moveRegs e vx w.xmv e1)
      .ok ⟨e2, store w.ymv (store w.xmv d), .next, num⟩

def insNop (w : FmtP) : IFun := runP w fun e => (e, false)

def insMac (w : FmtP) : IFun := runP w fun e =>
  accOp w.acd (accVal (e.acc w.acd) + product w.sm (e.dReg w.sa) (e.dReg w.sb)) e

def insMsu (w : FmtP) : IFun := runP w fun e =>
  accOp w.acd (accVal (e.acc w.acd) - product w.sm (e.dReg w.sa) (e.dReg w.sb)) e

def insMpy (w : FmtP) : IFun := runP w fun e =>
  accOp w.acd (product w.sm (e.dReg w.sa) (e.dReg w.sb)) e

def insAdda (w : FmtP) : IFun := runP w fun e =>
  accOp w.acd (accVal (e.acc w.acd) + accVal (e.acc w.acs)) e

def insSuba (w : FmtP) : IFun := runP w fun e =>
  accOp w.acd (accVal (e.acc w.acd) - accVal (e.acc w.acs)) e

def insClra (w : FmtP) : IFun := runP w fun e => accOp w.acd 0 e

/-- FTAP (R322): the Y move field names the delay-line word. -/
def insFtap (w : FmtP) : IFun := fun env e d =>
  let y := w.ymv
  if w.rsvd ≠ 0 || !moveLegal w.xmv || !(y.mop == 1 && y.reg == 0 && y.sz == 0 && y.bsc == 0 && y.rsvd == 0 && y.upd != 7)
  then .error 1
  else
    let a := (e.aReg y.ar).toNat
    let tapTrap := match moveTrap env e true y with
      | some c => some c
      | none => if mayAccess env.code (a + 4) 4 true && decide (a + 8 ≤ 0x2_0000) then none else some 2
    match moveTrap env e false w.xmv, tapTrap with
    | some x, some t => .error (min x t)
    | some x, none => .error x
    | none, some t => .error t
    | none, none =>
      let vx := moveRead env d e w.xmv
      let tap : Word := BitVec.ofNat 32 (d.engRead env.pair a 4)
      let (e1, num) := accOp w.acd (accVal (e.acc w.acd) + product w.sm (e.dReg w.sa) tap) e
      let e2 := moveRegs e vx w.xmv e1
      let e3 := if y.upd = 0 then e2 else e2.setA y.ar (addrUpdate e y.ar y.upd 4)
      let d1 := match moveStore e w.xmv with
        | some (b, n, v) => Dev.engWrite env.pair b n v d
        | none => d
      .ok ⟨e3, d1.engWrite env.pair (a + 4) 4 tap.toNat, .next, num⟩

/-! ## Format R -/

/-- A format R instruction that only changes the engine. -/
def runR (w : FmtR) (f : Eng → Eng) : IFun := fun _ e d =>
  if w.rsvd ≠ 0 then .error 1 else .ok ⟨f e, d, .next, false⟩

/-- Write a 32-bit result with Z and N. -/
def Eng.resultZN (dd : BitVec 4) (v : Word) (e : Eng) : Eng := (e.setD dd v).flagsZN v

/-- The result of an exact sum that may leave the 32-bit range: SAT limits it, otherwise it wraps; V says that it left. -/
def sumResult (sat : Bool) (x : Int) : Word × Bool :=
  (BitVec.ofInt 32 (if sat then satS 32 x else x), decide (satS 32 x ≠ x))

def insAdd (w : FmtR) : IFun := runR w fun e =>
  let a := e.dReg w.da
  let b := e.op2 w
  let (v, ov) := sumResult w.sat (a.toInt + b.toInt)
  ((e.resultZN w.dd v).setFlag srC (addCarry a b 0).2.1).setFlag srV ov

def insSub (w : FmtR) : IFun := runR w fun e =>
  let a := e.dReg w.da
  let b := e.op2 w
  let (v, ov) := sumResult w.sat (a.toInt - b.toInt)
  ((e.resultZN w.dd v).setFlag srC (decide (b.toNat ≤ a.toNat))).setFlag srV ov

def insAnd (w : FmtR) : IFun := runR w fun e => e.resultZN w.dd (e.dReg w.da &&& e.op2 w)
def insOr (w : FmtR) : IFun := runR w fun e => e.resultZN w.dd (e.dReg w.da ||| e.op2 w)
def insXor (w : FmtR) : IFun := runR w fun e => e.resultZN w.dd (e.dReg w.da ^^^ e.op2 w)

/-- ASH: `DA * 2^SH`; a right shift rounds by RMODE, a left shift that leaves the range sets V, and with SAT saturates and
sets SOV. -/
def insAsh (w : FmtR) : IFun := runR w fun e =>
  let x := scaleRnd e.rmode (e.dReg w.da).toInt (sxt 6 w.sh.toNat)
  let (v, ov) := sumResult w.sat x
  ((e.resultZN w.dd v).setFlag srV ov).stick srSOV (ov && w.sat)

def insLsh (w : FmtR) : IFun := runR w fun e =>
  let s := sxt 6 w.sh.toNat
  e.resultZN w.dd (if 0 ≤ s then e.dReg w.da <<< s.toNat else e.dReg w.da >>> (-s).toNat)

def insMov (w : FmtR) : IFun := runR w fun e => e.resultZN w.dd (e.op2 w)

def insCmp (w : FmtR) : IFun := runR w fun e =>
  let a := e.dReg w.da
  let b := e.op2 w
  let (v, ov) := sumResult false (a.toInt - b.toInt)
  ((e.flagsZN v).setFlag srC (decide (b.toNat ≤ a.toNat))).setFlag srV ov

/-- MIN, MAX, ABS, SAT: V says that the result was limited (*SR, the status register*): it is not DA itself. -/
def Eng.limited (dd : BitVec 4) (a : Word) (v : Word) (e : Eng) : Eng := (e.resultZN dd v).setFlag srV (v != a)

def insMin (w : FmtR) : IFun := runR w fun e =>
  let a := e.dReg w.da
  let b := e.op2 w
  e.limited w.dd a (if b.toInt < a.toInt then b else a)

def insMax (w : FmtR) : IFun := runR w fun e =>
  let a := e.dReg w.da
  let b := e.op2 w
  e.limited w.dd a (if a.toInt < b.toInt then b else a)

def insAbs (w : FmtR) : IFun := runR w fun e =>
  let x : Int := (e.dReg w.da).toInt.natAbs
  (e.resultZN w.dd (BitVec.ofInt 32 (satS 32 x))).setFlag srV (decide (satS 32 x ≠ x))

def insSat (w : FmtR) : IFun := runR w fun e =>
  let a := e.dReg w.da
  let m : Int := (e.op2 w).toInt.natAbs
  e.limited w.dd a (BitVec.ofInt 32 (clampI (-m) m a.toInt))

/-- Write an accumulator with AZ, AN and AG. -/
def Eng.resultAcc (ac : BitVec 2) (v : BitVec 72) (e : Eng) : Eng := (e.setAcc ac v).flagsAcc v

def insLda (w : FmtR) : IFun := runR w fun e =>
  e.resultAcc w.ac (BitVec.ofInt 72 ((e.dReg w.da).toInt * 2 ^ 31))

def insLdaw (w : FmtR) : IFun := runR w fun e =>
  e.resultAcc w.ac (BitVec.ofInt 72 (sxt 64 ((e.dReg w.da).toNat + (e.dReg w.db).toNat * 2 ^ 32)))

/-- STA (R318): the Q1.31 position of `AC * 2^SH`, rounded once, saturated. -/
def insSta (w : FmtR) : IFun := runR w fun e =>
  let y := scaleRnd e.rmode (accVal (e.acc w.ac)) (sxt 6 w.sh.toNat - 31)
  (e.setD w.dd (BitVec.ofInt 32 (satS 32 y))).stick srSOV (decide (satS 32 y ≠ y))

/-- STAW (R318): `AC * 2^SH` as a 64-bit integer into an even pair. -/
def insStaw (w : FmtR) : IFun := fun env e d =>
  if w.dd.getLsbD 0 then .error 1
  else runR w (fun e =>
    let y := scaleRnd e.rmode (accVal (e.acc w.ac)) (sxt 6 w.sh.toNat)
    let z := toBits 64 (satS 64 y)
    ((e.setD w.dd (BitVec.ofNat 32 z)).setD (w.dd + 1) (BitVec.ofNat 32 (z / 2 ^ 32))).stick srSOV
      (decide (satS 64 y ≠ y))) env e d

/-- An instruction whose accumulator result may leave the range. -/
def runAcc (w : FmtR) (f : Eng → Int) : IFun := fun _ e d =>
  if w.rsvd ≠ 0 then .error 1
  else
    let (e', num) := accOp w.ac (f e) e
    .ok ⟨e', d, .next, num⟩

def insSha (w : FmtR) : IFun := runAcc w fun e => scaleRnd e.rmode (accVal (e.acc w.ac)) (sxt 6 w.sh.toNat)

def insRnda (w : FmtR) : IFun := runAcc w fun e => rndMode e.rmode (accVal (e.acc w.ac)) 31 * 2 ^ 31

def insExpa (w : FmtR) : IFun := runR w fun e =>
  e.resultZN w.dd (BitVec.ofInt 32 ((redundantSign 72 (accVal (e.acc w.ac)) : Int) - 9))

/-- SATA: the range of the Q1.31 position is −2^62 to 2^62 − 1. -/
def insSata (w : FmtR) : IFun := runR w fun e =>
  let x := accVal (e.acc w.ac)
  let y := clampI (-(2 ^ 62)) (2 ^ 62 - 1) x
  (e.resultAcc w.ac (BitVec.ofInt 72 y)).stick srSOV (decide (y ≠ x))

/-- SINCOS (R323). -/
def insSincos (w : FmtR) : IFun := fun env e d =>
  if w.dd.getLsbD 0 then .error 1
  else runR w (fun e =>
    let (s, c) := sinCos (e.dReg w.da).toNat
    (e.setD w.dd (BitVec.ofInt 32 c)).setD (w.dd + 1) (BitVec.ofInt 32 s)) env e d

/-- DIVI (R324). -/
def insDivi (w : FmtR) : IFun := runR w fun e =>
  let a := (e.dReg w.da).toInt
  let b := (e.dReg w.db).toInt
  let ma := a.natAbs
  let mb := b.natAbs
  let qneg := if b = 0 then decide (a < 0) else decide ((a < 0) ≠ (b < 0))
  let e := e.setFlag srDZ (decide (b = 0))
  if w.mod then
    { (e.setFlag srDOV (decide (b ≠ 0) && !qneg && decide (2 ^ 31 ≤ ma / mb))) with
      div := ⟨0, mb, ma, true, qneg, decide (a < 0)⟩ }
  else
    { ((e.setFlag srDOV (decide (mb ≤ ma))).setD w.dd 0) with div := ⟨ma, mb, 0, false, qneg, decide (a < 0)⟩ }

/-- DIVS (R324): one divide step. -/
def insDivs (w : FmtR) : IFun := runR w fun e =>
  let v := e.div
  let inBit := if v.integer then v.dvd / 2 ^ 31 % 2 else 0
  let r := (2 * v.rem + inBit) % 2 ^ 33
  let hit := decide (v.dvs ≤ r)
  { e.setD w.dd (BitVec.ofNat 32 (2 * (e.dReg w.dd).toNat + b2n hit)) with
    div := { v with rem := if hit then r - v.dvs else r, dvd := 2 * v.dvd % 2 ^ 32 } }

/-- DIVF (R324): the sign and the saturation of the quotient. -/
def insDivf (w : FmtR) : IFun := runR w fun e =>
  let q := e.dReg w.dd
  e.resultZN w.dd
    (if e.flag srDZ || e.flag srDOV then (if e.div.qneg then 0x8000_0000#32 else 0x7FFF_FFFF#32)
    else if e.div.qneg then -q else q)

/-- DREM (R324): the remainder with the sign of DA. -/
def insDrem (w : FmtR) : IFun := runR w fun e =>
  let r : Word := BitVec.ofNat 32 e.div.rem
  e.resultZN w.dd (if e.div.aneg then -r else r)

/-- MOVA (R328): in effect for addresses from the instruction after the next. -/
def insMova (w : FmtR) : IFun := fun env e d =>
  if w.dd.getLsbD 3 then .error 1
  else
    let i : Fin 8 := ⟨w.dd.toNat % 8, Nat.mod_lt _ (by decide)⟩
    match w.ac.toNat with
    | 0 => runR w (fun e => { e with mova := some (.a, i, e.op2 w) }) env e d
    | 1 => runR w (fun e => { e with mova := some (.m, i, e.op2 w) }) env e d
    | 2 => runR w (fun e => { e with mova := some (.l, i, e.op2 w) }) env e d
    | _ => .error 1

/-- A special register as MOVS reads it (*Special registers*). -/
def Eng.special (e : Eng) (i : Nat) : Word :=
  match i with
  | 0 => e.srRead
  | 1 => BitVec.ofInt 32 (sxt 6 e.SCL.toNat)
  | 2 => e.BEXP
  | 3 => e.ICNT
  | 4 => e.KCYC
  | 5 => e.TID
  | 6 => e.ARG
  | 7 => e.AXN
  | _ => match e.loops.reverse[i - 8]? with
    | some l => BitVec.ofNat 32 l.count
    | none => 0

/-- MOVS (R309, R310). -/
def insMovs (w : FmtR) : IFun := fun env e d =>
  let i := w.sh.toNat
  if 11 < i then .error 1
  else if w.mod then runR w (fun e => e.setD w.dd (e.special i)) env e d
  else
    match i with
    | 0 => runR w (fun e => e.srWrite (e.op2 w)) env e d
    | 1 => runR w (fun e => { e with SCL := BitVec.ofNat 32 ((e.op2 w).toNat % 64) }) env e d
    | 2 => runR w (fun e => { e with BEXP := BitVec.ofNat 32 ((e.op2 w).toNat % 32) }) env e d
    | _ => .error 1

/-- RDT (R338). -/
def insRdt (w : FmtR) : IFun := fun env e d =>
  if w.rsvd ≠ 0 then .error 1
  else if !env.nondet then .error 7
  else .ok ⟨e.setD w.dd (BitVec.ofNat 32 d.st), d, .next, false⟩

/-! ## Format C -/

/-- *Conditions* (R312). -/
def Eng.holds (e : Eng) (cond : BitVec 4) : Bool :=
  let z := e.flag srZ
  let n := e.flag srN
  let c := e.flag srC
  let v := e.flag srV
  match cond.toNat with
  | 0 => true
  | 1 => z
  | 2 => !z
  | 3 => n
  | 4 => !n
  | 5 => c
  | 6 => !c
  | 7 => v
  | 8 => !v
  | 9 => !z && (n == v)
  | 10 => n == v
  | 11 => n != v
  | 12 => z || (n != v)
  | 13 => c && !z
  | 14 => e.flag srAN
  | _ => e.flag srAZ

/-- Is the present word the END of an active block, at the call depth of its REP (R327)? -/
def Eng.atEnd (e : Eng) : Bool := e.loops.any fun l => l.last == e.pc && l.depth == e.calls.length

/-- Would control leave the innermost block at its own depth by going to `a` (R327)? -/
def Eng.leaves (e : Eng) (a : BitVec 16) : Bool :=
  match e.loops with
  | [] => false
  | l :: _ => l.depth == e.calls.length && !(decide (l.first.toNat ≤ a.toNat) && decide (a.toNat ≤ l.last.toNat))

/-- JMP. -/
def insJmp (w : FmtC) : IFun := fun env e d =>
  if w.rsvd ≠ 0 then .error 1
  else if e.holds w.cond && !env.code.mayJump w.tgt then .error 2
  else if e.atEnd then .error 4
  else if !e.holds w.cond then .ok ⟨e, d, .next, false⟩
  else if e.leaves w.tgt then .error 5
  else .ok ⟨e, d, .jump w.tgt, false⟩

/-- CALL. -/
def insCall (w : FmtC) : IFun := fun env e d =>
  if w.rsvd ≠ 0 then .error 1
  else if e.holds w.cond && !env.code.mayJump w.tgt then .error 2
  else if e.atEnd then .error 4
  else if !e.holds w.cond then .ok ⟨e, d, .next, false⟩
  else if 8 ≤ e.calls.length then .error 6
  else .ok ⟨{ e with calls := (e.pc + 1) :: e.calls }, d, .jump w.tgt, false⟩

/-- RET. -/
def insRet (w : FmtC) : IFun := fun _ e d =>
  if w.rsvd ≠ 0 then .error 1
  else if e.atEnd then .error 4
  else if !e.holds w.cond then .ok ⟨e, d, .next, false⟩
  else if (match e.loops with
    | l :: _ => l.depth == e.calls.length
    | [] => false) then .error 5
  else
    match e.calls with
    | [] => .error 6
    | a :: rest => .ok ⟨{ e with calls := rest }, d, .jump a, false⟩

/-- REP (R325, R326). -/
def insRep (w : FmtC) : IFun := fun _ e d =>
  let n := if w.csrc then (e.dReg w.dc).toNat else w.imm.toNat % 2 ^ 16
  if w.rsvd ≠ 0 || w.cond ≠ 0 || w.imm.toNat / 2 ^ 16 ≠ 0 then .error 1
  else if e.atEnd || decide (65535 < n) || decide (4 ≤ e.loops.length) ||
    (match e.loops with
      | l :: _ => l.depth == e.calls.length && decide (l.last.toNat < w.tgt.toNat)
      | [] => false) then .error 4
  else if n = 0 then .ok ⟨e, d, .jump (w.tgt + 1), false⟩
  else .ok ⟨{ e with loops := ⟨e.pc + 1, w.tgt, n, e.calls.length, false⟩ :: e.loops }, d, .jump (e.pc + 1), false⟩

/-- BRKL (R327). -/
def insBrkl (w : FmtC) : IFun := fun _ e d =>
  if w.rsvd ≠ 0 || w.cond ≠ 0 then .error 1
  else if e.atEnd then .error 4
  else
    match e.loops with
    | [] => .ok ⟨e, d, .next, false⟩
    | l :: ls => .ok ⟨{ e with loops := { l with leave := true } :: ls }, d, .next, false⟩

/-- An instruction of format C without operands. -/
def runC (w : FmtC) (ctl : Ctl) : IFun := fun _ e d =>
  if w.rsvd ≠ 0 || w.cond ≠ 0 then .error 1
  else if e.atEnd then .error 4
  else .ok ⟨e, d, ctl, false⟩

def insYield (w : FmtC) : IFun := runC w .yield
def insDone (w : FmtC) : IFun := runC w .done

/-- POST (R333). -/
def insPost (w : FmtC) : IFun := fun _ e d =>
  if w.rsvd ≠ 0 || w.cond ≠ 0 || w.imm.toNat / 2 ^ 5 % 2 ^ 11 ≠ 0 then .error 1
  else
    .ok ⟨e, d, .post (w.imm.toNat % 32) (if w.csrc then (e.dReg w.dc).toNat % 2 ^ 16 else w.imm.toNat / 2 ^ 16), false⟩

/-- BKPT (R343). -/
def insBkpt (w : FmtC) : IFun := fun env e d =>
  if w.rsvd ≠ 0 || w.cond ≠ 0 then .error 1
  else if env.halts then .ok ⟨e, d, .halt, false⟩
  else .error 8

/-! ## Format M -/

/-- Is the encoding of a format M instruction legal (R314)? -/
def legalM (w : FmtM) : Bool :=
  w.rsvd == 0 && w.upd != 7 && !(w.sz == 2 && w.dd.getLsbD 0) && !(w.bsc != 0 && (w.sz == 2 || w.sz == 3))

/-- The address of a format M access. -/
def addrM (e : Eng) (w : FmtM) : Nat := (e.aReg w.ar + w.disp).toNat

/-- The trap a format M access meets (R305, R307, R314). -/
def trapM (env : Env) (e : Eng) (w : FmtM) (write : Bool) : Option Nat :=
  if !legalM w then some 1
  else if !mayAccess env.code (addrM e w) (szBytes w.sz) write then some 2
  else if addrM e w % szBytes w.sz != 0 then some 3
  else none

/-- LD. -/
def insLd (w : FmtM) : IFun := fun env e d =>
  match trapM env e w false with
  | some c => .error c
  | none =>
    let e1 := e.loadReg w.dd w.sz w.bsc (d.engRead env.pair (addrM e w) (szBytes w.sz))
    .ok ⟨if w.upd = 0 then e1 else e1.setA w.ar (addrUpdate e w.ar w.upd (szBytes w.sz)), d, .next, false⟩

/-- ST. -/
def insSt (w : FmtM) : IFun := fun env e d =>
  match trapM env e w true with
  | some c => .error c
  | none =>
    let (v, e1) := e.storeReg w.dd w.sz w.bsc
    .ok ⟨if w.upd = 0 then e1 else e1.setA w.ar (addrUpdate e w.ar w.upd (szBytes w.sz)),
      d.engWrite env.pair (addrM e w) (szBytes w.sz) v, .next, false⟩

/-! ## One instruction -/

/-- The loop levels and the address after the word at `pc` when no jump is taken (R325 to R327). -/
def loopNext (pc : BitVec 16) (depth : Nat) : List LoopLevel → List LoopLevel × BitVec 16
  | [] => ([], pc + 1)
  | l :: ls =>
    if l.last = pc ∧ l.depth = depth then
      if l.leave || decide (l.count ≤ 1) then loopNext pc depth ls
      else ({ l with count := l.count - 1 } :: ls, l.first)
    else (l :: ls, pc + 1)

/-- A MOVA of the previous instruction comes into effect (R328). -/
def applyMova (m : Option (AddrClass × Fin 8 × Word)) (e : Eng) : Eng :=
  match m with
  | none => e
  | some (.a, i, v) => { e with A := e.A.set i v }
  | some (.m, i, v) => { e with M := e.M.set i v }
  | some (.l, i, v) => { e with L := e.L.set i v }

/-- Run one instruction: its effect, the pending MOVA, the loop levels, the next address, the instruction count. -/
def issue (env : Env) (f : IFun) (e : Eng) (d : Dev) : Except Nat Ran :=
  match f env { e with mova := none } d with
  | .error c => .error c
  | .ok r =>
    let e1 := applyMova e.mova r.e
    let (loops, pc) := match r.ctl with
      | .jump a => (e1.loops, a)
      | _ => loopNext e.pc e1.calls.length e1.loops
    .ok { r with e := { e1 with loops := loops, pc := pc, ICNT := e.ICNT + 1 } }

/-! ## Instruction words (R311, *Instruction set*) -/

def moveOf (x : Nat) : MoveField :=
  ⟨BitVec.ofNat 2 (x / 2 ^ 18), BitVec.ofNat 4 (x / 2 ^ 14), BitVec.ofNat 3 (x / 2 ^ 11), BitVec.ofNat 3 (x / 2 ^ 8),
    BitVec.ofNat 2 (x / 2 ^ 6), BitVec.ofNat 3 (x / 2 ^ 3), BitVec.ofNat 3 x⟩

def fmtP (w : Nat) : FmtP :=
  ⟨BitVec.ofNat 2 (w / 2 ^ 56), BitVec.ofNat 4 (w / 2 ^ 52), BitVec.ofNat 4 (w / 2 ^ 48), BitVec.ofNat 2 (w / 2 ^ 46),
    BitVec.ofNat 2 (w / 2 ^ 44), BitVec.ofNat 4 (w / 2 ^ 40), moveOf (bitsOf w 20 20), moveOf (bitsOf w 0 20)⟩

def fmtR (w : Nat) : FmtR :=
  ⟨BitVec.ofNat 4 (w / 2 ^ 54), BitVec.ofNat 4 (w / 2 ^ 50), BitVec.ofNat 4 (w / 2 ^ 46), BitVec.ofNat 2 (w / 2 ^ 44),
    BitVec.ofNat 6 (w / 2 ^ 38), BitVec.ofNat 3 (w / 2 ^ 35), bitOf w 34, bitOf w 33, bitOf w 32, BitVec.ofNat 32 w⟩

def fmtC (w : Nat) : FmtC :=
  ⟨BitVec.ofNat 4 (w / 2 ^ 54), bitOf w 53, BitVec.ofNat 4 (w / 2 ^ 49), BitVec.ofNat 1 (w / 2 ^ 48),
    BitVec.ofNat 16 (w / 2 ^ 32), BitVec.ofNat 32 w⟩

def fmtM (w : Nat) : FmtM :=
  ⟨BitVec.ofNat 4 (w / 2 ^ 54), BitVec.ofNat 3 (w / 2 ^ 51), BitVec.ofNat 3 (w / 2 ^ 48), BitVec.ofNat 2 (w / 2 ^ 46),
    BitVec.ofNat 3 (w / 2 ^ 43), BitVec.ofNat 11 (w / 2 ^ 32), BitVec.ofNat 32 w⟩

/-- The instruction a word spells; an unassigned OP is the ILLEGAL trap (R314). -/
def insOf (w : Nat) : IFun :=
  match w / 2 ^ 58 with
  | 0x00 => insNop (fmtP w) | 0x01 => insMac (fmtP w) | 0x02 => insMsu (fmtP w) | 0x03 => insMpy (fmtP w)
  | 0x04 => insFtap (fmtP w) | 0x05 => insAdda (fmtP w) | 0x06 => insSuba (fmtP w) | 0x07 => insClra (fmtP w)
  | 0x10 => insAdd (fmtR w) | 0x11 => insSub (fmtR w) | 0x12 => insAnd (fmtR w) | 0x13 => insOr (fmtR w)
  | 0x14 => insXor (fmtR w) | 0x15 => insAsh (fmtR w) | 0x16 => insLsh (fmtR w) | 0x17 => insMov (fmtR w)
  | 0x18 => insCmp (fmtR w) | 0x19 => insMin (fmtR w) | 0x1A => insMax (fmtR w) | 0x1B => insAbs (fmtR w)
  | 0x1C => insSat (fmtR w) | 0x20 => insLda (fmtR w) | 0x21 => insSta (fmtR w) | 0x22 => insSha (fmtR w)
  | 0x23 => insExpa (fmtR w) | 0x24 => insRnda (fmtR w) | 0x25 => insSata (fmtR w) | 0x26 => insLdaw (fmtR w)
  | 0x27 => insStaw (fmtR w) | 0x28 => insSincos (fmtR w) | 0x29 => insDivi (fmtR w) | 0x2A => insDivs (fmtR w)
  | 0x2B => insDivf (fmtR w) | 0x2C => insDrem (fmtR w) | 0x2D => insMova (fmtR w) | 0x2E => insMovs (fmtR w)
  | 0x2F => insRdt (fmtR w) | 0x30 => insJmp (fmtC w) | 0x31 => insCall (fmtC w) | 0x32 => insRet (fmtC w)
  | 0x33 => insRep (fmtC w) | 0x34 => insBrkl (fmtC w) | 0x35 => insYield (fmtC w) | 0x36 => insDone (fmtC w)
  | 0x37 => insPost (fmtC w) | 0x38 => insBkpt (fmtC w) | 0x3C => insLd (fmtM w) | 0x3D => insSt (fmtM w)
  | _ => fun _ _ _ => .error 1

/-- The word of program RAM at an address of pair `p`. -/
def Dev.progWord (d : Dev) (p : Nat) (pc : BitVec 16) : Nat := d.memLE (progBase p + 8 * pc.toNat) 8

/-- Run the instruction at the pair's PC; an address outside program RAM is a PROT trap (notes/assumptions/12.md). -/
def stepPc (env : Env) (e : Eng) (d : Dev) : Except Nat Ran :=
  if 0x4000 ≤ e.pc.toNat then .error 2 else issue env (insOf (d.progWord env.pair e.pc)) e d

end Sys2Proof.Machine
end

