-- ==== Sys2Proof/Machine/Events.lean ====
section
/-! DEFINITION. Events: a page raises an event, the event unit takes its posting, and the posting reaches the task scheduler's
trigger flags and the capture triggers (R593 to R599, R353 to R356, R365, R461).

A posting can raise further events (FLOW_STALL of a dropped trigger, TRIG of a capture unit), which are posted in their
turn; `raiseN` follows such a chain to a depth of 40 (notes/assumptions/13.md). -/
namespace Sys2Proof.Machine

/-- A function that raises an event of a page: page, PEVT bit, argument. -/
abbrev Raise := Nat → Nat → Nat → Dev → Dev

/-! ## Tasks made ready (R350 to R356, R364, R365) -/

/-- The adopted configuration of a user task; reset values where none was adopted (R379). -/
def Tsu.cfgOf (s : Tsu) (task : Nat) : TaskCfg :=
  match s.cfg.find? (fun c => c.1 == task) with
  | some c => c.2
  | none => ⟨0x5E, 0x3_0000, 0, 0⟩

def TaskCfg.ten (c : TaskCfg) : Bool := bitOf c.tctl.toNat 0
def TaskCfg.flow (c : TaskCfg) : Nat := bitsOf c.tctl.toNat 12 6
def TaskCfg.role (c : TaskCfg) : Nat := bitsOf c.tctl.toNat 18 2
def TaskCfg.pmode (c : TaskCfg) : Nat := min 2 (bitsOf c.tctl.toNat 5 2)
def TaskCfg.ndet (c : TaskCfg) : Bool := bitOf c.tctl.toNat 7
def TaskCfg.rerun (c : TaskCfg) : Bool := bitOf c.tctl.toNat 8
/-- DEADL: 0 none, 1 CWD, 2 next tick; 3 acts as 0. -/
def TaskCfg.deadl (c : TaskCfg) : Nat := bitsOf c.tctl.toNat 9 2 % 3
def TaskCfg.pmask (c : TaskCfg) : Nat := bitsOf c.trun.toNat 0 18
def TaskCfg.entry (c : TaskCfg) : Nat := bitsOf c.trun.toNat 18 14

/-- The flow a task is a member of (R364, *Task numbers*): device tasks belong to flows 0 to 23. -/
def Tsu.memberOf (s : Tsu) (task : Nat) : Option Nat :=
  if 256 ≤ task ∧ task ≤ 279 then some (task - 256)
  else if 288 ≤ task ∧ (s.cfgOf task).role = 1 then some (s.cfgOf task).flow
  else none

/-- Priority of a task (R350). -/
def Tsu.prio (s : Tsu) (task : Nat) : Nat :=
  if task < 256 then 0 else if task < 288 then 1 else max 2 (bitsOf (s.cfgOf task).tctl.toNat 1 4)

/-- Entries a flow may hold (*Flows*). -/
def Dev.qmax (d : Dev) (flow : Nat) : Nat :=
  if flow < 8 then 16 else if flow < 24 then 8 else d.rdS pgTSU flow TSU.QMAX

/-- The instances of a flow's members, by a test of their state. -/
def Tsu.ofFlow (s : Tsu) (flow : Nat) (p : InstState → Bool) : List Inst :=
  s.insts.filter fun i => s.memberOf i.task == some flow && p i.state

/-- Does an instance hold a reorder entry? -/
def InstState.entered : InstState → Bool
  | .pending => false
  | _ => true

/-- Reorder entries in use in a flow, and in the whole store (R365). -/
def Tsu.occ (s : Tsu) (flow : Nat) : Nat := (s.ofFlow flow InstState.entered).length
def Tsu.occAll (s : Tsu) : Nat :=
  (s.insts.filter fun i => (s.memberOf i.task).isSome && i.state.entered).length

/-- READY instances at a priority. -/
def Tsu.readyAt (s : Tsu) (q : Nat) : Nat :=
  (s.insts.filter fun i => s.prio i.task == q && i.state == .ready).length

/-- TSTATE of an instance; the one furthest on counts where a flow member has several (R351, notes/assumptions/108.md). -/
def instCode : InstState → Nat
  | .pending => 1
  | .ready => 2
  | .running => 3
  | .preempted => 4
  | .ended _ => 0

/-- Show the state of a task in TSTAT: FAILED once it has ended so, until its next trigger (R351). -/
def Dev.showTask (task : Nat) (d : Dev) : Dev :=
  let codes := (d.tsu.insts.filter fun i => i.task == task).map fun i => instCode i.state
  let m := codes.foldl max 0
  d.wrS pgTSU task TSU.TSTATE (if m = 0 ∧ d.tsu.failed.contains task then 5 else m)

/-- READY tasks at a priority; axis tasks have priority 0. -/
def Dev.readyAt (d : Dev) (q : Nat) : Nat :=
  d.tsu.readyAt q + (if q = 0 then (d.tsu.order.filter fun n => d.rdS pgTSU n TSU.TSTATE == 2).length else 0)

/-- Note an instance that became READY, or a reorder entry taken: DMAX and OMAX follow (R380). -/
def Dev.noteDepth (q : Nat) (d : Dev) : Dev :=
  let f := TSU.DMAX.nth 4 q
  let d := d.wr pgTSU f (max (d.rd pgTSU f) (min 4095 (d.readyAt q)))
  d.wr pgTSU TSU.OMAX (max (d.rd pgTSU TSU.OMAX) (min 4095 d.tsu.occAll))

/-- Add an instance. -/
def Dev.addInst (i : Inst) (d : Dev) : Dev :=
  (Dev.noteDepth (d.tsu.prio i.task) { d with tsu := { d.tsu with insts := d.tsu.insts ++ [i] } }).showTask i.task

/-- The flags of a task, all clear where none is set. -/
def Tsu.flagsOf (s : Tsu) (task : Nat) : TaskFlags :=
  match s.flags.find? (fun f => f.task == task) with
  | some f => f
  | none => ⟨task, false, false, false⟩

def Tsu.clearFlags (task : Nat) (s : Tsu) : Tsu := { s with flags := s.flags.filter fun g => g.task != task }

def Tsu.setFlags (f : TaskFlags) (s : Tsu) : Tsu :=
  let s := s.clearFlags f.task
  if f.a || f.b || f.c then { s with flags := f :: s.flags } else s

/-- What every trigger of a task does: its three flags clear (R354), and a FAILED task is IDLE again (R351). -/
def noteTrigger (task : Nat) (d : Dev) : Dev :=
  let d := { d with tsu := d.tsu.clearFlags task }
  if d.tsu.failed.contains task then
    Dev.showTask task { d with tsu := { d.tsu with failed := d.tsu.failed.filter fun t => t != task } }
  else d

/-- One trigger of a task (R354, R355, R365). -/
def trigTask (rz : Raise) (task : Nat) (d : Dev) : Dev :=
  let d := noteTrigger task d
  match d.tsu.memberOf task with
  | some flow =>
    let pend := (d.tsu.ofFlow flow fun s => s == .pending).length
    let seq := d.rdS pgTSU flow TSU.FNSEQ
    if d.qmax flow = 0 then d
    else if d.tsu.occ flow < d.qmax flow ∧ d.tsu.occAll < 2048 ∧ pend = 0 then
      (d.wrS pgTSU flow TSU.FNSEQ (seq + 1)).addInst ⟨task, seq, .ready, d.st, none⟩
    else if pend < 16 then
      (d.wrS pgTSU flow TSU.FNSEQ (seq + 1)).addInst ⟨task, seq, .pending, d.st, none⟩
    else rz pgTSU 4 flow (d.incS pgTSU flow TSU.DROPS)
  | none =>
    match d.tsu.insts.find? (fun i => i.task == task) with
    | none => d.addInst ⟨task, 0, .ready, d.st, none⟩
    | some i =>
      if i.state = .ready ∨ d.onS pgTSU task TSU.RETRIG then d.incS pgTSU task TSU.MRG
      else d.wrS pgTSU task TSU.RETRIG 1

/-- Set trigger flags of a task and trigger it, where it is enabled, when they suffice (R354). `a`, `b`, `c` are the flags to
set now; they are set in a disabled task too. -/
def flagTask (rz : Raise) (task : Nat) (a b c : Bool) (d : Dev) : Dev :=
  let cfg := d.tsu.cfgOf task
  let t := cfg.ttrig.toNat
  let aen := bitOf t 16
  let ben := bitOf t 17
  let cen := bitsOf t 19 2 != 0
  let old := d.tsu.flagsOf task
  let f : TaskFlags := ⟨task, old.a || (a && aen), old.b || (b && ben), old.c || (c && cen)⟩
  let met := if bitOf t 18 then (f.a || !aen) && (f.b || !ben) && (f.c || !cen) && (aen || ben || cen)
    else (f.a && aen) || (f.b && ben) || (f.c && cen)
  if cfg.ten && met then trigTask rz task d else { d with tsu := d.tsu.setFlags f }

/-- A posting reaches the trigger flags of every user task (R354, R594). -/
def tsuEvent (rz : Raise) (n : Nat) (d : Dev) : Dev :=
  (d.tsu.cfg.map fun c => c.1).foldl (fun d task =>
    let t := (d.tsu.cfgOf task).ttrig.toNat
    let a := bitOf t 16 && bitsOf t 0 8 == n
    let b := bitOf t 17 && bitsOf t 8 8 == n
    if a || b then flagTask rz task a b false d else d) d

/-! ## Capture triggers (R461 to R467) -/

def Dev.capUnit (d : Dev) (u : Fin 16) : CapUnit := d.cap.units[u]
def Dev.setCapUnit (u : Fin 16) (c : CapUnit) (d : Dev) : Dev :=
  { d with cap := { d.cap with units := d.cap.units.set u c } }

/-- A capture unit in ARMED accepts a trigger at time `t` (R463, R465); `flag` is its FLAGS bit, if any. -/
def capAccept (rz : Raise) (u : Fin 16) (t flag : Nat) (d : Dev) : Dev :=
  let pg := pgCapu u
  let c := d.capUnit u
  let pre := d.rd pg CAPU.PRE
  let full := decide (pre ≤ c.pre)
  let c' := { c with
    precnt := if full then pre else c.pre, prefirst := if full ∧ pre ≠ 0 then c.pre % pre else 0,
    flags := c.flags + flag + (if full then 0 else 1), post := 0, t0 := 0 }
  let d := (d.setCapUnit u c').wr64 pg 0 CAPU.TTRIGLO.off t
  rz pg 0 (c.seq % 2 ^ 16) ((d.wr pg CAPU.USTATE 2).wr pg CAPU.PRECNT c'.precnt)

/-- A trigger condition of a unit is met: accepted in ARMED, ignored and counted in REARM (R466), nothing otherwise. -/
def capTrigger (rz : Raise) (u : Fin 16) (t flag : Nat) (d : Dev) : Dev :=
  let pg := pgCapu u
  match d.rd pg CAPU.USTATE with
  | 1 => if d.rd pg CAPU.MODE = 3 then d else capAccept rz u t flag d
  | 3 =>
    let c := d.capUnit u
    if d.rd pg CAPU.MODE = 3 then d
    else (d.inc pg CAPU.TRGIGN).setCapUnit u { c with ign := addSat 16 c.ign 1 }
  | _ => d

/-- A posting reaches the capture units that wait for it (R461, R594). -/
def capEvent (rz : Raise) (n : Nat) (d : Dev) : Dev :=
  (List.finRange 16).foldl (fun (d : Dev) (u : Fin 16) =>
    if d.rd (pgCapu u) CAPU.TKIND = 2 ∧ d.rd (pgCapu u) CAPU.TEVT = n then capTrigger rz u d.st 0 d else d) d

/-! ## The event unit (R593 to R599) -/

/-- Event number of a PEVT bit of a page (*Event numbers* and the event tables of the pages). -/
def eventNo (page bit : Nat) : Nat :=
  match clsOf page with
  | some .glb => 7
  | some .stg => bit
  | some .tim => 8 + bit
  | some .evt => 6
  | some .hif => 5
  | some .spm => 19
  | some .cal => 14 + bit
  | some .otp => 16 + bit
  | some .saf => 20 + bit
  | some .red => 24 + bit
  | some .tsu => 72 + bit
  | some .dmc => 18
  | some .ring => 32 + 7 * (page - 0x10) + bit
  | some .sys => 60 + bit
  | some .cep => 64 + bit
  | some .mfe => 96 + bit
  | some .mfc => 100 + (page - 0x41)
  | some .cap => 120 + bit
  | some .capu => 104 + (page - 0x50)
  | some .fbu => 192 + (page - 0x60)
  | some .sgu => 216 + bit
  | some .sgc => 200 + (page - 0x70)
  | some .pgrp => 84 + (page - 0xC0)
  | some .sea => 92 + bit
  | some .axp => 128 + (page - 0x100) / 4
  | some .prf => 0
  | none => 0

/-- The mask bit of a vector: bit 0 of Vector Control, the fourth word of its entry of the MSI-X table (R595). -/
def Dev.msixMasked (d : Dev) (v : Fin 32) : Bool := d.on pgHIF ⟨0x80C + 16 * v.val, 0, 1⟩

/-- HOLD of a vector in ST LSB. -/
def Dev.msixHold (d : Dev) (v : Fin 32) : Nat := d.rd pgEVT (EVT.HOLD.nth 4 v) * 16000

/-- An MSI-X request on a vector (R595): sent when HOLD µs have passed since its last message, pending otherwise; pending while
the vector is masked. -/
def msixRequest (v : Fin 32) (d : Dev) : Dev :=
  let clear : Bool := match d.evt.lastMsg.get v with
    | none => true
    | some t => decide (t + d.msixHold v ≤ d.st)
  if clear ∧ !d.msixMasked v then
    Dev.emit (.msix v) { d with
      evt := { d.evt with lastMsg := d.evt.lastMsg.set v (some d.st), msgPending := d.evt.msgPending.set v false } }
  else { d with evt := { d.evt with msgPending := d.evt.msgPending.set v true } }

/-- Unread entries of the event log. -/
def Dev.logUnread (d : Dev) : Nat := d.rd pgEVT EVT.NENT

/-- The posting of event `n` with an argument as the event unit handles it (R594, R597): EPEND, routing, log. -/
def eventUnit (rz : Raise) (n arg : Nat) (d : Dev) : Dev :=
  let pend := EVT.EPEND.nth 4 (n / 32)
  let d := d.wr pgEVT pend ((d.rd pgEVT pend) ||| 2 ^ (n % 32))
  let ert := fun (f : Fld) => f.nth 4 n
  let d := if d.on pgEVT (ert EVT.MSIX) then
      msixRequest ⟨d.rd pgEVT (ert EVT.VEC) % 32, Nat.mod_lt _ (by decide)⟩ d
    else d
  if d.on pgEVT (ert EVT.LOG) ∧ d.on pgEVT EVT.LOGEN then
    if 1024 ≤ d.logUnread then rz pgEVT 0 0 (d.inc pgEVT EVT.LOST)
    else
      let w := d.rd pgEVT EVT.LOGW
      let entry := bytesLE 8 d.st ++ [BitVec.ofNat 8 n, 0] ++ bytesLE 2 arg ++ bytesLE 4 d.evt.lseq
      let d := (d.setMemBytes (dramLog + 16 * w) entry).wr pgEVT EVT.LOGW (w + 1)
      let d := { d with evt := { d.evt with lseq := (d.evt.lseq + 1) % 2 ^ 32 } }
      (d.wr pgEVT EVT.NENT (d.logUnread + 1)).wr pgEVT EVT.FULL (b2n (d.logUnread + 1 == 1024))
  else d

/-- Raise an event of a page (R593): its PEVT bit is set; with PEVE and EVO set, and the event unit on (R598), it is
posted. An absent unit posts none (R21). -/
def raiseN : Nat → Raise
  | 0 => fun page bit _ d => d.wr page HDR.PEVT (d.rd page HDR.PEVT ||| 2 ^ bit)
  | fuel + 1 => fun page bit arg d =>
    let d := d.wr page HDR.PEVT (d.rd page HDR.PEVT ||| 2 ^ bit)
    if bitOf (d.rd page HDR.PEVE) bit && d.on page HDR.EVO && d.stage != 0 && !d.absent page then
      let n := eventNo page bit
      -- The posting of LOG_FULL raises no LOG_FULL of its own.
      let d := eventUnit (if n = 6 then fun _ _ _ d => d else raiseN fuel) n arg d
      capEvent (raiseN fuel) n (tsuEvent (raiseN fuel) n d)
    else d

/-- Raise an event of a page; one of an evaluation that its task has not committed waits for the commit (R43). -/
def raise : Raise := fun page bit arg d =>
  match d.evt.hold with
  | none => raiseN 40 page bit arg d
  | some l => { d with evt := { d.evt with hold := some (l ++ [(page, bit, arg)]) } }

/-- Post an event that has no PEVT bit: POST by engine code (R333). -/
def postEvent (n arg : Nat) (d : Dev) : Dev := capEvent raise n (tsuEvent raise n (eventUnit raise n arg d))

end Sys2Proof.Machine
end

