-- ==== Sys2Proof/Machine/Command.lean ====
section
/-! DEFINITION. Commands written to PCMD (R570, R571): how a page takes one, records it in PCST, and evaluates it at once or
later. -/
namespace Sys2Proof.Machine

/-- *Command results*. -/
def rOK : Nat := 0
def rSTATE : Nat := 1
def rPARAM : Nat := 2
def rCODE : Nat := 3

/-- PCST records a command (R570, R571). -/
def recordCmd (page code arg res : Nat) (busy : Bool) (d : Dev) : Dev :=
  d.setReg page 0 HDR.PCST_CODE.off
    (BitVec.ofNat 32 (code % 2 ^ 8 + (res % 2 ^ 4) * 2 ^ 8 + b2n busy * 2 ^ 12 + (arg % 2 ^ 16) * 2 ^ 16))

/-- A command the page evaluates at once: not taken while BUSY (R571); otherwise recorded with its result, and carried out
when the result is OK (R570). -/
def takeCmd (page code arg : Nat) (check : Dev → Nat) (eff : Dev → Dev) (d : Dev) : Dev :=
  if d.on page HDR.BUSY then d.wr page HDR.LOST 1
  else
    let r := check d
    let d := recordCmd page code arg r false d
    if r = rOK then eff d else d

/-- A command the page evaluates later: recorded with BUSY = 1 until then. -/
def deferCmd (page code arg : Nat) (d : Dev) : Dev :=
  if d.on page HDR.BUSY then d.wr page HDR.LOST 1 else recordCmd page code arg rOK true d

/-- The evaluation of a deferred command: its result, and BUSY clears. -/
def settleCmd (page res : Nat) (d : Dev) : Dev := (d.wr page HDR.RESULT res).wr page HDR.BUSY 0

/-- A condition of state, then a condition of argument or configuration (R570). -/
def checks (state param : Bool) : Nat := if !state then rSTATE else if !param then rPARAM else rOK

end Sys2Proof.Machine
end

