-- ==== Sys2Proof/Machine/Crypto.lean ====
section
/-! DEFINITION. Checksums and the image signature: CRC-32C (R83), CRC-8 (*Frame header*, R589), CRC-16 (R501), SHA-256 and
ECDSA over P-256 (*The Quinas image*; the algorithms are those of FIPS 180 and FIPS 186, which the spec names). -/
namespace Sys2Proof.Machine

/-! ## Cyclic redundancy checks -/

/-- `n` steps of a reflected CRC of 32 bits, polynomial 0x1EDC_6F41 (reflected 0x82F6_3B78). -/
def crc32Bits : Nat → Nat → Nat
  | 0, c => c
  | n + 1, c => crc32Bits n (if c % 2 = 1 then xorN (c / 2) 0x82F63B78 else c / 2)

/-- CRC-32C from a running value. -/
def crc32Run (c : Nat) (bs : List Byte) : Nat := bs.foldl (fun c b => crc32Bits 8 (xorN c b.toNat)) c

/-- CRC-32C with the parameters of R83. -/
def crc32c (bs : List Byte) : Nat := xorN (crc32Run 0xFFFFFFFF bs) 0xFFFFFFFF

/-- `n` steps of a CRC of `w` bits that takes the most significant bit first. -/
def crcBits (w poly : Nat) : Nat → Nat → Nat
  | 0, c => c
  | n + 1, c => crcBits w poly n (if bitOf c (w - 1) then xorN (c * 2 % 2 ^ w) poly else c * 2 % 2 ^ w)

/-- A CRC of `w` bits over bytes, most significant bit first. -/
def crcMsb (w poly init : Nat) (bs : List Byte) : Nat :=
  bs.foldl (fun c b => crcBits w poly 8 (xorN c (b.toNat * 2 ^ (w - 8)))) init

/-- CRC-8, polynomial 0x07, initial value 0. -/
def crc8 (bs : List Byte) : Nat := crcMsb 8 0x07 0 bs

/-- CRC-16, polynomial 0x1021, initial value 0xFFFF. -/
def crc16 (bs : List Byte) : Nat := crcMsb 16 0x1021 0xFFFF bs

/-! ## SHA-256 -/

def shaInit : List Word :=
  [0x6A09E667, 0xBB67AE85, 0x3C6EF372, 0xA54FF53A, 0x510E527F, 0x9B05688C, 0x1F83D9AB, 0x5BE0CD19]

def shaK : List Word :=
  [0x428A2F98, 0x71374491, 0xB5C0FBCF, 0xE9B5DBA5, 0x3956C25B, 0x59F111F1, 0x923F82A4, 0xAB1C5ED5,
   0xD807AA98, 0x12835B01, 0x243185BE, 0x550C7DC3, 0x72BE5D74, 0x80DEB1FE, 0x9BDC06A7, 0xC19BF174,
   0xE49B69C1, 0xEFBE4786, 0x0FC19DC6, 0x240CA1CC, 0x2DE92C6F, 0x4A7484AA, 0x5CB0A9DC, 0x76F988DA] ++
  [0x983E5152, 0xA831C66D, 0xB00327C8, 0xBF597FC7, 0xC6E00BF3, 0xD5A79147, 0x06CA6351, 0x14292967,
   0x27B70A85, 0x2E1B2138, 0x4D2C6DFC, 0x53380D13, 0x650A7354, 0x766A0ABB, 0x81C2C92E, 0x92722C85,
   0xA2BFE8A1, 0xA81A664B, 0xC24B8B70, 0xC76C51A3, 0xD192E819, 0xD6990624, 0xF40E3585, 0x106AA070] ++
  [0x19A4C116, 0x1E376C08, 0x2748774C, 0x34B0BCB5, 0x391C0CB3, 0x4ED8AA4A, 0x5B9CCA4F, 0x682E6FF3,
   0x748F82EE, 0x78A5636F, 0x84C87814, 0x8CC70208, 0x90BEFFFA, 0xA4506CEB, 0xBEF9A3F7, 0xC67178F2]

def shaS (a b c : Nat) (x : Word) : Word := x.rotateRight a ^^^ x.rotateRight b ^^^ x.rotateRight c
def shaT (a b c : Nat) (x : Word) : Word := x.rotateRight a ^^^ x.rotateRight b ^^^ (x >>> c)

/-- The message schedule: `n` words computed on, the newest first in `w`. -/
def shaSchedule : Nat → List Word → List Word
  | 0, w => w
  | n + 1, w =>
    let g := fun i => w.getD i 0
    shaSchedule n ((shaT 17 19 10 (g 1) + g 6 + shaT 7 18 3 (g 14) + g 15) :: w)

/-- One round on the working variables a to h. -/
def shaRound (v : List Word) (kw : Word × Word) : List Word :=
  match v with
  | [a, b, c, d, e, f, g, h] =>
    let t1 := h + shaS 6 11 25 e + ((e &&& f) ^^^ (~~~e &&& g)) + kw.1 + kw.2
    let t2 := shaS 2 13 22 a + ((a &&& b) ^^^ (a &&& c) ^^^ (b &&& c))
    [t1 + t2, a, b, c, d + t1, e, f, g]
  | v => v

/-- A big-endian word of four bytes. -/
def wordBE (bs : List Byte) : Word := BitVec.ofNat 32 (bs.foldl (fun acc b => acc * 256 + b.toNat) 0)

/-- One block of 64 bytes. -/
def shaBlock (h : List Word) (block : List Byte) : List Word :=
  let w := (List.range 16).map fun i => wordBE ((block.drop (4 * i)).take 4)
  let ws := (shaSchedule 48 w.reverse).reverse
  (h.zip ((shaK.zip ws).foldl shaRound h)).map fun p => p.1 + p.2

/-- The blocks of a padded message. -/
def shaBlocks : Nat → List Word → List Byte → List Word
  | 0, h, _ => h
  | n + 1, h, bs => shaBlocks n (shaBlock h (bs.take 64)) (bs.drop 64)

/-- A number as `n` bytes, most significant first. -/
def bytesBE (n v : Nat) : List Byte := ((List.range n).map fun i => BitVec.ofNat 8 (v / 2 ^ (8 * i))).reverse

/-- SHA-256. -/
def sha256 (bs : List Byte) : List Byte :=
  let n := bs.length
  let pad := (55 + 64 - n % 64) % 64
  let m := bs ++ [0x80] ++ List.replicate pad 0 ++ bytesBE 8 (8 * n)
  ((shaBlocks (m.length / 64) shaInit m).map fun w => bytesBE 4 w.toNat).flatten

/-! ## ECDSA P-256 -/

def p256p : Nat := 0xFFFFFFFF00000001000000000000000000000000FFFFFFFFFFFFFFFFFFFFFFFF
def p256n : Nat := 0xFFFFFFFF00000000FFFFFFFFFFFFFFFFBCE6FAADA7179E84F3B9CAC2FC632551
def p256b : Nat := 0x5AC635D8AA3A93E7B3EBBD55769886BC651D06B0CC53B0F63BCE3C3E27D2604B
def p256gx : Nat := 0x6B17D1F2E12C4247F8BCE6E563A440F277037D812DEB33A0F4A13945D898C296
def p256gy : Nat := 0x4FE342E2FE1A7F9B8EE7EB4A7C0F9E162BCE33576B315ECECBB6406837BF51F5

/-- `x^e mod m`, with `fuel` bits of `e`. -/
def powMod (m : Nat) : Nat → Nat → Nat → Nat
  | 0, _, _ => 1
  | fuel + 1, x, e =>
    let r := powMod m fuel (x * x % m) (e / 2)
    if e % 2 = 1 then x * r % m else r

/-- The inverse modulo a prime of at most 256 bits. -/
def invMod (m x : Nat) : Nat := powMod m 256 x (m - 2)

def subMod (m x y : Nat) : Nat := (x + (m - y % m)) % m

/-- The sum of two points of the curve; `none` is the point at infinity. -/
def ecAdd (a b : Option (Nat × Nat)) : Option (Nat × Nat) :=
  match a, b with
  | none, q => q
  | p, none => p
  | some (x1, y1), some (x2, y2) =>
    if x1 = x2 ∧ (y1 + y2) % p256p = 0 then none
    else
      let l := if x1 = x2 then (3 * x1 * x1 + (p256p - 3)) * invMod p256p (2 * y1 % p256p) % p256p
        else subMod p256p y2 y1 * invMod p256p (subMod p256p x2 x1) % p256p
      let x3 := subMod p256p (subMod p256p (l * l % p256p) x1) x2
      some (x3, subMod p256p (l * subMod p256p x1 x3 % p256p) y1)

/-- `k` times a point, with `fuel` bits of `k`. -/
def ecMul : Nat → Nat → Option (Nat × Nat) → Option (Nat × Nat)
  | 0, _, _ => none
  | fuel + 1, k, q =>
    let r := ecMul fuel (k / 2) (ecAdd q q)
    if k % 2 = 1 then ecAdd q r else r

/-- Is this pair a point of the curve? -/
def onCurve (x y : Nat) : Bool :=
  decide (x < p256p) && decide (y < p256p) && decide (y * y % p256p = (x * x * x + (p256p - 3) * x + p256b) % p256p)

/-- Verify the signature `(r, s)` over a digest with the key `(qx, qy)`. -/
def ecdsaVerify (qx qy r s e : Nat) : Bool :=
  onCurve qx qy && decide (0 < r) && decide (r < p256n) && decide (0 < s) && decide (s < p256n) &&
    (let w := invMod p256n s
     match ecAdd (ecMul 256 (e * w % p256n) (some (p256gx, p256gy))) (ecMul 256 (r * w % p256n) (some (qx, qy))) with
     | none => false
     | some (x, _) => decide (x % p256n = r))

end Sys2Proof.Machine
end

