-- ==== Sys2Proof/Machine/Capture.lean ====
section
/-! DEFINITION. The capture engine (spec/12): probes, samples and entries, triggers, records, buffers, measurements,
draining, and the commands of the CAP and CAPU pages. -/
namespace Sys2Proof.Machine

/-! ## Geometry of a unit's buffer (R471) -/

def Dev.capB (d : Dev) (u : Fin 16) : Nat := d.rd (pgCapu u) CAPU.BSIZE * 65536
def Dev.capBase (d : Dev) (u : Fin 16) : Nat := dramCapture + d.rd (pgCapu u) CAPU.BBASE * 65536
/-- Address of a byte count in the unit's buffer. -/
def Dev.capAddr (d : Dev) (u : Fin 16) (count : Nat) : Nat :=
  d.capBase u + (if d.capB u = 0 then 0 else count % d.capB u)
def Dev.ssize (d : Dev) (u : Fin 16) : Nat :=
  if d.on (pgCapu u) CAPU.SMODE then 16 else 4 * d.rd (pgCapu u) CAPU.NCH

/-- MEm and MCHm of measurement slot m; MEm applies only with MEN = 1. -/
def Dev.meas (d : Dev) (u : Fin 16) (m : Nat) : Option Nat :=
  let b := bitsOf (d.rd (pgCapu u) CAPU.MCFG) (8 * m) 8
  if d.on (pgCapu u) CAPU.MEN && bitOf b 6 then some (b % 64) else none

/-- Channels of the enabled measurement slots, in order. -/
def Dev.measList (d : Dev) (u : Fin 16) : List Nat := (List.range 4).filterMap (d.meas u)

/-- Record length L (R471). -/
def Dev.recLen (d : Dev) (u : Fin 16) : Nat :=
  64 + d.ssize u * (d.rd (pgCapu u) CAPU.PRE + d.rd (pgCapu u) CAPU.POST) + 64 * (d.measList u).length

/-- MODE 3. -/
def Dev.isRoll (d : Dev) (u : Fin 16) : Bool := d.rd (pgCapu u) CAPU.MODE == 3

/-! ## Becoming available (R478, R474) -/

/-- The records at the head of the waiting list that may become available, in order. -/
def capAvailable (u : Fin 16) : Nat → Dev → Dev
  | 0, d => d
  | fuel + 1, d =>
    let pg := pgCapu u
    let c := d.capUnit u
    match c.waiting with
    | [] => d
    | r :: rest =>
      if !r.ready then d
      else
        let d := (d.setCapUnit u { c with waiting := rest }).wr pg CAPU.ACNT (r.start + r.len)
        let d := if r.kind = 1 ∧ r.mfail then raise pg 4 (r.seq % 2 ^ 16) d else d
        let d := if r.kind ≠ 1 then d
          else if d.on pg CAPU.DRAIN then
            d.setCapUnit u { d.capUnit u with toCopy := (d.capUnit u).toCopy ++ [((r.start + r.len) % 2 ^ 32, r.seq)] }
          else raise pg 1 (r.seq % 2 ^ 16) d
        capAvailable u fuel d

def capMakeAvailable (u : Fin 16) (d : Dev) : Dev := capAvailable u ((d.capUnit u).waiting.length) d

/-- The number of units in ARMED, TRIGGERED or REARM. -/
def capShowRun (d : Dev) : Dev :=
  d.wr pgCAP CAP.NRUN ((List.finRange 16).filter fun u =>
    let s := d.rd (pgCapu u) CAPU.USTATE
    decide (1 ≤ s) && decide (s ≤ 3)).length

def capState (u : Fin 16) (s : Nat) (d : Dev) : Dev := capShowRun (d.wr (pgCapu u) CAPU.USTATE s)

/-! ## Headers (R475) -/

/-- A header, its CRC field 0. -/
def capHeader (kind u flags nch seq ttrig len pre precnt prefirst post ktrig ign mcnt cause ssize div mode mofs t0 : Nat) :
    List Byte :=
  bytesLE 1 kind ++ bytesLE 1 u ++ bytesLE 1 flags ++ bytesLE 1 nch ++ bytesLE 4 seq ++ bytesLE 8 ttrig ++
  bytesLE 4 len ++ bytesLE 4 pre ++ bytesLE 4 precnt ++ bytesLE 4 prefirst ++ bytesLE 4 post ++ bytesLE 4 ktrig ++
  bytesLE 2 ign ++ bytesLE 1 mcnt ++ bytesLE 1 cause ++ bytesLE 4 0 ++ bytesLE 2 ssize ++ bytesLE 1 div ++
  bytesLE 1 mode ++ bytesLE 4 mofs ++ bytesLE 8 t0

/-- Write the CRC of the `len` bytes of a record at `a` (its CRC field taken as 0); the header counts among the capture writes. -/
def capSeal (a len : Nat) (d : Dev) : Dev :=
  let bs := d.memBytes a 44 ++ [0, 0, 0, 0] ++ d.memBytes (a + 48) (len - 48)
  let d := d.setMemLE (a + 44) 4 (crc32c bs)
  { d with cap := { d.cap with wbytes := d.cap.wbytes + 64 } }

/-- The CRC of a record in which an uncorrectable error lies does not match (R481): it differs from the right one by an open
value. -/
def capSpoil (a : Nat) (d : Dev) : Dev :=
  (d.setMemLE (a + 44) 4 (d.memLE (a + 44) 4 ^^^ (1 + d.openBits 31))).openUsed

/-- Write bytes of a unit's buffer from a byte count on; they wrap at its end. -/
def capPut (u : Fin 16) (count : Nat) (bs : List Byte) (d : Dev) : Dev :=
  (bs.zipIdx).foldl (fun (d : Dev) (b : Byte × Nat) => d.setMem8 (d.capAddr u (count + b.2)) b.1) d

/-- Write an overflow mark at WCNT and stop the unit (R472, R473). -/
def capOverflow (u : Fin 16) (cause : Nat) (d : Dev) : Dev :=
  let pg := pgCapu u
  let seq := d.rd pg CAPU.SEQ
  let w := d.rd pg CAPU.WCNT
  let h := capHeader 2 u 0 0 seq d.st 64 0 0 0 0 0 0 0 cause 0 0 0 0 0
  let d := capPut u w (h.take 44 ++ bytesLE 4 (crc32c h) ++ h.drop 48) d
  let d := { d with cap := { d.cap with wbytes := d.cap.wbytes + 64 } }
  let d := ((d.wr pg CAPU.WCNT (w + 64)).wr pg CAPU.SEQ (seq + 1)).wr pg CAPU.OVF 1
  let d := (d.wr pg CAPU.OVC cause)
  let c := d.capUnit u
  let d := d.setCapUnit u { c with waiting := c.waiting ++ [⟨w, 64, seq, 2, true, false, [], 0⟩] }
  raise pg 2 (seq % 2 ^ 16) (capMakeAvailable u (capState u 4 d))

/-- Does a record of `len` bytes fit now (R471)? -/
def capFits (u : Fin 16) (d : Dev) : Bool :=
  let pg := pgCapu u
  let b := d.capB u
  let w := d.rd pg CAPU.WCNT
  let used := (w + 2 ^ 32 - d.rd pg CAPU.RCNT) % 2 ^ 32
  let off := if b = 0 then 0 else w % b
  let l := d.recLen u
  let pad := if b < off + l then b - off else 0
  decide (used + pad + l + 64 ≤ b)

/-- Reserve the next record (R471); its space reads 0 and a pad record fills the way to the start of the buffer. -/
def capReserve (u : Fin 16) (d : Dev) : Dev :=
  let pg := pgCapu u
  let b := d.capB u
  let w := d.rd pg CAPU.WCNT
  let off := if b = 0 then 0 else w % b
  let l := d.recLen u
  let d := if b < off + l then
      let pad := b - off
      let a := d.capAddr u w
      let h := capHeader 3 u 0 0 0 0 pad 0 0 0 0 0 0 0 0 0 0 0 0 0
      -- a pad shorter than a header holds its first bytes (notes/assumptions/112.md)
      let d := (d.clearMem a (a + pad)).setMemBytes a (h.take pad)
      let d := if pad < 64 then d else capSeal a pad d
      let c := d.capUnit u
      (d.wr pg CAPU.WCNT (w + pad)).setCapUnit u { c with waiting := c.waiting ++ [⟨w, pad, 0, 3, true, false, [], 0⟩] }
    else d
  let w := d.rd pg CAPU.WCNT
  let a := d.capAddr u w
  let d := (d.clearMem a (a + l)).wr pg CAPU.WCNT (w + l)
  let c := d.capUnit u
  let seq := d.rd pg CAPU.SEQ
  capMakeAvailable u (((d.wr pg CAPU.SEQ (seq + 1)).wr pg CAPU.PRECNT 0).setCapUnit u
    { c with start := w, len := l, seq := seq, pre := 0, post := 0, precnt := 0, prefirst := 0, reserved := true,
             flags := (if d.on pg CAPU.SMODE then 0x10 else 0) + (if d.isRoll u then 0x20 else 0), t0 := 0 })

/-! ## Measurements (R476) -/

/-- A value of a channel in a stored slot: tag, signed value or level, edges it counts. -/
structure Samp where
  tag : Nat
  val : Int
  cnt : Nat
deriving DecidableEq, Repr

/-- The slots of a record as samples of channel `ch`, oldest first. -/
def capSamples (u : Fin 16) (ch : Nat) (d : Dev) : List Samp :=
  let pg := pgCapu u
  let c := d.capUnit u
  let base := d.capAddr u c.start + 64
  let ss := d.ssize u
  let pre := d.rd pg CAPU.PRE
  let edge := d.on pg (CAPU.PEDGE.nth 4 ch)
  let p := match d.rd pgTIM TIM.RATE with
    | 0 => 250000
    | 1 => 500000
    | 2 => 1000000
    | _ => 2000000
  let step := p * 2 ^ d.rd pg CAPU.DIV
  let slots := (List.range c.precnt).map (fun i => (c.prefirst + i) % max 1 pre) ++
    (List.range c.post).map (fun j => pre + j)
  if d.on pg CAPU.SMODE then
    slots.filterMap fun s =>
      let a := base + 16 * s
      if (d.mem8 (a + 8)).toNat = ch then
        some ⟨d.memLE a 8, if edge then ((d.mem8 (a + 9)).toNat % 2 : Nat) else sxt 32 (d.memLE (a + 12) 4), 1⟩
      else none
  else
    (List.range slots.length).zip slots |>.map fun (i, s) =>
      let w := d.memLE (base + ss * s + 4 * ch) 4
      ⟨c.tlast + i * step - (slots.length - 1) * step, if edge then (w % 2 : Nat) else sxt 32 w, if edge then w / 2 ^ 16 else 0⟩

/-- Weights of the samples: 1 each, or with SMODE 1 the time each value held up to the last tag. -/
def capWeights (chg : Bool) (tlast : Nat) : List Samp → List (Int × Nat)
  | [] => []
  | [s] => [(s.val, if chg then tlast - s.tag else 1)]
  | s :: t :: l => (s.val, if chg then t.tag - s.tag else 1) :: capWeights chg tlast (t :: l)

/-- Level changes of a channel: tag and new level. -/
def capLevels (edge : Bool) (lvl hys : Int) : Bool → List Samp → List (Nat × Bool)
  | _, [] => []
  | cur, s :: l =>
    let now := if edge then decide (s.val = 1)
      else if lvl ≤ s.val then true else if s.val ≤ lvl - hys then false else cur
    if now = cur then capLevels edge lvl hys cur l else (s.tag, now) :: capLevels edge lvl hys now l

/-- The square root of `a / b`, toward zero (R170). -/
def sqrtDown (a b : Nat) : Nat := if b = 0 then 0 else Nat.sqrt (a / b)

/-- High time within a list of level changes from a first rising edge on. -/
def highTime : List (Nat × Bool) → Nat
  | (t, true) :: (t', false) :: l => (t' - t) + highTime l
  | _ :: l => highTime l
  | [] => 0

/-- *Measurement block* of a channel (R476). -/
def capBlock (u : Fin 16) (ch : Nat) (d : Dev) : List Byte :=
  let pg := pgCapu u
  let edge := d.on pg (CAPU.PEDGE.nth 4 ch)
  let chg := d.on pg CAPU.SMODE
  let c := d.capUnit u
  let ss := capSamples u ch d
  let vals := ss.map Samp.val
  let mn := vals.foldl min (vals.headD 0)
  let mx := vals.foldl max (vals.headD 0)
  let ws := capWeights chg c.tlast ss
  let wsum0 : Nat := (ws.map Prod.snd).foldl (· + ·) 0
  let ws := if wsum0 = 0 then vals.map fun v => (v, 1) else ws
  let wsum : Nat := (ws.map Prod.snd).foldl (· + ·) 0
  let sum : Int := ws.foldl (fun acc vw => acc + vw.1 * (vw.2 : Int)) 0
  let sq : Nat := ws.foldl (fun acc vw => acc + (vw.1.natAbs * vw.1.natAbs) * vw.2) 0
  let mean : Int := if wsum = 0 then 0 else divTrunc sum wsum
  let lvl := d.rdI pg CAPU.MLVL
  let hys : Int := d.rd pg CAPU.MHYS
  let first := match ss with
    | [] => false
    | s :: _ => if edge then decide (s.val = 1) != chg else decide (lvl ≤ s.val)
  let levels := capLevels edge lvl hys first ss
  let edges := if edge ∧ !chg then (ss.map Samp.cnt).foldl (· + ·) 0 else levels.length
  let rises := levels.filter fun l => l.2
  let ta := (rises.head?.map Prod.fst).getD 0
  let tb := (rises.getLast?.map Prod.fst).getD 0
  let noper := decide (rises.length < 2) || decide (tb ≤ ta)
  let period := if noper then 0 else (tb - ta) / (rises.length - 1)
  let freq := if noper ∨ period = 0 then 0 else 16000000000000000 / period
  let inside := levels.filter fun l => decide (ta ≤ l.1) && decide (l.1 ≤ tb)
  let duty := if noper then 0 else min 0xFFFF_FFFF (highTime inside * 2 ^ 32 / (tb - ta))
  bytesLE 1 ch ++ bytesLE 1 (b2n noper + 2 * b2n edge) ++ bytesLE 2 0 ++ bytesLE 4 ss.length ++ bytesLE 8 period ++
  bytesLE 8 freq ++ bytesLE 4 duty ++ bytesLE 4 (toBits 32 mn) ++ bytesLE 4 (toBits 32 mx) ++
  bytesLE 4 (mx - mn).toNat ++ bytesLE 4 (toBits 32 mean) ++ bytesLE 4 (sqrtDown sq wsum) ++ bytesLE 4 edges ++
  bytesLE 12 0

/-! ## Closing a record (R465, R466, R469, R470) -/

/-- The cycle whose tick is the latest at or before `t`, counted back from the present cycle. -/
def Dev.cycleAt (d : Dev) (t : Nat) : Nat :=
  match d.rd pgTIM TIM.RATE with
  | 0 => t / 250000
  | 1 => t / 500000
  | 2 => t / 1000000
  | _ => t / 2000000

/-- The post-processing task of a unit is triggered with the SEQ of a record as its sequence number (R478). -/
def capProcess (u : Fin 16) (seq : Nat) (d : Dev) : Dev :=
  let flow := 8 + u.val
  let d := if d.tsu.ofFlow flow (fun _ => true) = [] then d.wrS pgTSU flow TSU.FRSEQ seq else d
  trigTask raise (264 + u) (d.wrS pgTSU flow TSU.FNSEQ seq)

/-- Write the header and close the open record; its post-processing is triggered, or it becomes available (R478). -/
def capClose (u : Fin 16) (trunc : Bool) (d : Dev) : Dev :=
  let pg := pgCapu u
  let c := d.capUnit u
  let tt := d.rd64 pg 0 CAPU.TTRIGLO.off
  let a := d.capAddr u c.start
  let ms := d.measList u
  let mofs := if ms = [] then 0 else c.len - 64 * ms.length
  let flags := c.flags + (if trunc then 8 else 0)
  let h := capHeader 1 u flags (d.rd pg CAPU.NCH) c.seq tt c.len (d.rd pg CAPU.PRE) c.precnt c.prefirst c.post
    (d.cycleAt tt) c.ign ms.length 0 (d.ssize u) (d.rd pg CAPU.DIV) (d.rd pg CAPU.MODE) mofs c.t0
  let d := (d.setMemBytes a h).incW pg CAPU.RECS
  -- what the device task will find: it works on the record as it stands now, with the unit's present configuration
  let blocks := ms.flatMap fun ch => capBlock u ch d
  let rec1 : CapRec := ⟨c.start, c.len, c.seq, 1, decide (ms = []), false, blocks, mofs⟩
  let d := d.setCapUnit u { c with waiting := c.waiting ++ [rec1], ign := 0, closedAt := d.st, reserved := false }
  if ms = [] then
    let hit := d.badIn a c.len
    let d := capSeal a c.len d
    capMakeAvailable u (if hit then capSpoil a d else d)
  else capProcess u c.seq (d.wr pg CAPU.NPP (d.rd pg CAPU.NPP + 1))

/-- The post-processing instance of a record is released (R478): its blocks and CRC stand, and the record becomes available;
after a failed instance with MFAIL = 1 and zero blocks; one whose reading met an uncorrectable error with MFAIL = 1, CECC and a
CRC that does not match (R481). -/
def capReleased (u : Fin 16) (ok : Bool) (d : Dev) : Dev :=
  let pg := pgCapu u
  let c := d.capUnit u
  match c.waiting.find? (fun r => r.kind == 1 && !r.ready) with
  | none => d
  | some r =>
    let a := d.capAddr u r.start
    let hit := d.badIn a r.len
    let d := if ok then d.setMemBytes (a + r.mofs) r.blocks else d.clearMem (a + r.mofs) (a + r.len)
    let d := if ok && !hit then d else d.setMem8 (a + 2) (BitVec.ofNat 8 (putBits (d.mem8 (a + 2)).toNat 6 1 1))
    let d := capSeal a r.len d
    let d := if hit then raise pg 5 (r.seq % 2 ^ 16) (capSpoil a d) else d
    let c := d.capUnit u
    let upd := fun (x : CapRec) => if x.start = r.start ∧ x.kind = 1 then { x with ready := true, mfail := !ok || hit } else x
    capMakeAvailable u ((d.setCapUnit u { c with waiting := c.waiting.map upd }).wr pg CAPU.NPP (d.rd pg CAPU.NPP - 1))

/-- Give back the open reservation (R470). -/
def capDiscard (u : Fin 16) (d : Dev) : Dev :=
  let c := d.capUnit u
  ((d.setCapUnit u { c with reserved := false }).wr (pgCapu u) CAPU.WCNT c.start).wr (pgCapu u) CAPU.SEQ c.seq

/-- After a record has closed: REARM, STOPPED, or in ROLL the next segment at once (R466, R469). -/
def capAfterClose (u : Fin 16) (d : Dev) : Dev :=
  let pg := pgCapu u
  match d.rd pg CAPU.MODE with
  | 1 => raise pg 3 ((d.capUnit u).seq % 2 ^ 16) (capState u 4 d)
  | 3 => if capFits u d then capState u 2 (capReserve u d) else capOverflow u 1 d
  | _ => capState u 3 d

/-- Enter ARMED for a reserved record. -/
def capArmed (u : Fin 16) (d : Dev) : Dev :=
  let c := d.capUnit u
  let d := (d.setCapUnit u
    { c with armedAt := d.st, fromCycle := d.cycleAt d.st + 1, due := List.range (d.rd (pgCapu u) CAPU.NCH), conv := [] }).wr (pgCapu u)
      CAPU.PREFULL (b2n (d.rd (pgCapu u) CAPU.PRE == 0))
  capState u (if d.isRoll u then 2 else 1) d

/-! ## Staging (R27, R473) -/

/-- Drain the staging of every unit, in order of units, at the capture limit of 2.0 GB/s: one byte in 8 ST LSB. -/
def capDrain (d : Dev) : Dev :=
  let budget := (d.st - d.cap.drained) / 8
  let d := { d with cap := { d.cap with drained := d.cap.drained + budget * 8 } }
  ((List.finRange 16).foldl (fun (s : Dev × Nat) (u : Fin 16) =>
    let c := s.1.capUnit u
    let n := min c.staged s.2
    (s.1.setCapUnit u { c with staged := c.staged - n }, s.2 - n)) (d, budget)).1

/-- Note a stored slot: bytes staged, and the record's counters as `f` changes them. -/
def capNote (u : Fin 16) (n : Nat) (f : CapUnit → CapUnit) (d : Dev) : Dev :=
  let c := f (d.capUnit u)
  Dev.setCapUnit u { c with staged := c.staged + n } { d with cap := { d.cap with wbytes := d.cap.wbytes + n } }

/-- Store a pre-trigger slot, circularly (R464). -/
def capStorePre (u : Fin 16) (tag : Nat) (bs : List Byte) (d : Dev) : Dev :=
  let pg := pgCapu u
  let n := (d.capUnit u).pre
  let pre := d.rd pg CAPU.PRE
  let d := d.setMemBytes (d.capAddr u (d.capUnit u).start + 64 + d.ssize u * (n % pre)) bs
  let d := capNote u bs.length (fun c => { c with pre := n + 1, tlast := tag }) d
  (d.wr pg CAPU.PRECNT (min pre (n + 1))).wr pg CAPU.PREFULL (b2n (decide (pre ≤ n + 1)))

/-- Store a post-trigger slot; the record closes with the last one (R465). In ROLL the first slot of a segment is its TTRIG
(R469). -/
def capStorePost (u : Fin 16) (tag : Nat) (bs : List Byte) (d : Dev) : Dev :=
  let pg := pgCapu u
  let n := (d.capUnit u).post
  let roll := d.isRoll u
  let last := decide (d.rd pg CAPU.POST ≤ n + 1)
  let d := d.setMemBytes (d.capAddr u (d.capUnit u).start + 64 + d.ssize u * (d.rd pg CAPU.PRE + n)) bs
  let d := capNote u bs.length (fun c => { c with post := n + 1, t0 := if n = 0 then tag else c.t0, tlast := tag }) d
  let d := if n == 0 && roll then d.wr64 pg 0 CAPU.TTRIGLO.off tag else d
  if last then capAfterClose u (capClose u false d) else d

/-- Store one slot of bytes in the unit's record: nothing outside ARMED and TRIGGERED; with the staging full the record ends
as at STOP and the unit stops with a mark of cause 2 (R473). `tag` is the slot's time. -/
def capStore (u : Fin 16) (tag : Nat) (bs : List Byte) (d : Dev) : Dev :=
  let d := capDrain d
  let state := d.rd (pgCapu u) CAPU.USTATE
  if state ≠ 1 ∧ state ≠ 2 then d
  else if state = 1 ∧ d.rd (pgCapu u) CAPU.PRE = 0 then d
  else if 65536 < (d.capUnit u).staged + bs.length then
    capOverflow u 2 (if state = 2 then capClose u true d else capDiscard u d)
  else if state = 1 then capStorePre u tag bs d
  else capStorePost u tag bs d

/-! ## Probes (R454 to R457) -/

/-- A word of the process image of the banks of cycle k: outputs from the device's bank, inputs from the bank published last
(R454 KIND 3). -/
def Dev.imageWord (d : Dev) (outBank inBank idx : Nat) : Nat :=
  let a := 4 * idx
  d.memLE (bankBase (if a < d.rd pgTIM TIM.OSIZE * 64 then outBank else inBank) + a) 4

/-- The value of a cycle probe (R454), given the output and input banks of the cycle. -/
def Dev.probeVal (d : Dev) (outBank inBank n : Nat) : Nat :=
  let cfg := (d.reg pgCAP n CAP.KIND.off).toNat
  let kind := bitsOf cfg 0 3
  let idx := bitsOf cfg 4 17
  let table := n / 16
  let off := d.rd (pgAxp table) AXP.STATE == 0
  match kind with
  | 1 => if 17 < idx ∨ off then 0 else (d.reg (pgAxp table) 0 (0x400 + 4 * idx)).toNat
  | 2 => if 255 < idx ∨ off then 0 else d.memLE (tableBase table + 0x400 + 4 * idx) 4
  | 3 => d.imageWord outBank inBank idx
  | 4 => if 31 < idx then 0 else toBits 32 (sxt 24 (d.reg (pgMfc (idx / 8)) 0 (MFC.CODE.off + 0x20 * (idx % 8))).toNat)
  | 5 => if 31 < idx then 0 else (d.reg (pgMfc (idx / 8)) 0 (MFC.CODE.off + 0x20 * (idx % 8))).toNat
  | _ => 0

/-- Channel c of a unit: its probe number, and whether it is an edge probe. -/
def Dev.chan (d : Dev) (u : Fin 16) (c : Nat) : Nat × Bool :=
  let e := d.on (pgCapu u) (CAPU.PEDGE.nth 4 c)
  let p := d.rd (pgCapu u) (CAPU.PNUM.nth 4 c)
  (if e then p % 64 else p, e)

/-- Level of an edge probe. -/
def Dev.edgeLevel (d : Dev) (e : Nat) : Bool := (d.cap.probes[e % 64]'(Nat.mod_lt _ (by decide))).1

/-- The pattern over the channels: the level of an edge channel, bit PBIT of the latest value of a cycle channel (R458). -/
def Dev.capPattern (d : Dev) (u : Fin 16) : Nat :=
  let c := d.capUnit u
  (List.range (d.rd (pgCapu u) CAPU.NCH)).foldl (fun acc i =>
    let (p, e) := d.chan u i
    let b := if e then d.edgeLevel p
      else bitOf ((c.last[i]?.getD none).getD 0) (d.rd (pgCapu u) (CAPU.PBIT.nth 4 i))
    acc + b2n b * 2 ^ i) 0

/-- The pattern condition on the channels as they stand (R461). -/
def Dev.capPatternHolds (d : Dev) (u : Fin 16) : Bool :=
  let m := d.rd64 (pgCapu u) 0 CAPU.TMASKLO.off
  Nat.land (d.capPattern u) m == Nat.land (d.rd64 (pgCapu u) 0 CAPU.TVALLO.off) m

/-- Evaluate the pattern (R461, R466): the unit keeps the condition; `true` says that it has become true. -/
def capPatternHit (u : Fin 16) (d : Dev) : Dev × Bool :=
  let c := d.capUnit u
  let now := d.capPatternHolds u
  let kind := d.rd (pgCapu u) CAPU.TKIND
  (d.setCapUnit u { c with pattern := now }, (kind == 0 || kind == 3) && now && !c.pattern)

/-- Evaluate the threshold for a new value of TCH (R461); the hysteresis state is kept in every unit state. `true` says that the
value is a crossing of the chosen slope. -/
def capThresholdHit (u : Fin 16) (v : Int) (d : Dev) : Dev × Bool :=
  let pg := pgCapu u
  let lvl := d.rdI pg CAPU.TLVL
  let hys : Int := d.rd pg CAPU.THYS
  let c := d.capUnit u
  let rise := c.wasLow && decide (lvl ≤ v)
  let fall := c.wasHigh && decide (v ≤ lvl)
  let low := (c.wasLow && !rise) || decide (v ≤ lvl - hys)
  let high := (c.wasHigh && !fall) || decide (lvl + hys ≤ v)
  let kind := d.rd pg CAPU.TKIND
  let hit : Bool := match d.rd pg CAPU.SLOPE with
    | 0 => rise
    | 1 => fall
    | _ => rise || fall
  (d.setCapUnit u { c with wasLow := low, wasHigh := high }, (kind == 1 || kind == 3) && hit)

/-- The triggers of one instant `t`: the threshold for each new value of TCH in `l` (channels and values), and the pattern where
it is evaluated. Several that fall together make one (R463). -/
def capWatch (u : Fin 16) (t : Nat) (l : List (Nat × Nat)) (pattern : Bool) (d : Dev) : Dev :=
  let tch := d.rd (pgCapu u) CAPU.TCH
  let (d, a) := match l.find? fun x => x.1 == tch with
    | some x => capThresholdHit u (sxt 32 x.2) d
    | none => (d, false)
  let (d, b) := if pattern then capPatternHit u d else (d, false)
  if a || b then capTrigger raise u t 0 d else d

/-- A change-only entry (R460). -/
def capEntry (tag ch : Nat) (level : Bool) (val : Nat) : List Byte :=
  bytesLE 8 tag ++ bytesLE 1 ch ++ bytesLE 1 (b2n level) ++ bytesLE 2 0 ++ bytesLE 4 val

/-- The last value of a channel, and a new one. -/
def CapUnit.value (c : CapUnit) (ch : Nat) : Option Nat := c.last[ch]?.getD none
def capTake (u : Fin 16) (x : Nat × Nat) (d : Dev) : Dev :=
  let c := d.capUnit u
  d.setCapUnit u { c with last := (c.last ++ List.replicate (x.1 + 1 - c.last.length) none).set x.1 (some x.2) }

/-- The cycle channels of a unit, and the KIND of a channel's cycle probe. -/
def Dev.cycleChans (d : Dev) (u : Fin 16) : List Nat :=
  (List.range (d.rd (pgCapu u) CAPU.NCH)).filter fun ch => !(d.chan u ch).2
def Dev.chanKind (d : Dev) (u : Fin 16) (ch : Nat) : Nat := d.rdS pgCAP (d.chan u ch).1 CAP.KIND
def Dev.chanConverts (d : Dev) (u : Fin 16) (ch : Nat) : Bool := d.chanKind u ch == 4 || d.chanKind u ch == 5

/-- The change-only entry of a cycle channel (R460); it is the channel's first one after arming, if that was due. -/
def capChange (u : Fin 16) (tag : Nat) (x : Nat × Nat) (d : Dev) : Dev :=
  let c := d.capUnit u
  capStore u tag (capEntry tag x.1 false x.2) (d.setCapUnit u { c with due := c.due.filter fun ch => ch != x.1 })

/-- The sample of cycle k of a unit with SMODE 0 (R459). -/
def capSample (u : Fin 16) (k tag : Nat) (d : Dev) : Dev :=
  let pg := pgCapu u
  let c := d.capUnit u
  let n := d.rd pg CAPU.NCH
  let word := fun i =>
    let (p, e) := d.chan u i
    if e then b2n (d.edgeLevel p) + (min 0xFFFF (c.edges[i]?.getD 0)) * 2 ^ 16 else (c.value i).getD 0
  let bs := (List.range n).flatMap fun i => bytesLE 4 (word i)
  let d := if k < c.fromCycle then d else capStore u tag bs d
  d.setCapUnit u { d.capUnit u with edges := [] }

/-- A conversion result takes its place among others by its tag. -/
def capInsert (x : Nat × Nat × Nat) : List (Nat × Nat × Nat) → List (Nat × Nat × Nat)
  | [] => [x]
  | y :: l => if x.1 ≤ y.1 then x :: y :: l else y :: capInsert x l

/-- A conversion result of a unit with SMODE 1: the threshold and the pattern see it, and it is stored (R460, R461). -/
def capConverted (u : Fin 16) (x : Nat × Nat × Nat) (d : Dev) : Dev :=
  let d := capWatch u x.1 [x.2] true (capTake u x.2 d)
  capChange u x.1 x.2 d

/-- What a unit does at the tick that ends cycle k: its channels' values, the triggers, then what it stores (R455, R459 to
R463). The first post-trigger slot is filled by the sample that met the condition. With SMODE 1 the sampling instant of every
cycle is one at which the pattern is evaluated (notes/assumptions/112.md). -/
def capUnitTick (outBank inBank k tag : Nat) (u : Fin 16) (d : Dev) : Dev :=
  let pg := pgCapu u
  let chg := d.on pg CAPU.SMODE
  let l := (d.cycleChans u).map fun ch => (ch, d.probeVal outBank inBank (d.chan u ch).1)
  let old := d.capUnit u
  let store := l.filter fun x => old.due.contains x.1 || (old.value x.1 != some x.2 && !d.chanConverts u x.1)
  let sampling := chg || k % 2 ^ d.rd pg CAPU.DIV == 0
  let conv := if chg then old.conv.foldr capInsert [] else []
  let early := conv.filter fun x => decide (x.1 ≤ tag)
  let d := early.foldl (fun d x => capConverted u x d) (d.setCapUnit u { old with conv := [] })
  let d := l.foldl (fun d x => capTake u x d) d
  let d := capWatch u tag (l.filter fun x => !(chg && d.chanConverts u x.1)) sampling d
  if chg then
    let d := (store.filter fun x => !early.any fun y => y.2.1 == x.1).foldl (fun d x => capChange u tag x d) d
    (conv.drop early.length).foldl (fun d x => capConverted u x d) d
  else if sampling then capSample u k tag d
  else d

/-- The capture engine at the tick that ends cycle k, whose tick stood at `tag` (R455). The probes, the levels and the
hysteresis go on in a unit that is IDLE or STOPPED, which stores nothing and takes no trigger. -/
def capTick (outBank inBank k tag : Nat) (d : Dev) : Dev :=
  let d := capDrain d
  let d := if 16000000 ≤ d.st - d.cap.wstart then
      { (d.wr pgCAP CAP.WRATE (d.cap.wbytes / 1000)) with cap := { d.cap with wbytes := 0, wstart := d.st } }
    else d
  (List.finRange 16).foldl (fun (d : Dev) (u : Fin 16) => capUnitTick outBank inBank k tag u d) d

/-- A new result of measurement input `ain` is recorded: KIND 4 and 5 channels of units with SMODE 1 take it up at the tick that
ends the cycle, where the entries of cycle channels are stored in the order of their tags (R460, notes/assumptions/112.md). With
SMODE 0 the result counts at the next tick. -/
def capResult (ain tag : Nat) (d : Dev) : Dev :=
  (List.finRange 16).foldl (fun (d : Dev) (u : Fin 16) =>
    if !d.on (pgCapu u) CAPU.SMODE then d
    else
      let mine := (d.cycleChans u).filter fun ch =>
        d.chanConverts u ch && bitsOf (d.reg pgCAP (d.chan u ch).1 CAP.KIND.off).toNat 4 17 == ain
      let l := mine.map fun ch => (tag, ch, d.probeVal 0 0 (d.chan u ch).1)
      d.setCapUnit u { d.capUnit u with conv := (d.capUnit u).conv ++ l }) d

/-! ## Edges (R456, R457) -/

/-- Does SRC name a pin (*Edge probe sources*)? A reserved code acts as 0. -/
def edgeSrcOn (src : Nat) : Bool := decide (0x10 ≤ src) && decide (src ≤ 0x8C) && !(decide (src < 0x30) && src % 4 == 3)

/-- The level of line `i` after changes that the filter has not passed yet. -/
def heldLevel (i : Nat) (v : Bool) (l : List Held) : Bool := l.foldl (fun v h => if h.line = i then h.level else v) v

/-- The level of the pin of a source, as State holds it; LINE_SENSE has none (notes/assumptions/112.md). -/
def Dev.srcLevel (d : Dev) (src : Nat) : Bool :=
  if !edgeSrcOn src then false
  else if src < 0x30 then
    let f := d.io.fbu[(src - 0x10) / 4 % 8]'(Nat.mod_lt _ (by decide))
    match src % 4 with
    | 0 => heldLevel 0 f.a f.held
    | 1 => heldLevel 1 f.b f.held
    | _ => heldLevel 2 f.z f.held
  else if src < 0x38 then (d.io.fbu[src % 8]'(Nat.mod_lt _ (by decide))).pin
  else if src < 0x40 then
    let p := d.io.pulse[(src - 0x38) / 2 % 4]'(Nat.mod_lt _ (by decide))
    if src % 2 = 0 then heldLevel 0 p.a p.held else heldLevel 1 p.b p.held
  else if src < 0x50 then d.on (pgFbu ((src - 0x40) / 2)) (FBU.OUT.nth 0x20 (src % 2))
  else if src < 0x60 then d.on (pgSgc (src - 0x50)) SGC.SPINV
  else if src < 0x80 then
    let n := src - 0x60
    if bitOf (d.reg pgSGU 0 SGU.GPDIR.off).toNat n then bitOf (d.reg pgSGU 0 SGU.GPOUT.off).toNat n else bitOf (d.rd pgSGU SGU.GPIN) n
  else if src < 0x88 then
    let p := d.safe.pins[(src - 0x80) / 2 % 4]'(Nat.mod_lt _ (by decide))
    if src % 2 = 0 then p.1 else p.2
  else if src < 0x8C then bitOf (d.rd pgSAF SAF.STOOUT) (src - 0x88)
  else false

/-- EPnn is written: the probe takes the level of its pin. -/
def edgeSrcWritten (e : Nat) (d : Dev) : Dev :=
  let e64 : Fin 64 := ⟨e % 64, Nat.mod_lt _ (by decide)⟩
  { d with cap := { d.cap with probes := d.cap.probes.set e64 (d.srcLevel (d.rd pgCAP (CAP.SRC.nth 4 e64)), none) } }

/-- Addresses of the slots stored in the open record of a unit, newest first, at most 64; a closed record stays as it is. -/
def Dev.capNewest (d : Dev) (u : Fin 16) : List Nat :=
  let pg := pgCapu u
  let c := d.capUnit u
  let pre := d.rd pg CAPU.PRE
  let isOpen := d.rd pg CAPU.USTATE == 1 || d.rd pg CAPU.USTATE == 2
  let posts := if isOpen then (List.range (min 64 c.post)).map fun i => pre + (c.post - 1 - i) else []
  let pres := if isOpen then (List.range (min 64 (min c.pre pre))).map fun i => (c.pre - 1 - i) % max 1 pre else []
  ((posts ++ pres).take 64).map fun s => d.capAddr u c.start + 64 + d.ssize u * s

/-- An edge merged into a later one (R457): the entry that was stored for it takes the tag and the level of the later edge. -/
def capMerge (u : Fin 16) (ch t0 t : Nat) (rising : Bool) (d : Dev) : Dev :=
  match (d.capNewest u).find? fun a => d.memLE a 8 == t0 && (d.mem8 (a + 8)).toNat == ch with
  | none => d
  | some a =>
    let c := d.capUnit u
    (d.setMemBytes a (capEntry t ch rising 0)).setCapUnit u
      { c with tlast := if c.tlast = t0 then t else c.tlast, t0 := if c.post ≠ 0 ∧ c.t0 = t0 then t else c.t0 }

/-- An edge channel of a unit counts an edge. -/
def capCount (u : Fin 16) (ch : Nat) (d : Dev) : Dev :=
  let c := d.capUnit u
  let es := c.edges ++ List.replicate (ch + 1 - c.edges.length) 0
  d.setCapUnit u { c with edges := es.set ch ((es[ch]?.getD 0) + 1) }

/-- An edge of edge probe `e` (R457, R460, R461). One less than 4 ns after the edge before is merged with it: the level and the
pattern follow it, the count and the entries hold one edge. -/
def capEdge (e : Nat) (rising : Bool) (t : Nat) (d : Dev) : Dev :=
  let e64 : Fin 64 := ⟨e % 64, Nat.mod_lt _ (by decide)⟩
  if !edgeSrcOn (d.rd pgCAP (CAP.SRC.nth 4 e64)) then d
  else
    let merged := d.cap.probes[e64].2.filter fun t' => t < t' + 64
    let d := { d with cap := { d.cap with probes := d.cap.probes.set e64 (rising, some t) } }
    let d := if merged.isSome then raise pgCAP 1 1 (d.inc pgCAP CAP.EMISS) else d
    (List.finRange 16).foldl (fun (d : Dev) (u : Fin 16) =>
      let chs := (List.range (d.rd (pgCapu u) CAPU.NCH)).filter fun ch => d.chan u ch == (e64.val, true)
      if chs = [] then d
      else
        let d := if merged.isSome then d else chs.foldl (fun d ch => capCount u ch d) d
        let d := capWatch u t [] true d
        if d.on (pgCapu u) CAPU.SMODE then
          chs.foldl (fun d ch => match merged with
            | some t' => capMerge u ch t' t rising d
            | none => capStore u t (capEntry t ch rising 0) d) d
        else d) d

/-! ## The rows of the capture engine -/

/-- A time tag of a pin group: the ST of the edge with the group's trim, bits [1:0] 0 (R394, R550). -/
def Dev.tagOf (d : Dev) (group : Fld) (t : Nat) : Nat := ((t : Int) + d.rdI pgCAL group).toNat / 4 * 4

/-- The trim group of an edge probe source (*Edge probe sources*, *CAL active set*). -/
def trimGroup (src : Nat) : Fld :=
  if src < 0x30 then CAL.TFBU
  else if src < 0x40 then CAL.TLAT
  else if src < 0x60 ∨ (0x88 ≤ src ∧ src < 0x8C) then CAL.TOUT
  else CAL.TSIO

/-- An edge of the pin of a source: every probe that takes that pin, and does not stand at the level already, takes the edge. -/
def pinEdge (src : Nat) (level : Bool) (t : Nat) (d : Dev) : Dev :=
  (List.range 64).foldl (fun (d : Dev) (e : Nat) =>
    if d.rd pgCAP (CAP.SRC.nth 4 e) = src ∧ d.edgeLevel e ≠ level then capEdge e level (d.tagOf (trimGroup src) t) d else d) d

/-- EDGE_PROBE_EDGE (R457): an edge at a pin; no edge to a level that the probe shows already, such as one that the pin's own
command has brought. -/
def edgeProbeEdge (e : BitVec 6) (rising : Bool) (t : Nat) (d : Dev) : Dev :=
  if d.stage = 0 ∨ d.edgeLevel e.toNat = rising then d
  else capEdge e.toNat rising (d.tagOf (trimGroup (d.rd pgCAP (CAP.SRC.nth 4 e.toNat))) t) (d.at t)

/-- AUTO_TIMEOUT (R468): ATMO ms in ARMED without a trigger. -/
def autoTimeout (u : Fin 16) (t : Nat) (d : Dev) : Dev :=
  let pg := pgCapu u
  let d := d.at t
  let ms := min 60000 (max 1 (d.rd pg CAPU.ATMO))
  if d.rd pg CAPU.MODE = 2 ∧ d.rd pg CAPU.USTATE = 1 ∧ (d.capUnit u).armedAt + ms * 16000000 ≤ d.st then
    capTrigger raise u d.st 2 d
  else d

/-- REARM_DONE (R466): the header is written and HOLD has passed; the next record is reserved, or the unit stops with an overflow
mark (R472); it enters ARMED once at most 7 records are outstanding. -/
def rearmDone (u : Fin 16) (t : Nat) (d : Dev) : Dev :=
  let pg := pgCapu u
  let d := d.at t
  let c := d.capUnit u
  if d.rd pg CAPU.USTATE ≠ 3 ∨ d.st < c.closedAt + d.rd pg CAPU.HOLD * 16000 then d
  else if !c.reserved ∧ !capFits u d then capOverflow u 1 d
  else
    let d := if c.reserved then d else capReserve u d
    if d.rd pg CAPU.NPP ≤ 7 then capArmed u d else d

/-- The conditions of configuration of ARM (R462, R469, R471, R477, and the ranges of NCH and POST). -/
def armParam (u : Fin 16) (d : Dev) : Bool :=
  let pg := pgCapu u
  let nch := d.rd pg CAPU.NCH
  let kind := d.rd pg CAPU.TKIND
  let tch := d.rd pg CAPU.TCH
  let b := d.rd pg CAPU.BSIZE
  let lo := d.rd pg CAPU.BBASE
  let inside := decide (lo + b ≤ 2048) && decide (1 ≤ b)
  let apart := (List.finRange 16).all fun v => v == u || d.rd (pgCapu v) CAPU.USTATE == 0 ||
    decide (lo + b ≤ d.rd (pgCapu v) CAPU.BBASE) ||
    decide (d.rd (pgCapu v) CAPU.BBASE + d.rd (pgCapu v) CAPU.BSIZE ≤ lo)
  decide (1 ≤ nch) && decide (nch ≤ 64) && d.on pg CAPU.POST &&
  !((kind == 1 || kind == 3) && (decide (nch ≤ tch) || (d.chan u tch).2)) &&
  !(d.isRoll u && d.on pg CAPU.PRE) && inside && apart &&
  decide (d.recLen u + 64 ≤ b * 65536) &&
  (d.measList u).all (fun ch => decide (ch < nch))

/-- ARM (R464, R485). -/
def cmdArm (u : Fin 16) (arg : Nat) : Dev → Dev :=
  takeCmd (pgCapu u) 0x01 arg
    (fun d =>
      let st := d.rd (pgCapu u) CAPU.USTATE
      if st ≠ 0 ∧ st ≠ 4 then rSTATE
      else if !armParam u d then rPARAM
      else if !capFits u d then rSTATE
      else rOK)
    (fun d =>
      let pg := pgCapu u
      let d := (d.wr pg CAPU.OVF 0).wr pg CAPU.PREFULL 0
      let c := d.capUnit u
      let d := d.setCapUnit u { c with pattern := d.capPatternHolds u }
      capArmed u (capReserve u d))

/-- STOP (R470, R485). -/
def cmdCapuStop (u : Fin 16) (arg : Nat) : Dev → Dev :=
  takeCmd (pgCapu u) 0x02 arg
    (fun d =>
      let st := d.rd (pgCapu u) CAPU.USTATE
      checks (decide (1 ≤ st) && decide (st ≤ 3)) true)
    (fun d =>
      let st := d.rd (pgCapu u) CAPU.USTATE
      let seq := (d.capUnit u).seq
      let d := if st = 2 then capClose u true d else if st = 1 ∨ (d.capUnit u).reserved then capDiscard u d else d
      raise (pgCapu u) 3 (seq % 2 ^ 16) (capState u 4 d))

/-- FORCE (R470, R485). -/
def cmdForce (u : Fin 16) (arg : Nat) : Dev → Dev :=
  takeCmd (pgCapu u) 0x03 arg (fun d => checks (d.rd (pgCapu u) CAPU.USTATE == 1) true)
    (fun d => capAccept raise u d.st 4 d)

/-- RESET (R485). -/
def cmdCapuReset (u : Fin 16) (arg : Nat) : Dev → Dev :=
  takeCmd (pgCapu u) 0x04 arg
    (fun d =>
      let st := d.rd (pgCapu u) CAPU.USTATE
      checks ((st == 0 || st == 4) && d.rd (pgCapu u) CAPU.NPP == 0) true)
    (fun d =>
      let pg := pgCapu u
      let w := d.rd pg CAPU.WCNT
      let d := ((d.wr pg CAPU.RCNT w).wr pg CAPU.ACNT w).wr pg CAPU.OVF 0
      capState u 0 (d.setCapUnit u { d.capUnit u with waiting := [], toCopy := [] }))

/-- CLRCNT of a CAPU page (R485). -/
def cmdCapuClrcnt (u : Fin 16) (arg : Nat) : Dev → Dev :=
  takeCmd (pgCapu u) 0x05 arg (fun _ => rOK) (fun d => d.wr (pgCapu u) CAPU.TRGIGN 0)

/-- CLRCNT of the CAP page (R483). -/
def cmdCapClrcnt (arg : Nat) : Dev → Dev :=
  takeCmd pgCAP 0x01 arg (fun _ => rOK) (fun d => d.wr pgCAP CAP.EMISS 0)

/-- Is `v` in the span from `lo` to `hi`, counted modulo 2^32? -/
def inSpan (lo hi v : Nat) : Bool :=
  decide ((v + 2 ^ 32 - lo % 2 ^ 32) % 2 ^ 32 ≤ (hi + 2 ^ 32 - lo % 2 ^ 32) % 2 ^ 32)

/-- May RCNT be written with `v` (R479, R480)? -/
def rcntOk (u : Fin 16) (v : Nat) (d : Dev) : Bool :=
  !d.on (pgCapu u) CAPU.DRAIN && v % 64 == 0 && inSpan (d.rd (pgCapu u) CAPU.RCNT) (d.rd (pgCapu u) CAPU.ACNT) v

/-- May HREL be written with `v` (R480)? -/
def hrelOk (u : Fin 16) (v : Nat) (d : Dev) : Bool :=
  inSpan (d.rd (pgCapu u) CAPU.HREL) (d.rd (pgCapu u) CAPU.HWCNT) v

/-- Writes are held at the limit of R27: bytes are staged that the limit has not let out (CSTAT.THR). -/
def Dev.capHeld (d : Dev) : Bool :=
  decide ((d.st - d.cap.drained) / 8 < ((List.finRange 16).map fun u => (d.capUnit u).staged).foldl (· + ·) 0)

/-- THROTTLE (R483): capture writes have been held at the limit for 1 ms. -/
def throttle (d : Dev) : Dev := if d.stage = 0 then d else raise pgCAP 0 0 d

end Sys2Proof.Machine
end

