-- ==== Sys2Proof/Machine/Tsu.lean ====
section
/-! DEFINITION. The task scheduler (spec/09): instances from READY to their release, placement on pairs, switching, ordered
flows, pair faults and spare pairs, deadlines, adoption of task configurations, and the commands of the TSU page. -/
namespace Sys2Proof.Machine

/-! ## Pairs -/

def Dev.pair (d : Dev) (p : Fin 18) : Pair := d.pairs[p]
def Dev.setPair (p : Fin 18) (x : Pair) (d : Dev) : Dev := { d with pairs := d.pairs.set p x }
def Dev.pstate (d : Dev) (p : Nat) : Nat := d.rd (pgCep p) CEP.PSTATE

/-- Does this head run axis tasks (R352, R487, *Roles*)? SILENT does in the phases REPLAY and CHECK of resynchronisation. -/
def Dev.runsAxes (d : Dev) : Bool :=
  d.stage == 2 && (match d.rd pgRED RED.ROLE with
    | 1 | 2 | 4 => true
    | 3 => (d.rd pgRED RED.RPH == 4 || d.rd pgRED RED.RPH == 5) && d.red.opened.isNone
    | _ => false)

/-- A pair is healthy when its PSTATE is IDLE or RUN (R350). -/
def Dev.healthy (d : Dev) (p : Nat) : Bool := d.pstate p == 1 || d.pstate p == 2

/-- Axis tables assigned to a pair, in the order of R37. -/
def Tsu.axesOf (s : Tsu) (p : Nat) : List Nat := (s.assign.filter fun a => a.2 == p).map Prod.fst

/-- Working pairs at entry to FULL. -/
def workingPairs (conf : Nat) : List Nat := List.range (if conf % 2 = 0 then 16 else 8)

/-- BISTOK, CALOK and FULLOK of SSTAT (R531, R555); in KEEPER, BISTOK stands as it was (R534). -/
def showStg (d : Dev) : Dev :=
  let d := d.wr pgSTG STG.CALOK (d.rd pgCAL CAL.CALOK)
  let d := if d.stage = 0 then d
    else d.wr pgSTG STG.BISTOK (b2n ((workingPairs d.conf).all fun p => d.on (pgCep p) CEP.BISTOK && d.healthy p))
  d.wr pgSTG STG.FULLOK
    (b2n (d.on pgSTG STG.DRAMOK && d.on pgSTG STG.SRAMOK && d.on pgSTG STG.BISTOK && d.on pgSTG STG.CALOK && d.on pgSTG STG.PRES))

/-- Show SPARE and NAX of every pair, NWORK and NSPARE, and the flags of SSTAT that follow the pairs (R371, R379, R531). -/
def showPairs (d : Dev) : Dev :=
  let d := (fittedPairs d.conf).foldl (fun d p =>
    (d.wr (pgCep p) CEP.SPARE (b2n (d.tsu.spare.contains p))).wr (pgCep p) CEP.NAX (d.tsu.axesOf p).length) d
  showStg ((d.wr pgTSU TSU.NWORK (d.tsu.work.filter fun p => d.healthy p).length).wr pgTSU TSU.NSPARE
    (d.tsu.spare.filter fun p => d.healthy p).length)

/-- Show what a pair runs (CTASK). -/
def showTask (p : Nat) (r : Running) (d : Dev) : Dev :=
  let pg := pgCep p
  match r with
  | .nothing => (d.wr pg CEP.TV 0).wr pg CEP.HOOK 0
  | .task t _ => (((d.wr pg CEP.TID t).wr pg CEP.TV 1).wr pg CEP.HOOK 0).wr pg CEP.AXN 0

/-- Let a pair run something, or nothing; PSTATE follows unless the pair is out of service or halted. -/
def setRunning (p : Fin 18) (r : Running) (d : Dev) : Dev :=
  let d := showTask p r (d.setPair p { d.pair p with running := r })
  if d.healthy p then d.wr (pgCep p) CEP.PSTATE (if r = .nothing then 1 else 2) else d

/-! ## Instances -/

/-- Change the instance of a task with a sequence number. -/
def Dev.mapInst (task seq : Nat) (f : Inst → Inst) (d : Dev) : Dev :=
  Dev.showTask task
    { d with tsu := { d.tsu with insts := d.tsu.insts.map fun i => if i.task = task ∧ i.seq = seq then f i else i } }

/-- Remove the instance of a task with a sequence number, and its context. -/
def Dev.dropInst (task seq : Nat) (d : Dev) : Dev :=
  Dev.showTask task
    { d with tsu := { d.tsu with
      insts := d.tsu.insts.filter fun i => !(i.task == task && i.seq == seq),
      ctx := d.tsu.ctx.filter fun c => !(c.task == task && c.seq == seq) } }

/-- Consumer tasks of a flow (R364). -/
def Tsu.consumers (s : Tsu) (flow : Nat) : List Nat :=
  (s.cfg.filter fun c => c.2.ten && c.2.role == 2 && c.2.flow == flow).map Prod.fst

/-- The oldest PENDING instance of a flow takes a freed entry (R365, R366). -/
def admitPending (flow : Nat) (d : Dev) : Dev :=
  if d.tsu.occ flow < d.qmax flow ∧ d.tsu.occAll < 2048 then
    match d.tsu.ofFlow flow fun s => s == .pending with
    | [] => d
    | i :: _ => (d.mapInst i.task i.seq fun i => { i with state := .ready, ready := d.st }).noteDepth (d.tsu.prio i.task)
  else d

/-- The planning of the oldest segment of a path group that is not planned yet is complete (R285). -/
def pathPlanned (g : Fin 8) (d : Dev) : Dev :=
  let x := d.mot.grp[g]
  let n := (x.segs.takeWhile fun (s : PathSeg) => s.planned).length
  let segs := (x.segs.zipIdx).map fun (s, i) => if i = n then { s with planned := true } else s
  { d with mot := { d.mot with grp := d.mot.grp.set g { x with segs := segs } } }

/-- What follows the release of an instance of a device flow: path planning in flows 0 to 7, capture records in flows 8 to 23;
user flows trigger their consumers. -/
def released (flow : Nat) (ok : Bool) (d : Dev) : Dev :=
  let d := if h : flow < 8 then pathPlanned ⟨flow, h⟩ d else d
  let d := if h : 8 ≤ flow ∧ flow < 24 then capReleased ⟨flow - 8, by omega⟩ ok d else d
  (d.tsu.consumers flow).foldl (fun d t => trigTask raise t d) d

/-- Release instances of a flow in sequence order, as far as they have ended (R366, R367); they stand in the order of their
triggers. -/
def releaseFlow (flow : Nat) : Nat → Dev → Dev
  | 0, d => d
  | fuel + 1, d =>
    match d.tsu.ofFlow flow (fun _ => true) with
    | ⟨task, seq, .ended ok, _, _⟩ :: rest =>
      let d := (d.dropInst task seq).wrS pgTSU flow TSU.FRSEQ ((rest.head?.map Inst.seq).getD (seq + 1))
      let d := if ok then d
        else raise pgTSU 3 flow ((d.wrS pgTSU flow TSU.FFAIL seq).incS pgTSU flow TSU.FAILS)
      releaseFlow flow fuel (admitPending flow (released flow ok d))
    | _ => d

/-- A task has ended without completion (R351). -/
def noteFailed (task : Nat) (d : Dev) : Dev :=
  { d with tsu := { d.tsu with failed := task :: d.tsu.failed.filter fun t => t != task } }

/-- An instance has ended: with DONE, or failed (R332, R351, R355, R366, R367). -/
def finishInst (task seq : Nat) (ok : Bool) (d : Dev) : Dev :=
  let d := if ok then d.incWS pgTSU task TSU.RUNS else noteFailed task d
  match d.tsu.memberOf task with
  | some flow =>
    let d := d.mapInst task seq fun i => { i with state := .ended ok }
    releaseFlow flow (d.tsu.ofFlow flow fun _ => true).length d
  | none =>
    let again := d.onS pgTSU task TSU.RETRIG
    let d := (d.dropInst task seq).wrS pgTSU task TSU.RETRIG 0
    if ok && again then d.addInst ⟨task, 0, .ready, d.st, none⟩ else d

/-! ## Placement (R357 to R362) -/

/-- Is every axis task of the cycle assigned to this working pair ended (R359)? A head that runs no axis task has none. -/
def Dev.freeForTasks (d : Dev) (p : Nat) : Bool :=
  !d.tsu.work.contains p || !d.runsAxes || (d.tsu.axesOf p).all fun n => d.tsu.ended.contains n

/-- The pairs a task may run on (R350, R361). -/
def Dev.allowedPairs (d : Dev) (task : Nat) : List Nat :=
  let fit := fittedPairs d.conf
  if 288 ≤ task then fit.filter fun p => bitOf (d.tsu.cfgOf task).pmask p && d.healthy p
  else
    let sp := d.tsu.spare.filter fun p => d.healthy p
    fit.filter fun p => if sp = [] then d.tsu.work.contains p && d.healthy p else sp.contains p

/-- The priority of the task a pair runs, if it runs one. -/
def Dev.runPrio (d : Dev) (p : Fin 18) : Option (Nat × Nat) :=
  match (d.pair p).running with
  | .nothing => none
  | .task t _ => some (t, d.tsu.prio t)

/-- The pair a READY task is placed on (R361): the lowest-numbered allowed pair that is idle and free, or else that runs a task
of lower priority which PMODE lets the TSU switch: by hardware, or, on the pair `y`, at its YIELD. -/
def Dev.placeAt (d : Dev) (y : Option (Fin 18)) (task : Nat) : Option (Fin 18) :=
  let ok : List (Fin 18) := (List.finRange 18).filter fun (p : Fin 18) => (d.allowedPairs task).contains p.val && d.freeForTasks p
  match ok.find? (fun (p : Fin 18) => d.pstate p == 1 && (d.pair p).running == .nothing) with
  | some p => some p
  | none => ok.find? fun (p : Fin 18) => match d.runPrio p with
    | some (t, q) => decide (d.tsu.prio task < q) && 288 ≤ t &&
      ((d.tsu.cfgOf t).pmode == 2 || (y == some p && (d.tsu.cfgOf t).pmode == 1))
    | none => false

/-- The same away from a YIELD. -/
def Dev.place (d : Dev) (task : Nat) : Option (Fin 18) := d.placeAt none task

/-- Does an instance come before another on a ready list: by priority, by order of readiness, by task number (R357); the
instances of one task in the order of their triggers? -/
def Tsu.before (s : Tsu) (i j : Inst) : Bool :=
  let a := s.prio i.task
  let b := s.prio j.task
  decide (a < b) || a == b && (decide (i.ready < j.ready) || i.ready == j.ready &&
    (decide (i.task < j.task) || i.task == j.task && decide (i.seq < j.seq)))

/-- The READY instance of a task that comes first. -/
def Tsu.firstReady (s : Tsu) (task : Nat) : Option Inst :=
  (s.insts.filter fun i => i.task == task && i.state == .ready).foldl (fun (m : Option Inst) (i : Inst) =>
    match m with
    | some j => if s.before i j then some i else some j
    | none => some i) none

/-- Would pair `p` serve this instance next if nothing came before it: READY and placed there (R361), or PREEMPTED there (R362)?
-/
def Dev.waitsFor (d : Dev) (p : Fin 18) (i : Inst) : Bool :=
  match i.state with
  | .ready => d.place i.task == some p
  | .preempted => i.pair == some p.val
  | _ => false

/-- Pair `p` serves its waiting tasks in order (R357); a PREEMPTED task keeps its place among them (DESIGN CHOICE,
notes/assumptions/109.md). -/
def Dev.nextOn (d : Dev) (p : Fin 18) (i : Inst) : Bool := d.tsu.insts.all fun j => !(d.waitsFor p j && d.tsu.before j i)

/-- The context slot of a task in the scheduler region of shared SRAM: 1,024 bytes (R28, R350). -/
def slotBase (task : Nat) : Nat := 0x1058_0000 + 0x400 * task

/-- The state of a task as its slot holds it (R331); the layout is the model's (notes/assumptions/109.md). -/
def contextBytes (e : Eng) : List Byte :=
  let w := fun (l : List Word) => l.flatMap fun v => bytesLE 4 v.toNat
  w e.D.toList ++ w e.A.toList ++ w e.M.toList ++ w e.L.toList ++ (e.AC.toList.flatMap fun a => bytesLE 12 a.toNat) ++
  w [e.SR, e.SCL, e.BEXP, e.ICNT, e.KCYC, e.TID, e.ARG, e.AXN] ++ bytesLE 4 e.pc.toNat ++
  bytesLE 8 e.div.dvd ++ bytesLE 8 e.div.dvs ++ bytesLE 8 e.div.rem ++
  bytesLE 4 (b2n e.div.integer + 2 * b2n e.div.qneg + 4 * b2n e.div.aneg) ++
  bytesLE 4 e.loops.length ++ (e.loops.flatMap fun l =>
    bytesLE 2 l.first.toNat ++ bytesLE 2 l.last.toNat ++ bytesLE 4 l.count ++ bytesLE 4 (l.depth + 16 * b2n l.leave)) ++
  bytesLE 4 e.calls.length ++ (e.calls.flatMap fun a => bytesLE 2 a.toNat)

/-- Switch out the task a pair runs: its context goes into its slot (R331, R334, R350). -/
def preempt (p : Fin 18) (d : Dev) : Dev :=
  match (d.pair p).running with
  | .nothing => d
  | .task t s =>
    let c : Context := ⟨t, s, (d.pair p).eng⟩
    let d := d.setMemBytes (slotBase t) (contextBytes c.eng)
    let d := { d with tsu := { d.tsu with ctx := c :: d.tsu.ctx.filter fun x => !(x.task == t && x.seq == s) } }
    setRunning p .nothing (d.mapInst t s fun i => { i with state := .preempted })

/-- The engine at the entry of a user task (R330, R356). -/
def taskEntry (task arg kcyc entry : Nat) : Eng :=
  { Eng.zero with
    D := (Eng.zero.D.set 0 (BitVec.ofNat 32 arg)).set 1 (BitVec.ofNat 32 kcyc),
    A := (Eng.zero.A.set 0 0x0000_8000#32).set 4 0x0001_8000#32,
    SR := BitVec.ofNat 32 (2 ^ 11), KCYC := BitVec.ofNat 32 kcyc, TID := BitVec.ofNat 32 task,
    ARG := BitVec.ofNat 32 arg, AXN := 0xFFFF_FFFF#32, pc := BitVec.ofNat 16 entry }

/-- Start an instance on a pair. -/
def startInst (i : Inst) (p : Fin 18) (d : Dev) : Dev :=
  let cfg := d.tsu.cfgOf i.task
  let arg := if (d.tsu.memberOf i.task).isSome then i.seq else cfg.targ.toNat
  let e := taskEntry i.task arg (d.cycleAt i.ready) (if 288 ≤ i.task then cfg.entry else 0x8000)
  let d := setRunning p (.task i.task i.seq) (d.setPair p { d.pair p with eng := e })
  let w := min 0xFFFF ((d.st - i.ready) / 16)
  let d := (d.wrS pgTSU i.task TSU.WLAST w).wrS pgTSU i.task TSU.WMAX (max w (d.rdS pgTSU i.task TSU.WMAX))
  (d.wrS pgTSU i.task TSU.PAIR p).mapInst i.task i.seq fun i => { i with state := .running, pair := some p }

/-- May device and user tasks be dispatched (R352)? -/
def Dev.tasksRun (d : Dev) : Bool := d.stage != 0 && d.on (pgCep 0) CEP.LOADED

/-- TASK_DISPATCH (R357, R360, R361): the first READY instance of the task is placed, where the rules place it now and no other
comes before it there. -/
def taskDispatch (task t : Nat) (d : Dev) : Dev :=
  let d := d.at t
  match d.tsu.firstReady task with
  | none => d
  | some i =>
    if !d.tasksRun then d
    else
      match d.place task with
      | none => d
      | some p => if d.nextOn p i then startInst i p (preempt p d) else d

/-- TASK_RESUME (R357, R362): a PREEMPTED task resumes on the pair that ran it, once that pair is free for it and nothing comes
before it there. -/
def taskResume (task : Nat) (d : Dev) : Dev :=
  match d.tsu.insts.find? (fun i => i.task == task && i.state == .preempted) with
  | none => d
  | some i =>
    match i.pair, d.tsu.ctx.find? (fun c => c.task == task && c.seq == i.seq) with
    | some p, some c =>
      if h : p < 18 then
        let p : Fin 18 := ⟨p, h⟩
        if d.pstate p = 1 ∧ (d.pair p).running = .nothing ∧ d.freeForTasks p ∧ d.nextOn p i then
          let d := { d with tsu := { d.tsu with ctx := d.tsu.ctx.filter fun x => !(x.task == task && x.seq == i.seq) } }
          let d := setRunning p (.task task i.seq) (d.setPair p { d.pair p with eng := c.eng })
          d.mapInst task i.seq fun i => { i with state := .running }
        else d
      else d
    | _, _ => d

/-- At a YIELD of a task with PMODE 1, a READY task of higher priority that R361 places on the pair switches it out (R360). -/
def yieldPoint (p : Fin 18) (d : Dev) : Dev :=
  match d.runPrio p with
  | none => d
  | some (t, q) =>
    let waits := d.tsu.insts.any fun i => i.state == .ready && decide (d.tsu.prio i.task < q) &&
      d.placeAt (some p) i.task == some p
    if 288 ≤ t ∧ (d.tsu.cfgOf t).pmode = 1 ∧ waits then preempt p d else d

/-! ## Pair faults (R372 to R376) -/

/-- A user or device task of a faulted pair is made READY again, or becomes FAILED (R375). -/
def rerunOrFail (i : Inst) (d : Dev) : Dev :=
  if i.task < 288 ∨ (d.tsu.cfgOf i.task).rerun then
    let d := { d with tsu := { d.tsu with ctx := d.tsu.ctx.filter fun c => !(c.task == i.task && c.seq == i.seq) } }
    (d.mapInst i.task i.seq fun i => { i with state := .ready, ready := d.st, pair := none }).noteDepth (d.tsu.prio i.task)
  else finishInst i.task i.seq false (raise pgTSU 5 i.task d)

/-- Deal axis tables round-robin over pairs, in order (R374). -/
def dealOver (pairs : List Nat) (axes : List Nat) (assign : List (Nat × Nat)) : List (Nat × Nat) :=
  assign.map fun a =>
    if axes.contains a.1 then (a.1, pairs.getD ((axes.idxOf a.1) % max 1 pairs.length) a.2) else a

/-- The TSU takes over the work of a faulted pair (R372 to R375). -/
def tsuPairFault (p : Nat) (d : Dev) : Dev :=
  let hit := d.tsu.insts.filter fun i => (i.state == .running || i.state == .preempted) && i.pair == some p
  let d := hit.foldl (fun d i => rerunOrFail i d) d
  let axes := d.tsu.axesOf p
  let d :=
    if d.tsu.work.contains p then
      let work := d.tsu.work.filter fun q => q != p
      match (List.range 18).find? fun q => d.tsu.spare.contains q && d.healthy q with
      | some q =>
        let assign := d.tsu.assign.map fun a => if a.2 = p then (a.1, q) else a
        let d := { d with tsu := { d.tsu with work := work ++ [q], spare := d.tsu.spare.filter (fun x => x != q), assign := assign } }
        let d := ((d.wr pgTSU TSU.FROM p).wr pgTSU TSU.TO q).inc pgTSU TSU.MIGCNT
        raise pgTSU 1 (p + 32 * q) (d.wr pgTSU TSU.MIGCYC (d.rd pgTIM TIM.CYCLO))
      | none =>
        let rest := (List.range 18).filter fun q => work.contains q && d.healthy q
        let d := { d with tsu := { d.tsu with work := work, assign := dealOver rest axes d.tsu.assign } }
        let d := ((d.wr pgTSU TSU.FROM p).wr pgTSU TSU.TO 0x1F).inc pgTSU TSU.MIGCNT
        let d := (d.wr pgTSU TSU.MIGCYC (d.rd pgTIM TIM.CYCLO)).wr pgTSU TSU.DEGRADED 1
        raise pgTSU 2 p d
    else { d with tsu := { d.tsu with spare := d.tsu.spare.filter fun q => q != p } }
  showPairs d

/-! ## Deadlines (R368, R370) and cycle points (R354) -/

/-- The cycle flag of every user task whose cycle point this is (R354). -/
def cyclePoint (cpt k : Nat) (d : Dev) : Dev :=
  (d.tsu.cfg.map Prod.fst).foldl (fun d task =>
    let t := (d.tsu.cfgOf task).ttrig.toNat
    let m := 2 ^ min 6 (bitsOf t 21 3)
    if bitsOf t 19 2 = cpt ∧ (k % 64) % m = bitsOf t 24 6 % m then flagTask raise task false false true d else d) d

/-- Tasks with a deadline of this kind that have not reached DONE by it, PENDING ones among them (R370). -/
def lateTasks (kind : Nat) (d : Dev) : Dev :=
  (d.tsu.cfg.map Prod.fst).foldl (fun d task =>
    let open1 := d.tsu.insts.any fun i => i.task == task &&
      (i.state == .pending || i.state == .ready || i.state == .running || i.state == .preempted)
    if (d.tsu.cfgOf task).deadl = kind ∧ open1 then raise pgTSU 0 task (d.wrS pgTSU task TSU.LATE 1) else d) d

/-- CWDSLK and MINSLK (R368), for the CWD at `cwd`; `lastDone` is when the last axis task of the cycle ended. -/
def cwdSlack (cwd : Nat) (d : Dev) : Dev :=
  match d.tsu.lastDone with
  | none => d
  | some t =>
    let slk : Int := ((cwd : Int) - (t : Int)) / 16
    let d := d.wrI pgTSU TSU.CWDSLK slk
    if slk < d.rdI pgTSU TSU.MINSLK then d.wrI pgTSU TSU.MINSLK slk else d

/-! ## Adoption and commands (R377 to R380) -/

/-- A window write to TCTL, TRUN, TTRIG or TARG of a task waits for adoption, each write for itself (R378). -/
def tsuNoteWrite (t : TaskDue) (d : Dev) : Dev := { d with tsu := { d.tsu with due := d.tsu.due ++ [t] } }

/-- Adopt a task's configuration: the registers as written come into force. -/
def tsuAdopt (task : Nat) (d : Dev) : Dev :=
  let c : TaskCfg := ⟨d.reg pgTSU task TSU.TEN.off, d.reg pgTSU task TSU.PMASK.off, d.reg pgTSU task TSU.EVA.off,
    d.reg pgTSU task TSU.TARG.off⟩
  { d with tsu := { d.tsu with
    cfg := d.tsu.cfg.filter (fun x => x.1 != task) ++ [(task, c)],
    due := d.tsu.due.filter fun x => x.task != task } }

/-- Is a task IDLE: it has no instance and has not ended FAILED (R351)? -/
def Tsu.idle (s : Tsu) (task : Nat) : Bool := !(s.insts.any fun i => i.task == task) && !s.failed.contains task

/-- A configuration with one of its registers as written. -/
def TaskCfg.put (w : TaskDue) (c : TaskCfg) : TaskCfg :=
  if w.off = TSU.TEN.off then { c with tctl := w.value }
  else if w.off = TSU.PMASK.off then { c with trun := w.value }
  else if w.off = TSU.EVA.off then { c with ttrig := w.value }
  else { c with targ := w.value }

/-- The writes of a task that may be adopted in cycle `k`, oldest first. -/
def Tsu.dueBy (s : Tsu) (task k : Nat) : List TaskDue := s.due.filter fun x => x.task == task && decide (x.cycle ≤ k)

/-- The writes of a task up to cycle `k` come into force. -/
def adoptDue (task k : Nat) (d : Dev) : Dev :=
  let c := (d.tsu.dueBy task k).foldl (fun c w => c.put w) (d.tsu.cfgOf task)
  { d with tsu := { d.tsu with
    cfg := d.tsu.cfg.filter (fun x => x.1 != task) ++ [(task, c)],
    due := d.tsu.due.filter fun x => !(x.task == task && decide (x.cycle ≤ k)) } }

/-- TSU_WRITE_ADOPT (R378): a task that is IDLE adopts what was written to it, each write from the tick of its cycle k + 2 on;
flags that the adopted configuration enables trigger it (R354). -/
def tsuWriteAdopt (task : Nat) (d : Dev) : Dev :=
  let k := d.rd64 pgTIM 0 TIM.CYCLO.off
  if d.tsu.dueBy task k = [] ∨ !d.tsu.idle task then d
  else flagTask raise task false false false (adoptDue task k d)

/-- Every written task that may adopt at this tick does (R378). -/
def tsuAdoptAll (d : Dev) : Dev := ((d.tsu.due.map TaskDue.task).eraseDups).foldl (fun d t => tsuWriteAdopt t d) d

/-- TRIGGER as evaluated (R380). -/
def evalTrigger (arg : Nat) (d : Dev) : Nat × Dev :=
  let task := arg % 1024
  if 288 ≤ task ∧ !(d.tsu.cfgOf task).ten then (rSTATE, d)
  else if task < 288 then (rPARAM, d)
  else (rOK, trigTask raise task d)

/-- CANCEL as evaluated (R380). -/
def evalCancel (arg : Nat) (d : Dev) : Nat × Dev :=
  let task := arg % 1024
  let insts := d.tsu.insts.filter fun i => i.task == task
  if 288 ≤ task ∧ ((d.tsu.cfgOf task).role = 1 ∨ !insts.any fun i => i.state == .ready || i.state == .pending) then (rSTATE, d)
  else if task < 288 then (rPARAM, d)
  else (rOK, insts.foldl (fun d i => if i.state = .ready ∨ i.state = .pending then d.dropInst i.task i.seq else d) d)

/-- CLRCNT of the TSU page (R380). -/
def evalTsuClrcnt (d : Dev) : Nat × Dev :=
  let d := (d.wr pgTSU TSU.MINSLK 0x7FFF_FFFF).wr pgTSU TSU.MIGCNT 0
  let sels := (d.regs.filter fun kw => kw.1 / 4096 % 1024 == pgTSU).map fun kw => kw.1 / 4096 / 1024
  let d := sels.foldl (fun d t =>
    (((((d.wrS pgTSU t TSU.LATE 0).wrS pgTSU t TSU.TRAPF 0).wrS pgTSU t TSU.MRG 0).wrS pgTSU t TSU.WMAX 0).wrS pgTSU t
      TSU.FAILS 0).wrS pgTSU t TSU.DROPS 0) d
  let d := (List.range 16).foldl (fun d q => d.wr pgTSU (TSU.DMAX.nth 4 q) 0) d
  (rOK, d.wr pgTSU TSU.OMAX 0)

end Sys2Proof.Machine
end

