-- ==== Sys2Proof/Machine/Motion.lean ====
section
/-! DEFINITION. What axis control, the Season unit and the profile generator share: their state by axis table, adopted
parameters, states and events of an axis, entry to MOORED (R205, R211, R215, R229, R255, R270). -/
namespace Sys2Proof.Machine

/-! ## State by table -/

def Dev.ax (d : Dev) (n : Fin 256) : AxDyn := d.mot.ax[n]
def Dev.setAx (n : Fin 256) (x : AxDyn) (d : Dev) : Dev := { d with mot := { d.mot with ax := d.mot.ax.set n x } }
def Dev.mapAx (n : Fin 256) (f : AxDyn → AxDyn) (d : Dev) : Dev := d.setAx n (f (d.ax n))

def Dev.sea (d : Dev) (n : Fin 256) : Season := d.mot.sea[n]
def Dev.setSea (n : Fin 256) (x : Season) (d : Dev) : Dev := { d with mot := { d.mot with sea := d.mot.sea.set n x } }
def Dev.mapSea (n : Fin 256) (f : Season → Season) (d : Dev) : Dev := d.setSea n (f (d.sea n))

def Dev.prof (d : Dev) (n : Fin 256) : Prof := d.mot.prof[n]
def Dev.setProf (n : Fin 256) (x : Prof) (d : Dev) : Dev := { d with mot := { d.mot with prof := d.mot.prof.set n x } }
def Dev.mapProf (n : Fin 256) (f : Prof → Prof) (d : Dev) : Dev := d.setProf n (f (d.prof n))

def Dev.grp (d : Dev) (g : Fin 8) : Group := d.mot.grp[g]
def Dev.setGrp (g : Fin 8) (x : Group) (d : Dev) : Dev := { d with mot := { d.mot with grp := d.mot.grp.set g x } }
def Dev.mapGrp (g : Fin 8) (f : Group → Group) (d : Dev) : Dev := d.setGrp g (f (d.grp g))

/-- An axis table by a number of 8 bits. -/
def axisNo (n : Nat) : Fin 256 := ⟨n % 256, Nat.mod_lt _ (by decide)⟩
/-- A path group by a number of 3 bits. -/
def groupNo (g : Nat) : Fin 8 := ⟨g % 8, Nat.mod_lt _ (by decide)⟩

/-- Axis tables that are not DISABLED, in number order: those whose ASTAT shows a state other than 0 (its reset value). -/
def Dev.activeAxes (d : Dev) : List (Fin 256) :=
  d.regs.filterMap fun (kw : Nat × Word) =>
    if kw.1 % 4096 = AXP.STATE.off ∧ 0x100 ≤ kw.1 / 4096 ∧ kw.1 / 4096 < 0x200 ∧ kw.2.toNat % 8 ≠ 0 then
      some (axisNo (kw.1 / 4096 - 0x100))
    else none

/-- Apply `f` to every axis table that is not DISABLED, in number order. -/
def Dev.eachAxis (f : Fin 256 → Dev → Dev) (d : Dev) : Dev := d.activeAxes.foldl (fun (d : Dev) (n : Fin 256) => f n d) d

/-! ## Cycle -/

/-- The cycle index k (R31). -/
def Dev.cyc (d : Dev) : Nat := d.rd64 pgTIM 0 TIM.CYCLO.off

/-- The cycle period in ST LSB (*Cycle periods*), for a rate code. -/
def periodOf (rate : Nat) : Nat := 250000 * 2 ^ rate
def Dev.period (d : Dev) : Nat := periodOf (d.rd pgTIM TIM.RATE)

/-- The cycle in which a host access reaches a page (R205, R495): the present one. -/
def Dev.evalCycle (d : Dev) : Nat := d.cyc + 2

/-! ## Adopted parameters (R205, R251, R272) -/

/-- The window selection under which the adopted copies of window `sel` are held. -/
def adopted (sel : Nat) : Nat := 0x1000 + sel

/-- A parameter of an AXP page as adopted, unsigned and signed. -/
def Dev.par (d : Dev) (n : Nat) (f : Fld) : Nat := d.rdS (pgAxp n) (adopted 0) f
def Dev.parI (d : Dev) (n : Nat) (f : Fld) : Int := d.rdIS (pgAxp n) (adopted 0) f

/-- The bank in use (R205), and a coefficient of it as adopted. -/
def Dev.bank (d : Dev) (n : Nat) : Nat := d.rd (pgAxp n) AXP.BANK
def Dev.coef (d : Dev) (n : Nat) (f : Fld) : Nat := d.par n (f.nth 0x100 (d.bank n))
def Dev.coefI (d : Dev) (n : Nat) (f : Fld) : Int := d.parI n (f.nth 0x100 (d.bank n))

/-- A signed 64-bit pair, in a window. -/
def Dev.pairI (d : Dev) (page sel lo : Nat) : Int := sxt 64 (d.rd64 page sel lo)

/-- Adopt registers: the values written come into force. -/
def adoptRegs (page sel : Nat) (offs : List Nat) (d : Dev) : Dev :=
  offs.foldl (fun d off => d.copyReg page sel (adopted sel) off) d

/-- Word offsets from `lo` to `hi`, both included. -/
def words (lo hi : Nat) : List Nat := (List.range ((hi - lo) / 4 + 1)).map fun i => lo + 4 * i

/-- Mooring parameters (*Adoption of AXP writes*): ACFG, BRKCFG, IBASE to EOFS, OBK1 to OBCFG, the coupling terms, the hooks. -/
def mooringOffs : List Nat :=
  [0x040, 0x048] ++ words 0x050 0x080 ++ words 0x0B0 0x0CC ++ words 0x300 0x33C ++ words 0x340 0x350
/-- Start parameters: SPCFG, SPPT, GNUM, GDEN, CAMSEL. -/
def startOffs : List Nat := words 0x0D8 0x0E8
/-- Live parameters: FBCHK, IDREF to DTCOMP, IDXPER to IDXCFG, OBDEC, OBTMAX, PLIMLO, PLIMHI. -/
def liveOffs : List Nat :=
  [0x04C] ++ words 0x084 0x094 ++ words 0x098 0x0A0 ++ [0x0D0, 0x0D4] ++ words 0x0F0 0x0FC
/-- Registers of a bank. -/
def bankOffs (b : Nat) : List Nat := words (0x100 + 0x100 * b) (0x134 + 0x100 * b) ++ words (0x140 + 0x100 * b) (0x18C + 0x100 * b)

/-- PCHG: 1 from a write of a mooring or start parameter until its adoption (R205). -/
def showPchg (n : Fin 256) (d : Dev) : Dev :=
  let x := d.ax n
  d.wr (pgAxp n) AXP.PCHG (b2n (x.chgMoor || x.chgStart || (mooringOffs ++ startOffs).any fun o =>
    if o = 0x040 then
      -- PAIR is adopted at the next assignment; STA to AEN are not written by the host.
      (d.reg (pgAxp n) 0 o &&& 0xE800_60FF#32) != (d.reg (pgAxp n) (adopted 0) o &&& 0xE800_60FF#32)
    else d.reg (pgAxp n) 0 o != d.reg (pgAxp n) (adopted 0) o))

/-! ## Axis states and events (R211, R229) -/

def axDISABLED : Nat := 0
def axMOORED : Nat := 1
def axREADY : Nat := 2
def axRUN : Nat := 3
def axSTOPPING : Nat := 4
def axFAULT : Nat := 5

def Dev.axState (d : Dev) (n : Nat) : Nat := d.rd (pgAxp n) AXP.STATE

/-- An event of an AXP page. -/
def axEvent (n bit : Nat) (d : Dev) : Dev := raise (pgAxp n) bit bit d

/-- Change the state of an axis: STATE is raised on a change, MOORED on entry to MOORED. -/
def setAxState (n s : Nat) (d : Dev) : Dev :=
  if d.axState n = s then d
  else
    let d := axEvent n 0 (d.wr (pgAxp n) AXP.STATE s)
    if s = axMOORED then axEvent n 2 d else d

/-- Write the status registers of an axis table (R227). -/
def showAxis (n : Fin 256) (d : Dev) : Dev :=
  let x := d.ax n
  let pg := pgAxp n
  let d := (d.wr64 pg 0 0x400 (toBits 64 x.pAct)).wr64 pg 0 0x408 (toBits 64 x.pSet)
  let d := (((d.wrI pg AXP.VACT x.vAct).wrI pg AXP.VREF x.vRef).wrI pg AXP.IDACT x.iD).wrI pg AXP.IQACT x.iQ
  let d := (((d.wrI pg AXP.IQREF x.iqRef).wr pg AXP.THETA x.theta).wr pg AXP.THOBS x.thO).wrI pg AXP.WOBS x.wO
  let d := (((d.wrI pg AXP.UDCPU x.udc).wr pg AXP.DA x.da).wr pg AXP.DB x.db).wr pg AXP.DC x.dc
  (d.wr pg AXP.CSEQ x.cseq).wrI pg AXP.FERR x.ferr

/-! ## The profile generator's registers -/

/-- Is anything running for the table? -/
def Prof.busy (p : Prof) : Bool := p.run != .none

/-- A move, a stop or homing is running (MRUN). -/
def Prof.moves (p : Prof) : Bool :=
  match p.run with
  | .none | .group _ => false
  | _ => true

/-- A profile parameter of table `n` as adopted. -/
def Dev.profPar (d : Dev) (n : Nat) (f : Fld) : Nat := d.rdS pgPRF (adopted n) f

/-- A limit in U8.24 in the units of R260; 0 acts as 1 LSB (R638). -/
def limU8 (x : Nat) : Int := (max x 1 : Nat) * 256

/-- HDEC, and the deceleration of a stop (R271): SDECP, or HDEC when it is 0 or the stop is hard (R277). -/
def Dev.profHdec (d : Dev) (n : Nat) : Int := limU8 (d.par n AXP.HDEC)
def Dev.stopDec (d : Dev) (n : Nat) (hard : Bool) : Int :=
  let sd := d.profPar n PRF.SDECP
  if hard || sd == 0 then d.profHdec n else limU8 sd

/-- The deceleration in force (DEFF): of a move with a target as R273 left it, of a stop, of a speed move or a search. -/
def Dev.decInForce (d : Dev) (n : Fin 256) : Int :=
  let p := d.prof n
  match p.run with
  | .none | .group _ => p.dmx
  | .stop => d.stopDec n p.hard
  | .move m _ => if m.kind = 2 then limU8 (d.profPar n PRF.DMAXP) else p.dmx
  | .homing =>
    match p.hom.step with
    | .halt _ => d.stopDec n false
    | .back => p.dmx
    | _ => limU8 (d.profPar n PRF.DMAXP)

/-- Show MRUN, RKIND, QDEPTH, HBUSY, LEVEL and DEFF (*PRF.PSTAT and PRF.DEFF*). -/
def showProf (n : Fin 256) (d : Dev) : Dev :=
  let p := d.prof n
  let d := (d.wrS pgPRF n PRF.MRUN (b2n p.moves)).wrS pgPRF n PRF.QDEPTH p.queue.length
  let d := match p.run with
    | .move m _ => d.wrS pgPRF n PRF.RKIND m.kind
    | _ => d
  let d := (d.wrS pgPRF n PRF.HBUSY (b2n (p.run == .homing))).wrS pgPRF n PRF.LEVEL p.level
  d.wrS pgPRF n PRF.DEFF (satU 32 ((d.decInForce n + 255) / 256))

/-- Change the profile state of a table and show it. -/
def profDo (n : Fin 256) (f : Prof → Prof) (d : Dev) : Dev := showProf n (d.mapProf n f)

/-- A homing fault code: HFC is set, HOMED clears, HOME_FAULT is posted (R284). -/
def homeFault (n : Fin 256) (code : Nat) (d : Dev) : Dev :=
  axEvent n 13 ((d.wrS pgPRF n PRF.HFC code).wrS pgPRF n PRF.HOMED 0)

/-- End the running move and homing of a table and discard its queue (R270). -/
def profEnd (n : Fin 256) (d : Dev) : Dev :=
  let homing := (d.prof n).run == .homing
  let d := profDo n (fun p => { p with run := .none, queue := [], v := 0, a := 0, dwell := 0, lastTgt := none, hard := false }) d
  if homing then homeFault n 6 d else d

/-! ## Path group members (R291) -/

/-- A member leaves RUN for FAULT or MOORED: the group stops along the path, GFAULT and PATH_FAULT. -/
def groupMemberLost (n : Fin 256) (d : Dev) : Dev :=
  match (d.prof n).run with
  | .group g =>
    let pg := pgPgrp (g % 8)
    let d := d.mapGrp (groupNo g) fun x => { x with stopping := true, mem := x.mem.map (fun m => if m = n.val then 256 else m) }
    raise pg 2 2 ((d.wr pg PGRP.GFAULT 1).wr pg PGRP.GSTATE 3)
  | _ => d

/-! ## Entry to MOORED (R215, R255, R270) -/

/-- The values entry to MOORED gives the axis state (R215); its command goes out with MOOR, so that u_ab is 0 (R199). -/
def AxDyn.moor (x : AxDyn) : AxDyn :=
  { x with
    sV := 0, sD := 0, sQ := 0, bq := Vector.replicate 4 Biquad.zero, pSet := x.pAct, vSet := 0, aSet := 0, iqRef := 0,
    vd := 0, vq := 0, uAl := 0, uBe := 0, gearN := 0, gearRem := 0, brakeN := 0, wRef := 0, qsU := 0, qsP := 0, brkOnN := 0,
    disabling := false, stopNow := false, stopReady := false }

/-- The Season unit at entry to MOORED (R255). -/
def Season.moor (s : Season) : Season := { s with hist := s.hist.map fun h => (h.1, false), m := 0 }

/-- What a task has evaluated and not committed no longer holds: its task evaluates anew (R43). -/
def dropAhead (n : Fin 256) (d : Dev) : Dev :=
  { d with mot := { d.mot with ahead := d.mot.ahead.filter fun a => a.axis != n.val } }

/-- An axis enters MOORED (R215): its state, its Season history, its profile, its path group. -/
def moorAxis (n : Fin 256) (d : Dev) : Dev :=
  let pg := pgAxp n
  let d := profEnd n (groupMemberLost n (dropAhead n d))
  let d := (d.mapAx n AxDyn.moor).mapSea n Season.moor
  let d := ((((d.wr pg AXP.OBSC 0).wr pg AXP.AWV 0).wr pg AXP.AWD 0).wr pg AXP.AWQ 0).wr pg AXP.FROZC 0
  showAxis n (setAxState n axMOORED d)

/-- A fault of class A: MOORED with FLATCH and FCODE (R216, R217). -/
def moorFault (n : Fin 256) (code : Nat) (d : Dev) : Dev :=
  let d := (d.wr (pgAxp n) AXP.FLATCH 1).wr (pgAxp n) AXP.FCODE code
  moorAxis n (axEvent n 1 d)

/-- Is the axis table configured and not DISABLED? -/
def Dev.configured (d : Dev) (n : Nat) : Bool := d.axState n != axDISABLED

/-! ## Local axes (R17, R174, R182, R236, R405) -/

/-- The step channel bound to a table by the image, if one is (R405). -/
def Dev.stepChannel (d : Dev) (n : Nat) : Option Nat :=
  (List.range 16).find? fun c => d.on (pgSgc c) SGC.SEN && d.rd (pgSgc c) SGC.SAX == n

/-- ACFG.LOCAL: a position, master, Season phase or output of the head's own I/O, by the parameters in force (R205, R251). -/
def Dev.isLocal (d : Dev) (n : Nat) : Bool :=
  d.par n AXP.LFB == 1 || (d.stepChannel n).isSome ||
  (decide (2 ≤ d.par n AXP.SPSRC) && decide (d.par n AXP.MKIND ≤ 2)) ||
  (d.rdS pgSEA (adopted n) SEA.PSRC == 3 && decide (d.par n AXP.MKIND ≤ 2) && d.rdS pgSEA n SEA.STAT_SSTATE != 0)

end Sys2Proof.Machine
end

