-- ==== Sys2Proof/Machine/Season.lean ====
section
/-! DEFINITION. The Season unit (spec/06): tables, phase indices, the SEA stage of a task, jumps, commands. -/
namespace Sys2Proof.Machine

/-! ## Tables and parameters (R230, R251) -/

/-- A Season parameter of table `n` as adopted. -/
def Dev.seaPar (d : Dev) (n : Nat) (f : Fld) : Nat := d.rdS pgSEA (adopted n) f

/-- Entries of a table, N = 2^NLOG. -/
def Dev.seaN (d : Dev) (n : Nat) : Nat := 2 ^ d.seaPar n SEA.NLOG

/-- Season state of a table (*Season states*): 0 OFF, 1 LEARN, 2 FREEZE, 3 FAIL. -/
def Dev.seaState (d : Dev) (n : Nat) : Nat := d.rdS pgSEA n SEA.STAT_SSTATE

/-- Address of an entry in DRAM, and the entry (R230). -/
def seaAddr (n i : Nat) : Nat := dramSeason + n * 0x4_0000 + 4 * i
def Dev.seaEntry (d : Dev) (n i : Nat) : Int := sxt 32 (d.memLE (seaAddr n i) 4)

/-- Structural registers (*Adoption of SEA writes*). -/
def seaStructOffs : List Nat := words 0x080 0x094

/-- An event of the SEA page; its argument is the table number (R259). -/
def seaEvent (n bit : Nat) (d : Dev) : Dev := raise pgSEA bit n d

/-- Set the Season state of a table. -/
def setSeaState (n s : Nat) (d : Dev) : Dev := d.wrS pgSEA n SEA.STAT_SSTATE s

/-- PCHG of a table: 1 from a write of a structural register until its adoption (R251). -/
def showSeaPchg (n : Fin 256) (d : Dev) : Dev :=
  d.wrS pgSEA n SEA.STAT_PCHG
    (b2n ((d.sea n).chg || seaStructOffs.any fun o => d.reg pgSEA n o != d.reg pgSEA (adopted n) o))

/-! ## Phase and indices (R233 to R237) -/

/-- Position of the phase source in cycle k − 1, its change over that cycle, whether it is known fresh, and pofs of the
phase-source table, 0 where none applies (R233, R253). It reads only what cycle k − 1 left, at any time of cycle k: the exported
values of tables, and what the tick before sampled. -/
def Dev.seaSource (d : Dev) (n : Nat) : Int × Int × Bool × Int :=
  let table := fun (m : Nat) =>
    let x := (d.ax (axisNo m)).ex
    (x.pAct, x.dp, x.fresh, x.pofs)
  let counts := fun (s : Sampled) (bits : Nat) => (s.prev * 65536, sxt bits (toBits bits (s.prev - s.old)) * 65536, true, (0 : Int))
  let midx := d.par n AXP.MIDX
  match d.seaPar n SEA.PSRC with
  | 0 => (0, 0, true, 0)
  | 1 => table n
  | 2 => table (d.seaPar n SEA.SIDX)
  | _ =>
    match d.par n AXP.MKIND with
    | 0 => counts (d.mot.fbu[midx % 8]'(Nat.mod_lt _ (by decide))) 32
    | 1 =>
      let s := d.mot.pulse[midx % 4]'(Nat.mod_lt _ (by decide))
      (s.prev, sxt 48 (toBits 48 (s.prev - s.old)), true, 0)
    | 2 => counts (d.mot.ain[midx % 32]'(Nat.mod_lt _ (by decide))) 64
    | 3 => table midx
    | _ =>
      let x := (d.ax (axisNo midx)).ex
      (x.staged, x.staged - x.stagedPrev, true, x.pofs)

/-- The index of a Q47.16 position (R234). -/
def Dev.seaIndex (d : Dev) (n : Nat) (p : Int) : Nat :=
  let pp : Int := d.seaPar n SEA.PPER * 65536
  let x := (p - d.pairI pgSEA (adopted n) SEA.PORGLO.off - d.pairI pgSEA n SEA.SOFSLO.off) % pp
  if pp = 0 then 0 else (x.toNat * d.seaN n) / pp.toNat

/-- The index of a cycle with PSRC 0 (R235). -/
def Dev.seaTimeIndex (d : Dev) (n c : Nat) : Nat :=
  let tper := d.seaPar n SEA.TPER
  if tper = 0 then 0 else ((c + d.seaPar n SEA.TOFS) % tper * d.seaN n) / tper

/-- SUSP shows whether learning is suspended (R258). -/
def showSusp (n : Fin 256) (d : Dev) : Dev := d.wrS pgSEA n SEA.STAT_SUSP (b2n ((d.sea n).susp != 0))

/-- A change of pofs of the phase-source table, handled by JPOL (R253). -/
def seaPofs (n : Fin 256) (pofs : Int) (d : Dev) : Dev :=
  let s := d.sea n
  let delta := pofs - s.pofs
  let d := d.setSea n { s with pofs := pofs }
  if delta = 0 then d
  else
    match d.seaPar n SEA.JPOL with
    | 0 => showSusp n (d.mapSea n fun s => { s with susp := max s.susp (d.seaPar n SEA.LEAD + 1) })
    | 1 => d.wr64 pgSEA n SEA.SOFSLO.off (toBits 64 (d.pairI pgSEA n SEA.SOFSLO.off + delta))
    | _ => seaEvent n 0 (setSeaState n 2 d)

/-- The injection index of cycle `k` and its valid bit (R236, R237), from what cycle k − 1 left. -/
def seaAim (k : Nat) (n : Fin 256) (d : Dev) : Dev :=
  let (ps, dps, ok, _) := d.seaSource n
  let j := if d.seaPar n SEA.PSRC = 0 then d.seaTimeIndex n (k + 1) else d.seaIndex n (ps + 2 * dps)
  d.mapSea n fun s => { s with idx := j, ok := ok }

/-- At the tick of cycle `k`: a jump of pofs, then the injection index of the cycle. -/
def seaPrepare (k : Nat) (n : Fin 256) (d : Dev) : Dev :=
  if d.seaState n = 0 ∨ d.seaState n = 3 then d else seaAim k n (seaPofs n (d.seaSource n).2.2.2 d)

/-! ## The SEA stage (R238 to R246, R254) -/

/-- Circular distance of two indices, in −N/2 to N/2 − 1 (R254). -/
def seaDist (nn : Nat) (i j : Nat) : Int :=
  let half : Int := nn / 2
  (((i : Int) - j + half) % nn) - half

/-- The injected value (R238): T[j] × min(m, IRAMP) / IRAMP, toward zero. -/
def seaInject (t : Int) (m iramp : Nat) : Int := if iramp = 0 then t else divTrunc (t * (min m iramp : Nat)) iramp

/-- A scaled gain as mantissa and exponent (R169), and the exact product of `x` with it in units of 2^−57 of the LSB of
`x`. -/
def sgMant (g : Nat) : Int := sxt 26 (g / 64)
def sgExp (g : Nat) : Int := sxt 6 g
def sgMul (x : Int) (g : Nat) : Int := x * sgMant g * ((2 ^ (sgExp g + 32).toNat : Nat) : Int)

/-- The new value of an entry before limiting (R244): learning, filter, forgetting; rounded once. -/
def seaLearn (e tu tl tr : Int) (kl qa forg : Nat) : Int :=
  let qa := min qa 0x4000
  let w := tu + satS 32 (rnd (sgMul e kl) 57)
  rnd (((65536 - 2 * qa : Nat) * w + qa * (tl + tr)) * (65536 - forg : Nat)) 32

/-- Limit an entry to ±TLIM: the value and whether it was limited. -/
def seaLimit (tlim : Nat) (t : Int) : Int × Bool :=
  if (tlim : Int) < t then (tlim, true) else if t < -(tlim : Int) then (-(tlim : Int), true) else (t, false)

/-- Write an entry: T[u], TSUM, UPDC, UIDX, SATF with its event (R244). -/
def seaWrite (n : Fin 256) (u : Nat) (old new : Int) (lim : Bool) (d : Dev) : Dev :=
  let d := d.setMemLE (seaAddr n u) 4 (toBits 32 new)
  let d := d.wrS pgSEA n SEA.TSUM (toBits 32 (d.rdS pgSEA n SEA.TSUM + new - old))
  let d := (d.incWS pgSEA n SEA.UPDC).wrS pgSEA n SEA.UIDX u
  if lim && !d.onS pgSEA n SEA.SATF then seaEvent n 1 (d.wrS pgSEA n SEA.SATF 1) else d

/-- An entry with an uncorrectable error was read (R256). -/
def seaFail (n : Fin 256) (i : Nat) (d : Dev) : Dev :=
  let d := (d.wr pgSEA SEA.EAX n).wr pgSEA SEA.EIDX i
  seaEvent n 2 (setSeaState n 3 (d.inc pgSEA SEA.ECNT))

/-- The loop that ESEL or INJ needs is adopted (R242). -/
def Dev.seaLoops (d : Dev) (n : Nat) : Bool :=
  let plen := d.par n AXP.PLEN = 1
  let vlen := d.par n AXP.VLEN = 1
  (match d.seaPar n SEA.ESEL with | 0 => plen | 1 => vlen | _ => true) &&
  (d.seaPar n SEA.INJ = 1 || vlen)

/-- The history with the index of the present task at its head (R237). -/
def Season.aimed (s : Season) : List (Nat × Bool) := ((s.idx, s.ok) :: s.hist).take 33

/-- The entry that the task of the cycle updates (R243), if it updates one; `live` says that the axis is READY or RUN with a
fresh record. -/
def Dev.seaTarget (d : Dev) (n : Fin 256) (live : Bool) : Option Nat :=
  let s := d.sea n
  let lead := d.seaPar n SEA.LEAD
  match s.aimed[lead]?, s.aimed[lead + 1]? with
  | some (u, true), some (u', true) =>
    if d.seaState n = 1 ∧ live ∧ u ≠ u' ∧ s.susp = 0 ∧ d.seaLoops n then some u else none
  | _, _ => none

/-- The neighbours of an entry. -/
def Dev.seaLeft (d : Dev) (n u : Nat) : Nat := (u + d.seaN n - 1) % d.seaN n
def Dev.seaRight (d : Dev) (n u : Nat) : Nat := (u + 1) % d.seaN n

/-- The entries that are fetched for the task (R246). -/
def Dev.seaReads (d : Dev) (n : Fin 256) (live : Bool) : List Nat :=
  (d.sea n).idx :: (match d.seaTarget n live with
    | some u => [u, d.seaLeft n u, d.seaRight n u]
    | none => [])

/-- An entry with an uncorrectable error among those fetched: the table fails in this task (R256). -/
def Dev.seaHit (d : Dev) (n : Fin 256) (live : Bool) : Option Nat :=
  (d.seaReads n live).find? fun i => d.badIn (seaAddr n i) 4

/-- The value SEA injects in this task, formed from the state of the table (R238, R242, R256). -/
def Dev.seaValue (d : Dev) (n : Fin 256) (live : Bool) : Int :=
  let s := d.sea n
  let st := d.seaState n
  if (st = 1 ∨ st = 2) ∧ d.seaLoops n ∧ (d.seaHit n live).isNone then
    seaInject (d.seaEntry n s.idx) s.m (d.seaPar n SEA.IRAMP)
  else 0

/-- The jump check of R254: STRIDE, and on a jump the suspension, JUMPC, SEA_JUMP and, with JPOL 2, FREEZE. -/
def seaJump (n : Fin 256) (d : Dev) : Dev :=
  let s := d.sea n
  match s.hist with
  | [] => d
  | (j, _) :: _ =>
    if s.m = 0 then d
    else
      let dist := (seaDist (d.seaN n) s.idx j).natAbs
      let d := d.wrS pgSEA n SEA.STRIDE (max (d.rdS pgSEA n SEA.STRIDE) (min 255 dist))
      let jmax := d.seaPar n SEA.JMAX
      if jmax ≠ 0 ∧ jmax < dist then
        let d := d.mapSea n fun s => { s with susp := max s.susp (d.seaPar n SEA.LEAD + 1) }
        let d := seaEvent n 0 (d.incS pgSEA n SEA.JUMPC)
        if d.seaPar n SEA.JPOL = 2 then setSeaState n 2 d else d
      else d

/-- The learning update of entry `u` (R244); `e` is the learning error. -/
def seaUpdate (n : Fin 256) (u : Nat) (e : Int) (d : Dev) : Dev :=
  let tu := d.seaEntry n u
  let t := seaLearn e tu (d.seaEntry n (d.seaLeft n u)) (d.seaEntry n (d.seaRight n u)) (d.seaPar n SEA.KL) (d.seaPar n SEA.QA)
    (d.seaPar n SEA.FORG)
  let (t', lim) := seaLimit (d.seaPar n SEA.TLIM) t
  seaWrite n u tu t' lim d

/-- What the SEA stage of a task leaves in the Season state, at the commit (R237, R239, R243, R245, R254, R256). -/
def seaCommit (n : Fin 256) (e inj : Int) (live : Bool) (d : Dev) : Dev :=
  let st := d.seaState n
  let d := d.wrIS pgSEA n SEA.INJV inj
  if st = 0 ∨ st = 3 then d
  else match d.seaHit n live with
  | some i => seaFail n i d
  | none =>
    let d := seaJump n (d.wrS pgSEA n SEA.IIDX (d.sea n).idx)
    let d := match d.seaTarget n live with
      | some u => seaUpdate n u e d
      | none => d
    let d := d.mapSea n fun s => { s with hist := s.aimed }
    let d := d.mapSea n fun s => { s with m := min 65535 (s.m + 1), susp := s.susp - 1 }
    showSusp n d

/-! ## Commands (R247 to R250) -/

/-- The structural values of a table as written break no limit (*Structural limits*). -/
def Dev.seaStructOk (d : Dev) (n : Nat) : Bool :=
  let w := fun f => d.rdS pgSEA n f
  let psrc := w SEA.PSRC
  decide (8 ≤ w SEA.NLOG) && decide (w SEA.NLOG ≤ 16) &&
  (psrc == 0 || w SEA.PPER != 0) &&
  (psrc != 0 || (decide (2 ≤ w SEA.TPER) && decide (w SEA.TOFS < w SEA.TPER))) &&
  (psrc != 2 || d.configured (w SEA.SIDX)) &&
  (psrc != 3 || decide (d.rd (pgAxp n) AXP.MKIND ≤ 4)) &&
  decide (w SEA.ESEL ≤ 2) && w SEA.LEAD != 0 && decide (w SEA.JPOL ≤ 2)

/-- A table leaves OFF: structural parameters adopted, SOFS and history cleared, m at 0, the index of the present cycle formed
(R234, R236, R239, R248). -/
def seaLeaveOff (n : Fin 256) (to' : Nat) (d : Dev) : Dev :=
  let d := showSeaPchg n ((adoptRegs pgSEA n seaStructOffs d).mapSea n fun s => { s with chg := false })
  let d := (d.wr64 pgSEA n SEA.SOFSLO.off 0).mapSea n fun s => { s with hist := [], m := 0, susp := 0, ok := false }
  let pofs := (d.seaSource n).2.2.2
  setSeaState n to' (seaAim d.cyc n (showSusp n <| d.mapSea n fun s => { s with pofs := pofs }))

def Dev.seaBusy (d : Dev) (n : Nat) : Bool := d.onS pgSEA n SEA.STAT_BUSY

/-- A SEA command as evaluated (R248, R249): its result, and the device. -/
def evalSea (code arg : Nat) (d : Dev) : Nat × Dev :=
  let n := axisNo arg
  let src := axisNo (arg / 256)
  let st := d.seaState n
  let free := !d.seaBusy n
  let live := d.configured n && free
  match code with
  | 0x01 =>
    if !(live && (st == 0 || st == 2)) then (rSTATE, d)
    else if st = 2 then (rOK, setSeaState n 1 d)
    else if !d.seaStructOk n then (rPARAM, d)
    else (rOK, seaLeaveOff n 1 d)
  | 0x02 =>
    if !(live && (st == 0 || st == 1)) then (rSTATE, d)
    else if st = 1 then (rOK, setSeaState n 2 d)
    else if !d.seaStructOk n then (rPARAM, d)
    else (rOK, seaLeaveOff n 2 d)
  | 0x03 => if live && (st == 1 || st == 2) then (rOK, setSeaState n 0 d) else (rSTATE, d)
  | 0x04 =>
    if live && (st == 0 || st == 3) then
      let d := (setSeaState n 0 (d.wrS pgSEA n SEA.STAT_BUSY 1)).wrS pgSEA n SEA.TSUM 0
      (rOK, d.mapSea n fun s => { s with ends := some (d.cyc + d.seaN n / 16), source := none })
    else (rSTATE, d)
  | 0x05 =>
    let sst := d.seaState src
    if live && st == 0 && (sst == 0 || sst == 2) && !d.seaBusy src &&
        d.seaPar n SEA.NLOG == d.seaPar src SEA.NLOG then
      let d := (d.wrS pgSEA n SEA.STAT_BUSY 1).wrS pgSEA src SEA.STAT_BUSY 1
      (rOK, d.mapSea n fun s => { s with ends := some (d.cyc + d.seaN n / 16), source := some src.val })
    else (rSTATE, d)
  | 0x06 =>
    if free then
      (rOK, (((d.wrS pgSEA n SEA.STRIDE 0).wrS pgSEA n SEA.JUMPC 0).wrS pgSEA n SEA.UPDC 0).wrS pgSEA n SEA.SATF 0)
    else (rSTATE, d)
  | _ => (rCODE, d)

/-- SEA_DONE (R250): a RESET or COPY whose cycle has come completes. -/
def seaDone (n : Fin 256) (d : Dev) : Dev :=
  let s := d.sea n
  match s.ends with
  | none => d
  | some c =>
    if d.cyc < c then d
    else
      let base := seaAddr n 0
      let size := 4 * d.seaN n
      let d := match s.source with
        | none => d.clearMem base (base + size)
        | some src =>
          -- an entry of the source with an uncorrectable error fails the source (R256); it is copied as read
          let d := match d.bad.find? fun b => decide (seaAddr src 0 ≤ b) && decide (b < seaAddr src 0 + size) with
            | some b => seaFail (axisNo src) ((b - seaAddr src 0) / 4) d
            | none => d
          let d := d.copyMem (seaAddr src 0) base size
          (d.wrS pgSEA n SEA.TSUM (d.rdS pgSEA src SEA.TSUM)).wrS pgSEA src SEA.STAT_BUSY 0
      let d := d.mapSea n fun s => { s with ends := none, source := none }
      seaEvent n 3 (d.wrS pgSEA n SEA.STAT_BUSY 0)

/-- Every Season table and state as entry to LANTERN leaves them (R232); TSUM is their sum. -/
def seaClear (d : Dev) : Dev :=
  let d := d.clearMem dramSeason (dramSeason + 0x400_0000)
  let d := { d with mot := { d.mot with sea := Vector.replicate 256 Season.reset } }
  (List.range 256).foldl (fun d n => (((setSeaState n 0 d).wrS pgSEA n SEA.STAT_BUSY 0).wrS
    pgSEA n SEA.TSUM 0).wrS pgSEA n SEA.STAT_SUSP 0) d

end Sys2Proof.Machine
end

