-- ==== Sys2Proof/Machine/Profile.lean ====
section
/-! DEFINITION. The profile generator (spec/07, R260 to R284, R293 to R295): the motion rule, moves and their queue, stops,
limit switches, homing, the resolution ladder, and the PRF commands. Its state is in the units of R260. -/
namespace Sys2Proof.Machine

/-! ## The motion rule (R262) -/

/-- The limits in force: acceleration, deceleration, jerk. -/
structure Lims where
  amx : Int
  dmx : Int
  jmx : Int
deriving DecidableEq, Repr

/-- Limits with jerk `j` (0: the full swing of acceleration in one cycle, or unlimited when that is 0 as well). -/
def mkLims (amx dmx j : Int) : Lims :=
  ⟨amx, dmx, if j ≠ 0 then j else if amx + dmx = 0 then ((2 ^ 100 : Nat) : Int) else amx + dmx⟩

/-- Speed and acceleration after one cycle with a change of acceleration. -/
def profStepUC (l : Lims) (u c jr : Int) : Int × Int :=
  let c2 := c + jr
  let c2 := if l.amx < c2 then max l.amx (c - l.jmx) else c2
  let c2 := if c2 < -l.dmx then min (-l.dmx) (c + l.jmx) else c2
  (u + c2, c2)

/-- Speed still gained while the acceleration ramps to 0: the sum over the `m` cycles in which it stays above 0. -/
def profGain (l : Lims) (c : Int) : Int :=
  if c ≤ 0 then 0
  else
    let m := (c - 1) / l.jmx
    m * c - l.jmx * (m * (m + 1) / 2)

/-- Change of acceleration toward the speed `vt`. -/
def profJerk (l : Lims) (u c vt : Int) : Int :=
  if 0 < c ∧ vt ≤ u + profGain l c then -l.jmx
  else if c < 0 ∧ u - profGain l (-c) ≤ vt then l.jmx
  else if u < vt then l.jmx
  else if vt < u then -l.jmx
  else -c

/-- Distance covered until the speed is `vt`, over at most `fuel` cycles, added to `acc`. -/
def profDist (l : Lims) (vt : Int) : Nat → Int → Int → Int → Int
  | 0, _, _, acc => acc
  | fuel + 1, u, c, acc =>
    if u ≤ vt then acc
    else
      let (u', c') := profStepUC l u c (profJerk l u c vt)
      profDist l vt fuel u' c' (acc + max u' vt)

/-- stopdist of R262. -/
def stopDist (l : Lims) (u c vt : Int) : Int := profDist l vt (2 ^ 64) u c 0

/-- Sign of an integer. -/
def sgnI (x : Int) : Int := if 0 < x then 1 else if x < 0 then -1 else 0

/-- Sign, taking 0 as positive. -/
def sgn1 (x : Int) : Int := if x < 0 then -1 else 1

/-- A position, speed and acceleration with the frame sign of the move, and whether the target was reached. -/
structure Mot where
  p : Int
  v : Int
  a : Int
  s : Int
  done : Bool
deriving DecidableEq, Repr

/-- Do `x` and `y` lie on opposite sides of `z`? -/
def acrossI (x y z : Int) : Bool := (decide (x < z) && decide (z < y)) || (decide (z < x) && decide (y < z))

/-- One cycle of a point-to-point move to target `x` with speed limit `vt` (R262, R263). -/
def ptpStep (l : Lims) (m : Mot) (x vt : Int) : Mot :=
  let s := if m.s * m.v ≤ 0 then sgn1 (x - m.p) else m.s
  let r := s * (x - m.p)
  let u := s * m.v
  let c := s * m.a
  let (u1, c1) := profStepUC l u c (profJerk l u c vt)
  let (u1, c1) := if acrossI u1 u vt then (vt, 0) else (u1, c1)
  if 0 ≤ r ∧ u1 + stopDist l u1 c1 0 ≤ r then ⟨m.p + s * u1, s * u1, s * c1, s, false⟩
  else
    let (u1, c1) := profStepUC l u c (profJerk l u c 0)
    if 0 ≤ r ∧ r - u1 ≤ 0 then ⟨x, 0, 0, s, true⟩
    else
      let (u1, c1) := if 0 < r ∧ u1 ≤ 0 then (0, 0) else (u1, c1)
      ⟨m.p + s * u1, s * u1, s * c1, s, false⟩

/-- One cycle toward the speed `target` (R266): done when the speed holds there. -/
def velStep (l : Lims) (m : Mot) (target : Int) : Mot :=
  let s := if m.v ≠ 0 then sgnI m.v else if target = 0 then m.s else sgnI target
  let u := s * m.v
  let c := s * m.a
  let vt := s * target
  let (u1, c1) := profStepUC l u c (profJerk l u c vt)
  let (u1, c1) := if acrossI u1 u vt then (vt, 0) else (u1, c1)
  ⟨m.p + s * u1, s * u1, s * c1, s, s * u1 == target && c1 == 0⟩

/-! ## Parameters (R260, R272, R638) -/

def Dev.profAmx (d : Dev) (n : Nat) : Int := limU8 (d.profPar n PRF.AMAXP)
def Dev.profVmax (d : Dev) (n : Nat) : Int := d.profPar n PRF.VMAXP * 65536
def Dev.profJ (d : Dev) (n : Nat) : Int := d.profPar n PRF.JMAXP

/-- Limits of a stop (R271, R277). -/
def Dev.stopLims (d : Dev) (n : Nat) (hard : Bool) : Lims := mkLims (d.profAmx n) (d.stopDec n hard) (d.profJ n)

/-- Registers adopted live by the generator (R272), and the homing registers adopted at HOME (R299). -/
def profLiveOffs : List Nat := words 0x090 0x0A0 ++ words 0x0AC 0x0B4
def homeOffs : List Nat := words 0x0B8 0x0E0

/-! ## Starting moves (R265, R273, R274) -/

/-- Least `d` in `[lo, hi]` at which `p` holds, for a `p` that holds at `hi` and goes on holding once it does; by halving. -/
def leastFrom (p : Int → Bool) : Nat → Int → Int → Int
  | 0, lo, _ => lo
  | n + 1, lo, hi =>
    if hi ≤ lo then lo
    else if p ((lo + hi) / 2) then leastFrom p n lo ((lo + hi) / 2)
    else leastFrom p n ((lo + hi) / 2 + 1) hi

/-- Least `d` among the `n` integers from `lo` on at which `p` holds, whatever `p`. -/
def leastFit (p : Int → Bool) : Nat → Int → Option Int
  | 0, _ => none
  | n + 1, lo => if p lo then some lo else leastFit p n (lo + 1)

/-- The least deceleration from `lo` to `hi` that `fits`. Without a jerk limit (`smooth`), and while the present deceleration is
no more than `lo`, the stopping distance falls as the deceleration grows, and halving finds it; with one it need not. -/
def leastDecel (smooth : Bool) (fits : Int → Bool) (lo hi : Int) : Option Int :=
  if smooth then (if fits hi then some (leastFrom fits 41 lo hi) else none) else leastFit fits (hi + 1 - lo).toNat lo

/-- The deceleration in force for the rest of an ABS or REL move (R273, R274). -/
def profDeff (n : Fin 256) (d : Dev) : Dev :=
  let p := d.prof n
  let deff := limU8 (d.profPar n PRF.DMAXP)
  let hdec := d.profHdec n
  let s := if p.s * p.v ≤ 0 then sgn1 (p.x - p.p) else p.s
  let r := s * (p.x - p.p)
  let fits := fun (dm : Int) => decide (stopDist (mkLims (d.profAmx n) dm (d.profJ n)) (s * p.v) (s * p.a) 0 ≤ r)
  let smooth := d.profJ n == 0 && decide (-deff ≤ s * p.a)
  let use := fun (dm : Int) (d : Dev) => profDo n (fun p => { p with dmx := dm }) d
  let passed := fun (d : Dev) => axEvent n 15 (d.wrS pgPRF n PRF.TGTPASS 1)
  let raised := fun (d : Dev) => axEvent n 10 (d.wrS pgPRF n PRF.DRAISED 1)
  if r < 0 || fits deff then use deff d
  else if hdec < deff then passed (use deff d)
  else match leastDecel smooth fits deff hdec with
    | some dm => raised (use dm d)
    | none => passed (raised (use hdec d))

/-- Start a descriptor (R262, R265, R266): the table goes to RUN. -/
def startMove (n : Fin 256) (m : MoveDesc) (d : Dev) : Dev :=
  let p := d.prof n
  let base := match p.lastTgt with | some t => t | none => p.p
  let x := if m.kind = 0 then m.mtgt * 65536 else base + m.mtgt * 65536
  let s := if p.v ≠ 0 then sgnI p.v else sgn1 (x - p.p)
  let d := setAxState n axRUN d
  if m.kind = 2 then
    profDo n (fun p => { p with
      run := .move m false, lastTgt := none, dwell := m.dwell, dmx := limU8 (d.profPar n PRF.DMAXP) }) d
  else
    profDeff n (profDo n (fun p => { p with run := .move m false, x := x, s := s, lastTgt := some x, dwell := m.dwell }) d)

/-- Begin a stop under R271: the queue is discarded, homing ends with HFC 6 when `code` says so. -/
def profStop (n : Fin 256) (hard : Bool) (d : Dev) : Dev :=
  profDo n (fun p => { p with run := .stop, queue := [], hard := hard, lastTgt := none, dwell := 0 }) d

/-! ## Switches (R276, R283) -/

/-- The bank of the input area that was published last: the newest, or the host's once acquired (R454). -/
def Dev.publishedBank (d : Dev) : Nat := if d.on pgTIM TIM.NEW then d.rd pgTIM TIM.NEWEST else d.rd pgTIM TIM.PIXI_HOST

/-- The bit of the bank published last at a bit address of the input area (R261, R581). -/
def Dev.inputBit (d : Dev) (badr : Nat) : Bool :=
  let b := match d.mot.image with
    | some l => memGet l (badr / 8)
    | none => d.mem8 (bankBase d.publishedBank + d.rd pgTIM TIM.OSIZE * 64 + badr / 8)
  bitOf b.toNat (badr % 8)

/-- A switch register (LIMN, LIMP, HSW): the level it reads now, inactive when not used. -/
def Dev.switchRaw (d : Dev) (n off : Nat) : Bool :=
  let w := (d.reg pgPRF (adopted n) off).toNat
  bitOf w 31 && xor (d.inputBit (bitsOf w 0 22)) (bitOf w 30)

/-- One cycle of debouncing (R276), with HDEB cycles. -/
def Switch.next (hdeb : Nat) (raw : Bool) (s : Switch) : Switch :=
  if raw = s.level then ⟨s.level, raw, 0⟩
  else if max 1 hdeb ≤ (if raw = s.raw then s.run else 0) + 1 then ⟨raw, raw, 0⟩
  else ⟨s.level, raw, (if raw = s.raw then s.run else 0) + 1⟩

/-- Debounce the three switches of a table; transitions of the cycle are counted for homing. -/
def profSwitches (n : Fin 256) (d : Dev) : Dev :=
  let p := d.prof n
  let hdeb := d.profPar n PRF.HDEB
  let rn := d.switchRaw n 0x0B0
  let rp := d.switchRaw n 0x0B4
  let rh := d.switchRaw n 0x0B8
  let tr := b2n (rn != p.limN.raw) + b2n (rp != p.limP.raw) + b2n (rh != p.home.raw)
  let d := d.mapProf n fun p => { p with
    limN := p.limN.next hdeb rn, limP := p.limP.next hdeb rp, home := p.home.next hdeb rh,
    hom := if tr = 0 then p.hom
      else { p.hom with chatter := (d.cyc, tr) :: p.hom.chatter.filter fun (c : Nat × Nat) => decide (d.cyc < c.1 + 65535) } }
  (d.wrS pgPRF n PRF.LIMACTN (b2n (d.prof n).limN.level)).wrS pgPRF n PRF.LIMACTP (b2n (d.prof n).limP.level)

/-- Is the limit switch in direction `dir` active? -/
def Prof.limit (p : Prof) (dir : Int) : Bool := (decide (0 < dir) && p.limP.level) || (decide (dir < 0) && p.limN.level)

/-! ## Homing (R278 to R284) -/

/-- The position LPOS stands for, in the record of cycle k − 1 (R279). -/
def AxDyn.latched (x : AxDyn) (dirInv : Bool) (lpos pos : Nat) : Int :=
  let dd := sxt 32 (toBits 32 ((lpos : Int) - pos)) * 65536
  x.pAct + (if dirInv then -dd else dd)

/-- The index position of the last cycle, when its fresh record had one. -/
def Dev.homeIndex (d : Dev) (n : Fin 256) : Option Int :=
  let x := d.ax n
  let r := x.used
  if x.fresh && r.idxv then some (x.latched (d.par n AXP.DIR == 1) r.lpos r.pos) else none

/-- The latch position of the last cycle (R279): of the record, or of the local latch HLAT (notes/assumptions/103.md). -/
def Dev.homeLatch (d : Dev) (n : Fin 256) : Option Int :=
  let x := d.ax n
  let inv := d.par n AXP.DIR == 1
  let r := x.used
  if d.profPar n PRF.HSRC = 1 then x.latUsed.map fun (dc : Int) => x.pAct + (if inv then -(dc * 65536) else dc * 65536)
  else if x.fresh && r.latv && !r.idxv then some (x.latched inv r.lpos r.pos) else none

def mapHom (n : Fin 256) (f : Homing → Homing) (d : Dev) : Dev := d.mapProf n fun p => { p with hom := f p.hom }
def setHomeStep (n : Fin 256) (s : HomeStep) (d : Dev) : Dev :=
  mapHom n (fun h => { h with step := s, edge := false, cand := none, stall := 0 }) d

/-- HDIR as a sign. -/
def Dev.hdir (d : Dev) (n : Nat) : Int := if d.profPar n PRF.HDIR = 1 then -1 else 1

/-- Where a stop of homing leads. -/
def homeNext (n : Fin 256) (next : Nat) (d : Dev) : Dev :=
  let dir := d.hdir n
  let h := (d.prof n).hom
  let idx := d.profPar n PRF.HIDX = 1
  let toIndex := fun (d : Dev) => mapHom n (fun h => { h with start := (d.prof n).p }) (setHomeStep n (.index dir) d)
  match next with
  | 0 => setHomeStep n .begin' d
  | 1 => setHomeStep n (.switch dir false true true) d
  | 2 =>
    if d.profPar n PRF.HMETH = 1 then setHomeStep n (.switch (-dir) true false true) d
    else if idx then toIndex d else setHomeStep n .back d
  | 3 => if idx then toIndex d else setHomeStep n .back d
  | 5 => setHomeStep n (.switch (-h.dir) false true false) d
  | 6 => setHomeStep n (.index (-h.dir)) d
  | _ => setHomeStep n .back d

/-- The end of homing (R278, R281): pofs, p_act and p_set move by delta; then the move by HBACK, if any. -/
def homeShift (n : Fin 256) (ref : Int) (d : Dev) : Dev :=
  let delta := d.pairI pgPRF (adopted n) PRF.HPOSLO.off - ref
  let d := d.mapAx n fun x => { x with
    pofs := satS 64 (x.pofs + delta), pAct := satS 64 (x.pAct + delta), pSet := satS 64 (x.pSet + delta) }
  let back : Int := sxt 32 (d.profPar n PRF.HBACK)
  let d := d.mapProf n fun p => { p with p := p.p + delta * 65536 }
  let p := d.prof n
  let x := p.p + back * ((2 ^ 32 : Nat) : Int)
  let d := mapHom n (fun h => { h with ref := none }) (d.mapProf n fun p => { p with x := x, s := sgn1 (x - p.p) })
  if back = 0 then d else profDeff n d

/-- Homing is complete; SUP of the cycle's task takes the axis to READY. -/
def homeDone (n : Fin 256) (d : Dev) : Dev :=
  axEvent n 12 (profDo n (fun p => { p with run := .none, v := 0, a := 0 }) (d.wrS pgPRF n PRF.HOMED 1))

/-- Move the generator's point toward a speed. -/
def profVel (n : Fin 256) (l : Lims) (target : Int) (d : Dev) : Dev :=
  d.mapProf n fun p =>
    let m := velStep l ⟨p.p, p.v, p.a, p.s, false⟩ target
    { p with p := m.p, v := m.v, a := m.a, s := m.s }

/-- Limits of a search. -/
def Dev.searchLims (d : Dev) (n : Nat) : Lims := mkLims (d.profAmx n) (limU8 (d.profPar n PRF.DMAXP)) (d.profJ n)

/-- Search speed in direction `dir`, limited to VMAXP. -/
def Dev.searchVel (d : Dev) (n : Nat) (dir : Int) (slow : Bool) : Int :=
  dir * min ((d.profPar n (if slow then PRF.HVL else PRF.HVS) : Nat) * 65536 : Int) (d.profVmax n)

/-- A stop under R271, up to rest. -/
def stopCycle (n : Fin 256) (d : Dev) : Dev :=
  let p := d.prof n
  let d := profVel n (d.stopLims n p.hard) 0 d
  let p := d.prof n
  if p.v = 0 ∧ p.a = 0 then profDo n (fun p => { p with run := .none, hard := false, dmx := d.stopDec n p.hard }) d else d

/-- A homing fault: the axis begins its stop under R271 in this cycle, HFC and HOME_FAULT (R284). -/
def homingFault (n : Fin 256) (code : Nat) (d : Dev) : Dev := stopCycle n (homeFault n code (profStop n false d))

/-- A limit switch in the direction of a search (R282). -/
def homeLimit (n : Fin 256) (dir : Int) (d : Dev) : Dev :=
  let h := (d.prof n).hom
  let meth := d.profPar n PRF.HMETH
  if d.profPar n PRF.HREV = 1 ∧ !h.reversed ∧ meth ≠ 2 then
    profVel n (d.stopLims n false) 0
      (mapHom n (fun h => { h with reversed := true, dir := dir }) (setHomeStep n (.halt (if meth = 3 then 6 else 5)) d))
  else homingFault n 1 d

/-- A switch search: edges, latch candidate and confirmation (R279), then the stop. -/
def homeSwitch (n : Fin 256) (dir : Int) (slow level mark : Bool) (d : Dev) : Dev :=
  let p := d.prof n
  let h := p.hom
  if p.limit dir then homeLimit n dir d
  else
    let edge := p.home.raw == level
    let cand := if edge then (match h.cand with | some c => some c | none => d.homeLatch n) else none
    let d := mapHom n (fun h => { h with edge := edge, cand := cand }) d
    if p.home.level = level ∧ level ∧ !mark then
      -- The reversed search meets the home switch and runs through it (R282).
      profVel n (d.searchLims n) (d.searchVel n dir slow) (setHomeStep n (.switch dir slow false false) d)
    else if p.home.level = level then
      let next := if mark then (if level then 2 else 3) else if h.reversed then 0 else 1
      let d := mapHom n (fun h => { h with step := .halt next, ref := if mark then cand else h.ref }) d
      profVel n (d.stopLims n false) 0 d
    else profVel n (d.searchLims n) (d.searchVel n dir slow) d

/-- An index search (R278, R284 code 4). -/
def homeIndexSearch (n : Fin 256) (dir : Int) (d : Dev) : Dev :=
  let p := d.prof n
  let per : Int := (d.par n AXP.IDXPER : Nat) * ((2 ^ 32 : Nat) : Int)
  if p.limit dir then homeLimit n dir d
  else
    match d.homeIndex n with
    | some r => profVel n (d.stopLims n false) 0 (mapHom n (fun h => { h with ref := some r }) (setHomeStep n (.halt 4) d))
    | none =>
      if d.profPar n PRF.HIDX = 1 ∧ d.profPar n PRF.HMETH ≠ 3 ∧ per ≠ 0 ∧ per < |p.p - p.hom.start| then homingFault n 4 d
      else profVel n (d.searchLims n) (d.searchVel n dir true) d

/-- A hard-stop search (R278, R280); its first step has no committed task of the search behind it yet. -/
def homeStall (n : Fin 256) (dir : Int) (first : Bool) (d : Dev) : Dev :=
  let x := d.ax n
  let p := d.prof n
  if p.limit dir then homingFault n 1 d
  else
    let hit := !first && decide ((d.profPar n PRF.HSTI : Nat) * 32768 ≤ |x.iqRef|) && decide (|x.vAct| ≤ (d.profPar n PRF.HSTV : Nat) * 32768)
    let run := if hit then p.hom.stall + 1 else 0
    if hit ∧ d.profPar n PRF.HSTN ≤ run then
      let d := d.mapProf n fun p => { p with p := x.pSet * 65536, v := 0, a := 0 }
      mapHom n (fun h => { h with ref := some x.pAct }) (setHomeStep n .back d)
    else
      let d := mapHom n (fun h => { h with stall := run }) d
      profVel n (d.searchLims n) (d.searchVel n dir true) d

/-- The first line of homing (R278). -/
def homeBegin (n : Fin 256) (d : Dev) : Dev :=
  let dir := d.hdir n
  match d.profPar n PRF.HMETH with
  | 2 => homeStall n dir true (setHomeStep n (.hardStop dir) d)
  | 3 => homeIndexSearch n dir (mapHom n (fun h => { h with start := (d.prof n).p }) (setHomeStep n (.index dir) d))
  | _ =>
    if (d.prof n).home.level then homeSwitch n (-dir) false false false (setHomeStep n (.switch (-dir) false false false) d)
    else homeSwitch n dir false true true (setHomeStep n (.switch dir false true true) d)

/-- The last lines of homing: apply the reference when it is known, then the move by HBACK, then HOME_DONE. -/
def homeBack (n : Fin 256) (d : Dev) : Dev :=
  let h := (d.prof n).hom
  let back := fun (d : Dev) =>
    if d.profPar n PRF.HBACK = 0 then homeDone n d
    else
      let p := d.prof n
      let vt := min ((d.profPar n PRF.HVL : Nat) * 65536 : Int) (d.profVmax n)
      let m := ptpStep (mkLims (d.profAmx n) p.dmx (d.profJ n)) ⟨p.p, p.v, p.a, p.s, false⟩ p.x vt
      let d := d.mapProf n fun p => { p with p := m.p, v := m.v, a := m.a, s := m.s }
      if m.done then homeDone n d else d
  match h.ref with
  | some r => back (homeShift n r d)
  | none => back d

/-- A stop within homing; a reference whose latch is still to come is waited for at rest. -/
def homeHalt (n : Fin 256) (next : Nat) (d : Dev) : Dev :=
  let d := profVel n (d.stopLims n false) 0 d
  let h := (d.prof n).hom
  let needs := (next == 2 || next == 3) && h.ref.isNone
  let d := if needs then (match d.homeLatch n with
      | some r => mapHom n (fun h => { h with ref := some r }) d
      | none => d)
    else d
  let p := d.prof n
  if p.v = 0 ∧ p.a = 0 ∧ !((next == 2 || next == 3) && p.hom.ref.isNone) then homeNext n next d else d

/-- Undebounced transitions in the last `win` cycles (R283). -/
def Homing.transitions (k win : Nat) (h : Homing) : Nat :=
  ((h.chatter.filter fun (c : Nat × Nat) => decide (k < c.1 + win)).map Prod.snd).foldl (· + ·) 0

/-- One cycle of homing. -/
def homingStep (n : Fin 256) (d : Dev) : Dev :=
  let d := mapHom n (fun h => { h with cycles := h.cycles + 1 }) d
  let h := (d.prof n).hom
  let htmo := d.profPar n PRF.HTMO
  let hchn := d.profPar n PRF.HCHN
  if hchn ≠ 0 ∧ hchn < h.transitions d.cyc (d.profPar n PRF.HCWIN) then axEvent n 14 (homingFault n 2 d)
  else if htmo ≠ 0 ∧ htmo < h.cycles then homingFault n 3 d
  else
    match h.step with
    | .begin' => homeBegin n d
    | .switch dir slow level mark => homeSwitch n dir slow level mark d
    | .index dir => homeIndexSearch n dir d
    | .hardStop dir => homeStall n dir false d
    | .halt next => homeHalt n next d
    | .back => homeBack n d

/-- The current limit of a table (R278): IQLIM, and no more than HILIM in a search for a hard stop. -/
def Dev.iqLim (d : Dev) (n : Fin 256) : Int :=
  let lim := d.coefI n AXP.IQLIM
  match (d.prof n).run, (d.prof n).hom.step with
  | .homing, .hardStop _ => min lim (sxt 32 (d.profPar n PRF.HILIM))
  | _, _ => lim

/-! ## One step of a table (R261, R267, R270, R277) -/

/-- The generator's point follows p_set while nothing runs. -/
def profRest (n : Fin 256) (d : Dev) : Dev :=
  let x := d.ax n
  d.mapProf n fun p =>
    if rnd p.p 16 = x.pSet then { p with v := 0, a := 0 } else { p with p := x.pSet * 65536, v := 0, a := 0 }

/-- The last move is done, has dwelt, and nothing waits: it ends with MOVE_DONE (R267); a VEL move goes on. The task of the cycle
still takes the position staged for it, and its SUP takes the axis to READY. -/
def moveEnd (n : Fin 256) (m : MoveDesc) (d : Dev) : Dev :=
  let p := d.prof n
  if p.run = .move m true ∧ m.kind ≠ 2 ∧ p.dwell = 0 ∧ p.queue = [] then
    axEvent n 9 (profDo n (fun p => { p with run := .none, v := 0, a := 0, lastTgt := none }) d)
  else d

/-- One cycle of a running descriptor. -/
def moveStep (n : Fin 256) (m : MoveDesc) (d : Dev) : Dev :=
  let p := d.prof n
  if m.kind = 2 then
    let vel := clampI (-d.profVmax n) (d.profVmax n) (sxt 32 m.mvel * 65536)
    let r := velStep (d.searchLims n) ⟨p.p, p.v, p.a, p.s, false⟩ vel
    profDo n (fun p => { p with p := r.p, v := r.v, a := r.a, s := r.s, run := .move m r.done }) d
  else
    let vt := min ((m.mvel : Int) * 65536) (d.profVmax n)
    let r := ptpStep (mkLims (d.profAmx n) p.dmx (d.profJ n)) ⟨p.p, p.v, p.a, p.s, false⟩ p.x vt
    moveEnd n m (profDo n (fun p => { p with p := r.p, v := r.v, a := r.a, s := r.s, run := .move m r.done }) d)

/-- A move that is done and has dwelt gives way to the next entry (R267); a VEL move goes on. -/
def moveNext (n : Fin 256) (m : MoveDesc) (d : Dev) : Dev :=
  match (d.prof n).queue with
  | e :: q => (fun d => moveStep n e d) (startMove n e (profDo n (fun p => { p with queue := q }) d))
  | [] => if m.kind = 2 then moveStep n m d else moveEnd n m d

/-- One cycle of a table in RUN under a move: its end, its dwell, or its next step. -/
def moveCycle (n : Fin 256) (m : MoveDesc) (done : Bool) (d : Dev) : Dev :=
  let p := d.prof n
  if !done then moveStep n m d
  else if p.dwell ≠ 0 then
    let d := d.mapProf n fun p => { p with dwell := p.dwell - 1 }
    if m.kind = 2 then moveStep n m d else moveEnd n m d
  else moveNext n m d

/-- A limit switch in the direction of motion, outside homing (R277). -/
def profLimit (n : Fin 256) (d : Dev) : Dev :=
  let p := d.prof n
  let moving : Bool := match p.run with
    | .move _ _ => true
    | .stop => !p.hard
    | _ => false
  if d.profPar n PRF.LIMEN = 1 ∧ moving ∧ p.limit p.v then axEvent n 11 (profStop n true d) else d

/-- What the generator runs for a table in this cycle. -/
def profRun (n : Fin 256) (d : Dev) : Dev :=
  match (d.prof n).run with
  | .move m done => moveCycle n m done d
  | .stop => stopCycle n d
  | .homing => homingStep n d
  | .group _ => d
  | .none =>
    let d := profRest n d
    match (d.prof n).queue with
    | e :: q =>
      if d.axState n = axREADY ∧ d.par n AXP.SPSRC = 0 then
        moveStep n e (startMove n e (profDo n (fun p => { p with queue := q }) d))
      else d
    | [] => d

/-- A table in RUN whose motion has ended, which is READY from SUP of that cycle on (R179, R211). -/
def Dev.moveOver (d : Dev) (n : Fin 256) : Bool :=
  d.axState n == axRUN && d.par n AXP.SPSRC == 0 && (d.prof n).run == .none

/-- The position the generator stages (R261). -/
def profStage (n : Fin 256) (d : Dev) : Dev :=
  d.mapProf n fun p => { p with stagedPrev := p.staged, staged := rnd p.p 16 }

/-- One step of the generator for a table, at the tick: switches, limits, motion; the path groups stage their members after
it (R261). -/
def profStep (n : Fin 256) (d : Dev) : Dev :=
  let d := if d.moveOver n then setAxState n axREADY d else d
  let d := profSwitches n d
  let st := d.axState n
  let d := if st = axREADY ∨ st = axRUN ∨ st = axSTOPPING then profRun n (profLimit n d) else profRest n d
  showProf n (profStage n d)

/-! ## The resolution ladder (R294, R295)

It runs in the axis task, on the p_set of the task. -/

/-- A position floored to a level of the ladder. -/
def ladFloor (l : Nat) (m : Int) : Int := m / ((2 ^ l : Nat) : Int) * ((2 ^ l : Nat) : Int)

/-- One cycle of the ladder of an open-loop stepper axis, at the set-point `pSet` and the speed `u` (units of R260). -/
def ladderStep (n : Fin 256) (pSet u : Int) (d : Dev) : Dev :=
  if d.profPar n PRF.STEPOL ≠ 1 then d
  else
    let p := d.prof n
    let m := pSet / 65536
    let ladv : Int := (d.profPar n PRF.LADV : Nat) * ((2 ^ 24 : Nat) : Int)
    let v := |u|
    let lmin := min 8 (d.profPar n PRF.LMIN)
    let lw := (((List.range 9).filter fun l => decide (lmin ≤ l) && decide (v ≤ ladv * ((2 ^ l : Nat) : Int))).head?).getD 8
    let l := p.level
    let due : Option Nat :=
      if l < lw then some (l + 1)
      else if lw < l ∧ 4 * v ≤ 3 * ladv * ((2 ^ (l - 1) : Nat) : Int) then some (l - 1)
      else none
    let (l', pend) := match due with
      | some t => if ladFloor l m = ladFloor t m then (t, false) else (l, true)
      | none => (l, false)
    let th := toBits 32 (ladFloor l' m * ((2 ^ 22 : Nat) : Int) + d.par n AXP.EOFS)
    showProf n ((d.mapProf n fun p => { p with level := l', ladTh := th }).wrS pgPRF n PRF.LPEND (b2n pend))

/-! ## PRF commands (R267 to R269, R638) -/

/-- The descriptor of a table as it stands in its window (R269). -/
def Dev.moveDesc (d : Dev) (n : Nat) : MoveDesc :=
  ⟨d.rdS pgPRF n PRF.KIND, d.rdS pgPRF n PRF.DWELL, d.rdS pgPRF n PRF.MVEL, d.pairI pgPRF n PRF.MTGTLO.off⟩

/-- The target a descriptor would have now, in units of R260: after what runs and waits. -/
def Dev.targetOf (d : Dev) (n : Fin 256) (m : MoveDesc) : Int :=
  let p := d.prof n
  if m.kind = 0 then m.mtgt * 65536
  else
    let base := (p.queue.filter fun e => e.kind != 2).foldl
      (fun (b : Int) (e : MoveDesc) => if e.kind = 0 then e.mtgt * 65536 else b + e.mtgt * 65536)
      (match p.lastTgt with | some t => t | none => p.p)
    base + m.mtgt * 65536

/-- Is a path group or homing running for a table? -/
def Prof.held (p : Prof) : Bool := match p.run with | .homing => true | .group _ => true | _ => false

/-- Is an ABS or REL move running? -/
def Prof.moving (p : Prof) : Bool := match p.run with | .move m _ => m.kind != 2 | _ => false

/-- A descriptor points toward an active limit switch (R277). -/
def Dev.towardLimit (d : Dev) (n : Fin 256) (m : MoveDesc) : Bool :=
  let p := d.prof n
  m.kind != 3 && d.profPar n PRF.LIMEN == 1 && p.limit (if m.kind = 2 then sgnI (sxt 32 m.mvel) else sgnI (d.targetOf n m - p.p))

/-- A descriptor and the limits of its table are acceptable (R268, R638). -/
def Dev.descOk (d : Dev) (n : Fin 256) (m : MoveDesc) : Bool :=
  let x := d.targetOf n m
  m.kind != 3 && d.profPar n PRF.AMAXP != 0 && d.profPar n PRF.DMAXP != 0 &&
  (m.kind == 2 || d.par n AXP.PLIMEN == 0 ||
    (decide (d.pairI (pgAxp n) (adopted 0) AXP.PLIMLOLO.off * 65536 ≤ x) &&
      decide (x ≤ d.pairI (pgAxp n) (adopted 0) AXP.PLIMHILO.off * 65536)))

/-- HOME as accepted: homing fields adopted, HOMED and HFC clear, the table runs. A home switch named anew starts at the level it
reads (notes/assumptions/104.md). -/
def startHome (n : Fin 256) (d : Dev) : Dev :=
  let named := d.reg pgPRF (adopted n) PRF.HSW_BADR.off
  let d := adoptRegs pgPRF n homeOffs d
  let d := (d.wrS pgPRF n PRF.HOMED 0).wrS pgPRF n PRF.HFC 0
  let raw := d.switchRaw n PRF.HSW_BADR.off
  let anew := named != d.reg pgPRF (adopted n) PRF.HSW_BADR.off
  let d := profDo n (fun p => { p with
    run := .homing, hom := { Homing.reset with chatter := p.hom.chatter },
    home := if anew then ⟨raw, raw, 0⟩ else p.home }) d
  setAxState n axRUN d

/-- A PRF command as evaluated for its table (R267, R268): its result, and the device. -/
def evalPrf (code arg : Nat) (m : MoveDesc) (d : Dev) : Nat × Dev :=
  let n := axisNo arg
  let p := d.prof n
  let st := d.axState n
  let src0 := d.par n AXP.SPSRC == 0
  match code with
  | 0x01 =>
    if !((st == axREADY || st == axRUN) && src0 && !p.held && !p.moving && p.queue.isEmpty && !d.towardLimit n m) then
      (rSTATE, d)
    else if !d.descOk n m then (rPARAM, d)
    else (rOK, startMove n m d)
  | 0x02 =>
    if !((st == axMOORED || st == axREADY || st == axRUN) && src0 && !p.held && decide (p.queue.length < 16) &&
        !d.towardLimit n m) then (rSTATE, d)
    else if !d.descOk n m then (rPARAM, d)
    else if st = axREADY ∧ !p.busy ∧ p.queue.isEmpty then (rOK, startMove n m d)
    else (rOK, profDo n (fun p => { p with queue := p.queue ++ [m] }) d)
  | 0x03 => if st = axDISABLED then (rSTATE, d) else (rOK, profDo n (fun p => { p with queue := [] }) d)
  | 0x04 =>
    if !(st == axREADY && src0 && !p.busy && p.queue.isEmpty) then (rSTATE, d)
    else if d.profPar n PRF.AMAXP = 0 ∨ d.profPar n PRF.DMAXP = 0 then (rPARAM, d)
    else if d.rdS pgPRF n PRF.HMETH = 2 ∧ d.profPar n PRF.STEPOL = 1 then (rPARAM, homeFault n 5 d)
    else (rOK, startHome n d)
  | 0x05 => (rOK, ((d.wrS pgPRF n PRF.DRAISED 0).wrS pgPRF n PRF.TGTPASS 0).wrS pgPRF n PRF.HFC 0)
  | _ => (rCODE, d)

end Sys2Proof.Machine
end

