-- ==== Sys2Proof/Machine/Path.lean ====
section
/-! DEFINITION. Path groups (R285 to R292, R301, R302): segments, their plans, motion along the path, commands.

Lengths, speeds and times along a path are in the units of R260. Angles and the points of an arc are computed to 2^−96 and
rounded once (notes/assumptions/21.md). -/
namespace Sys2Proof.Machine

/-! ## Angles -/

/-- Scale of the angle arithmetic. -/
def angOne : Nat := 2 ^ 96

/-- π at that scale. -/
def angPi : Nat := piFix / 2 ^ 32

/-- The arctangent series of `t ≤ 1/4` from term `j` on. -/
def atanSeries (t2 : Nat) : Nat → Nat → Nat → Int
  | 0, _, _ => 0
  | fuel + 1, pw, j => (pw / (2 * j + 1) : Nat) - atanSeries t2 fuel (pw * t2 / angOne) (j + 1)

/-- `t` for half the angle: t / (1 + √(1 + t²)). -/
def atanHalf (t : Nat) : Nat := t * angOne / (angOne + Nat.sqrt (angOne * angOne + t * t))

/-- Arctangent of `0 ≤ t ≤ 1`. -/
def atanPos (t : Nat) : Nat :=
  let h := atanHalf (atanHalf (atanHalf t))
  (8 * atanSeries (h * h / angOne) 40 h 0).toNat

/-- Angle of the vector (x, y), in 0 to 2π. -/
def angleOf (x y : Int) : Nat :=
  let ax := x.natAbs
  let ay := y.natAbs
  let q := if ax = 0 ∧ ay = 0 then 0
    else if ay ≤ ax then atanPos (ay * angOne / ax) else angPi / 2 - atanPos (ax * angOne / ay)
  if 0 ≤ x then (if 0 ≤ y then q else 2 * angPi - q) else (if 0 ≤ y then angPi - q else angPi + q)

/-- Sine of an angle of the first quarter, at the scale 2^96. -/
def sinQuarter (a : Nat) : Int :=
  let x := a * 2 ^ 32
  sinSeries (x * x / 2 ^ 128) 40 x 1 / ((2 ^ 32 : Nat) : Int)

/-- Cosine and sine of an angle in 0 to 2π. -/
def cosSinOf (a : Nat) : Int × Int :=
  let h := angPi / 2
  let q := a / h
  let r := a % h
  let s := sinQuarter r
  let c := sinQuarter (h - r)
  match q % 4 with
  | 0 => (c, s)
  | 1 => (-s, c)
  | 2 => (-c, -s)
  | _ => (s, -c)

/-! ## Reading a segment (*Path segment record*) -/

/-- Address of record `idx` of the group's ring. -/
def Dev.segAddr (d : Dev) (g idx : Nat) : Nat :=
  dramCam + d.rdS (pgPgrp g) (adopted 0) PGRP.RBASE + 64 * (idx % 2 ^ d.rdS (pgPgrp g) (adopted 0) PGRP.RLOG)

/-- The radius vector of an arc at its start and at its end, from the centre. -/
def PathSeg.radius (s : PathSeg) : Int × Int := (-s.ci, -s.cj)
def PathSeg.radiusEnd (s : PathSeg) : Int × Int := (s.delta.getD s.first 0 - s.ci, s.delta.getD s.second 0 - s.cj)

def PathSeg.isArc (s : PathSeg) : Bool := s.kind == 1 || s.kind == 2

/-- Squared radius of an arc, in counts². -/
def PathSeg.rr (s : PathSeg) : Nat := (s.ci * s.ci + s.cj * s.cj).toNat

/-- The swept angle of an arc: a full circle when it ends where it starts. -/
def sweptAngle (kind : Nat) (x0 y0 x1 y1 : Int) : Nat :=
  let a0 := angleOf x0 y0
  let a1 := angleOf x1 y1
  let full := 2 * angPi
  let d := if kind = 2 then (a1 + full - a0) % full else (a0 + full - a1) % full
  if d = 0 then full else d

/-- Is member `i` a plane member of an arc? -/
def PathSeg.inPlane (s : PathSeg) (i : Nat) : Bool := s.isArc && (i == s.first || i == s.second)

/-- Length of the arc part, R × swept angle, at the scale 2^96. -/
def PathSeg.arcLen (s : PathSeg) : Nat := if s.isArc then Nat.sqrt (s.rr * angOne * angOne) * s.angle / angOne else 0

/-- Length (R285): the exact root of the sum of squares, in units of 2^−32 count. -/
def PathSeg.length (s : PathSeg) : Nat :=
  if s.kind = 3 then 0
  else
    let line := (s.delta.zipIdx).foldl (fun (acc : Nat) (x : Int × Nat) => if s.inPlane x.2 then acc else acc + x.1.natAbs * x.1.natAbs) 0
    Nat.sqrt (line * angOne * angOne + s.arcLen * s.arcLen) / 2 ^ 64

/-- The distance of the end of an arc from its circle is more than 1 count (R288). -/
def PathSeg.offCircle (s : PathSeg) : Bool :=
  let (ex, ey) := s.radiusEnd
  let a : Int := ex * ex + ey * ey
  let b : Int := s.rr
  decide (0 < a + b - 1) && decide (4 * a * b < (a + b - 1) * (a + b - 1))

/-- Unit tangent of member `i`, at the start or the end, in units of 2^−32. -/
def PathSeg.tangent (s : PathSeg) (atEnd : Bool) (i : Nat) : Int :=
  if s.len = 0 then 0
  else if s.inPlane i then
    let (x, y) := if atEnd then s.radiusEnd else s.radius
    let (tx, ty) := if s.kind = 2 then (-y, x) else (y, -x)
    let t := if i = s.first then tx else ty
    -- t over the length of its vector, times arc length / length.
    divTrunc (t * (s.arcLen : Int) * ((2 ^ 32 : Nat) : Int)) ((Nat.sqrt ((x * x + y * y).toNat * 2 ^ 128) * s.len : Nat) : Int)
  else divTrunc (s.delta.getD i 0 * ((2 ^ 64 : Nat) : Int)) s.len

/-- A group limit in U8.24, 0 acting as 1 LSB (R638). -/
def Dev.grpLims (d : Dev) (g : Nat) : Lims :=
  let p := fun f => d.rdS (pgPgrp g) (adopted 0) f
  mkLims (limU8 (p PGRP.GAMAX)) (limU8 (p PGRP.GDMAX)) (p PGRP.GJMAX)

/-- Speed cap of a segment (R286). -/
def Dev.segCap (d : Dev) (g : Nat) (mem : List Nat) (s : PathSeg) : Int :=
  let feed : Int := s.feed * 65536
  let caps := (mem.zipIdx).filterMap fun (x : Nat × Nat) =>
    let vm := d.profVmax x.1
    if s.inPlane x.2 then some vm
    else
      let dd := (s.delta.getD x.2 0).natAbs
      if dd = 0 then none else some (divTrunc (vm * s.len) ((dd : Int) * ((2 ^ 32 : Nat) : Int)))
  let cent : List Int :=
    if s.isArc then [(Nat.sqrt ((limU8 (d.rdS (pgPgrp g) (adopted 0) PGRP.GAMAX)).toNat * Nat.sqrt (s.rr * 2 ^ 64)) : Nat)] else []
  (caps ++ cent).foldl min feed

/-- Junction speed between two segments (R286). -/
def Dev.junction (d : Dev) (g : Nat) (members : Nat) (a b : PathSeg) : Int :=
  if a.kind = 3 ∨ b.kind = 3 then 0
  else
    let diff := ((List.range members).map fun i => (b.tangent false i - a.tangent true i).natAbs).foldl max 0
    let ajmp : Int := (d.rdS (pgPgrp g) (adopted 0) PGRP.AJMP : Nat) * 65536
    let m := min a.cap b.cap
    if diff = 0 then m else min m (divTrunc (ajmp * ((2 ^ 32 : Nat) : Int)) diff)

/-- Read and plan one record (R285, R286, R288). -/
def Dev.readSeg (d : Dev) (g : Fin 8) (idx cycle : Nat) : PathSeg :=
  let x := d.grp g
  let a := d.segAddr g idx
  let s32 := fun o => sxt 32 (d.memLE (a + o) 4)
  let kind := (d.mem8 a).toNat
  let plane := (d.mem8 (a + 1)).toNat
  let s0 : PathSeg :=
    { idx := idx, kind := kind, first := plane % 8, second := plane / 16 % 8, feed := d.memLE (a + 4) 4, ci := s32 8,
      cj := s32 12, delta := (List.range x.mem.length).map fun i => s32 (16 + 4 * i), start := x.tail, len := 0, angle := 0, cap := 0,
      vj := 0, cycle := cycle, planned := false, bad := false }
  let (ex, ey) := s0.radiusEnd
  let s0 := if s0.isArc then { s0 with angle := sweptAngle kind s0.radius.1 s0.radius.2 ex ey } else s0
  let s0 := { s0 with len := s0.length }
  let bad := decide (3 < kind) || (s0.isArc && (s0.offCircle || s0.rr == 0)) || (kind != 3 && s0.len == 0)
  let s0 := { s0 with cap := d.segCap g x.mem s0, bad := bad }
  match x.segs.getLast? with
  | some p => { s0 with vj := d.junction g x.mem.length p s0 }
  | none => s0

/-- Show the segments of a group in its page. -/
def showGroup (g : Fin 8) (d : Dev) : Dev :=
  let x := d.grp g
  let pg := pgPgrp g
  -- the one in execution, or finished, is not ahead
  let ahead := match x.segs with
    | s :: r => if s.planned ∧ s.cycle ≤ d.cyc then r else s :: r
    | [] => []
  let d := d.wr pg PGRP.NPLAN (min 64 (ahead.filter fun s => s.planned).length)
  let d := d.wr pg PGRP.XIDX (match x.segs with | s :: _ => s.idx | [] => d.rd pg PGRP.RIDX)
  (d.wr64 pg 0 PGRP.SPOSLO.off (toBits 64 (rnd x.s 16))).wr pg PGRP.GVEL (satU 32 (rnd x.u 16))

/-- Accept one record: RIDX, the end positions, and an instance of the group's planning flow (R285). -/
def acceptSeg (g : Fin 8) (k : Nat) (d : Dev) : Dev :=
  let pg := pgPgrp g
  let idx := d.rd pg PGRP.RIDX
  if idx = d.rd pg PGRP.WIDX ∨ 64 ≤ (d.grp g).segs.length ∨ (d.grp g).segs.any (fun s => s.bad) ∨ 16 ≤ d.tsu.occ g then d
  else
    let s := d.readSeg g idx (k + 2)
    let ends := (s.start.zip s.delta).map fun (p : Int × Int) => p.1 + p.2 * 65536
    let d := d.mapGrp g fun x => { x with segs := x.segs ++ [s], tail := if s.bad then x.tail else ends }
    trigTask raise (256 + g) (d.wr pg PGRP.RIDX (idx + 1))

/-! ## Motion along the path (R287, R291, R292) -/

/-- Segments that may be executed in cycle `k`: planned, of an earlier cycle, up to the first error. A standby takes every segment
as planned unless the deciding head says otherwise (R289). -/
def Group.ready (x : Group) (standby : Bool) (k : Nat) : List PathSeg :=
  x.segs.takeWhile fun s => (s.planned || standby) && !s.bad && decide (s.cycle ≤ k)

/-- Distances from the present point to the end of each segment, with the speed allowed there: 0 at the last one. -/
def junctions : Int → List PathSeg → List (Int × Int)
  | _, [] => []
  | acc, [s] => [(acc + s.len, 0)]
  | acc, s :: t :: r => (acc + s.len, t.vj) :: junctions (acc + s.len) (t :: r)

/-- A candidate speed with the distance to slow down to a junction does not exceed the distance to it (R287). -/
def keepsJunctions (l : Lims) (u c : Int) (js : List (Int × Int)) : Bool :=
  js.all fun (j : Int × Int) => decide (u + stopDist l u c j.2 ≤ j.1)

/-- One cycle along the path; `brake` asks for rest. -/
def pathStep (l : Lims) (brake : Bool) (segs : List PathSeg) (s u c : Int) : Int × Int × Int :=
  match segs with
  | [] => (s, 0, 0)
  | g :: _ =>
    let js := junctions (-s) segs
    let r := (js.getLast?.map Prod.fst).getD 0
    let vt := g.cap
    let (u1, c1) := profStepUC l u c (profJerk l u c vt)
    let (u1, c1) := if acrossI u1 u vt then (vt, 0) else (u1, c1)
    if !brake && keepsJunctions l u1 c1 js then (s + u1, u1, c1)
    else
      let (u1, c1) := profStepUC l u c (profJerk l u c 0)
      if r - u1 ≤ 0 then (s + r, 0, 0)
      else if u1 ≤ 0 then (s, 0, 0)
      else (s + u1, u1, c1)

/-- Leave the segments whose end is passed; a dwell is left after its cycles. -/
def dropSegs : Nat → Int → Nat → List PathSeg → Int × Nat × List PathSeg
  | 0, s, dw, l => (s, dw, l)
  | _ + 1, s, dw, [] => (s, dw, [])
  | fuel + 1, s, dw, g :: r =>
    if g.kind = 3 then (if g.feed ≤ dw then dropSegs fuel 0 0 r else (s, dw, g :: r))
    else if (g.len : Int) ≤ s then
      (match r with
        | [] => (s, dw, [g])
        | _ => dropSegs fuel (s - g.len) 0 r)
    else (s, dw, g :: r)

/-- Position of member `i` at `s` within a segment (R287). -/
def PathSeg.pos (g : PathSeg) (s : Int) (i : Nat) : Int :=
  let st := g.start.getD i 0
  let dd := g.delta.getD i 0
  let rr (a b : Int) : Int := if b = 0 then 0 else (2 * a + b) / (2 * b)
  if (g.len : Int) ≤ s then st + dd * 65536
  else if g.inPlane i then
    let ang := g.angle * s.toNat / max 1 g.len
    let (c, sn) := cosSinOf ang
    let sn := if g.kind = 2 then sn else -sn
    let (x, y) := g.radius
    let v := if i = g.first then x * c - y * sn else x * sn + y * c
    let org := if i = g.first then g.ci else g.cj
    st + org * 65536 + rnd v 80
  else st + rr (dd * 65536 * s) g.len

/-- Stage the members of a group at its point of the path. -/
def stageMembers (g : Fin 8) (d : Dev) : Dev :=
  let x := d.grp g
  match x.segs with
  | [] => d
  | s :: _ => (x.mem.zipIdx).foldl (fun (d : Dev) (mi : Nat × Nat) =>
      if 256 ≤ mi.1 then d
      else
        let q := s.pos x.s mi.2
        d.mapProf (axisNo mi.1) fun p => { p with p := q * 65536, v := q * 65536 - p.p, a := 0, staged := q }) d

/-- The group ends: IDLE, DONE (R290, R291); SUP of the cycle's tasks takes its members to READY. -/
def groupIdle (g : Fin 8) (d : Dev) : Dev :=
  let x := d.grp g
  let pg := pgPgrp g
  let d := (x.mem.filter fun m => m < 256).foldl (fun (d : Dev) (m : Nat) =>
    let n := axisNo m
    match (d.prof n).run with
    | .group h =>
      if h = g.val then profDo n (fun p => { p with run := .none, v := 0, a := 0 }) d else d
    | _ => d) d
  let d := d.setGrp g Group.reset
  let d := (d.wr pg PGRP.RIDX (d.rd pg PGRP.WIDX)).wr pg PGRP.GSTATE 0
  showGroup g (raise pg 0 0 d)

/-- This head is STANDBY and takes the other head's decisions (R289). -/
def Dev.takesPlate (d : Dev) : Bool := d.rd pgRED RED.ROLE == 2

/-- PLATE counts: the segment of that place in the list is late, and is needed one cycle later. -/
def plateAt (g : Fin 8) (i k : Nat) (d : Dev) : Dev :=
  let d := d.mapGrp g fun x => { x with segs := (x.segs.zipIdx).map fun (s : PathSeg × Nat) =>
    if s.2 = i then { s.1 with cycle := k + 1 } else s.1 }
  raise (pgPgrp g) 3 3 (d.inc (pgPgrp g) PGRP.PLATE)

/-- A segment that must execute now and is not planned counts PLATE (R289); the one before it is the last planned one. -/
def Dev.plateDue (d : Dev) (g : Fin 8) (k : Nat) : Option Nat :=
  if d.takesPlate then none else (d.grp g).segs.findIdx? fun s => decide (s.cycle ≤ k) && !s.planned
def groupPlate (g : Fin 8) (k : Nat) (d : Dev) : Dev :=
  match d.plateDue g k with
  | some i => plateAt g i k d
  | none => d

/-- A standby notes what the cycle begins with, so that a decision for it can still be followed (R289). -/
def noteGroup (g : Fin 8) (k : Nat) (d : Dev) : Dev :=
  if !d.takesPlate then d
  else
    let x := d.grp g
    let w : GroupWas :=
      { cycle := k, segs := x.segs, s := x.s, u := x.u, c := x.c, dwell := x.dwell, starved := x.starved,
        points := x.mem.map fun m => if m < 256 then (d.prof (axisNo m)).p else 0 }
    d.setGrp g { x with was := some w }

/-- Back to what a cycle began with; what was accepted and planned since stays. -/
def restoreGroup (g : Fin 8) (w : GroupWas) (d : Dev) : Dev :=
  let d := d.mapGrp g fun x =>
    let old := w.segs.map fun s => { s with planned := s.planned || x.segs.any fun t => t.idx == s.idx && t.planned }
    { x with
      segs := old ++ x.segs.filter (fun s => decide (w.cycle + 2 ≤ s.cycle)), s := w.s, u := w.u, c := w.c, dwell := w.dwell,
      starved := w.starved, was := none }
  ((d.grp g).mem.zip w.points).foldl (fun (d : Dev) (m : Nat × Int) =>
    if m.1 < 256 then d.mapProf (axisNo m.1) fun p => { p with p := m.2 } else d) d

/-- The plan in hand is at its end: a segment error ends the group, a ring read to its end starves it where no planned
segment follows (R288, R292). -/
def groupEnd (g : Fin 8) (k : Nat) (d : Dev) : Dev :=
  let x := d.grp g
  let pg := pgPgrp g
  let rest := (x.segs.drop (x.ready d.takesPlate k).length).head?
  let starve := fun (d : Dev) =>
    if d.rd pg PGRP.WIDX = d.rd pg PGRP.RIDX ∧ !x.starved then
      raise pg 1 1 ((d.mapGrp g fun x => { x with starved := true }).wr pg PGRP.STARVED 1)
    else d
  match rest with
  | some s =>
    if s.bad ∧ (s.planned ∨ d.takesPlate) ∧ s.cycle ≤ k then groupIdle g (raise pg 2 2 (d.wr pg PGRP.GFAULT 1))
    else if !s.planned then starve d
    else d
  | none => starve d

/-- One cycle of a running group. -/
def groupMove (g : Fin 8) (k : Nat) (d : Dev) : Dev :=
  let x := d.grp g
  let pg := pgPgrp g
  let ready := x.ready d.takesPlate k
  let brake := x.stopping || d.rd pg PGRP.GSTATE != 1
  let l := d.grpLims g
  let inDwell : Bool := match ready with | s :: _ => s.kind == 3 | [] => false
  let (s, u, c) := if inDwell then (0, 0, 0) else pathStep l brake ready x.s x.u x.c
  let dw := if inDwell then x.dwell + 1 else x.dwell
  let (s', dw', segs') := dropSegs 64 s dw ready
  let segs := segs' ++ x.segs.drop ready.length
  let d := d.setGrp g { x with s := s', u := u, c := c, dwell := dw', segs := segs }
  let d := stageMembers g d
  let atRest := u == 0 && c == 0
  if x.stopping && atRest then groupIdle g d
  else
    let done : Bool := match segs' with | [] => true | [g'] => decide ((g'.len : Int) ≤ s') && g'.kind != 3 | _ => false
    if done && atRest && d.rd pg PGRP.GSTATE == 1 then groupEnd g k d else d

/-- A finished last segment gives way once a further one is ready. -/
def groupTrim (g : Fin 8) (k : Nat) (d : Dev) : Dev :=
  let x := d.grp g
  match x.ready d.takesPlate k with
  | a :: b :: r =>
    if (a.len : Int) ≤ x.s ∧ a.kind ≠ 3 then
      let rest := x.segs.drop (2 + r.length)
      let d := d.setGrp g { x with segs := b :: r ++ rest, s := x.s - a.len, dwell := 0, starved := false }
      d.wr (pgPgrp g) PGRP.STARVED 0
    else d
  | [_] => if x.starved ∧ x.s = 0 then (d.mapGrp g fun x => { x with starved := false }).wr (pgPgrp g) PGRP.STARVED 0 else d
  | [] => d

/-- One cycle of a path group at the tick of cycle `k` (R285, R287). -/
def groupStep (k : Nat) (g : Fin 8) (d : Dev) : Dev :=
  if d.rd (pgPgrp g) PGRP.GSTATE = 0 then d
  else
    let d := noteGroup g k (groupPlate g k d)
    let d := groupMove g k (groupTrim g k d)
    let d := if d.rd (pgPgrp g) PGRP.GSTATE = 0 ∨ (d.grp g).stopping then d else (List.range 8).foldl (fun d _ => acceptSeg g k d) d
    showGroup g d

/-- A snap of a member moves its path with it (R221). -/
def groupShift (n : Fin 256) (c : Int) (d : Dev) : Dev :=
  match (d.prof n).run with
  | .group g =>
    d.mapGrp (groupNo g) fun x =>
      let i := x.mem.idxOf n.val
      let sh := fun (l : List Int) => (l.zipIdx).map fun (v : Int × Nat) => if v.2 = i then v.1 - c else v.1
      { x with tail := sh x.tail, segs := x.segs.map fun s => { s with start := sh s.start } }
  | _ => d

/-- PLATE of a path group on a standby, decided for cycle `k` (R289, R500): the segment is late here too, and where the tick of
that cycle is behind, the group moves again from where the cycle began (notes/assumptions/105.md). -/
def followPlate (g : Fin 8) (k : Nat) (d : Dev) : Dev :=
  let back : Option GroupWas := match (d.grp g).was with
    | some w => if w.cycle = k then some w else none
    | none => none
  let d := match back with
    | some w => restoreGroup g w d
    | none => d
  let segs := (d.grp g).segs
  let late := (segs.findIdx? fun s => decide (s.cycle ≤ k) && !s.planned).getD ((segs.findIdx? fun s => s.cycle == k).getD segs.length)
  let d := plateAt g late k d
  if back.isSome then showGroup g (groupMove g k (groupTrim g k d)) else d

/-- A HALT or DISABLE on a member acts as GABORT on the group (R291). -/
def groupAbort (g : Fin 8) (d : Dev) : Dev :=
  (d.mapGrp g fun x => { x with stopping := true }).wr (pgPgrp g) PGRP.GSTATE 3

/-- A member leaves the group to follow its own command. -/
def groupLeave (n : Fin 256) (d : Dev) : Dev :=
  match (d.prof n).run with
  | .group g =>
    groupAbort (groupNo g) (d.mapGrp (groupNo g) fun x => { x with mem := x.mem.map (fun m => if m = n.val then 256 else m) })
  | _ => d

/-- A limit switch in the direction of a member stops that member (R277); to its group this is as GABORT. -/
def memberLimit (n : Fin 256) (d : Dev) : Dev :=
  let p := d.prof n
  match p.run with
  | .group _ =>
    if d.profPar n PRF.LIMEN = 1 ∧ p.limit p.v then
      let d := axEvent n 11 (stopCycle n (profStop n true (groupLeave n d)))
      showProf n (d.mapProf n fun p => { p with staged := rnd p.p 16 })
    else d
  | _ => d

/-! ## Commands (R290, R291, R302) -/

/-- Members that GCFG and GMEM0/1 name. -/
def Dev.groupMembers (d : Dev) (g : Nat) : List Nat :=
  let pg := pgPgrp g
  let m := d.rd pg PGRP.GMEM0 + d.rd pg PGRP.GMEM1 * 2 ^ 32
  (List.range (min 8 (d.rd pg PGRP.NMEM))).map fun i => bitsOf m (8 * i) 8

/-- Registers adopted at GSTART, and those adopted live (R301). -/
def groupStartOffs : List Nat := words 0x040 0x04C
def groupLiveOffs : List Nat := words 0x058 0x064

/-- A PGRP command as evaluated (R302): its result, and the device. -/
def evalPgrp (g : Fin 8) (code : Nat) (d : Dev) : Nat × Dev :=
  let pg := pgPgrp g
  let st := d.rd pg PGRP.GSTATE
  match code with
  | 0x01 =>
    let mem := d.groupMembers g
    let okM := mem.all fun m =>
      d.par m AXP.SPSRC == 0 && d.axState m == axREADY && !(d.prof (axisNo m)).busy && (d.prof (axisNo m)).queue.isEmpty
    if st = 0 ∧ mem ≠ [] ∧ d.rd pg PGRP.NMEM ≤ 8 ∧ mem.Nodup ∧ okM then
      let d := adoptRegs pg 0 groupStartOffs d
      let tail := mem.map fun m => (d.ax (axisNo m)).pSet
      let d := d.setGrp g { Group.reset with mem := mem, tail := tail }
      let d := ((d.wr pg PGRP.GFAULT 0).wr pg PGRP.STARVED 0).wr pg PGRP.GSTATE 1
      let d := mem.foldl (fun (d : Dev) (m : Nat) =>
        setAxState (axisNo m) axRUN (profDo (axisNo m) (fun p => { p with run := .group g.val }) d)) d
      (rOK, showGroup g d)
    else (rSTATE, d)
  | 0x02 => if st = 1 then (rOK, d.wr pg PGRP.GSTATE 2) else (rSTATE, d)
  | 0x03 => if st = 2 then (rOK, d.wr pg PGRP.GSTATE 1) else (rSTATE, d)
  | 0x04 => if st = 1 ∨ st = 2 then (rOK, groupAbort g d) else (rSTATE, d)
  | 0x05 => (rOK, d.wr pg PGRP.PLATE 0)
  | _ => (rCODE, d)

end Sys2Proof.Machine
end

