-- ==== Sys2Proof/Machine/Hook.lean ====
section
/-! DEFINITION. Hook code inside an axis task (R201 to R203, R335, R336, R342): the charge of an instruction, the run of a
hook against its budget, the record of a trap. -/
namespace Sys2Proof.Machine

/-! ## What an instruction uses (*Pipeline interlocks*) -/

/-- D registers a move names. -/
def moveUses (m : MoveField) : List Nat :=
  match m.mop.toNat with
  | 1 => moveLoads m
  | 2 => if m.sz = 2 then [m.reg.toNat, m.reg.toNat + 1] else [m.reg.toNat]
  | _ => []

/-- Accumulator a move stores. -/
def moveAcc (m : MoveField) : List Nat := if m.mop = 3 then [m.reg.toNat % 4] else []

/-- D registers an instruction word uses, as source or destination. -/
def dUses (w : Nat) : List Nat :=
  let p := fmtP w
  let r := fmtR w
  let c := fmtC w
  let m := fmtM w
  let op2 : List Nat := if r.ims then [] else [r.db.toNat]
  match w / 2 ^ 58 with
  | 0x00 | 0x05 | 0x06 | 0x07 => moveUses p.xmv ++ moveUses p.ymv
  | 0x01 | 0x02 | 0x03 => [p.sa.toNat, p.sb.toNat] ++ moveUses p.xmv ++ moveUses p.ymv
  | 0x04 => p.sa.toNat :: moveUses p.xmv
  | 0x15 | 0x16 | 0x1B => [r.da.toNat, r.dd.toNat]
  | 0x17 => r.dd.toNat :: op2
  | 0x18 => r.da.toNat :: op2
  | 0x20 => [r.da.toNat]
  | 0x21 | 0x23 | 0x2A | 0x2B | 0x2C | 0x2F => [r.dd.toNat]
  | 0x26 => [r.da.toNat, r.db.toNat]
  | 0x27 => [r.dd.toNat, r.dd.toNat + 1]
  | 0x28 => [r.da.toNat, r.dd.toNat, r.dd.toNat + 1]
  | 0x29 => [r.da.toNat, r.db.toNat, r.dd.toNat]
  | 0x2D => op2
  | 0x2E => if r.mod then [r.dd.toNat] else op2
  | 0x33 | 0x37 => if c.csrc then [c.dc.toNat] else []
  | 0x3C | 0x3D => if m.sz = 2 then [m.dd.toNat, m.dd.toNat + 1] else [m.dd.toNat]
  | o => if 0x10 ≤ o ∧ o ≤ 0x1C then [r.da.toNat, r.dd.toNat] ++ op2 else []

/-- Accumulators whose value an instruction needs one clock late after they are written. -/
def accNeeds (w : Nat) : List Nat :=
  let p := fmtP w
  let r := fmtR w
  match w / 2 ^ 58 with
  | 0x05 | 0x06 => p.acs.toNat :: moveAcc p.xmv ++ moveAcc p.ymv
  | 0x00 | 0x01 | 0x02 | 0x03 | 0x07 => moveAcc p.xmv ++ moveAcc p.ymv
  | 0x04 => moveAcc p.xmv
  | 0x21 | 0x22 | 0x23 | 0x24 | 0x25 | 0x27 => [r.ac.toNat]
  | _ => []

/-- The accumulator an instruction writes. -/
def accWrites (w : Nat) : Option Nat :=
  match w / 2 ^ 58 with
  | 0x01 | 0x02 | 0x03 | 0x04 | 0x05 | 0x06 | 0x07 => some (fmtP w).acd.toNat
  | 0x20 | 0x22 | 0x24 | 0x25 | 0x26 => some (fmtR w).ac.toNat
  | _ => none

/-- The charge so far, when each D register with a result in flight is ready, and the accumulator the previous instruction
wrote (R202). -/
structure Charge where
  t : Nat
  flight : List (Nat × Nat)
  acc : Option Nat
deriving DecidableEq, Repr

/-- Cycles of an instruction (*Instruction set*), with the taken figure for a taken branch. -/
def cyclesOf (w : Nat) (taken : Bool) : Nat :=
  let op := w / 2 ^ 58
  if op = 0x33 then 2 else if 0x30 ≤ op ∧ op ≤ 0x32 ∧ taken then 2 else 1

/-- Charge one instruction: its stalls, its cycles, and what it leaves in flight; `shared` says that it is a load from shared
SRAM. -/
def Charge.add (w : Nat) (taken shared : Bool) (c : Charge) : Charge :=
  let stallAcc := match c.acc with
    | some a => b2n ((accNeeds w).contains a)
    | none => 0
  let uses := dUses w
  let start := (c.flight.filter fun (f : Nat × Nat) => uses.contains f.1).foldl (fun (m : Nat) (f : Nat × Nat) => max m f.2) (c.t + stallAcc)
  let op := w / 2 ^ 58
  let dd := (fmtR w).dd.toNat
  let new : List (Nat × Nat) :=
    if op = 0x3C ∧ shared then (dUses w).map fun r => (r, start + 24)
    else if op = 0x28 then [(dd, start + 6), (dd + 1, start + 6)]
    else []
  ⟨start + cyclesOf w taken, new ++ c.flight.filter fun (f : Nat × Nat) => decide (start < f.2) && !uses.contains f.1, accWrites w⟩

/-! ## Traps (R342) -/

/-- Record a trap of a pair: code, PC, task, axis table (CTRAP, CTTID). -/
def recordTrap (p code pc task axn : Nat) (d : Dev) : Dev :=
  let pg := pgCep p
  let d := ((d.wr pg CEP.TCODE code).wr pg CEP.TPC pc).inc pg CEP.TCNT
  (d.wr pg CEP.TTID task).wr pg CEP.TAXN axn

/-! ## A hook -/

/-- How a hook ended. -/
inductive HookEnd where
  | done
  | budget
  | trap (code : Nat)
deriving DecidableEq, Repr

/-- What a hook leaves: the engine, the device, its charge, its events, its instructions, how it ended. -/
structure HookRun where
  e : Eng
  d : Dev
  charge : Charge
  posts : List (Nat × Nat)
  /-- How often NUMERIC is posted (R317). -/
  numeric : Nat
  issued : Nat
  how : HookEnd
deriving DecidableEq, Repr

/-- Run hook code from its PC until DONE, a trap, or a charge at BUDGET (R203). The charge is compared before an instruction and
its stalls; an instruction whose own stall carries the charge to BUDGET still issues (DESIGN CHOICE, notes/assumptions/107.md). -/
def hookLoop (env : Env) (budget : Nat) : Nat → HookRun → HookRun
  | 0, r => { r with how := .budget }
  | fuel + 1, r =>
    if budget ≤ r.charge.t then { r with how := .budget }
    else
      let w := r.d.progWord env.pair r.e.pc
      match stepPc env r.e r.d with
      | .error code => { r with how := .trap code }
      | .ok q =>
        let taken : Bool := match q.ctl with | .jump _ => true | _ => false
        let m := fmtM w
        let shared := w / 2 ^ 58 == 0x3C && decide (0x1000_0000 ≤ addrM r.e m)
        let r' : HookRun :=
          { e := q.e, d := q.d, charge := r.charge.add w taken shared,
            posts := match q.ctl with | .post n a => (224 + n, a) :: r.posts | _ => r.posts,
            numeric := r.numeric + b2n q.numeric, issued := r.issued + 1, how := .done }
        match q.ctl with
        | .done => r'
        | _ => hookLoop env budget fuel r'

/-- The engine at the entry of a hook (R335); A4 as R330 gives it. -/
def hookEntry (n kcyc entry : Nat) : Eng :=
  { Eng.zero with
    D := (Eng.zero.D.set 0 (BitVec.ofNat 32 n)).set 1 (BitVec.ofNat 32 kcyc),
    A := ((Eng.zero.A.set 0 0x0000_FF00#32).set 1 0x0000_FB00#32).set 4 0x0001_8000#32,
    SR := BitVec.ofNat 32 (2 ^ srASAT), KCYC := BitVec.ofNat 32 kcyc, TID := BitVec.ofNat 32 n,
    AXN := BitVec.ofNat 32 n, pc := BitVec.ofNat 16 entry }

/-- Run a hook on pair `p` for table `n` in cycle `kcyc`. -/
def runHook (p n kcyc entry budget : Nat) (d : Dev) : HookRun :=
  hookLoop ⟨p, .hook, false, false⟩ budget 4096
    { e := hookEntry n kcyc entry, d := d, charge := ⟨0, [], none⟩, posts := [], numeric := 0, issued := 0, how := .done }

end Sys2Proof.Machine
end

