-- ==== Sys2Proof/Machine/Kernel.lean ====
section
/-! DEFINITION. The axis kernel (spec/05): the arithmetic of its stages, and the stages from IN to MOD. Stage SUP and the
commit stand in Axis.lean.

A task works on a `Task`: the device (for hook code), the axis state under way, and the values one stage hands to the next.
Per-unit values are `Int` in LSB of Q1.31, positions in LSB of Q47.16, integrator states in LSB of Q32.32. -/
namespace Sys2Proof.Machine

/-! ## Arithmetic (R168 to R171, R186, R187) -/

/-- Product of a per-unit value and a scaled gain, per unit. -/
def puMul (x : Int) (g : Nat) : Int := satS 32 (rnd (sgMul x g) 57)

/-- `a / b` rounded to the nearest integer, halves toward +∞, for `b > 0`. -/
def rndDiv (a b : Int) : Int := (2 * a + b) / (2 * b)

/-- Limit to −L to +L. -/
def sat2 (x l : Int) : Int := clampI (-l) l x

/-- A sum held in the 72-bit accumulator (R171), in units of 2^−88: the sum, and whether it left the range of ±2^9. -/
def accSat (x : Int) : Int × Bool := (satS 98 x, decide (satS 98 x ≠ x))

/-- The output of an integrator: s × ki, per unit. -/
def intOut (s : Int) (ki : Nat) : Int := satS 32 (rnd (sgMul s ki) 58)

/-- The integrator state whose output is `i` (toward zero); 0 where the gain is 0. -/
def intOf (i : Int) (ki : Nat) : Int :=
  let den := sgMul 1 ki
  if den = 0 then 0 else satS 64 (divTrunc (i * ((2 ^ 58 : Nat) : Int)) den)

/-- What a PI stage gives: its output, its integrator, its anti-windup flag. -/
structure PiOut where
  u : Int
  s : Int
  aw : Bool
deriving DecidableEq, Repr

/-- The PI stage (R186), on an error that is a per-unit value (R172). -/
def piStage (s e : Int) (kp ki : Nat) (lim : Int) : PiOut :=
  let e := satS 32 e
  let v := puMul e kp + intOut s ki
  let u := sat2 v lim
  if lim ≤ |v| ∧ sgnI e = sgnI v then ⟨u, s, true⟩
  else
    let s := satS 64 (s + 2 * e)
    let i := intOut s ki
    ⟨u, if lim < |i| then intOf (sgnI s * lim) ki else s, false⟩

/-- A biquad (R187): coefficients B0, B1, B2, A1, A2, one sample. -/
def biquadStep (b0 b1 b2 a1 a2 : Int) (q : Biquad) (x : Int) : Int × Biquad :=
  let y := satS 32 (rnd (b0 * x + b1 * q.x1 + b2 * q.x2 - a1 * q.y1 - a2 * q.y2) 30)
  (y, ⟨x, q.x1, y, q.y1⟩)

/-- 1/√3 and √3/2 in Q1.31 (R190, R193). -/
def k1Q31 : Int := 1239850262
def sin60Q31 : Int := 1859775393

/-! ## What a task works on -/

/-- The index registers as stage IN leaves them, to be written at the commit (R167, R221): IDXSHF, IDXDEV, IDXCNT.DEV and SEEN. -/
structure IndexRegs where
  shf : Nat
  dev : Nat
  devs : Nat
  seen : Nat

def Dev.indexRegs (d : Dev) (pg : Nat) : IndexRegs :=
  ⟨d.rd pg AXP.IDXSHF, d.rd pg AXP.IDXDEV, d.rd pg AXP.DEV, d.rd pg AXP.SEEN⟩

def IndexRegs.write (pg : Nat) (x : IndexRegs) (d : Dev) : Dev :=
  (((d.wr pg AXP.IDXSHF x.shf).wr pg AXP.IDXDEV x.dev).wr pg AXP.DEV x.devs).wr pg AXP.SEEN x.seen

structure Task where
  n : Fin 256
  k : Nat
  d : Dev
  x : AxDyn
  /-- The state in which the stages run: after the commands of the task. -/
  st : Nat
  /-- The task accepted a HALT or DISABLE: its source still feeds it (R271). -/
  fresh : Bool
  /-- Observer braking runs in this task (R219), or must moor at once. -/
  brake : Bool
  moorNow : Bool
  /-- CNT.STALEC, CNT.FROZC and the index registers, as the commit will write them (R167). -/
  staleC : Nat
  frozC : Nat
  index : IndexRegs
  /-- Faults detected so far. -/
  faults : List Nat
  /-- An accumulator saturated (R171). -/
  aov : Bool
  /-- Largest charge of a hook; a hook ran over its budget or trapped. -/
  hkMax : Nat
  posts : List (Nat × Nat)
  /-- p_set, iq_ref and iq of cycle k − 1. -/
  pSet0 : Int
  iqErr : Int
  /-- What an index snap of this task took off the positions (R221). -/
  snapC : Int
  /-- PL ran: FERR is of this cycle. -/
  plRan : Bool
  ePu : Int
  vPl : Int
  iFF : Int
  cplV : Int
  cplI : Int
  cplQ : Int
  /-- v_ref before the Season term, and the Season term in per unit; whether the SEA stage ran. -/
  vRef0 : Int
  sea : Int
  seaRan : Bool
  /-- iq_ref of the host stream (VLEN = 0), IDREF in force. -/
  torque : Int
  idref : Int
  /-- The angle of CL and MOD, with its step. -/
  ang : Nat
  step : Int
  awV : Bool
  awD : Bool
  awQ : Bool

def Task.fault (c : Nat) (t : Task) : Task := { t with faults := t.faults ++ [c] }
def Task.faultIf (b : Bool) (c : Nat) (t : Task) : Task := if b then t.fault c else t
def Task.par (t : Task) (f : Fld) : Nat := t.d.par t.n f
def Task.parI (t : Task) (f : Fld) : Int := t.d.parI t.n f
def Task.coef (t : Task) (f : Fld) : Nat := t.d.coef t.n f
def Task.coefI (t : Task) (f : Fld) : Int := t.d.coefI t.n f
def Task.flag (t : Task) (f : Fld) : Bool := t.par f == 1
def Task.step? (t : Task) : Bool := (t.d.stepChannel t.n).isSome
/-- A quick stop runs in this task (R220). -/
def Task.quick (t : Task) : Bool := t.st == axFAULT && !t.brake
/-- STEPOL: an open-loop stepper axis (R293). -/
def Task.stepol (t : Task) : Bool := t.d.profPar t.n PRF.STEPOL == 1

/-- The AXP page of the task's table. -/
def Task.pg (t : Task) : Nat := pgAxp t.n

/-- A new task of table `n` in cycle `k`, in the device as the commands of the task left it. -/
def Task.start (n : Fin 256) (k : Nat) (d : Dev) : Task :=
  let x := d.ax n
  let pg := pgAxp n
  let stepAx := (d.stepChannel n).isSome
  { n := n, k := k, d := d, x := x, st := d.axState n,
    fresh := stepAx || (x.arrived && x.rcd.seq == k % 256),
    brake := d.on pg AXP.OBSC, moorNow := false, staleC := d.rd pg AXP.STALEC, frozC := d.rd pg AXP.FROZC, index := d.indexRegs pg,
    faults := x.pend, aov := false, hkMax := 0, posts := [],
    pSet0 := x.pSet, iqErr := satS 32 (x.iqRef - x.iQ), snapC := 0, plRan := false, ePu := 0, vPl := 0, iFF := 0, cplV := 0, cplI := 0,
    cplQ := 0, vRef0 := 0, sea := 0, seaRan := false, torque := 0, idref := d.parI n AXP.IDREF, ang := x.theta, step := 0,
    awV := d.on pg AXP.AWV, awD := d.on pg AXP.AWD, awQ := d.on pg AXP.AWQ }

/-! ## Stage IN (R173 to R178, R182, R218, R221, R403) -/

/-- The record IN takes: of the ring, with position, index and latch from the local channel (R174, R396), or that of a step
axis (R405). -/
def Dev.recordOf (d : Dev) (n : Fin 256) : AxRec :=
  let x := d.ax n
  if (d.stepChannel n).isSome then x.loc
  else if d.par n AXP.LFB = 1 then
    { x.rcd with pos := x.loc.pos, postof := 0, idxv := x.loc.idxv, latv := x.loc.latv, lpos := x.loc.lpos, ltim := x.loc.ltim,
                 fberr := x.loc.fberr, linef := x.loc.linef }
  else x.rcd

/-- Position of a fresh record (R173, R175). -/
def AxDyn.position (first inv : Bool) (r : AxRec) (period : Nat) (x : AxDyn) : AxDyn :=
  if first then
    let p := sxt 32 r.pos * 65536
    { x with posRaw := r.pos, pEnc := p, pofs := 0, pAct := p, dp := 0 }
  else
    let d0 := sxt 32 (toBits 32 ((r.pos : Int) - x.posRaw))
    let pEnc := satS 64 (x.pEnc + (if inv then -d0 else d0) * 65536)
    let pAct := satS 64 (pEnc + x.pofs - rndDiv (x.dp * r.postof) period)
    { x with posRaw := r.pos, pEnc := pEnc, dp := satS 64 (pAct - x.pAct), pAct := pAct }

/-- The prediction of a table without a fresh record (R177). -/
def AxDyn.predict (x : AxDyn) : AxDyn := { x with pAct := satS 64 (x.pAct + x.dp), dp := satS 64 (satS 64 (x.pAct + x.dp) - x.pAct) }

/-- p_act and v_act of a table in a cycle, from its record, with its own parameters (R182, R197). -/
def Dev.inOf (d : Dev) (n : Fin 256) (fresh : Bool) : AxDyn :=
  let x := d.ax n
  let x :=
    if fresh then x.position (!x.seen) (d.par n AXP.DIR == 1) (d.recordOf n) d.period
    else if x.seen then x.predict else { x with dp := 0 }
  { x with vAct := satS 32 (rnd (sgMul x.dp (d.par n AXP.VSC)) 42) }

/-- Currents and DC link of a fresh record (R173, R176). -/
def Task.currents (r : AxRec) (t : Task) : Task :=
  let cur := fun (raw ofs : Int) => satS 32 (rnd (sgMul (raw - ofs) (t.par AXP.ISC)) 41)
  let ia := cur r.ia (t.parI AXP.IOFSA)
  let ib := cur r.ib (t.parI AXP.IOFSB)
  let tol := t.par AXP.ISUMTOL
  let ic := if tol = 0 then satS 32 (-(ia + ib)) else cur r.ic (t.parI AXP.IOFSC)
  let udc := satS 32 (rnd (sgMul r.udc (t.par AXP.USC)) 42)
  { t with x := { t.x with ia := ia, ib := ib, ic := ic, udc := udc } }.faultIf
    (tol != 0 && decide ((tol * 2 ^ 15 : Nat) < |ia + ib + ic|)) 0x08

/-- The flags of a fresh record (*Axis faults*, 0x04 and 0x10). -/
def Task.recordFlags (r : AxRec) (t : Task) : Task :=
  (t.faultIf r.pstf 0x04).faultIf (r.fberr || r.linef) 0x10

/-- FB_FROZEN (R218), with v_ref and iq_ref of cycle k − 1 and whether POS equals the POS before. -/
def Task.frozen (same : Bool) (t : Task) : Task :=
  let fzn := t.par AXP.FZN
  let runs := t.st == axREADY || t.st == axRUN || t.st == axSTOPPING || t.quick
  if !runs then t
  else
    let drive := decide ((t.par AXP.FZV * 2 ^ 15 : Nat) ≤ |t.x.vRef|) && decide ((t.par AXP.FZI * 2 ^ 15 : Nat) ≤ |t.x.iqRef|)
    if same && drive then
      let c := addSat 8 t.frozC 1
      { t with frozC := c }.faultIf (fzn != 0 && decide (fzn ≤ c)) 0x11
    else { t with frozC := 0 }

/-- Missing firings of ring compares (R403): the record of cycle k reports what commands up to cycle k − 2 carried; a unit with a
later firing still waits for its confirmation. -/
def Task.compareReport (cmpf : Nat) (t : Task) : Task :=
  let due := t.x.fired.filter fun f => decide (f / 16 + 2 ≤ t.k)
  if due = [] then { t with x := { t.x with cmpf := cmpf } }
  else
    let got := (cmpf + 256 - t.x.cmpf) % 256
    let d := due.foldl (fun (d : Dev) (f : Nat) => d.wrS pgSGU (f % 16) SGU.PEND 0) t.d
    let d := (due.drop got).foldl (fun (d : Dev) (f : Nat) => raise pgSGU 1 (f % 16) (d.incS pgSGU (f % 16) SGU.RMISS)) d
    let left := t.x.fired.filter fun f => !decide (f / 16 + 2 ≤ t.k)
    let d := left.foldl (fun (d : Dev) (f : Nat) => d.wrS pgSGU (f % 16) SGU.PEND 1) d
    { t with d := d, x := { t.x with cmpf := cmpf, fired := left } }

/-- An index snap (R221): p_enc keeps, pofs, p_act and p_set shift by −c. -/
def Task.snap (c dev : Int) (t : Task) : Task :=
  let d := groupShift t.n c (t.d.mapProf t.n fun p => { p with p := p.p - c * 65536 })
  let q := fun (v : Int) => satS 64 (v - c)
  { t with
    d := d, index := { t.index with shf := toBits 32 (t.index.shf + dev) }, pSet0 := q t.pSet0, snapC := t.snapC + c,
    x := { t.x with pofs := q t.x.pofs, pAct := q t.x.pAct, pIn := q t.x.pIn, pSet := q t.x.pSet, qsP := t.x.qsP - c * 65536 } }

/-- The deviation of an index from its place (R221), with the shift `shf` of the snaps before. -/
def Dev.indexDev (d : Dev) (n : Nat) (r : AxRec) (shf : Nat) : Int :=
  let per : Int := d.par n AXP.IDXPER
  let x := sxt 32 (toBits 32 ((r.lpos : Int) - d.par n AXP.IDXREF - shf))
  x - per * rndDiv x per

/-- Is the deviation of an index beyond its tolerance? -/
def Dev.indexOff (d : Dev) (n : Nat) (dev : Int) : Bool := d.par n AXP.IDXPER != 0 && decide ((d.par n AXP.IDXTOL : Int) < |dev|)

/-- What a snap by a deviation takes off the positions. -/
def Dev.snapOf (d : Dev) (n : Nat) (dev : Int) : Int := if d.par n AXP.DIR = 1 then -(dev * 65536) else dev * 65536

/-- The index check (R221). -/
def Task.indexCheck (r : AxRec) (t : Task) : Task :=
  if !r.idxv then t
  else
    let t := { t with index := { t.index with seen := t.index.seen + 1 } }
    let dev := t.d.indexDev t.n r t.index.shf
    if !t.d.indexOff t.n dev then t
    else
      let i := { t.index with dev := toBits 32 dev, devs := addSat AXP.DEV.width t.index.devs 1 }
      let t := { t with d := axEvent t.n 6 t.d, index := i }
      match t.par AXP.IDXPOL with
      | 1 => t.snap (t.d.snapOf t.n dev) dev
      | 2 => t.fault 0x22
      | _ => t

/-- A record that is not fresh (R177, R178). -/
def Task.staleRecord (t : Task) : Task :=
  -- the channel of a local axis shows its errors whether a record came or not (*Axis faults*, 0x10)
  let t := t.faultIf (t.flag AXP.LFB && (t.x.loc.fberr || t.x.loc.linef)) 0x10
  if !t.x.seen then t
  else
    let run := t.x.staleRun + 1
    let lost := decide (max 1 (t.par AXP.STALEN) ≤ run)
    { t with
      x := { t.x with staleRun := run, fresh := false, recLost := lost || t.x.recLost }
      staleC := addSat AXP.STALEC.width t.staleC 1 }.faultIf (lost && !t.x.recLost) 0x09

/-- The class B reaction begins in the task that detects the fault (R219). -/
def Task.beginBrake (t : Task) : Task :=
  let classB := t.faults.any fun c => decide (0x10 ≤ c) && decide (c < 0x20)
  let classA := t.faults.any fun c => decide (c < 0x10)
  if classB && !classA && !t.brake && decide (2 ≤ t.st) then
    if 2 ≤ t.par AXP.MTYPE ∨ |t.x.wO| < (t.par AXP.OBMINV * 2 ^ 15 : Nat) ∨ t.x.diverged then { t with moorNow := true }
    else { t with brake := true, x := { t.x with brakeN := 0, wRef := t.x.wO } }
  else t

/-- The angle of the encoder (R173). -/
def Task.encoderAngle (t : Task) : Task :=
  let a := floorShr (t.x.pAct * t.par AXP.EMUL) (t.par AXP.ESH) + t.par AXP.EOFS
  { t with x := { t.x with theta := toBits 32 a } }

/-- Stage IN. A cycle without a fresh record goes on from the axis state as the last task committed it, which holds what a hook of
that task put into it (R177, R202; notes/assumptions/126.md). -/
def stageIn (t : Task) : Task :=
  let r := t.d.recordOf t.n
  let first := !t.x.seen
  let same := !first && r.pos == t.x.posRaw
  let y := t.d.inOf t.n t.fresh
  let x := { t.x with posRaw := y.posRaw, pEnc := y.pEnc, pofs := y.pofs, pAct := y.pAct, dp := y.dp, vAct := y.vAct,
                      pIn := y.pAct, vIn := y.vAct }
  let t := { t with x := x }.encoderAngle
  if t.fresh then
    let bad := r.fberr || r.linef || r.pstf
    let x := { t.x with seen := true, fresh := true, used := r, staleRun := 0, recLost := false, cseq := r.seq, badRec := bad,
                        modTh := if first then t.x.theta else t.x.modTh }
    let t := { t with x := x }.currents r
    let t := (t.recordFlags r).frozen same
    ((t.compareReport r.cmpf).indexCheck r).beginBrake
  else t.staleRecord.beginBrake

/-! ## Hooks (R201 to R203, R335, R336) -/

/-- The hook exchange block as bytes, from +0x00 to +0x4F. -/
def exchangeBlock (t : Task) (h : Nat) : List Byte :=
  let w := fun (on : Bool) (n : Nat) (v : Int) => bytesLE n (if on then toBits (8 * n) v else 0)
  w true 8 t.x.pAct ++ w true 4 t.x.vAct ++ w true 4 t.x.ia ++ w true 4 t.x.ib ++ w true 4 t.x.ic ++ w true 4 t.x.udc ++
  w true 4 t.x.theta ++
  w (decide (1 ≤ h)) 8 t.x.pSet ++ w (decide (1 ≤ h)) 4 t.x.vSet ++ w (decide (1 ≤ h)) 4 t.x.aSet ++
  w (decide (2 ≤ h)) 4 t.x.iqRef ++ w (decide (2 ≤ h)) 4 t.idref ++
  w (decide (3 ≤ h)) 4 t.x.vd ++ w (decide (3 ≤ h)) 4 t.x.vq ++
  w (decide (4 ≤ h)) 2 t.x.da ++ w (decide (4 ≤ h)) 2 t.x.db ++ w (decide (4 ≤ h)) 2 t.x.dc ++ w true 2 0 ++
  w true 4 t.n.val ++ w true 4 t.k

/-- Take back the variables of hook `h` from the exchange block at address `a`. -/
def takeBack (h a : Nat) (d : Dev) (t : Task) : Task :=
  let q := fun (o n : Nat) => sxt (8 * n) (d.memLE (a + o) n)
  match h with
  | 0 =>
    { t with x := { t.x with
        pAct := q 0x00 8, vAct := q 0x08 4, ia := q 0x0C 4, ib := q 0x10 4, ic := q 0x14 4, udc := q 0x18 4,
        theta := d.memLE (a + 0x1C) 4 } }
  | 1 => { t with x := { t.x with pSet := q 0x20 8, vSet := q 0x28 4, aSet := q 0x2C 4 } }
  | 2 => { t with x := { t.x with iqRef := q 0x30 4 }, idref := q 0x34 4 }
  | 3 => { t with x := { t.x with vd := q 0x38 4, vq := q 0x3C 4 } }
  | _ => { t with x := { t.x with da := d.memLE (a + 0x40) 2, db := d.memLE (a + 0x42) 2, dc := d.memLE (a + 0x44) 2 } }

/-- The pair a table is assigned to. -/
def Dev.pairOf (d : Dev) (n : Nat) : Nat := ((d.tsu.assign.find? fun (a : Nat × Nat) => a.1 == n).map Prod.snd).getD 0

/-- User area of a table (R28). -/
def userArea (n : Nat) : Nat := tableBase n + 0x400

/-- Instructions a hook issued count on its pair. -/
def countIssued (p m : Nat) (d : Dev) : Dev :=
  if h : p < 18 then d.setPair ⟨p, h⟩ { d.pair ⟨p, h⟩ with issued := (d.pair ⟨p, h⟩).issued + m } else d

/-- Hook point `h`: runs its hook when enabled, not in MOORED. -/
def hookPoint (h : Nat) (t : Task) : Task :=
  let f := fun (g : Fld) => t.par (g.nth 4 h)
  if f AXP.HEN = 0 ∨ t.st = axMOORED then t
  else
    let p := t.d.pairOf t.n
    let xa := xBase p
    let d := (t.d.copyMem (userArea t.n) (xa + 0xFB00) 0x400).clearMem (xa + 0xFF00) (xa + 0x1_0000)
    let r := runHook p t.n (t.k % 2 ^ 32) (f AXP.ENTRY) (f AXP.BUDGET) (d.setMemBytes (xa + 0xFF00) (exchangeBlock t h))
    let d := countIssued p r.issued (r.d.copyMem (xa + 0xFB00) (userArea t.n) 0x400)
    let d := (List.range r.numeric).foldl (fun (d : Dev) (_ : Nat) => raise (pgCep p) 2 p d) d
    let d := match r.how with
      | .trap c => recordTrap p c r.e.pc.toNat t.n t.n d
      | _ => d
    let d := d.wr (pgCep p) CEP.HOOKN h
    let t := { t with d := d, aov := t.aov || r.e.flag srAOV, hkMax := max t.hkMax r.charge.t, posts := t.posts ++ r.posts.reverse }
    match r.how with
    | .done => takeBack h (xa + 0xFF00) d t
    | _ => t.fault 0x23

/-! ## Masters (R182) -/

/-- Has the task of a table ended in this cycle? -/
def Dev.endedNow (d : Dev) (n : Nat) : Bool := d.tsu.ended.contains n

/-- Is the record of a table fresh in cycle `k`? -/
def Dev.freshIn (d : Dev) (n : Fin 256) (k : Nat) : Bool :=
  (d.stepChannel n).isSome || ((d.ax n).arrived && (d.ax n).rcd.seq == k % 256)

/-- What the index of a fresh record of table `n` will take off its p_act: a snap of IN (R221). -/
def Dev.snapNow (d : Dev) (n : Fin 256) (k : Nat) : Int :=
  let r := d.recordOf n
  let dev := d.indexDev n r (d.rd (pgAxp n) AXP.IDXSHF)
  if d.freshIn n k && r.idxv && d.indexOff n dev && d.par n AXP.IDXPOL == 1 then d.snapOf n dev else 0

/-- p_act and v_act of a table in cycle `k` as IN forms them, whether its own task has run yet or not. -/
def Dev.inNow (d : Dev) (n : Fin 256) (k : Nat) : Int × Int :=
  if d.endedNow n then ((d.ax n).pIn, (d.ax n).vIn)
  else
    let y := d.inOf n (d.freshIn n k)
    (satS 64 (y.pAct - d.snapNow n k), y.vAct)

/-- Position of the master in cycle k and in cycle k − 1, in LSB of Q47.16. -/
def Dev.masterNow (d : Dev) (n : Fin 256) (k : Nat) : Int × Int :=
  let midx := d.par n AXP.MIDX
  match d.par n AXP.MKIND with
  | 0 =>
    let s := d.mot.fbu[midx % 8]'(Nat.mod_lt _ (by decide))
    (s.now * 65536, s.prev * 65536)
  | 1 =>
    let s := d.mot.pulse[midx % 4]'(Nat.mod_lt _ (by decide))
    (s.now, s.prev)
  | 2 =>
    let s := d.mot.ain[midx % 32]'(Nat.mod_lt _ (by decide))
    (s.now * 65536, s.prev * 65536)
  | 3 => ((d.inNow (axisNo midx) k).1, (d.ax (axisNo midx)).ex.pIn)
  | _ => ((d.prof (axisNo midx)).staged, (d.prof (axisNo midx)).stagedPrev)

/-! ## Stage SP (R166, R179 to R184, R220) -/

/-- Floor and remainder of the gear (R181); the position kept where GDEN is 0. -/
def gearStep (dm : Int) (num den rem : Int) : Int × Int :=
  if den = 0 then (0, rem)
  else
    let a := dm * num + rem
    let q := a / den
    (q, a - q * den)

/-- Gearing: one cycle. -/
def Task.gearing (t : Task) : Task :=
  let g : Int := max (t.par AXP.GRAMP) 1
  let n := t.x.gearN + 1
  let (m, m0) := t.d.masterNow t.n t.k
  -- a 32-bit counter wraps, and its increments do not
  let dm := if t.par AXP.MKIND ≤ 1 then sxt 48 (toBits 48 (m - m0)) else m - m0
  let (q, rem) := gearStep dm (t.parI AXP.GNUM * min (n : Int) g) (t.par AXP.GDEN * g) t.x.gearRem
  { t with x := { t.x with pSet := satS 64 (t.x.pSet + q), gearN := n, gearRem := rem } }

/-- Address of a cam table (R183). -/
def Dev.camAddr (d : Dev) (cam : Nat) : Nat := dramCam + d.memLE (dramCam + 4 * cam) 4

/-- A cam table that R183 admits. -/
def Dev.camValid (d : Dev) (a : Nat) : Bool :=
  let nent := d.memLE a 4
  let mper := d.memLE (a + 4) 4
  decide (2 ≤ nent) && decide (nent ≤ 65536) && decide (1 ≤ mper) && decide (mper ≤ 2 ^ 31)

/-- The cam value at master position `m` (LSB of Q47.16), in LSB of Q47.16. -/
def Dev.camValue (d : Dev) (a : Nat) (m : Int) : Int :=
  let nent := d.memLE a 4
  let mper : Int := d.memLE (a + 4) 4
  let sper := sxt 32 (d.memLE (a + 8) 4)
  let per := mper * 65536
  let w := m / per
  let f := (m - w * per) * nent
  let j := (f / per).toNat
  let entry := fun (i : Nat) =>
    if i = nent then sxt 32 (d.memLE (a + 16) 4) + sper else sxt 32 (d.memLE (a + 16 + 4 * i) 4)
  let e0 := entry j
  satS 64 (rndDiv ((e0 * per + (entry (j + 1) - e0) * (f - j * per)) * 65536) per + w * sper * 65536)

/-- Cam: one cycle. A table that R183 does not admit gives an open value. -/
def Task.camming (t : Task) : Task :=
  let a := t.d.camAddr (t.par AXP.CAM)
  let (m, m0) := t.d.masterNow t.n t.k
  if !t.d.camValid a then
    { t with d := t.d.openUsed, x := { t.x with pSet := sxt 64 (t.d.openBits 64), gearN := t.x.gearN + 1 } }
  else
    let org := if t.x.gearN = 0 then t.x.pSet - t.d.camValue a m0 else t.x.camOrg
    { t with x := { t.x with pSet := satS 64 (org + t.d.camValue a m), camOrg := org, gearN := t.x.gearN + 1 } }

/-- A 32-bit stream point (R180, R581). -/
def Dev.streamPoint (d : Dev) (pt : Nat) : Nat :=
  let dev := 3 - (d.rd pgTIM TIM.PIXO_HOST + d.rd pgTIM TIM.PEND)
  d.memLE (bankBase dev + 4 * pt) 4

/-- p_set as the generator staged it; a snap of this task moves it too (R221). -/
def Task.fromStaged (t : Task) : Task := { t with x := { t.x with pSet := satS 64 ((t.d.prof t.n).staged - t.snapC) } }

/-- The source of p_set in RUN: p_set, and v_set where the stream gives it. -/
def Task.source (t : Task) : Task × Option Int :=
  match t.par AXP.SPSRC with
  | 0 => (t.fromStaged, none)
  | 1 =>
    let pt := t.par AXP.PT
    let w := t.d.streamPoint pt
    if t.flag AXP.PLEN then
      ({ t with x := { t.x with pSet := sxt 64 (w + t.d.streamPoint (pt + 1) * 2 ^ 32) } }, none)
    else
      let t := { t with x := { t.x with pSet := t.x.pAct } }
      if t.flag AXP.VLEN then (t, some (sxt 32 w)) else ({ t with torque := sxt 32 w }, none)
  | 2 => (t.gearing, none)
  | _ => (t.camming, none)

/-- One step of the quick stop (R220). -/
def Task.quickStop (t : Task) : Task :=
  let h : Int := (t.par AXP.HDEC : Nat) * 256
  let u := t.x.qsU
  let u := if |u| ≤ h then 0 else u - sgnI u * h
  let p := t.x.qsP + u
  { t with x := { t.x with qsU := u, qsP := p, pSet := satS 64 (rnd p 16) } }

/-- v_set and a_set (R180). -/
def Task.setSpeeds (v : Option Int) (t : Task) : Task :=
  let vs := match v with
    | some v => v
    | none => satS 32 (rnd (sgMul (satS 64 (t.x.pSet - t.pSet0)) (t.par AXP.VSC)) 42)
  { t with x := { t.x with vSet := vs, aSet := satS 32 (vs - t.x.vSet) } }

def Task.noSpeeds (t : Task) : Task := { t with x := { t.x with vSet := 0, aSet := 0 } }

/-- With a stream that gives no position, p_set follows p_act where no stop runs (R180). -/
def Task.followActual (t : Task) : Task :=
  if t.par AXP.SPSRC = 1 ∧ !t.flag AXP.PLEN then { t with x := { t.x with pSet := t.x.pAct } } else t

/-- Stage SP. A stop accepted in READY, where no source feeds p_set, finds it as READY holds it (R179, R180). -/
def stageSp (t : Task) : Task :=
  if t.st = axMOORED then { t with x := { t.x with pSet := t.x.pAct } }.noSpeeds
  else if t.st = axREADY then
    t.followActual.noSpeeds
  else if t.st = axSTOPPING ∧ t.x.stopNow ∧ t.x.stopReady then t.followActual.setSpeeds none
  else if t.st = axRUN ∨ (t.st = axSTOPPING ∧ t.x.stopNow) then
    let (t, v) := t.source
    t.setSpeeds v
  else if t.st = axSTOPPING then t.fromStaged.setSpeeds none
  else if t.quick then t.quickStop.setSpeeds none
  else t.followActual.noSpeeds

/-! ## Stages PL and CPL (R185, R196 to R198) -/

/-- Stage PL. -/
def stagePl (t : Task) : Task :=
  if t.st = axMOORED ∨ t.brake then t
  else if !t.flag AXP.PLEN then { t with vPl := t.x.vSet, iFF := 0 }
  else
    let e := satS 64 (t.x.pSet - t.x.pAct)
    let ePu := satS 32 (rnd (sgMul e (t.par AXP.PSC)) 42)
    let (s, o) := accSat (sgMul ePu (t.coef AXP.KPP) + sgMul t.x.vSet (t.coef AXP.KVFF))
    { t with
      ePu := ePu, vPl := satS 32 (rnd s 57), iFF := puMul t.x.aSet (t.coef AXP.KAFF), aov := t.aov || o, plRan := true,
      x := { t.x with ferr := satS 32 (rnd e 16) } }

/-- The quantity of a coupling term (*Coupling quantities*). -/
def Task.quantity (qsel : Nat) (s : Fin 256) (t : Task) : Int :=
  match qsel with
  | 0 => satS 32 (rnd (sgMul (satS 64 ((t.d.inNow s t.k).1 - t.x.pAct)) (t.par AXP.PSC)) 42)
  | 1 => (t.d.inNow s t.k).2
  | 2 => if t.d.par s AXP.SPSRC = 0 ∧ ((t.d.ax s).began = axRUN ∨ (t.d.ax s).began = axSTOPPING) then
      satS 32 (rnd (sgMul ((t.d.prof s).staged - (t.d.prof s).stagedPrev) (t.d.par s AXP.VSC)) 42) else 0
  | 3 => (t.d.ax s).ex.iqRef
  | _ => (t.d.ax s).ex.iQ

/-- One coupling term. -/
def Task.couple (t : Task) (i : Nat) : Task :=
  let f := fun (g : Fld) => t.par (g.nth 8 i)
  if f AXP.TEN = 0 then t
  else
    let q := puMul (t.quantity (f AXP.QSEL) (axisNo (f AXP.SAX))) (f AXP.CPLG)
    match f AXP.INJ with
    | 0 => { t with cplV := t.cplV + q }
    | 1 => { t with cplI := t.cplI + q }
    | 2 => { t with cplQ := t.cplQ + q }
    | _ => t

/-- Stage CPL: the coupling terms, then v_ref (R185). -/
def stageCpl (t : Task) : Task :=
  if t.st = axMOORED ∨ t.brake then t
  else
    let t := if t.flag AXP.CPLEN then (List.range 8).foldl Task.couple t else t
    -- each sum is exact, and saturates once (R170)
    let t := { t with cplV := satS 32 t.cplV, cplI := satS 32 t.cplI, cplQ := satS 32 t.cplQ }
    let v := sat2 (t.vPl + t.cplV) (t.coefI AXP.VLIM)
    { t with vRef0 := v, x := { t.x with vRef := v } }

/-! ## Stage SEA (R238 to R241) -/

/-- The axis is READY or RUN with a fresh record (R243). -/
def Task.live (t : Task) : Bool := (t.st == axREADY || t.st == axRUN) && t.fresh

def stageSea (t : Task) : Task :=
  if t.st = axMOORED ∨ t.brake ∨ !t.flag AXP.SEAEN then t
  else
    let v := t.d.seaValue t.n t.live
    let t := { t with sea := v, seaRan := true }
    if t.d.seaPar t.n SEA.INJ = 0 then { t with x := { t.x with vRef := sat2 (t.x.vRef + v) (t.coefI AXP.VLIM) } } else t

/-- The learning error (R241). -/
def Task.learningError (t : Task) : Int :=
  match t.d.seaPar t.n SEA.ESEL with
  | 0 => t.ePu
  | 1 => satS 32 (t.vRef0 - t.x.vAct)
  | _ => t.iqErr

/-- sea_i (R188, R240). -/
def Task.seaI (t : Task) : Int := if t.seaRan ∧ t.d.seaPar t.n SEA.INJ = 1 then t.sea else 0

/-! ## Stage VL (R186 to R189, R219) -/

/-- The four biquads in order. -/
def Task.biquads (y : Int) (t : Task) : Int × Task :=
  (List.finRange 4).foldl (fun (a : Int × Task) (q : Fin 4) =>
    let c := fun (j : Nat) => t.coefI (AXP.BQ0.nth 4 (5 * q + j))
    let t := a.2
    if bitOf (t.coef AXP.BQEN) q then
      let (y, s) := biquadStep (c 0) (c 1) (c 2) (c 3) (c 4) t.x.bq[q] a.1
      (y, { t with x := { t.x with bq := t.x.bq.set q s } })
    else (a.1, { t with x := { t.x with bq := t.x.bq.set q Biquad.zero } })) (y, t)

/-- Stage VL; in observer braking it works on w_ref − w_o. -/
def stageVl (t : Task) : Task :=
  if t.st = axMOORED then t
  else
    let lim := t.d.iqLim t.n
    if t.brake ∨ t.flag AXP.VLEN then
      let o := t.parI AXP.OBDEC
      let w := t.x.wRef
      let w := if t.brake then (if |w| ≤ o then 0 else w - sgnI w * o) else w
      let e := if t.brake then w - t.x.wO else t.x.vRef - t.x.vAct
      let r := piStage t.x.sV e (t.coef AXP.KVP) (t.coef AXP.KVI) lim
      let (y, t) := t.biquads r.u
      { t with x := { t.x with sV := r.s, wRef := w, iqRef := sat2 (y + t.iFF + t.cplI + t.seaI) lim }, awV := r.aw }
    else { t with x := { t.x with iqRef := sat2 (t.torque + t.cplI + t.seaI) lim } }

/-! ## Stage OBS (R199, R200) -/

/-- The observer's currents (*Motor types*). -/
def Task.alphaBeta (t : Task) : Int × Int :=
  if t.par AXP.MTYPE = 0 then (t.x.ia, satS 32 (rnd ((t.x.ia + 2 * t.x.ib) * k1Q31) 31)) else (t.x.ia, t.x.ib)

/-- One component of the current estimate: its new value, and whether the accumulator saturated. -/
def Task.estimate (u e i ih : Int) (t : Task) : Int × Bool :=
  let (s, o) := accSat ((u - e) * ((2 ^ 57 : Nat) : Int) - sgMul i (t.par AXP.OBR))
  let a := satS 32 (rnd (sgMul s (t.par AXP.OBK1)) 114)
  let b := puMul (satS 32 (i - ih)) (t.par AXP.OBK2)
  (satS 32 (ih + a + b), o)

/-- The phase detector (R199): 0 when the divisor is 0. The sum of products and the divisor stand exact in it, and the quotient is
formed once (R170; notes/assumptions/128.md). -/
def Task.phaseDetector (eAl eBe : Int) (t : Task) : Int :=
  let (s, c) := sinCos t.x.thO
  let p := -(eAl * c) - eBe * s
  let psi := t.coef AXP.PSI
  let den := max (sgMul |t.x.wO| psi) (sgMul ((t.par AXP.OBMINV * 2 ^ 15 : Nat) : Int) psi)
  if den = 0 then 0 else satS 32 (divTrunc (p * ((2 ^ 57 : Nat) : Int)) den)

/-- The step of the observer angle. -/
def Task.obsStep (t : Task) : Int := rnd (sgMul t.x.wO (t.par AXP.OBWSC)) 56

/-- The comparison of R200. -/
def Task.diverge (t : Task) : Task :=
  if |t.x.wO| < (t.par AXP.OBMINV * 2 ^ 15 : Nat) then t
  else
    let off := |sxt 32 (toBits 32 ((t.x.thO : Int) - t.x.theta))|
    if ((t.par AXP.OBTOL * 2 ^ 16 : Nat) : Int) < off then
      let n := t.x.obBad + 1
      let x := { t.x with obBad := min 8 n, obGood := 0, diverged := t.x.diverged || decide (8 ≤ n) }
      { t with x := x, d := if !t.x.diverged && x.diverged then axEvent t.n 7 t.d else t.d }
    else
      let n := t.x.obGood + 1
      { t with x := { t.x with obGood := min 8 n, obBad := 0, diverged := t.x.diverged && decide (n < 8) } }

/-- The update of a fresh cycle. -/
def Task.observe (t : Task) : Task :=
  let (ia, ib) := t.alphaBeta
  let (ua, ub) : Int × Int := if t.x.holdAt = some (t.k - 1) then (0, 0) else (t.x.uAl, t.x.uBe)
  let (ha, oa) := t.estimate ua t.x.eAl ia t.x.ihAl
  let (hb, ob) := t.estimate ub t.x.eBe ib t.x.ihBe
  let ea := satS 32 (t.x.eAl - puMul (satS 32 (ia - t.x.ihAl)) (t.par AXP.OBKE))
  let eb := satS 32 (t.x.eBe - puMul (satS 32 (ib - t.x.ihBe)) (t.par AXP.OBKE))
  let pd := t.phaseDetector ea eb
  let wi := satS 32 (t.x.wInt + puMul pd (t.par AXP.OBKI))
  let wo := satS 32 (wi + puMul pd (t.par AXP.OBKP))
  { t with
    aov := t.aov || oa || ob,
    x := { t.x with ihAl := ha, ihBe := hb, eAl := ea, eBe := eb, wInt := wi, wO := wo } }

/-- Stage OBS. -/
def stageObs (t : Task) : Task :=
  if 2 ≤ t.par AXP.MTYPE then
    { t with x := { t.x with ihAl := 0, ihBe := 0, eAl := 0, eBe := 0, wInt := 0, wO := 0, thO := 0, obBad := 0, obGood := 0,
                             diverged := false } }
  else if !t.x.seen then t
  else
    let t := if t.fresh then t.observe else t
    let th := toBits 32 ((t.x.thO : Int) + t.obsStep)
    { t with x := { t.x with thO := th } }.diverge

/-! ## Stage CL (R190, R191, R195, R293) -/

/-- The resolution ladder of the cycle (R294, R295), with the speed of the set-point: of the quick stop where one drives it. -/
def Task.ladder (t : Task) : Task :=
  { t with d := ladderStep t.n t.x.pSet (if t.quick then t.x.qsU else (t.d.prof t.n).v) t.d }

/-- The angle of CL and MOD and its step (R177, R190, R293). -/
def Task.angle (t : Task) : Task :=
  let follow := fun (a : Nat) => { t with ang := a, step := sxt 32 (toBits 32 ((a : Int) - t.x.modTh)) }
  let t :=
    if t.brake then { t with ang := t.x.thO, step := sxt 32 (toBits 32 t.obsStep) }
    else if !t.fresh then { t with ang := toBits 32 ((t.x.modTh : Int) + t.x.dTh), step := t.x.dTh }
    else if t.stepol then follow (t.d.prof t.n).ladTh
    else follow t.x.theta
  { t with x := { t.x with modTh := t.ang, dTh := t.step } }

/-- The voltage limit of a motor type. -/
def Task.vlim (t : Task) : Int :=
  let v := t.x.udc * t.coefI AXP.VMAX
  if t.par AXP.MTYPE = 0 then satS 32 (rnd (v * k1Q31) 62) else satS 32 (rnd v 31)

/-- The currents in the frame of the rotor. -/
def Task.park (t : Task) : Int × Int :=
  if t.par AXP.MTYPE = 2 then (0, t.x.ia)
  else
    let (s, c) := sinCos t.ang
    let (a, b) := t.alphaBeta
    (satS 32 (rnd (a * c + b * s) 31), satS 32 (rnd (-(a * s) + b * c) 31))

/-- The current loops on measured currents, and the limits of R191. -/
def Task.currentLoop (t : Task) : Task :=
  let (id, iq) := t.park
  let lim := t.vlim
  let w := t.x.vAct
  let idref := if t.stepol then t.d.rdIS pgPRF (adopted t.n) PRF.ISTEP else t.idref
  let kip := t.coef AXP.KIP
  let kii := t.coef AXP.KII
  let cross := fun (i : Int) (l : Fld) => satS 32 (rnd (sgMul (w * i) (t.coef l)) 88)
  let rd := if t.par AXP.MTYPE = 2 then ⟨0, t.x.sD, false⟩ else piStage t.x.sD (idref - id) kip kii lim
  let rq := piStage t.x.sQ (t.x.iqRef - iq) kip kii lim
  let vd := if t.par AXP.MTYPE = 2 then 0 else rd.u - cross iq AXP.LQ
  let vq := rq.u + cross id AXP.LD + puMul w (t.coef AXP.PSI) + t.cplQ
  let vd' := sat2 vd lim
  let qlim : Int := Nat.sqrt (lim * lim - vd' * vd').toNat
  let vq' := sat2 vq qlim
  { t with
    x := { t.x with iD := id, iQ := iq, vd := vd', vq := vq', sD := rd.s, sQ := rq.s },
    awD := rd.aw || decide (vd' ≠ vd), awQ := rq.aw || decide (vq' ≠ vq) }

/-- MTYPE 3, to which the spec gives no law: currents, voltages and duties are open values. -/
def Task.openMotor (t : Task) : Task :=
  let v := fun (d : Dev) (i : Nat) => sxt 32 (bitsOf (d.openBits 64) (32 * i) 32)
  let d := t.d.openUsed
  { t with d := d.openUsed, x := { t.x with iD := v t.d 0, iQ := v t.d 1, vd := v d 0, vq := v d 1 } }

/-- Stage CL. -/
def stageCl (t : Task) : Task :=
  let t := t.ladder.angle
  if t.st = axMOORED then t
  else if t.par AXP.MTYPE = 3 then t.openMotor
  else if t.fresh then t.currentLoop
  else t

/-! ## Stage MOD (R192 to R195) -/

/-- The dead-time term of a phase current (R194). -/
def Task.deadTime (i : Int) (t : Task) : Int :=
  let dti : Int := t.par AXP.DTI
  let one : Int := ((2 ^ 31 : Nat) : Int)
  let q := if dti = 0 then sgnI i * one else sat2 (divTrunc (i * 65536) dti) one
  rnd ((t.par AXP.DTC : Nat) * q * t.x.udc) 47

/-- A duty: 0.5 + v2 / (2 udc), in units of 1/65,536. The reciprocal 1/udc is held in units of 2^−31 without an upper limit, and
`v2` holds twice the sum of voltages, half LSB and all (R193; notes/assumptions/127.md). -/
def Task.duty (v2 : Int) (t : Task) : Nat :=
  let rinv := if t.x.udc = 0 then 0 else divTrunc (((2 ^ 62 : Nat) : Int)) t.x.udc
  satU 16 (rnd (32768 * ((2 ^ 62 : Nat) : Int) + v2 * rinv * 32768) 62)

/-- The duties of the three motor types. -/
def Task.duties (al be : Int) (t : Task) : Nat × Nat × Nat :=
  match t.par AXP.MTYPE with
  | 0 =>
    let va := al
    let vb := satS 32 (rnd (sin60Q31 * be - al * ((2 ^ 30 : Nat) : Int)) 31)
    let vc := satS 32 (rnd (-(sin60Q31 * be) - al * ((2 ^ 30 : Nat) : Int)) 31)
    let mm := max va (max vb vc) + min va (min vb vc)
    let f := fun (v i : Int) => t.duty (2 * v - mm + 2 * t.deadTime i)
    (f va t.x.ia, f vb t.x.ib, f vc t.x.ic)
  | 1 => (t.duty al, t.duty be, 0)
  | 2 => (t.duty t.x.vq, 0, 0)
  | _ => (t.d.openBits 16, bitsOf (t.d.openBits 64) 16 16, bitsOf (t.d.openBits 64) 32 16)

/-- Stage MOD. -/
def stageMod (t : Task) : Task :=
  if t.st = axMOORED then t
  else
    let th := toBits 32 ((t.ang : Int) + rnd (t.step * t.par AXP.ADV) 14)
    let (s, c) := sinCos th
    let al := satS 32 (rnd (t.x.vd * c - t.x.vq * s) 31)
    let be := satS 32 (rnd (t.x.vd * s + t.x.vq * c) 31)
    let (da, db, dc) := t.duties al be
    { t with
      d := if t.par AXP.MTYPE = 3 then t.d.openUsed else t.d,
      x := { t.x with uAl := al, uBe := be, da := da, db := db, dc := dc } }

/-- The stages of a task from IN to MOD, with the hook points (R165, R166); a step axis runs IN, SP, PL and VL of them (R405). -/
def kernelStages (t : Task) : Task :=
  let t := hookPoint 1 (stageSp (hookPoint 0 (stageIn t)))
  if t.step? then hookPoint 4 (hookPoint 3 (hookPoint 2 (stageVl (stagePl t))))
  else
    let t := hookPoint 2 (stageVl (stageSea (stageCpl (stagePl t))))
    hookPoint 4 (stageMod (hookPoint 3 (stageCl (stageObs t))))

end Sys2Proof.Machine
end

