-- ==== Sys2Proof/Machine/Axis.lean ====
section
/-! DEFINITION. Axis control beside the stages (spec/05): when a task is READY and runs, adoption of writes, the AXP commands,
stage SUP with faults and reactions, the commit, and evaluation of what waits for a table (R205 to R228, R353, R401 to R403,
R637). -/
namespace Sys2Proof.Machine

/-! ## Which tables run (R352, R353, R487, R489) -/

/-- The record flag of a table; a step axis takes no record from a ring (R37, R405). -/
def Dev.recordFlag (d : Dev) (n : Fin 256) : Bool := (d.ax n).arrived || (d.stepChannel n).isSome

/-- Tables whose record a task waits for beside its own (R182, R197). -/
def Dev.sourcesOf (d : Dev) (n : Fin 256) : List (Fin 256) :=
  let master := if 2 ≤ d.par n AXP.SPSRC ∧ d.par n AXP.MKIND = 3 then [axisNo (d.par n AXP.MIDX)] else []
  let f := fun (g : Fld) (i : Nat) => d.par n (g.nth 8 i)
  let terms := if d.par n AXP.CPLEN = 1 then
      ((List.range 8).filter fun i => f AXP.TEN i == 1 && decide (f AXP.QSEL i ≤ 1)).map fun i => axisNo (f AXP.SAX i)
    else []
  master ++ terms

/-- The axis task that a pair serves: the one that became READY first of those on it that have not reached DONE (R357, R373). -/
def Dev.axisOn (d : Dev) (p : Nat) : Option (Fin 256) :=
  if !d.runsAxes || !d.healthy p then none
  else (d.tsu.order.map axisNo).find? fun (n : Fin 256) => (d.ax n).ready && !d.endedNow n && d.pairOf n == p

/-- Does the task of a table run a hook at some point? -/
def Dev.hooked (d : Dev) (n : Fin 256) : Bool :=
  d.axState n != axMOORED && (List.range 5).any fun h => d.par n (AXP.HEN.nth 4 h) == 1

/-- The axis task of a table starts on a pair: CTASK, CPC, TSTAT and TWAIT show it. When its first instruction issues, within
*Dispatch timing*, and whether it is in a hook before its DONE, is free (notes/assumptions/131.md). -/
def beginAxis (p : Nat) (n : Fin 256) (d : Dev) : Dev :=
  let o := d.openBits 32
  let hook := d.hooked n && bitOf o 0
  let w := min 0xFFFF ((d.st - (d.ax n).readyTime) / 16 + 1 + bitsOf o 4 12 % 300)
  let pg := pgCep p
  let d := (((d.openUsed.wr pg CEP.TID n).wr pg CEP.TV 1).wr pg CEP.AXN n).wr pg CEP.PSTATE 2
  let d := (d.wr pg CEP.HOOK (b2n hook)).wr pg CEP.PC (if hook then bitsOf o 16 14 else 0x8000)
  let d := if hook then d.wr pg CEP.HOOKN (bitsOf o 1 3 % 5) else d
  let d := (d.wrS pgTSU n TSU.WLAST w).wrS pgTSU n TSU.WMAX (max w (d.rdS pgTSU n TSU.WMAX))
  (d.wrS pgTSU n TSU.PAIR p).wrS pgTSU n TSU.TSTATE 3

/-- A pair serves its READY axis tasks: the first of them runs; without one, and with no other task, the pair is IDLE. -/
def serveAxis (p : Nat) (d : Dev) : Dev :=
  match d.axisOn p with
  | some n => if d.rdS pgTSU n TSU.TSTATE = 3 ∧ d.rdS pgTSU n TSU.PAIR = p then d else beginAxis p n d
  | none =>
    if h : p < 18 then
      if (d.pair ⟨p, h⟩).running = .nothing ∧ d.pstate p = 2 then
        (showTask p .nothing d).wr (pgCep p) CEP.PSTATE 1
      else d
    else d

/-- Every pair serves its axis tasks. -/
def serveAll (d : Dev) : Dev := (fittedPairs d.conf).foldl (fun d p => serveAxis p d) d

/-- The pair of a table gives way to its axis task (R358). -/
def takePair (n : Fin 256) (d : Dev) : Dev :=
  let p := d.pairOf n
  serveAxis p (if h : p < 18 then preempt ⟨p, h⟩ d else d)

/-- The axis task of a table becomes READY: it takes its pair at once from a device or user task (R358). -/
def readyAxis (n : Fin 256) (d : Dev) : Dev :=
  let d := (d.mapAx n fun x => { x with ready := true, readyTime := d.st }).wrS pgTSU n TSU.TSTATE 2
  let d := { d with tsu := { d.tsu with order := d.tsu.order.filter (fun m => m != n.val) ++ [n.val] } }
  takePair n (d.noteDepth 0)

/-- No axis task is left: those READY or running are discarded. -/
def dropTasks (d : Dev) : Dev :=
  let d := (d.tsu.order.map axisNo).foldl (fun (d : Dev) (n : Fin 256) =>
    (d.mapAx n fun x => { x with ready := false }).wrS pgTSU n TSU.TSTATE 0) d
  serveAll { d with tsu := { d.tsu with order := [] } }

/-- Is the task of the cycle still to come? -/
def Dev.taskAhead (d : Dev) (n : Fin 256) : Bool := !(d.ax n).ready && !d.endedNow n

/-- Every axis task whose record flags are set becomes READY (R353). -/
def readyByRecords (d : Dev) : Dev :=
  if !d.runsAxes then d
  else
    d.eachAxis (fun (n : Fin 256) (d : Dev) =>
      if d.taskAhead n && d.recordFlag n && (d.sourcesOf n).all d.recordFlag then readyAxis n d else d)

/-- At the end of the upstream window every remaining axis task becomes READY (R40). -/
def readyAll (d : Dev) : Dev :=
  if !d.runsAxes then d
  else d.eachAxis fun (n : Fin 256) (d : Dev) => if d.taskAhead n then readyAxis n d else d

/-- No task that became READY earlier waits on the same pair (R357, R373). -/
def Dev.firstOnPair (d : Dev) (n : Fin 256) : Bool :=
  (d.tsu.order.takeWhile fun m => m != n.val).all fun m => d.endedNow m || d.pairOf m != d.pairOf n

/-- May the task of a table run now? -/
def Dev.taskRunnable (d : Dev) (n : Fin 256) : Bool :=
  d.runsAxes && d.axState n != axDISABLED && (d.ax n).ready && !d.endedNow n && d.healthy (d.pairOf n) && d.firstOnPair n

/-- Axis tasks that are READY or run and have not reached DONE. -/
def Dev.openTasks (d : Dev) : List (Fin 256) :=
  if d.runsAxes then d.activeAxes.filter fun (n : Fin 256) => (d.ax n).ready && !d.endedNow n else []

/-- READY axis tasks take the pairs they moved to from the device and user tasks there (R358, R372). -/
def takePairs (d : Dev) : Dev :=
  d.openTasks.foldl (fun (d : Dev) (n : Fin 256) => takePair n d) d

/-! ## Commands and writes that wait (R205, R212, R401, R637) -/

/-- A page takes a command that is evaluated in cycle k + 2 (R212, R249, R268). -/
def noteCmd (page code arg : Nat) (desc : MoveDesc) (d : Dev) : Dev :=
  if d.on page HDR.BUSY then d.wr page HDR.LOST 1
  else
    let d := deferCmd page code arg d
    { d with mot := { d.mot with cmds := d.mot.cmds ++ [⟨page, code, arg, d.evalCycle, desc⟩] } }

/-- No descriptor. -/
def noDesc : MoveDesc := ⟨0, 0, 0, 0⟩

/-- A command reaches an AXP page; a SWAP shows as pending (R208). -/
def landAxpCmd (n : Fin 256) (code arg : Nat) (d : Dev) : Dev :=
  let busy := d.on (pgAxp n) HDR.BUSY
  let d := noteCmd (pgAxp n) code arg noDesc d
  if code = 0x05 ∧ !busy then d.wr (pgAxp n) AXP.SWPEND 1 else d

/-- A value written to a register waits for its adoption in cycle k + 2. -/
def noteWrite (axis page sel off : Nat) (v : Word) (d : Dev) : Dev :=
  { d with mot := { d.mot with writes := d.mot.writes ++ [⟨axis, page, sel, off, v, d.evalCycle⟩] } }

/-- Adopt one write. A write to RVAL arms its ring compare unit (R401). -/
def adoptWrite (w : DueWrite) (d : Dev) : Dev :=
  let d := d.setReg w.page (adopted w.sel) w.off w.value
  if w.page = pgSGU ∧ (w.off = SGU.RVALLO.off ∨ w.off = SGU.RVALHI.off) then
    (d.wrS pgSGU w.sel SGU.ARMED 1).mapAx (axisNo w.axis) fun x => { x with just := w.sel :: x.just }
  else d

/-- Does the write wait for the axis task of table `n`? PRF and PGRP writes are adopted by the generator. -/
def DueWrite.forTask (n k : Nat) (w : DueWrite) : Bool :=
  w.axis == n && decide (w.cycle ≤ k) && (w.page == pgAxp n || w.page == pgSEA || w.page == pgSGU)

/-- Adopt what is due for table `n` by cycle `k`. -/
def adoptFor (n : Fin 256) (k : Nat) (d : Dev) : Dev :=
  let due := d.mot.writes.filter fun (w : DueWrite) => w.forTask n k
  if due = [] then d
  else
    let d := { d with mot := { d.mot with writes := d.mot.writes.filter fun (w : DueWrite) => !w.forTask n k } }
    due.foldl (fun (d : Dev) (w : DueWrite) => adoptWrite w d) d

/-! ## The AXP commands (R189, R198, R204, R208 to R213, R225, R228, R293, R337, R388, R405, R638) -/

/-- The conditions of an open-loop stepper axis (R293), on the registers as written. -/
def Dev.stepperOk (d : Dev) (n : Nat) : Bool :=
  let pg := pgAxp n
  d.rd pg AXP.MTYPE == 1 && d.rd pg AXP.SPSRC == 0 && d.rd pg AXP.PLEN == 0 && d.rd pg AXP.VLEN == 0

/-- Frame time of a serial channel in ns, from the first clock edge to the last data bit (NBITS periods of SCLK, and the measured
delay), and the sample window of a rate in ns (R387, R388, *Cycle windows*). -/
def Dev.serialTime (d : Dev) (c : Nat) : Nat :=
  let pg := pgFbu c
  10000 * d.rd pg FBU.NBITS / max 1 (d.rd pg FBU.SCLK) + 10 * d.rd pg FBU.SDLY
def sampleWindowNs (rate : Nat) : Nat := 500 * 2 ^ rate

/-- A serial channel whose frame does not fit the sample window. -/
def Dev.serialLate (d : Dev) (c : Nat) : Bool :=
  d.rd (pgFbu c) FBU.MODE == 3 && decide (sampleWindowNs (d.rd pgTIM TIM.RATE) < d.serialTime c)

/-- Sum of the budgets of the enabled hooks of a table, in registers of a selection. -/
def Dev.hookBudget (d : Dev) (n sel : Nat) : Nat :=
  ((List.range 5).map fun h =>
    if d.onS (pgAxp n) sel (AXP.HEN.nth 4 h) then d.rdS (pgAxp n) sel (AXP.BUDGET.nth 4 h) else 0).foldl (· + ·) 0

/-- The hook budgets of the pair of table `n` fit (R204). -/
def Dev.hooksFit (d : Dev) (n : Nat) : Bool :=
  let axes := d.tsu.axesOf (d.pairOf n)
  let sum := (axes.map fun m => d.hookBudget m (if m = n then 0 else adopted 0)).foldl (· + ·) 0
  decide (sum + 1290 * axes.length ≤ 5500 * 2 ^ d.rd pgTIM TIM.RATE)

/-- The coupling terms name configured tables and defined codes (R196, R198). -/
def Dev.termsOk (d : Dev) (n : Nat) : Bool :=
  (List.range 8).all fun i =>
    let f := fun (g : Fld) => d.rd (pgAxp n) (g.nth 8 i)
    f AXP.TEN == 0 || (d.configured (f AXP.SAX) && decide (f AXP.QSEL ≤ 4) && decide (f AXP.INJ ≤ 2))

/-- The conditions whose failure is E_PARAM at ENABLE. -/
def Dev.enableOk (d : Dev) (n : Nat) : Bool :=
  let pg := pgAxp n
  let c := d.rd pg AXP.LFBCH
  !(d.rd pg AXP.PLEN == 1 && d.rd pg AXP.VLEN == 0) &&
  decide (d.rd pg AXP.MKIND ≤ 4) && d.termsOk n && d.hooksFit n &&
  ((List.range 5).all fun h => d.rd pg (AXP.HEN.nth 4 h) == 0 || decide (d.rd pg (AXP.ENTRY.nth 4 h) ≤ 0x3FFF)) &&
  (d.rdS pgPRF n PRF.STEPOL == 0 || d.stepperOk n) &&
  ((d.stepChannel n).isNone || (d.rdS pgPRF n PRF.STEPOL == 1 && d.stepperOk n)) &&
  (d.rd pg AXP.LFB == 0 || (!d.serialLate c && d.rd (pgFbu c) FBU.IPOL == 0)) &&
  d.rd pg AXP.HDEC != 0

/-- Registers of the resolution ladder, adopted at ENABLE. -/
def ladderOffs : List Nat := [0x0E4, 0x0E8]

/-- ENABLE as accepted: mooring parameters and the bank in use are adopted, the axis is READY (R205, R206, R214). -/
def enableAxis (n : Fin 256) (d : Dev) : Dev :=
  let pg := pgAxp n
  let d := adoptRegs pg 0 (mooringOffs ++ bankOffs (d.bank n)) d
  let d := adoptRegs pgPRF n ladderOffs d
  let d := d.mapAx n fun x => { x with brkOffN := d.rd pg AXP.BRKOFF, chgMoor := false }
  setAxState n axREADY (showPchg n d)

/-- HALT or DISABLE as accepted (R213, R270, R271, R291). A DISABLE accepted in STOPPING while BRK = 0 is held begins that hold
anew (notes/assumptions/129.md). -/
def stopAxis (n : Fin 256) (disable : Bool) (d : Dev) : Dev :=
  let homing := (d.prof n).run == .homing
  let fromRest := d.axState n != axSTOPPING
  let ready := d.axState n == axREADY
  let d := if fromRest then profStop n false (groupLeave n d) else d
  let d := if homing then homeFault n 6 d else d
  -- with a source of its own the generator takes over from the set-point of this task
  let hand := fromRest && (!ready || d.par n AXP.SPSRC != 0)
  let d := d.mapAx n fun x => { x with
    disabling := x.disabling || disable, stopNow := x.stopNow || hand, stopReady := if fromRest then ready else x.stopReady,
    brkOnN := 0 }
  setAxState n axSTOPPING d

/-- START as accepted (R181, R183, R205). -/
def startAxis (n : Fin 256) (d : Dev) : Dev :=
  let d := showPchg n ((adoptRegs (pgAxp n) 0 startOffs d).mapAx n fun x => { x with chgStart := false })
  -- a phase source that follows the master starts without a change of pofs (R253)
  let d := d.mapSea n fun s => { s with pofs := (d.seaSource n).2.2.2 }
  setAxState n axRUN (d.mapAx n fun x => { x with gearN := 0, gearRem := 0 })

/-- The voltage limit that CL would take now. -/
def Dev.vlimOf (d : Dev) (n : Fin 256) : Int := (Task.start n 0 d).vlim

/-- One integrator over a swap (R209): its state after, and whether it bumps. -/
def carryOver (s : Int) (kiOld kiNew : Nat) (limNew : Int) : Int × Bool :=
  let i := intOut s kiOld
  if sgMant kiNew = 0 then (0, i != 0) else (intOf (sat2 i limNew) kiNew, false)

/-- SWAP as accepted (R208 to R210). -/
def swapBanks (n : Fin 256) (d : Dev) : Dev :=
  let pg := pgAxp n
  let o := fun (d : Dev) => (d.coef n AXP.KVP, d.coef n AXP.KVI, d.iqLim n)
  let c := fun (d : Dev) => (d.coef n AXP.KIP, d.coef n AXP.KII, d.coefI n AXP.VMAX)
  let d' := adoptRegs pg 0 (bankOffs (1 - d.bank n)) d
  let d' := d'.wr pg AXP.BANK (1 - d.bank n)
  let x := d.ax n
  let (sV, bV) := if o d = o d' then (x.sV, false) else carryOver x.sV (o d).2.1 (o d').2.1 (d'.iqLim n)
  let cur := fun (s : Int) => if c d = c d' then (s, false) else carryOver s (c d).2.1 (c d').2.1 (d'.vlimOf n)
  let (sD, bD) := cur x.sD
  let (sQ, bQ) := cur x.sQ
  let d' := d'.setAx n { x with sV := sV, sD := sD, sQ := sQ }
  let d' := if o d = o d' then d' else d'.wr pg AXP.AWV 0
  let d' := if c d = c d' then d' else (d'.wr pg AXP.AWD 0).wr pg AXP.AWQ 0
  let d' := axEvent n 4 d'
  if bV || bD || bQ then axEvent n 5 d' else d'

/-- The latest record allows CLEAR (R225). -/
def Dev.clearOk (d : Dev) (n : Fin 256) (k : Nat) : Bool :=
  let r := d.recordOf n
  d.freshIn n k && !r.fberr && !r.linef && !r.pstf && !d.on pgSAF SAF.HOLD && !(d.ax n).diverged

/-- CLRCNT: IDXCNT, CNT and ASTAT.AOV. -/
def clearAxisCounts (n : Fin 256) (d : Dev) : Dev :=
  let pg := pgAxp n
  ((d.setReg pg 0 AXP.DEV.off 0).setReg pg 0 AXP.STALEC.off 0).wr pg AXP.AOV 0

/-- An AXP command as evaluated (R212, *AXP commands*), with `k` the cycle of the latest record: its result, the device. -/
def evalAxp (n : Fin 256) (code k : Nat) (d : Dev) : Nat × Dev :=
  let pg := pgAxp n
  let st := d.axState n
  match code with
  | 0x01 =>
    if !(st == axMOORED && !d.on pg AXP.FLATCH && d.stage == 2 && !d.on pgSAF SAF.HOLD && (d.ax n).seen) then (rSTATE, d)
    else if !d.enableOk n then (rPARAM, d)
    else (rOK, enableAxis n d)
  | 0x02 => if st = axREADY ∨ st = axRUN ∨ st = axSTOPPING then (rOK, stopAxis n true d) else (rSTATE, d)
  | 0x03 => if st = axRUN then (rOK, stopAxis n false d) else (rSTATE, d)
  | 0x04 =>
    if !(st == axREADY && d.par n AXP.SPSRC != 0) then (rSTATE, d)
    else if d.rd pg AXP.GDEN = 0 then (rPARAM, d)
    else if 2 ≤ d.par n AXP.SPSRC ∧ d.rd pg AXP.MKIND = 0 ∧ d.serialLate (d.rd pg AXP.MIDX % 8) then (rPARAM, d)
    else (rOK, startAxis n d)
  | 0x05 =>
    let d := d.wr pg AXP.SWPEND 0
    if st = axDISABLED ∨ st = axFAULT then (rSTATE, d) else (rOK, swapBanks n d)
  | 0x06 =>
    if st = axMOORED ∧ d.on pg AXP.FLATCH ∧ d.clearOk n k then (rOK, (d.wr pg AXP.FLATCH 0).wr pg AXP.FCODE 0) else (rSTATE, d)
  -- in MOORED too this is an entry to MOORED (notes/assumptions/130.md)
  | 0x07 => if st = axDISABLED then (rSTATE, d) else (rOK, moorAxis n d)
  | 0x08 => (rOK, clearAxisCounts n d)
  | _ => (rCODE, d)

/-- Is the command one of table `n`'s own that its axis task evaluates? -/
def DueCmd.forTask (n k : Nat) (c : DueCmd) : Bool :=
  decide (c.cycle ≤ k) && (c.page == pgAxp n || (c.page == pgSEA && c.arg % 256 == n))

/-- Evaluate one command. -/
def evalDue (n : Fin 256) (k : Nat) (c : DueCmd) (d : Dev) : Dev :=
  let r := if c.page = pgSEA then
      (if d.axState n = axDISABLED ∧ c.code ≠ 0x06 then (rSTATE, d) else evalSea c.code c.arg d)
    else evalAxp n c.code k d
  settleCmd c.page r.1 r.2

/-- Evaluate every command of table `n` that is due by cycle `k`, in order; `kRec` is the cycle of the latest record. -/
def evalFor (n : Fin 256) (k kRec : Nat) (d : Dev) : Dev :=
  let due := d.mot.cmds.filter fun (c : DueCmd) => c.forTask n k
  if due = [] then d
  else
    let d := { d with mot := { d.mot with cmds := d.mot.cmds.filter fun (c : DueCmd) => !c.forTask n k } }
    due.foldl (fun (d : Dev) (c : DueCmd) => evalDue n kRec c d) d

/-- The commands of an aborted task are recorded with E_STATE and have no effect (R43). -/
def dropFor (n : Fin 256) (k : Nat) (d : Dev) : Dev :=
  let due := d.mot.cmds.filter fun (c : DueCmd) => c.forTask n k
  if due = [] then d
  else
    let d := { d with mot := { d.mot with cmds := d.mot.cmds.filter fun (c : DueCmd) => !c.forTask n k } }
    due.foldl (fun (d : Dev) (c : DueCmd) =>
      let d := settleCmd c.page rSTATE d
      if c.page = pgAxp n ∧ c.code = 0x05 then d.wr c.page AXP.SWPEND 0 else d) d

/-- What the task of the cycle evaluates and adopts before any stage runs (R205, R212, R249, R401). -/
def evaluation (n : Fin 256) (d : Dev) : Dev := evalFor n d.cyc d.cyc (adoptFor n d.cyc d)

/-- Pages whose registers the evaluation of table `n` may change. -/
def evaluationPage (n page : Nat) : Bool :=
  page == pgAxp n || page == pgPRF || page == pgSEA || page == pgSGU || (decide (0xC0 ≤ page) && decide (page < 0xC8))

/-- The registers of those pages that differ between two devices. -/
def regChanges (n : Nat) (d d' : Dev) : List RegChange :=
  (d.regs ++ d'.regs).filterMap fun (kw : Nat × Word) =>
    let c : RegChange :=
      let page := kw.1 / 4096 % 1024
      let sel := kw.1 / 4096 / 1024
      let off := kw.1 % 4096
      ⟨page, sel, off, d.reg page sel off, d'.reg page sel off⟩
    if evaluationPage n c.page && c.before != c.after then some c else none

/-- What the evaluation of a task in cycle `k` brings, as far as it is the task's own (R43). -/
def aheadOf (n : Fin 256) (d : Dev) : AxAhead :=
  let d' := evaluation n { d with evt := { d.evt with hold := some [] } }
  { axis := n, cycle := d.cyc, regs := regChanges n d d', ax := d'.ax n, sea := d'.sea n, prof := d'.prof n,
    grps := (List.finRange 8).filterMap fun g => if d.grp g = d'.grp g then none else some (g.val, d'.grp g),
    posts := d'.evt.hold.getD [] }

/-- What the task of table `n` in cycle `k` has evaluated, if it has. -/
def Dev.aheadFor (d : Dev) (n k : Nat) : Option AxAhead := d.mot.ahead.find? fun a => a.axis == n && a.cycle == k

/-- DEFERRED_EVALUATION: the task of the cycle evaluates the commands and adopts the writes that are due. Nothing of it is written
before the commit (R43). -/
def deferredEvaluation (n : Fin 256) (d : Dev) : Dev :=
  if d.taskRunnable n && (d.aheadFor n d.cyc).isNone then
    { d with mot := { d.mot with ahead := d.mot.ahead ++ [aheadOf n d] } }
  else d

/-- A register takes the bits that an evaluation changes. -/
def RegChange.put (c : RegChange) (d : Dev) : Dev :=
  let m := c.before ^^^ c.after
  d.setReg c.page c.sel c.off ((d.reg c.page c.sel c.off &&& ~~~m) ||| (c.after &&& m))

/-- A path group loses the members that an evaluation takes from it. -/
def Group.leave (x now : Group) : Group :=
  { now with
    stopping := now.stopping || x.stopping
    mem := (now.mem.zip x.mem).map fun m => if m.2 = 256 then 256 else m.1 }

/-- What a task evaluated is committed: registers, states, events; the commands and writes are done with. What the rings, the tick
and the CWD keep of the axis is that of the present. -/
def AxAhead.commit (a : AxAhead) (n : Fin 256) (d : Dev) : Dev :=
  let d := { d with mot := { d.mot with
    cmds := d.mot.cmds.filter fun (c : DueCmd) => !c.forTask n a.cycle
    writes := d.mot.writes.filter fun (w : DueWrite) => !w.forTask n a.cycle } }
  let d := a.regs.foldl (fun (d : Dev) (c : RegChange) => c.put d) (dropAhead n d)
  let d := d.mapAx n fun x => { a.ax with
    rcd := x.rcd, arrived := x.arrived, loc := x.loc, latNow := x.latNow, latUsed := x.latUsed, pend := x.pend,
    holdAt := x.holdAt, wasMoored := x.wasMoored, began := x.began, wasMuted := x.wasMuted, ready := x.ready, ex := x.ex, cmd := x.cmd }
  let d := (d.setSea n a.sea).setProf n a.prof
  let d := a.grps.foldl (fun (d : Dev) (g : Nat × Group) => d.mapGrp (groupNo g.1) g.2.leave) d
  a.posts.foldl (fun (d : Dev) (p : Nat × Nat × Nat) => raise p.1 p.2.1 p.2.2 d) d

/-- The evaluation of a task at its commit: what it evaluated before, or now. -/
def taskEvaluated (n : Fin 256) (d : Dev) : Dev :=
  seaDone n (match d.aheadFor n d.cyc with
    | some a => a.commit n d
    | none => evaluation n d)

/-- Evaluation and adoption at the tick for a table without an axis task (R637). -/
def tickEvaluation (n : Fin 256) (k : Nat) (d : Dev) : Dev := seaDone n (evalFor n k (k - 1) (adoptFor n k d))

/-! ## Ring compares (R402) -/

/-- A ring compare unit fires: what it does to its registers. -/
def fireUnit (r : Nat) (d : Dev) : Dev :=
  let d := (d.incWS pgSGU r SGU.RSENT).wrS pgSGU r SGU.PEND 1
  let d := raise pgSGU 2 r d
  if d.rdS pgSGU (adopted r) SGU.RMODE = 2 then
    let v := d.pairI pgSGU (adopted r) SGU.RVALLO.off + d.pairI pgSGU (adopted r) SGU.RSTEPLO.off
    let d := (d.wr64 pgSGU r SGU.RVALLO.off (toBits 64 v)).wr64 pgSGU (adopted r) SGU.RVALLO.off (toBits 64 v)
    let num := d.rdS pgSGU (adopted r) SGU.RNUM
    if num = 0 then d
    else
      let d := (d.wrS pgSGU r SGU.RNUM (num - 1)).wrS pgSGU (adopted r) SGU.RNUM (num - 1)
      if num = 1 then d.wrS pgSGU r SGU.ARMED 0 else d
  else d.wrS pgSGU r SGU.ARMED 0

/-- What R402 finds for one unit: nothing, behind and waiting, or a firing at a time (with BEHIND where it is behind). -/
inductive CompareFound where
  | nothing
  | behind
  | fires (t : Nat) (behind : Bool)
deriving DecidableEq, Repr

/-- The evaluation of one unit. -/
def Task.evalUnit (t : Task) (r : Nat) : CompareFound :=
  let d := t.d
  let f := fun (g : Fld) => d.rdS pgSGU (adopted r) g
  let dp := t.x.dp
  let x0 := t.x.pAct + dp
  let rv := d.pairI pgSGU (adopted r) SGU.RVALLO.off
  let admitted := decide (dp ≠ 0) && !(f SGU.RDIR == 1 && decide (dp < 0)) && !(f SGU.RDIR == 2 && decide (0 < dp))
  if !(d.onS pgSGU r SGU.ARMED && f SGU.RMODE != 0 && f SGU.RAX == t.n.val && admitted) then .nothing
  else if t.x.just.contains r ∧ (rv - x0) * dp ≤ 0 then (if f SGU.RBPOL = 0 then .behind else .fires 0 true)
  else if 0 < (rv - x0) * dp ∧ 0 ≤ (x0 + dp - rv) * dp then .fires (divTrunc ((rv - x0) * d.period) dp).toNat false
  else .nothing

/-- The units of the table in number order, to the first firing. -/
def Task.ringCompare : List Nat → Task → Task × Option (Nat × Nat)
  | [], t => (t, none)
  | r :: rs, t =>
    let note := fun (d : Dev) => raise pgSGU 0 r (d.wrS pgSGU r SGU.BEHIND 1)
    match t.evalUnit r with
    | .nothing => Task.ringCompare rs t
    | .behind => Task.ringCompare rs { t with d := note t.d }
    | .fires c b =>
      let d := fireUnit r (if b then note t.d else t.d)
      ({ t with d := d, x := { t.x with fired := t.x.fired ++ [16 * t.k + r] } }, some (t.d.rdS pgSGU (adopted r) SGU.RCMPO, c))

/-! ## Stage SUP (R213 to R224) -/

/-- The faults SUP adds to those the stages found (*Axis faults*). -/
def Task.supFaults (t : Task) : Task :=
  let hold := t.d.on pgSAF SAF.HOLD
  let t := { t with faults := t.faults.filter fun c => c != 0x24 || t.st == axRUN }.faultIf (hold && !t.x.stopSeen) 0x07
  let t := { t with x := { t.x with stopSeen := hold, pend := [] } }
  if t.st = axMOORED then t
  else
    let felim := t.par AXP.FELIM
    let lo := t.d.pairI t.pg (adopted 0) AXP.PLIMLOLO.off
    let hi := t.d.pairI t.pg (adopted 0) AXP.PLIMHILO.off
    (t.faultIf (t.plRan && felim != 0 && decide ((felim : Int) < |t.x.ferr|)) 0x20).faultIf
      (t.flag AXP.PLIMEN && (decide (t.x.pAct < lo) || decide (hi < t.x.pAct))) 0x21

/-- Class of a fault code: 3 is A, 2 is B, 1 is C. -/
def faultClass (c : Nat) : Nat := if c < 0x10 then 3 else if c < 0x20 then 2 else 1

/-- The highest class of a list of faults, and the lowest code of that class (R222). -/
def worstFault (fs : List Nat) : Option (Nat × Nat) :=
  let h := fs.foldl (fun m c => max m (faultClass c)) 0
  let l := fs.filter fun c => faultClass c == h
  match l with
  | [] => none
  | c :: cs => some (h, cs.foldl min c)

/-- The device gets the axis state of a task, with the flags of its stages. -/
def Task.commitState (t : Task) : Dev :=
  let d := t.d.setAx t.n { t.x with ready := false, just := [] }
  let pg := t.pg
  let d := ((d.wr pg AXP.AWV (b2n t.awV)).wr pg AXP.AWD (b2n t.awD)).wr pg AXP.AWQ (b2n t.awQ)
  let d := (d.wr pg AXP.STALE (b2n !t.fresh)).wr pg AXP.HKMAX t.hkMax
  let d := t.index.write pg ((d.wr pg AXP.STALEC t.staleC).wr pg AXP.FROZC t.frozC)
  let d := if t.aov then axEvent t.n 8 (d.wr pg AXP.AOV 1) else d
  if t.seaRan then
    seaCommit t.n t.learningError t.sea t.live d
  else d

/-- A stop that began in this task starts from its set-point (R271). -/
def Task.handStop (t : Task) (d : Dev) : Dev :=
  if t.x.stopNow then
    let d := d.mapAx t.n fun x => { x with stopNow := false }
    if t.par AXP.SPSRC = 0 then d
    else d.mapProf t.n fun p => { p with p := t.x.pSet * 65536, v := (t.x.pSet - t.pSet0) * 65536, a := 0, staged := t.x.pSet }
  else d

/-- The class B reaction moors in this task, or goes on (R219). -/
def Task.brakeEnd (t : Task) (d : Dev) : Dev :=
  let n := t.x.brakeN + 1
  if |t.x.wO| < (t.par AXP.OBMINV * 2 ^ 15 : Nat) ∨ t.par AXP.OBTMAX ≤ n then
    moorAxis t.n (d.wr t.pg AXP.FLATCH 1)
  else d.mapAx t.n fun x => { x with brakeN := n }

/-- Into FAULT: the generator ends its move, a path group loses its member (R270, R291). -/
def enterFault (n : Fin 256) (d : Dev) : Dev := setAxState n axFAULT (profEnd n (groupMemberLost n d))

/-- The reaction to the faults of a task (R216, R217, R222, R223). -/
def Task.react (t : Task) (d : Dev) : Dev :=
  let brakeOn := fun (d : Dev) => t.brakeEnd (d.wr t.pg AXP.OBSC 1)
  match worstFault t.faults with
  | none => if t.brake then brakeOn d else d
  | some (h, code) =>
    let logged := axEvent t.n 1 (d.wr t.pg AXP.FCODE code)
    if t.st = axMOORED then logged.wr t.pg AXP.FLATCH 1
    else if h = 3 ∨ t.moorNow then moorFault t.n code d
    else if t.brake then brakeOn (if t.st = axFAULT then logged else enterFault t.n logged)
    else if t.st = axFAULT then logged
    else
      (enterFault t.n logged).mapAx t.n fun x =>
        { x with qsP := t.x.pSet * 65536, qsU := (t.x.pSet - t.pSet0) * 65536, brkOnN := 0 }

/-- The end of a motion of the generator: READY (R211). The end of a stop or quick stop: cycles with BRK = 0, then MOORED, or
READY after HALT (R213, R214, R220). The second part says whether the command carries BRK = 0. -/
def Task.stopEnd (t : Task) (d : Dev) : Dev × Bool :=
  let hold := fun (latch : Bool) =>
    if t.par AXP.BRKON ≤ t.x.brkOnN then (moorAxis t.n (if latch then d.wr t.pg AXP.FLATCH 1 else d), false)
    else (d.mapAx t.n fun x => { x with brkOnN := x.brkOnN + 1 }, true)
  if d.axState t.n ≠ t.st then (d, false)
  else if d.moveOver t.n then (setAxState t.n axREADY d, false)
  else if t.st = axSTOPPING ∧ !t.x.stopNow ∧ (d.prof t.n).run = .none then
    if t.x.disabling then hold false else (setAxState t.n axREADY d, false)
  else if t.quick ∧ t.x.qsU = 0 then hold true
  else (d, false)

/-- The command record of the task (*Command record by state*). -/
def Task.record (t : Task) (cmp : Option (Nat × Nat)) (brkOff : Bool) (d : Dev) : CmdRec :=
  let (v, o, c) := match cmp with
    | some (o, c) => (true, o, c)
    | none => (false, 0, 0)
  if d.axState t.n = axMOORED then { CmdRec.moored t.x.cseq with cmpv := v, cmpo := o, cmpt := c }
  else
    { hold := false, moor := false, en := true,
      brk := !(brkOff || (d.axState t.n == axREADY && decide (t.x.brkOffN ≠ 0))),
      cmpv := v, cmpo := o, cseq := t.x.cseq, da := t.x.da, db := t.x.db, dc := t.x.dc, cmpt := c }

/-- Stage SUP and the commit (R167). -/
def stageSup (t : Task) : Dev :=
  let t := t.supFaults
  let (t, cmp) := t.ringCompare (List.range 16)
  let d := t.react (t.handStop t.commitState)
  let (d, brkOff) := t.stopEnd d
  let c := t.record cmp brkOff d
  let d := d.mapAx t.n fun x => { x with cmd := some c, brkOffN := x.brkOffN - 1 }
  t.posts.foldl (fun (d : Dev) (p : Nat × Nat) => postEvent p.1 p.2 d) (showAxis t.n d)

/-! ## The task (R165) -/

/-- The axis task of table `n`: evaluation and adoption, the stages, SUP. -/
def runKernel (n : Fin 256) (d : Dev) : Dev :=
  let k := d.cyc
  stageSup (kernelStages (Task.start n k (taskEvaluated n d)))

/-- CPC of the pair that ran the task of table `n` shows kernel ROM code (*CEP.CPC*). -/
def kernelPc (n : Fin 256) (d : Dev) : Dev :=
  match d.tsu.assign.find? (fun (a : Nat × Nat) => a.1 == n.val) with
  | some a => (d.wr (pgCep a.2) CEP.PC 0x8000).wr (pgCep a.2) CEP.HOOK 0
  | none => d

/-- Axis tasks count their DONE and the cycle's last one (R332, R368). -/
def taskEnded (n : Fin 256) (t : Nat) (d : Dev) : Dev :=
  let d := kernelPc n d
  let tsu := { d.tsu with ended := d.tsu.ended ++ [n.val], lastDone := some (max t (d.tsu.lastDone.getD 0)) }
  serveAxis (d.pairOf n) (({ d with tsu := tsu }.incWS pgTSU n TSU.RUNS).wrS pgTSU n TSU.TSTATE 0)

/-- AXIS_TASK_RUN: the task of table `n` reaches DONE at time `t`; it runs only where the scheduler would run it. -/
def axisTaskRun (n : Fin 256) (t : Nat) (d : Dev) : Dev :=
  if d.taskRunnable n then taskEnded n t (runKernel n (d.at t)) else d

end Sys2Proof.Machine
end

