-- ==== Sys2Proof/Machine/Link.lean ====
section
/-! DEFINITION. What the rings, the safe chain, the stages and the head pair share: ring state by ring, the windows of a cycle,
frame headers, ordered sets, the role of the head (R33, R75, R82, R487, R573). -/
namespace Sys2Proof.Machine

/-! ## Rings -/

def Dev.rg (d : Dev) (r : Fin 4) : RingDyn := d.ring[r]
def Dev.setRg (r : Fin 4) (x : RingDyn) (d : Dev) : Dev := { d with ring := d.ring.set r x }
def Dev.mapRg (r : Fin 4) (f : RingDyn → RingDyn) (d : Dev) : Dev := d.setRg r (f (d.rg r))

/-- Apply `f` to every ring, A to D. -/
def Dev.eachRing (f : Fin 4 → Dev → Dev) (d : Dev) : Dev :=
  (List.finRange 4).foldl (fun (d : Dev) (r : Fin 4) => f r d) d

/-- Ring states (*RING.RSTAT*). -/
def rsOFF : Nat := 0
def rsLISTEN : Nat := 1
def rsCOLDSTART : Nat := 2
def rsINTEGRATE : Nat := 3
def rsSYNC : Nat := 4
def rsPASSIVE : Nat := 5

def Dev.rstate (d : Dev) (r : Nat) : Nat := d.rd (pgRing r) RING.RSTATE
/-- Own station number on the rings: the head number (R539). -/
def Dev.myst (d : Dev) : Nat := d.rd pgSYS SYS.HEAD
/-- INSERT of a ring is driven high. -/
def Dev.inserted (d : Dev) (r : Nat) : Bool := d.on (pgRing r) RING.INS
/-- Every ring INSERT pin is low. -/
def Dev.insertsLow (d : Dev) : Bool := (List.range 4).all fun r => !d.inserted r
/-- Rings the Quinas image configures: those with a slot table. -/
def Dev.ringUsed (d : Dev) (r : Nat) : Bool := d.on (pgRing r) RING.NSLOT
/-- Rings that feed configured axes. -/
def Dev.ringFeeds (d : Dev) (r : Nat) : Bool :=
  d.activeAxes.any fun (n : Fin 256) => d.rd (pgAxp n) AXP.RING == r && (d.stepChannel n).isNone

/-- The lanes are powered: LANTERN and FULL (R69). -/
def Dev.lanesOn (d : Dev) : Bool := d.stage != 0
/-- Is a lane's unit present in the configuration (R20)? Bit 1 of the code takes rings C and D away, bit 2 the system link. -/
def Dev.fitted (d : Dev) : Lane → Bool
  | .ring r _ => !(bitOf d.conf 1 && decide (2 ≤ r.val))
  | .sys _ => !bitOf d.conf 2
/-- Has a lane block lock (R68)? -/
def Dev.locked (d : Dev) : Lane → Bool
  | .ring r p => d.on (pgRing r) (if p == Port.e then RING.LOCKE else RING.LOCKW)
  | .sys p => d.on pgSYS (if p == Port.e then SYS.LOCKE else SYS.LOCKW)
/-- A lane is powered and present, and may send (R20, R69). -/
def Dev.sends (d : Dev) (l : Lane) : Bool := d.lanesOn && d.fitted l
/-- A lane is powered and present, and its receive port has block lock: what arrives is received and forwarded (R69). -/
def Dev.hears (d : Dev) (l : Lane) : Bool := d.sends l && d.locked l

/-! ## The windows of a cycle (*Cycle windows*), in ST LSB from the tick -/

/-- A time of the 32 kHz column in units of 1/8 µs, scaled to a rate; `fast` is the 64 kHz figure in the same units. -/
def windowAt (rate slow fast : Nat) : Nat := 2000 * (if rate = 0 then fast else slow * 2 ^ (rate - 1))

def upStart (rate : Nat) : Nat := windowAt rate 8 4
def upEnd (rate : Nat) : Nat := windowAt rate 72 36
def mirrorEnd (rate : Nat) : Nat := windowAt rate 80 40
def cwdTime (rate : Nat) : Nat := windowAt rate 160 80
def cmdEnd (rate : Nat) : Nat := windowAt rate 188 94
def asyncStart (rate : Nat) : Nat := windowAt rate 192 96
def asyncEnd (rate : Nat) : Nat := windowAt rate 228 107
def nitStart (rate : Nat) : Nat := windowAt rate 230 109

def Dev.rate (d : Dev) : Nat := d.rd pgTIM TIM.RATE
/-- ST of the tick of the present cycle. -/
def Dev.tickSt (d : Dev) : Nat := d.cyc * d.period
/-- One SU is 80 LSB (5 ns). -/
def suLsb : Nat := 80

/-! ## Frame headers (R82) -/

/-- The header of a frame. -/
structure Hdr where
  type : Nat
  src : Nat
  rcc : Nat
  len : Nat
  dirf : Nat
  stopf : Bool
  srcx : Nat
  epoch : Nat
deriving DecidableEq, Repr

/-- Bits [47:0] of a header. -/
def Hdr.low (h : Hdr) : Nat :=
  h.type % 16 + h.src % 64 * 2 ^ 4 + h.rcc % 64 * 2 ^ 10 + h.len % 512 * 2 ^ 16 + h.dirf % 2 * 2 ^ 25 + b2n h.stopf * 2 ^ 26 +
  h.srcx % 8 * 2 ^ 27 + h.epoch % 65536 * 2 ^ 32

/-- HCRC of 48 header bits. -/
def hcrcOf (low : Nat) : Nat := crc8 (bytesLE 6 low)

/-- The 56 header bits with their HCRC. -/
def Hdr.bits (h : Hdr) : BitVec 56 := BitVec.ofNat 56 (h.low + hcrcOf h.low * 2 ^ 48)

/-- The header that 56 bits spell. -/
def hdrOf (b : BitVec 56) : Hdr :=
  let x := b.toNat
  { type := bitsOf x 0 4, src := bitsOf x 4 6, rcc := bitsOf x 10 6, len := bitsOf x 16 9, dirf := bitsOf x 25 1,
    stopf := bitOf x 26, srcx := bitsOf x 27 3, epoch := bitsOf x 32 16 }

/-- Is HCRC right? -/
def hcrcOk (b : BitVec 56) : Bool := hcrcOf (b.toNat % 2 ^ 48) == b.toNat / 2 ^ 48

/-- Frame types (*Frame types*). -/
def ftCOMMAND : Nat := 1
def ftAXIS : Nat := 2
def ftIO : Nat := 3
def ftSYNC : Nat := 4
def ftMIRROR : Nat := 5
def ftASYNC : Nat := 6
def ftCOLDSTART : Nat := 7
def ftRANGING : Nat := 8

/-! ## Ordered sets (R75 to R78) -/

/-- An ordered set out of both ports of a ring, or of the system link, where the lanes send. -/
def osRing (r : Fin 4) (code : Byte) (arg : Nat) (d : Dev) : Dev :=
  if d.sends (.ring r .e) then
    (d.transmit (.os (.ring r .e) code (BitVec.ofNat 48 arg))).transmit (.os (.ring r .w) code (BitVec.ofNat 48 arg))
  else d
def osSys (code : Byte) (arg : Nat) (d : Dev) : Dev :=
  if d.sends (.sys .e) then
    (d.transmit (.os (.sys .e) code (BitVec.ofNat 48 arg))).transmit (.os (.sys .w) code (BitVec.ofNat 48 arg))
  else d

/-- The device number of this head (R109). -/
def Dev.deviceNo (d : Dev) : Nat := 2 * d.rd pgSYS SYS.SIDX + d.myst

/-- The originating station that ordered sets of this head name on a lane: its station number on a ring, bits [5:0] of its device
number on the system link (R75, R109; notes/assumptions/79.md). -/
def Dev.osOrigin (d : Dev) : Lane → Nat
  | .ring _ _ => d.myst
  | .sys _ => d.deviceNo % 64

/-- STOP into both ports of every ring and of the system link (R78). -/
def sendStop (d : Dev) : Dev :=
  let d := d.eachRing fun (r : Fin 4) (d : Dev) => osRing r 0x01 (d.myst + 64 * r.val) d
  osSys 0x01 (d.osOrigin (.sys .e)) d

/-! ## Roles (R487, R573) -/

def roNONE : Nat := 0
def roACTIVE : Nat := 1
def roSTANDBY : Nat := 2
def roSILENT : Nat := 3
def roALONE : Nat := 4

def Dev.role (d : Dev) : Nat := d.rd pgRED RED.ROLE
/-- ACTIVE or ALONE. -/
def Dev.commanding (d : Dev) : Bool := d.role == roACTIVE || d.role == roALONE

/-- DISAGREE of every page that holds requests clears (R573). -/
def clearDisagree (d : Dev) : Dev :=
  let d := (((d.wr pgSAF SAF.DISAGREE 0).wr pgTIM TIM.DISAGREE 0).wr pgTSU TSU.DISAGREE 0).wr pgRED RED.DISAGREE 0
  let d := d.each (List.range 8) fun g d => d.wr (pgPgrp g) PGRP.DISAGREE 0
  let d := d.each (List.range 16) fun r d => d.wrS pgSGU r SGU.DISAGREE 0
  d.each (List.range 256) fun n d =>
    let d := d.wr (pgAxp n) AXP.DISAGREE 0
    (d.wrS pgPRF n PRF.DISAGREE 0).wrS pgSEA n SEA.STAT_DISAGREE 0

/-- Moor every configured axis table (R534, R487). -/
def moorAll (d : Dev) : Dev := d.eachAxis moorAxis

/-- A ranging that is due is the commanding head's (R95): a head in STANDBY or SILENT forgets it. -/
def dropRanging (r : Fin 4) (d : Dev) : Dev := d.mapRg r fun g => { g with wantRange := false, loopMoved := false, rangeNow := false }

/-- The role changes: ROLE_CHANGE, and what the new role brings by itself (R487, R526, R573). -/
def setRole (new : Nat) (d : Dev) : Dev :=
  let old := d.role
  if old = new then d
  else
    let d := d.wr pgRED RED.ROLE new
    let d := if new = roACTIVE ∨ new = roALONE then clearDisagree d else d
    let d := if new = roNONE ∨ new = roSILENT then moorAll d else d
    let d := if new = roSTANDBY ∨ new = roSILENT then d.eachRing dropRanging else d
    raise pgRED 0 (new + 8 * old) d

end Sys2Proof.Machine
end

