-- ==== Sys2Proof/Machine/Safe.lean ====
section
/-! DEFINITION. The safe chain (R410 to R414, R421, R422). -/
namespace Sys2Proof.Machine

def Dev.safeMap (f : Safe → Safe) (d : Dev) : Dev := { d with safe := f d.safe }

/-- Levels of safe input `n`: channel A and channel B at their stop level. -/
def Dev.stopA (d : Dev) (n : Fin 4) : Bool := !d.safe.pins[n].1
def Dev.stopB (d : Dev) (n : Fin 4) : Bool :=
  if d.on pgSAF (SAF.SIMODE.nth 4 n) then d.safe.pins[n].2 else !d.safe.pins[n].2
def Dev.sien (d : Dev) (n : Fin 4) : Bool := d.on pgSAF (SAF.SIEN.nth 4 n)
/-- An enabled input that reads OK. -/
def Dev.safeOk (d : Dev) (n : Fin 4) : Bool := d.sien n && !d.stopA n && !d.stopB n

/-- Bit `i` of a field set or cleared. -/
def Dev.wrBit (page : Nat) (f : Fld) (i : Nat) (v : Bool) (d : Dev) : Dev := d.wr page ⟨f.off, f.lsb + i, 1⟩ (b2n v)
def Dev.rdBit (d : Dev) (page : Nat) (f : Fld) (i : Nat) : Bool := bitOf (d.rd page f) i

/-- SIOK shows the inputs live; an input that is not OK starts its SDEB period anew. -/
def showSafe (d : Dev) : Dev :=
  (List.finRange 4).foldl (fun (d : Dev) (n : Fin 4) =>
    let ok := d.safeOk n
    let d := d.wrBit pgSAF SAF.SIOK n ok
    d.safeMap fun s => { s with okSince := s.okSince.set n (if ok then some ((s.okSince[n]).getD d.st) else none) }) d

/-- STO output `n` is driven to a level; its feedback follows unless it is found to differ (R411). -/
def setSto (n : Fin 4) (level : Bool) (d : Dev) : Dev :=
  let d := pinEdge (0x88 + n.val) level d.st (d.wrBit pgSAF SAF.STOOUT n level)
  if d.safe.fbBad[n] then d else d.wrBit pgSAF SAF.STOFB n level

/-- The STO outputs at a trip: low at once with STODLY = 0, otherwise when the timer ends (R412). -/
def tripSto (d : Dev) : Dev :=
  (List.finRange 4).foldl (fun (d : Dev) (n : Fin 4) =>
    if !d.rdBit pgSAF SAF.STOOUT n then d
    else if d.rd pgSAF (SAF.STODLY.nth 4 n) = 0 then setSto n false d
    else d.safeMap fun s => { s with timer := s.timer.set n true }) d

/-- A cause of R411: its bit of SLATCH is set; from released to holding it is a trip. -/
def safTrip (cause : Nat) (f : Fld) (i : Nat) (d : Dev) : Dev :=
  let d := d.wrBit pgSAF f i true
  if d.on pgSAF SAF.HOLD then d
  else
    let d := (d.wr pgSAF SAF.HOLD 1).wr pgSAF SAF.CAUSE cause
    let d := (d.wr64 pgSAF 0 SAF.STRIPLO.off d.st).incW pgSAF SAF.TRIPS
    raise pgSAF 0 cause (tripSto (sendStop d))

/-- The discrepancy of an input clears once both channels show their stop level together (R410). -/
def clearDisc (n : Fin 4) (d : Dev) : Dev :=
  if d.stopA n && d.stopB n then d.safeMap fun s => { s with disc := s.disc.set n false } else d

/-- New levels of a safe input. -/
def setSafePins (n : Fin 4) (a b : Bool) (d : Dev) : Dev :=
  let d := pinEdge (0x81 + 2 * n.val) b d.st (pinEdge (0x80 + 2 * n.val) a d.st d)
  clearDisc n (showSafe (d.safeMap fun s => { s with pins := s.pins.set n (a, b) }))

/-- SAFE_INPUT_DEMAND (R410): a channel at its stop level for SFILT. -/
def safeInputDemand (n : Fin 4) (a b : Bool) (d : Dev) : Dev :=
  let d := setSafePins n a b d
  if d.sien n && (d.stopA n || d.stopB n) then safTrip 2 SAF.DEMAND n d else d

/-- SAFE_INPUT_OK (R410). -/
def safeInputOk (n : Fin 4) (a b : Bool) (d : Dev) : Dev := setSafePins n a b d

/-- SAFE_DISCREPANCY (R410): the channels have disagreed for DISC. -/
def safeDiscrepancy (n : Fin 4) (d : Dev) : Dev :=
  if d.sien n && (d.stopA n != d.stopB n) then
    let d := raise pgSAF 2 2 (d.safeMap fun s => { s with disc := s.disc.set n true })
    safTrip 3 SAF.DISCL n d
  else d

/-- STO_FB_MISMATCH and STO_FB_MATCH (R411). -/
def stoFbMismatch (n : Fin 4) (d : Dev) : Dev :=
  let d := (d.safeMap fun s => { s with fbBad := s.fbBad.set n true }).wrBit pgSAF SAF.STOFB n (!d.rdBit pgSAF SAF.STOOUT n)
  safTrip 4 SAF.STOFBL n (raise pgSAF 3 3 d)
def stoFbMatch (n : Fin 4) (d : Dev) : Dev :=
  (d.safeMap fun s => { s with fbBad := s.fbBad.set n false }).wrBit pgSAF SAF.STOFB n (d.rdBit pgSAF SAF.STOOUT n)

/-- STO_DELAY_EXPIRE (R412). -/
def stoDelayExpire (n : Fin 4) (d : Dev) : Dev :=
  if d.on pgSAF SAF.HOLD && d.safe.timer[n] then
    setSto n false (d.safeMap fun s => { s with timer := s.timer.set n false })
  else d

/-- A STOP ordered set of another station (R79, R411 cause 5): sets from a node count against a RELEASE. -/
def safRing (org : Nat) (d : Dev) : Dev :=
  let d := if 2 ≤ org then d.safeMap fun s => { s with nodeStop := some d.st } else d
  safTrip 5 SAF.RING 0 d

/-- SDEB in ST LSB. -/
def Dev.sdeb (d : Dev) : Nat := d.rd pgSAF SAF.SDEB * 1600000

/-- The conditions of RELEASE (R413). -/
def Dev.mayRelease (d : Dev) : Bool :=
  let past := fun (t : Option Nat) => match t with
    | some t0 => decide (t0 + d.sdeb ≤ d.st)
    | none => false
  d.stage != 0 &&
  ((List.finRange 4).all fun (n : Fin 4) =>
    (!d.sien n || past d.safe.okSince[n]) && !d.safe.disc[n] && !d.safe.fbBad[n]) &&
  (d.safe.nodeStop.isNone || past d.safe.nodeStop)

/-- The chain is released: SLATCH clears, the STO outputs in use go high, STOP is sent no more (R412, R413). -/
def safReleased (d : Dev) : Dev :=
  let d := (d.setReg pgSAF 0 SAF.DEMAND.off 0).wr pgSAF SAF.HOLD 0
  let d := d.safeMap fun s => { s with timer := Vector.replicate 4 false }
  let d := (List.finRange 4).foldl (fun (d : Dev) (n : Fin 4) =>
    setSto n (d.on pgSAF (SAF.STOEN.nth 4 n)) d) d
  let d := d.eachRing fun (r : Fin 4) (d : Dev) => (d.wr (pgRing r) RING.STOPRX 0).wr (pgRing r) RING.STOPORG 0
  raise pgSAF 1 1 d

/-- RELEASE_EVAL (R413): at the tick of cycle `k`. -/
def safTick (k : Nat) (d : Dev) : Dev :=
  match d.safe.release with
  | none => d
  | some c =>
    if k < c then d
    else
      let d := d.safeMap fun s => { s with release := none }
      if d.mayRelease then settleCmd pgSAF rOK (safReleased d) else settleCmd pgSAF rSTATE d

/-- A RELEASE that a drop to KEEPER cuts off ends with E_STATE. -/
def safCut (d : Dev) : Dev :=
  match d.safe.release with
  | none => d
  | some _ => settleCmd pgSAF rSTATE (d.safeMap fun s => { s with release := none })

/-- A command reaches the SAF page (R413, R414, R422). -/
def landSaf (code arg : Nat) (d : Dev) : Dev :=
  match code with
  | 0x01 => takeCmd pgSAF code arg (fun d => checks (d.stage != 0) true) (safTrip 6 SAF.TRIPC 0) d
  | 0x02 =>
    if d.on pgSAF HDR.BUSY ∨ d.stage = 0 then takeCmd pgSAF code arg (fun _ => rSTATE) id d
    else (deferCmd pgSAF code arg d).safeMap fun s => { s with release := some d.evalCycle }
  | 0x03 => takeCmd pgSAF code arg (fun _ => rOK) (fun d => d.setReg pgSAF 0 SAF.TRIPS.off 0) d
  | _ => takeCmd pgSAF code arg (fun _ => rCODE) id d

end Sys2Proof.Machine
end

