-- ==== Sys2Proof/Machine/Image.lean ====
section
/-! DEFINITION. Slot tables (R49 to R51, R91, R636) and the checks of a Quinas image (R541, *Image checks*).

The image stands as bytes in the engine images and configuration region of DRAM; multi-byte header fields are little-endian
(notes/assumptions/5.md). What its sections hold comes with the command (notes/assumptions/6.md). -/
namespace Sys2Proof.Machine

/-! ## Slots -/

/-- A slot table entry (*RING.SLT000 to RING.SLT255*). -/
structure Slot where
  ap : Nat
  len : Nat
  type : Nat
  holder : Nat
  mexp : Nat
  base : Nat
  piofs : Nat
deriving DecidableEq, Repr

/-- The entry that a pair of words holds. -/
def slotOf (x : Nat) : Slot :=
  { ap := bitsOf x 0 15, len := bitsOf x 16 9, type := bitsOf x 25 4, holder := bitsOf x 30 6, mexp := bitsOf x 36 3,
    base := bitsOf x 39 6, piofs := bitsOf x 45 16 }

/-- The 64 bits of an entry with every RSVD field 0 (R636). -/
def Slot.word (s : Slot) : Nat :=
  s.ap + s.len * 2 ^ 16 + s.type * 2 ^ 25 + s.holder * 2 ^ 30 + s.mexp * 2 ^ 36 + s.base * 2 ^ 39 + s.piofs * 2 ^ 45

/-- Entry `n` of the slot table of a ring. -/
def Dev.slot (d : Dev) (r n : Nat) : Slot := slotOf (d.rd64 (pgRing r) 0 (0x400 + 8 * n))

/-- The entries of a ring, in table order. -/
def Dev.slots (d : Dev) (r : Nat) : List Slot := (List.range (d.rd (pgRing r) RING.NSLOT)).map fun n => d.slot r n

/-- Does the holder transmit in cycles with ring cycle count `c` (R49)? -/
def Slot.turn (s : Slot) (c : Nat) : Bool := c % 64 % 2 ^ s.mexp == s.base

/-- Wire time of the whole frame at the holder, SOF to EOF, in ST LSB: (LEN + 2) blocks of 2.64 SU, 211.2 LSB each, rounded up
(R37). -/
def Slot.wire (s : Slot) : Nat := ((s.len + 2) * 2112 + 9) / 10

/-- Bytes the frame counts for R25. -/
def Slot.bytes (s : Slot) : Nat := (s.len + 4) * 8

/-- Is the slot in the upstream window of a rate? -/
def Slot.upstream (rate : Nat) (s : Slot) : Bool := decide (upStart rate ≤ s.ap * 80) && decide (s.ap * 80 < upEnd rate)

/-- SHASH (R636). -/
def slotHash (l : List Slot) : Nat := crc32c (l.flatMap fun s => bytesLE 8 s.word)

/-! ## Limits of a configuration (check 9 of *Image checks*) -/

/-- The greatest upstream traffic of a ring over the 64 values of the ring cycle count, in bytes (R25). -/
def upstreamBytes (rate : Nat) (l : List Slot) : Nat :=
  ((List.range 64).map fun c =>
    ((l.filter fun (s : Slot) => s.upstream rate && s.turn c).map Slot.bytes).foldl (· + ·) 0).foldl max 0

/-- The command traffic of a ring per cycle (R25). -/
def commandBytes (l : List Slot) : Nat := ((l.filter fun (s : Slot) => s.type == ftCOMMAND).map Slot.bytes).foldl (· + ·) 0

/-- R25 and R34. -/
def trafficOk (rate : Nat) (l : List Slot) : Bool :=
  decide (upstreamBytes rate l ≤ if rate = 0 then 1500 else 3000) &&
  decide (commandBytes l ≤ if rate = 0 then 1050 else 2100)

/-- Two holders of one slot never meet (R51); a slot is known by its action point. -/
def shareOk : List Slot → Bool
  | [] => true
  | s :: l =>
    (l.all fun (t : Slot) =>
      let m := min (2 ^ s.mexp) (2 ^ t.mexp)
      s.ap != t.ap || s.base % m != t.base % m) && shareOk l

/-- Only IO slots and slots of the async window are multiplexed (R50). -/
def multiplexOk (l : List Slot) : Bool :=
  l.all fun (s : Slot) => s.mexp == 0 || s.type == ftIO || s.type == ftASYNC || s.type == ftRANGING

/-- Beacon slots (R127): one for each head, at most 15 held by nodes. With an unpaired image one head suffices. -/
def beaconOk (paired : Bool) (l : List Slot) : Bool :=
  let n := fun (p : Nat → Bool) => (l.filter fun (s : Slot) => s.type == ftSYNC && p s.holder).length
  let h0 := n fun h => h == 0
  let h1 := n fun h => h == 1
  decide (h0 ≤ 1) && decide (h1 ≤ 1) && (if paired then h0 + h1 == 2 else decide (1 ≤ h0 + h1)) &&
  decide (n (fun h => decide (2 ≤ h)) ≤ 15)

/-- The field limits of a slot entry. -/
def slotOk (s : Slot) : Bool := decide (s.ap ≤ 24999) && decide (s.mexp ≤ 6) && decide (s.base < 2 ^ s.mexp)

/-- *Capacity per rate* (R35): axes of the device, and axes per working pair. -/
def capacity (conf rate : Nat) : Nat := min 256 (64 * 2 ^ rate) / (if conf % 2 = 0 then 1 else 2)
def perPair (rate : Nat) : Nat := min 16 (4 * 2 ^ rate)

/-- The mirror budget (R492): `nr` rings, `nn` axis tables that are not local. -/
def activeShare (rate : Nat) : Nat := match rate with | 0 => 64 | 1 => 152 | 2 => 360 | _ => 776
def standbyShare (rate : Nat) : Nat := match rate with | 0 => 96 | 1 => 248 | 2 => 552 | _ => 1160
def mirrorOk (rate nr nn : Nat) : Bool :=
  decide (8 * ((nn + 3) / 4) + 32 ≤ nr * activeShare rate) && decide (8 + (nn + 7) / 8 + 2 * nn ≤ nr * standbyShare rate)

/-- The entries an image gives a ring. -/
def imageTable (r : ImageRing) : List Slot := r.slots.map fun (w : Word × Word) => slotOf (w.1.toNat + w.2.toNat * 2 ^ 32)

/-- The limits of one ring of an image. -/
def imageRingOk (rate : Nat) (paired : Bool) (r : ImageRing) : Bool :=
  let l := imageTable r
  decide (l.length ≤ 256) && l.all slotOk && trafficOk rate l && shareOk l && multiplexOk l && beaconOk paired l &&
  decide (bitsOf r.rcfg.toNat 8 7 ≤ 64) && decide (r.outs.length ≤ 62) &&
  (r.outs.all fun (o : Byte × Nat × Byte) => o.2.2 != 0)

/-- The word that an image leaves in a register of an axis page: that of its last entry, or the reset value. -/
def imageAxisWord (c : ImageCfg) (a : AxisId × List (BitVec 12 × Word)) (off : Nat) : Nat :=
  let own := (a.2.filter fun (o : BitVec 12 × Word) => o.1.toNat == off).map Prod.snd
  let pages := (c.pages.filter fun (w : RegRef × Word) => w.1.page == pgAxp a.1 && w.1.off == off).map Prod.snd
  ((own ++ pages).getLast?.getD (resetWord 0 (pgAxp a.1) off)).toNat

/-- Is an axis table of an image local (R17): by its feedback channel, its step channel or its master (R182)? The Season phase
makes none local at load, where every Season state is OFF. -/
def imageLocal (c : ImageCfg) (a : AxisId × List (BitVec 12 × Word)) : Bool :=
  let f := fun (g : Fld) => bitsOf (imageAxisWord c a g.off) g.lsb g.width
  f AXP.LFB == 1 || (c.steps.any fun (s : StepId × AxisId) => s.2 == a.1) || (decide (2 ≤ f AXP.SPSRC) && decide (f AXP.MKIND ≤ 2))

/-- Axis tables of an image that are not local. -/
def imageRemote (c : ImageCfg) : Nat := (c.axes.filter fun (a : AxisId × List (BitVec 12 × Word)) => !imageLocal c a).length

/-- The fields with a range that is narrower than their bits and that no other rule judges, and their limits
(notes/assumptions/139.md). -/
def fieldLimits : List (Cls × Fld × Nat × Nat) :=
  [(.axp, AXP.PAIR, 0, 17), (.sea, SEA.LEAD, 1, 31), (.sea, SEA.TLIM, 0, 0x7FFF_FFFF), (.prf, PRF.LMIN, 0, 8), (.pgrp, PGRP.NMEM, 1, 8),
   (.pgrp, PGRP.RLOG, 4, 12), (.tsu, TSU.QMAX, 0, 1792), (.fbu, FBU.NBITS, 8, 40), (.fbu, FBU.PBITS, 8, 32), (.fbu, FBU.SCLK, 1, 100),
   (.sgc, SGC.DSET, 20, 5000), (.capu, CAPU.BSIZE, 1, 2048), (.capu, CAPU.HLOG, 12, 30), (.saf, SAF.SDEB, 1, 1000),
   (.saf, SAF.STODLY, 0, 1000), (.saf, SAF.STODLY.nth 4 1, 0, 1000), (.saf, SAF.STODLY.nth 4 2, 0, 1000),
   (.saf, SAF.STODLY.nth 4 3, 0, 1000)]

/-- Does a word keep the limits of the fields of its register? -/
def fieldsOk (page off : Nat) (v : Word) : Bool :=
  fieldLimits.all fun (x : Cls × Fld × Nat × Nat) =>
    some x.1 != clsOf page || x.2.1.off != off ||
      (let n := bitsOf v.toNat x.2.1.lsb x.2.1.width
       decide (x.2.2.1 ≤ n) && decide (n ≤ x.2.2.2))

/-- The field limits of each page, and the sum of QMAX over the user flows (*Flows*). -/
def imageFieldsOk (c : ImageCfg) : Bool :=
  let qmax := fun (f : Nat) => ((c.pages.filter fun (w : RegRef × Word) =>
    w.1.page == pgTSU && w.1.off == TSU.QMAX.off && w.1.sel == f).map fun (w : RegRef × Word) =>
      bitsOf w.2.toNat TSU.QMAX.lsb TSU.QMAX.width).getLast?.getD 0
  (c.pages.all fun (w : RegRef × Word) => fieldsOk w.1.page w.1.off w.2) &&
  (c.axes.all fun (a : AxisId × List (BitVec 12 × Word)) =>
    a.2.all fun (o : BitVec 12 × Word) => fieldsOk (pgAxp a.1) o.1.toNat o.2) &&
  decide (((List.range 40).map fun i => qmax (i + 24)).sum ≤ 1792)

/-- Check 9 of *Image checks* (R25, R34, R35, R51, R127, R492 and field limits). -/
def imageCfgOk (c : ImageCfg) (conf rate : Nat) : Bool :=
  imageFieldsOk c &&
  decide (rate ≤ 3) && (c.rings.all fun (r : ImageRing) => imageRingOk rate c.paired r) &&
  decide (c.axes.length ≤ capacity conf rate) && decide (c.osize.toNat ≤ 8192) &&
  (!c.paired || mirrorOk rate c.rings.length (imageRemote c))

/-! ## The image in DRAM -/

/-- `n` bytes of the image from byte `o`, as bytes and as a number. -/
def Dev.img (d : Dev) (o n : Nat) : List Byte := d.memBytes (dramImage + o) n
def Dev.imgN (d : Dev) (o n : Nat) : Nat := d.memLE (dramImage + o) n

def Dev.imgLen (d : Dev) : Nat := d.imgN 8 4
def Dev.imgRate (d : Dev) : Nat := d.imgN 14 1
def Dev.imgFlags (d : Dev) : Nat := d.imgN 15 1

/-- The first `n` bytes with bytes 20 to 23 taken as 0. -/
def Dev.imgBody (d : Dev) (n : Nat) : List Byte := d.img 0 20 ++ [0, 0, 0, 0] ++ d.img 24 (n - 24)

/-- ICRC as computed (*Quinas image header*). -/
def Dev.imgCrc (d : Dev) : Nat := crc32c (d.imgBody d.imgLen)

/-- An entry of the section table. -/
structure Section where
  stype : Nat
  sinst : Nat
  sofs : Nat
  slen : Nat
  scrc : Nat
deriving DecidableEq, Repr

def Dev.sectionAt (d : Dev) (i : Nat) : Section :=
  let o := 0x80 + 16 * i
  ⟨d.imgN o 1, d.imgN (o + 1) 1, d.imgN (o + 4) 4, d.imgN (o + 8) 4, d.imgN (o + 12) 4⟩

/-- The section table. -/
def Dev.sections (d : Dev) : List Section := (List.range (min 64 (d.imgN 6 2))).map d.sectionAt

/-- No section meets another one behind it in the list. -/
def apart : List Section → Bool
  | [] => true
  | s :: l => (l.all fun (t : Section) => decide (s.sofs + s.slen ≤ t.sofs) || decide (t.sofs + t.slen ≤ s.sofs)) && apart l

/-- Check 8 of *Image checks*. -/
def Dev.sectionsOk (d : Dev) : Bool :=
  let l := d.sections
  let n := d.imgN 6 2
  let count := fun (t : Nat) => (l.filter fun (s : Section) => s.stype == t).length
  decide (1 ≤ n) && decide (n ≤ 64) && (l.all fun (s : Section) => decide (1 ≤ s.stype) && decide (s.stype ≤ 9)) &&
  count 1 == 1 && count 2 == 1 && count 6 == 1 &&
  ([4, 5, 7, 8, 9].all fun t => decide (count t ≤ 1)) &&
  ((List.range 4).all fun r => decide ((l.filter fun (s : Section) => s.stype == 3 && s.sinst == r).length ≤ 1)) &&
  (l.all fun (s : Section) =>
    s.sofs % 64 == 0 && decide (0x80 + 16 * n ≤ s.sofs) && decide (s.sofs + s.slen + 128 ≤ d.imgLen) &&
    (if s.stype = 3 then decide (s.sinst < (if bitOf d.conf 1 then 2 else 4)) else s.sinst == 0)) && apart l

/-- Check 3: ICRC and every SCRC; a section outside the image has none. -/
def Dev.crcsOk (d : Dev) : Bool :=
  d.imgN 20 4 == d.imgCrc &&
  (d.sections.all fun (s : Section) => decide (s.sofs + s.slen ≤ d.imgLen) && crc32c (d.img s.sofs s.slen) == s.scrc)

/-- Check 6: the key hash. -/
def Dev.keyOk (d : Dev) : Bool :=
  d.on pgOTP OTP.KSET &&
  numLE (sha256 (d.img (d.imgLen - 128) 64)) ==
    numLE ((List.range 8).flatMap fun n => bytesLE 4 (d.reg pgOTP 0 (OTP.KHASH.off + 4 * n)).toNat)

/-- Check 7: the signature. -/
def Dev.signatureOk (d : Dev) : Bool :=
  let o := d.imgLen - 128
  let part := fun (i : Nat) => numBE (d.img (o + 32 * i) 32)
  ecdsaVerify (part 0) (part 1) (part 2) (part 3) (numBE (sha256 (d.imgBody o)))

/-- *Image checks* in order: the code of the first that fails; 0 when all pass (R541). -/
def imageCheck (cfg : ImageCfg) (d : Dev) : Nat :=
  if d.img 0 4 ≠ [0x51, 0x4E, 0x53, 0x31] ∨ d.imgN 4 2 ≠ 1 then 1
  else if d.imgLen % 64 ≠ 0 ∨ d.imgLen < 4096 ∨ 16777216 < d.imgLen then 2
  else if !d.crcsOk then 3
  else if d.imgN 13 1 ≠ d.rd pgGLB GLB.CONF then 4
  else if d.imgN 12 1 < d.rd pgOTP OTP.MINVER then 5
  else if !d.keyOk then 6
  else if !d.signatureOk then 7
  else if !d.sectionsOk then 8
  else if !(imageCfgOk cfg d.conf d.imgRate && decide (d.imgN 12 1 ≤ 63)) then 9
  else 0

/-! ## Assignment of axes to pairs (R36 to R38, R371) -/

/-- The slot of an axis table's records: its holder's AXIS slot on its ring. -/
def Dev.axisSlot (d : Dev) (n : Nat) : Option Slot :=
  (d.slots (d.rd (pgAxp n) AXP.RING)).find? fun (s : Slot) => s.type == ftAXIS && s.holder == d.rd (pgAxp n) AXP.STA

/-- The key of R37: end time in tenths of an ST LSB, ring, table. -/
def Dev.assignKey (d : Dev) (n : Nat) : Nat :=
  if (d.stepChannel n).isSome then 4 * 2 ^ 8 + n
  else
    let e := match d.axisSlot n with
      | some s => 800 * s.ap + 2112 * (s.len + 2)
      | none => 0
    e * 2 ^ 16 + d.rd (pgAxp n) AXP.RING * 2 ^ 8 + n

/-- Insert a table in the order of its key. -/
def insertKey (k n : Nat) : List (Nat × Nat) → List (Nat × Nat)
  | [] => [(k, n)]
  | (k', n') :: l => if k < k' then (k, n) :: (k', n') :: l else (k', n') :: insertKey k n l

/-- Configured tables in the order of R37. -/
def Dev.assignOrder (d : Dev) : List Nat :=
  ((d.activeAxes.foldl (fun (l : List (Nat × Nat)) (n : Fin 256) => insertKey (d.assignKey n) n.val l) [])).map Prod.snd


/-- The pair of each table under an AMAP value, over the working pairs `work` (R37, R38). -/
def Dev.assignment (d : Dev) (work : List Nat) : List (Nat × Nat) :=
  let l := d.assignOrder
  if d.on pgTIM TIM.AMAP then l.map fun n => (n, d.rd (pgAxp n) AXP.PAIR)
  else l.mapIdx fun i n => (n, work.getD (i % max 1 work.length) 0)

/-- R35 and R38 at a rate. -/
def Dev.assignOk (d : Dev) (rate : Nat) (work : List Nat) : Bool :=
  let a := d.assignment work
  decide (a.length ≤ capacity d.conf rate) &&
  (!d.on pgTIM TIM.AMAP ||
    ((a.all fun (x : Nat × Nat) => work.contains x.2) &&
      work.all fun p => decide ((a.filter fun (x : Nat × Nat) => x.2 == p).length ≤ perPair rate)))

/-- Assign the axis tables (R36): PAIR is adopted. -/
def assignAxes (d : Dev) : Dev :=
  let a := d.assignment d.tsu.work
  let d := { d with tsu := { d.tsu with assign := a } }
  showPairs (a.foldl (fun (d : Dev) (x : Nat × Nat) => d.wrS (pgAxp x.1) (adopted 0) AXP.PAIR x.2) d)

end Sys2Proof.Machine
end

