-- ==== Sys2Proof/Machine/Stage.lean ====
section
/-! DEFINITION. Stages, resets, the load of an image, calibration and the one-time fuses (spec/14). -/
namespace Sys2Proof.Machine

/-! ## Stage changes -/

/-- The watchdog period begins anew (R535). -/
def restartWatchdog (d : Dev) : Dev := { d with keep := { d.keep with kicked := d.st } }

/-- With WDEN = 1, a write of 0 to it has no effect until the next drop to KEEPER (R536; notes/assumptions/138.md). -/
def lockWatchdog (d : Dev) : Dev := { d with keep := { d.keep with wdLock := d.on pgSTG STG.WDEN } }

def Dev.lstep (d : Dev) : Nat := d.rd pgSTG STG.LSTEP
def setLstep (s : Nat) (d : Dev) : Dev := d.wr pgSTG STG.LSTEP s

/-- LANTERN with LSTEP = READY (R530). -/
def Dev.ready (d : Dev) : Bool := d.lstep == 6

/-- The argument of STAGE_CHANGE (R557). -/
def Dev.stageArg (d : Dev) (old : Nat) : Nat := d.stage + 4 * old + 16 * d.rd pgSTG STG.DCAUSE

/-- The stage changes, and STAGE_CHANGE is raised. -/
def stageChange (new : Nat) (d : Dev) : Dev :=
  let old := d.stage
  let d := d.wr pgSTG STG.STAGE new
  raise pgSTG 0 (d.stageArg old) d

/-- A set and enabled PEVT bit of a page of the KEEP domain is posted (R598). -/
def postKept (page bit arg : Nat) (d : Dev) : Dev :=
  if bitOf (d.rd page HDR.PEVT) bit && bitOf (d.rd page HDR.PEVE) bit && d.on page HDR.EVO then
    postEvent (eventNo page bit) arg d
  else d

/-- What the KEEP domain posts at entry to LANTERN (R557, R598): a drop to KEEPER as STAGE_CHANGE with its own stages. -/
def flushKept (d : Dev) : Dev :=
  let d := postKept pgGLB 2 2 (postKept pgGLB 1 1 (postKept pgGLB 0 (d.rd pgGLB GLB.PAGE) d))
  let d := postKept pgSTG 0 (4 * d.keep.dropFrom + 16 * d.rd pgSTG STG.DCAUSE) d
  let d := postKept pgSTG 1 (d.rd pgSTG STG.SRCUSED) d
  let d := postKept pgSTG 2 (d.rd pgSTG STG.LFAIL) d
  let d := postKept pgSTG 3 3 d
  let d := postKept pgSTG 4 d.keep.dupAt d
  let d := postKept pgSPM 0 0 d
  let d := postKept pgSAF 0 (d.rd pgSAF SAF.CAUSE) d
  let d := postKept pgSAF 1 1 d
  let d := postKept pgSAF 2 2 d
  postKept pgSAF 3 3 d

/-! ## Drops (R533, R534, R538) -/

/-- A page of the KEEP domain (R527). -/
def isKept (page : Nat) : Bool := page == pgGLB || page == pgSTG || page == pgSAF || page == pgSPM

/-- What a drop to KEEPER clears (R534, R538): every page but those of the KEEP domain, every memory, every unit of the CORE and
MFE domains; PCTL.LOCK (R574) and SAFOWN (R592) of the pages that stay. -/
def loseCore (d : Dev) : Dev :=
  let z := Dev.reset d.conf
  let d := d.resetPages fun p => !isKept p
  let d := { d with
    st := 0, mem := [], bad := [], pairs := z.pairs, mot := z.mot, tsu := z.tsu, cap := z.cap, evt := z.evt, load := z.load,
    io := z.io, mfe := z.mfe, ring := z.ring, time := z.time, red := z.red, host := { z.host with spi := d.host.spi, reported := d.host.reported } }
  let d := d.safeMap fun s => { s with
    okSince := s.okSince.map fun o => o.map fun _ => 0, nodeStop := s.nodeStop.map fun _ => 0 }
  let d := d.each [pgGLB, pgSTG, pgSAF, pgSPM] fun p d => d.wr p HDR.LOCK 0
  d.wr pgSPM SPM.SAFOWN 0

/-- A GO_FULL or RELEASE that waits ends with E_STATE. -/
def cutWaiting (d : Dev) : Dev :=
  let d := safCut d
  if d.load.goFull then settleCmd pgSTG rSTATE { d with load := { d.load with goFull := false } } else d

/-- A drop to KEEPER (R533, R534): STOP leaves on every lane, the chain trips with cause 7, the CORE and MFE domains are lost;
after one of the watchdog KEEPER is held (R537). -/
def dropKeeper (cause : Nat) (d : Dev) : Dev :=
  let old := d.stage
  let d := cutWaiting d
  let d := if d.on pgSAF SAF.HOLD then d else sendStop d
  let d := (d.wr pgSTG STG.DCAUSE cause).wr pgSTG STG.STAGE 0
  let d := if old = 0 then d else safTrip 7 SAF.KEEPERD 0 d
  let d := if old = 0 then d else loseCore d
  let d := { d with keep := { d.keep with wdLock := false, wdWait := cause == 1 } }
  let d := if cause = 4 then d.wr pgSTG STG.PRES 0 else d
  let d := if cause = 5 then d.inc pgSTG STG.SRSTCNT else d
  let d := if old = 0 then d
    else raise pgSTG 0 (d.stageArg old) { d with keep := { d.keep with dropFrom := old, kicked := 0 } }
  showStg d

/-- A drop to LANTERN (R533, R534, R538, R513): every table moors, the Season tables clear, a commanding or checking head is
SILENT. In LANTERN already, the stage stays. -/
def dropLantern (cause : Nat) (d : Dev) : Dev :=
  let old := d.stage
  if old = 0 then d
  else
    let d := cutWaiting d
    let d := (d.wr pgSTG STG.DCAUSE cause).inc pgSTG STG.FLTCNT
    let d := seaClear (moorAll d)
    let d := if d.role = roACTIVE ∨ d.role = roALONE ∨ d.role = roSTANDBY then
        { setRole roSILENT d with red := { d.red with reply := [] } }
      else d
    let d := showPairs { d with tsu := { d.tsu with assign := [] } }
    let d := if cause = 8 then (d.wr pgSTG STG.LSTEP 7).wr pgSTG STG.LFAIL 3 else d
    if old = 2 then dropTasks (stageChange 1 d) else d

/-- The KEEP domain itself is lost (R538): only what stands on the pins remains, and what the model has sent. -/
def porstAssert (d : Dev) : Dev :=
  let z := Dev.reset d.conf
  { z with
    out := d.out, free := d.free, safe := { z.safe with pins := d.safe.pins },
    keep := { z.keep with present := d.keep.present, perst := d.keep.perst } }

/-- PORST_RELEASE (R529, R539, R552). -/
def porstRelease (headSel bootHost presentLow : Bool) (d : Dev) : Dev :=
  if !d.keep.porst then d
  else
    let d := { d with keep := { d.keep with porst := false, head := headSel, present := presentLow } }
    let d := (d.wr pgSTG STG.BSRC (b2n bootHost)).wr pgSTG STG.PRES (b2n presentLow)
    showSafe (showStg d)

/-- PERST_N low (R538). -/
def perstAssert (d : Dev) : Dev :=
  if d.keep.perst then d
  else
    let d := { d with keep := { d.keep with perst := true } }
    let d := d.inc pgSTG STG.PERSTCNT
    let d := d.resetPages fun p => p == pgHIF || p == pgDMC
    { d with
      host := { HostIf.reset with spi := d.host.spi, reported := d.host.reported },
      evt := { d.evt with msgPending := Vector.replicate 32 false } }

/-- PERST_N high: the link trains again. -/
def perstRelease (d : Dev) : Dev :=
  let d := { d with keep := { d.keep with perst := false } }
  if d.stage = 0 then d else d.wr pgHIF HIF.LUP 1

/-- A supply out of range, or the PLL out of lock (R533). -/
def supplyOut (d : Dev) : Dev := if d.stage = 0 then d else dropKeeper 2 d
def pllLoss (d : Dev) : Dev := if d.stage = 0 then d else dropKeeper 3 d

/-! ## Presence (R552, R553) -/

def presentChange (level : Bool) (d : Dev) : Dev :=
  let d := { d with keep := { d.keep with present := !level } }
  if level ∧ d.stage = 0 then showStg (d.wr pgSTG STG.PRES 0) else d

def presenceDebounced (d : Dev) : Dev :=
  if d.keep.present && !d.keep.porst then showStg (d.wr pgSTG STG.PRES 1) else d

def presenceLost (d : Dev) : Dev :=
  if d.stage = 0 then d else dropKeeper 4 { d with keep := { d.keep with present := false } }

/-! ## KEEPER to LANTERN (R529, R530, R537) -/

/-- The conditions of R529 the device itself holds; the supplies and REFCLK are the event's own. -/
def Dev.mayLeave (d : Dev) : Bool :=
  !d.keep.porst && d.stage == 0 && d.on pgSTG STG.PRES && !d.on pgSTG STG.KHOLD && !d.keep.wdWait &&
  decide (d.rd pgSTG STG.WDRUN < 3)

/-- KEEPER_EXIT (R529): LANTERN with LSTEP = POWERUP; what the KEEP domain holds is posted, then the entry itself. -/
def keeperExit (d : Dev) : Dev :=
  if d.mayLeave then
    let d := flushKept ((d.wr pgSTG STG.STAGE 1).wr pgSTG STG.LSTEP 0)
    let d := lockWatchdog { d with keep := { d.keep with kicked := d.st } }
    raise pgSTG 0 (d.stageArg 0) d
  else d

/-- The LANTERN command (R556). -/
def cmdLantern (arg : Nat) : Dev → Dev :=
  takeCmd pgSTG 0x05 arg (fun d => checks (d.stage == 0) true) fun d =>
    ({ d with keep := { d.keep with wdWait := false } }.wr pgSTG STG.KHOLD 0).wr pgSTG STG.WDRUN 0

/-- The measurement die is fitted. -/
def Dev.dieFitted (d : Dev) : Bool := !bitOf d.conf 3

/-- Lock bits of RING and SYS pages from KLOCK (R555, R118, R121). -/
def copyLocks (d : Dev) : Dev :=
  let k := d.rd pgSTG STG.RLOCK
  let d := d.each (List.range 4) fun r d =>
    (d.wr (pgRing r) RING.LOCKE (b2n (bitOf k (2 * r)))).wr (pgRing r) RING.LOCKW (b2n (bitOf k (2 * r + 1)))
  let s := d.rd pgSTG STG.SLOCK
  (d.wr pgSYS SYS.LOCKE (b2n (bitOf s 0))).wr pgSYS SYS.LOCKW (b2n (bitOf s 1))

/-- The OTP page as read at power-up (R538, R546, R560). -/
def readOtp (f : Fuse) (d : Dev) : Dev :=
  let fcal := f.fcal.toList
  let d := d.wr pgOTP OTP.FCRCOK (b2n (crc32c (fcal.flatMap fun w => bytesLE 4 w.toNat) == f.fcrc.toNat))
  let d := (d.wr pgOTP OTP.KSET (b2n f.kset)).wr pgOTP OTP.MINVER f.minver.toNat
  let d := d.wr64 pgOTP 0 OTP.DIEIDLO.off f.dieId.toNat
  let d := d.each (List.range 8) fun i d => d.setReg pgOTP 0 (OTP.KHASH.off + 4 * i) (f.khash.toList.getD i 0)
  let d := d.each (List.range 33) fun i d => d.setReg pgOTP 0 (OTP.FCAL.off + 4 * i) (fcal.getD i 0)
  d.setReg pgOTP 0 OTP.FCRC.off f.fcrc

/-- LANTERN_POWERUP_DONE (R530, R539): the domains are released, OTP is read, the tests of step 1 run. -/
def powerupDone (f : Fuse) (d : Dev) : Dev :=
  if d.stage = 1 ∧ d.lstep = 0 then
    let d := copyLocks (readOtp f d)
    let h := b2n d.keep.head
    let d := d.wr pgSYS SYS.HEAD h
    let d := d.each (List.range 4) fun r d => d.wr (pgRing r) RING.MYST h
    let d := { d with tsu := { d.tsu with work := workingPairs d.conf, spare := [16, 17] } }
    let d := (d.wr pgSTG STG.DRAMOK 0).wr pgSTG STG.SRAMOK 0
    let d := d.each (fittedPairs d.conf) fun p d => d.wr (pgCep p) CEP.PSTATE 5
    let d := if d.dieFitted then (d.setReg pgMFE 0 MFE.P5OK.off 0x1F).each (List.range 4) fun c d => d.wr (pgMfc c) MFC.CSTATE 1 else d
    let d := if d.keep.perst then d else d.wr pgHIF HIF.LUP 1
    showPairs (setLstep 1 d)
  else d

/-! ## The load of an image (R530, R541 to R544) -/

/-- A load fails (R541, R542): at boot the primary flash image gives way to the alternate; otherwise FAILED. -/
def loadFail (code : Nat) (d : Dev) : Dev :=
  let d := { d with load := { d.load with cfg := none } }
  if d.load.source = 1 ∧ !d.load.byCmd then setLstep 2 { d with load := { d.load with source := 2 } }
  else raise pgSTG 2 code ((setLstep 7 d).wr pgSTG STG.LFAIL code)

/-- IMAGE_READ_START (R530): step 2 begins from the primary flash image. -/
def imageReadStart (d : Dev) : Dev :=
  if d.stage = 1 ∧ d.lstep = 1 ∧ !d.on pgSTG STG.BSRC then
    setLstep 2 { d with load := { d.load with source := 1, byCmd := false } }
  else d

/-- SELF_TEST_COMPLETE (R346, R530, R542, R546). `bist` has bit p for pair p; a pair that faulted meanwhile stays FAULTED, and
one in REVIVE goes on with it until its BIST_COMPLETE. -/
def selfTestComplete (sramOk dramOk : Bool) (bist : Nat) (d : Dev) : Dev :=
  if d.stage = 1 ∧ d.lstep ≠ 0 ∧ !d.load.tested then
    let d := { d with load := { d.load with tested := true } }
    let d := (d.wr pgSTG STG.SRAMOK (b2n sramOk)).wr pgSTG STG.DRAMOK (b2n dramOk)
    let d := d.each (fittedPairs d.conf) fun p d =>
      if (d.pair ⟨p % 18, Nat.mod_lt _ (by decide)⟩).reviving then d
      else if d.pstate p = 4 then d.wr (pgCep p) CEP.BISTOK (b2n (bitOf bist p))
      else if bitOf bist p then (d.wr (pgCep p) CEP.BISTOK 1).wr (pgCep p) CEP.PSTATE 1
      else raise (pgCep p) 0 p ((d.wr (pgCep p) CEP.PSTATE 4).wr (pgCep p) CEP.FCAUSE 6)
    let d := showPairs d
    if !dramOk then raise pgSTG 2 10 ((setLstep 7 d).wr pgSTG STG.LFAIL 10)
    else if d.lstep = 1 ∧ d.on pgSTG STG.BSRC then setLstep 3 d
    else d
  else d

/-- IMAGE_READ_COMPLETE (R542): the bytes stand at the start of the engine images and configuration region; no bytes are a read
error of the flash. -/
def imageReadComplete (img : Option (List Byte)) (d : Dev) : Dev :=
  if d.stage = 1 ∧ d.lstep = 2 then
    match img with
    | some bs => setLstep 4 (d.setMemBytes dramImage (bs.take 0x100_0000))
    | none => loadFail 11 d
  else d

/-- IMAGE_READ_TIMEOUT (R555). -/
def imageReadTimeout (d : Dev) : Dev := if d.stage = 1 ∧ d.lstep = 2 then loadFail 12 d else d

/-- IMAGE_AUTH_COMPLETE (R541). -/
def imageAuthComplete (cfg : ImageCfg) (d : Dev) : Dev :=
  if d.stage = 1 ∧ d.lstep = 4 then
    let code := imageCheck cfg d
    if code = 0 then setLstep 5 { d with load := { d.load with cfg := some cfg } } else loadFail code d
  else d

/-- LOAD (R543, R544); every INSERT pin is one of R104, SYS_INSERT among them. -/
def cmdLoad (arg : Nat) : Dev → Dev :=
  takeCmd pgSTG 0x03 arg
    (fun d => checks (d.stage == 1 && (d.lstep == 3 || d.lstep == 7) && d.insertsLow && !d.on pgSYS SYS.INS)
      (decide (arg ≤ 2)))
    fun d =>
      let d := { d with load := { d.load with source := arg + 1, byCmd := true, cfg := none } }
      setLstep (if arg = 2 then 4 else 2) (d.wr pgSTG STG.LFAIL 0)

/-! ## What an image programs (R530, R304, R536, R539, R547, R636) -/

/-- The program RAM and the user data of every pair (R304). -/
def loadPairs (c : ImageCfg) (d : Dev) : Dev :=
  let d := d.each (fittedPairs d.conf) fun p d =>
    let d := d.clearMem (progBase p) (progBase p + 0x4_0000)
    let d := c.program.foldl (fun (d : Dev) (w : BitVec 14 × BitVec 64) => d.setMemLE (progBase p + 8 * w.1.toNat) 8 w.2.toNat) d
    let d := c.xdata.foldl (fun (d : Dev) (b : BitVec 16 × Byte) => d.setMem8 (xBase p + b.1.toNat) b.2) d
    c.ydata.foldl (fun (d : Dev) (b : BitVec 16 × Byte) => d.setMem8 (yBase p + b.1.toNat) b.2) d
  d

/-- CRC-32C of a pair's program RAM. -/
def Dev.pairCrc (d : Dev) (p : Nat) : Nat := crc32c (d.memBytes (progBase p) 0x2_0000)

/-- LOADED and ICRC of every pair. -/
def notePairs (d : Dev) : Dev :=
  let l := (fittedPairs d.conf).map fun p => (p, BitVec.ofNat 32 (d.pairCrc p))
  let d := l.foldl (fun (d : Dev) (x : Nat × Word) =>
    (d.wr (pgCep x.1) CEP.LOADED 1).setReg (pgCep x.1) 0 CEP.CIMG.off x.2) d
  { d with load := { d.load with pairCrc := l } }

/-- A cycle index that a rate change renumbers by `δ`. -/
def shiftCycle (δ : Int) (k : Nat) : Nat := (k + δ).toNat

def RingDyn.shift (δ : Int) (g : RingDyn) : RingDyn :=
  let z := shiftCycle δ
  { g with
    coldFrom := z g.coldFrom, intFrom := z g.intFrom, syncDc := g.syncDc.map fun c => z (2 * c) / 2
    grace := g.grace.map fun x => (x.1, z x.2), ranging := g.ranging.map fun q => { q with cycle := z q.cycle }
    geo := g.geo.map fun x => { x with act := toBits 32 (x.act + δ) }, grantAt := g.grantAt.map z }

def Motor.shift (δ : Int) (m : Motor) : Motor :=
  let z := shiftCycle δ
  { m with
    ax := m.ax.map fun x => { x with holdAt := x.holdAt.map z, fired := x.fired.map fun f => 16 * z (f / 16) + f % 16 }
    sea := m.sea.map fun x => { x with ends := x.ends.map z }
    prof := m.prof.map fun p => { p with hom := { p.hom with chatter := p.hom.chatter.map fun x => (z x.1, x.2) } }
    grp := m.grp.map fun g => { g with
      segs := g.segs.map fun s => { s with cycle := z s.cycle }
      was := g.was.map fun w => { w with cycle := z w.cycle, segs := w.segs.map fun s => { s with cycle := z s.cycle } } }
    cmds := m.cmds.map fun c => { c with cycle := z c.cycle }, writes := m.writes.map fun w => { w with cycle := z w.cycle }
    ahead := m.ahead.map fun a => { a with cycle := z a.cycle } }

def Red.shift (δ : Int) (r : Red) : Red :=
  let z := shiftCycle δ
  { r with
    handover := r.handover.map z, digests := r.digests.map fun x => (z x.1, x.2), outcomes := r.outcomes.map fun x => (z x.1, x.2)
    replay := r.replay.map fun x => { x with cycle := z x.cycle }, repairs := r.repairs.map fun x => (x.1, z x.2)
    repairLog := r.repairLog.map z, w := z r.w, installed := r.installed.map fun x => (x.1, z x.2)
    past := r.past.map fun p => { p with cycle := z p.cycle, mot := p.mot.shift δ },
    stored := r.stored.map fun x => { x with cycle := z x.cycle }
    opened := r.opened.map fun x => { x with cycle := z x.cycle } }

/-- The cycle index takes another number: what waits for a cycle keeps its distance to it (notes/assumptions/124.md). -/
def renumber (k : Nat) (d : Dev) : Dev :=
  let δ : Int := (k : Int) - d.cyc
  if δ = 0 then d
  else
    let z := shiftCycle δ
    { d with
      mot := d.mot.shift δ, ring := d.ring.map (RingDyn.shift δ), red := d.red.shift δ
      tsu := { d.tsu with due := d.tsu.due.map fun x => { x with cycle := z x.cycle } }
      safe := { d.safe with release := d.safe.release.map z }
      host := { d.host with mail := d.host.mail.map fun m => { m with cycle := z m.cycle } }
      cap := { d.cap with units := d.cap.units.map fun u => { u with fromCycle := z u.fromCycle } } }

/-- A rate comes into force with cycle index `k`. -/
def putRateAt (k rate : Nat) (d : Dev) : Dev :=
  let d := renumber k ((d.wr pgTIM TIM.RATE rate).wr pgTIM TIM.NRATE rate)
  (d.wr64 pgTIM 0 TIM.CYCLO.off k).wr64 pgTIM 0 TIM.NTLO.off ((k + 1) * periodOf rate)

/-- A rate comes into force: the cycle index goes on from ST (R31, R53). -/
def putRate (rate : Nat) (d : Dev) : Dev := putRateAt (d.st / periodOf rate) rate d

/-- The nominal geometry that a RING section gives (R125). -/
def nominalGeo (x : ImageRing) : List Word :=
  (List.range 64).map fun i => ((x.ptab.find? fun (e : Fin 64 × Word) => e.1.val == i).map Prod.snd).getD 0x000FFFFF#32

/-- A RING section; the ring enters LISTEN, and its listen timer starts (R144). -/
def loadRing (x : ImageRing) (d : Dev) : Dev :=
  let pg := pgRing x.ring
  let l := imageTable x
  let d := (d.wr pg RING.HOTINS (bitsOf x.rcfg.toNat 6 1)).wr pg RING.NSTAC (bitsOf x.rcfg.toNat 8 7)
  let d := d.each (List.range l.length) fun i d => d.wr64 pg 0 (0x400 + 8 * i) ((l.map Slot.word).getD i 0)
  let d := (d.wr pg RING.NSLOT l.length).wr pg RING.SHASH (slotHash l)
  let d := x.ptab.foldl (fun (d : Dev) (e : Fin 64 × Word) => d.putFields pg (RING.DE.off + 4 * e.1.val) e.2) d
  (d.mapRg x.ring fun g => { g with outs := x.outs, nom := nominalGeo x, listen := d.st }).wr pg RING.RSTATE rsLISTEN

/-- A table that the image configures: AEN is 1 and the table leaves DISABLED (R211, R229); everything the kernel uses of it, as
the image left it, is in force; no fresh record has arrived (R178). -/
def programAxis (n : Fin 256) (d : Dev) : Dev :=
  let d := adoptRegs (pgAxp n) 0 (mooringOffs ++ startOffs ++ liveOffs ++ bankOffs 0 ++ bankOffs 1) d
  let d := adoptRegs pgPRF n (words 0x090 0x0A0 ++ words 0x0AC 0x0E8) d
  let d := adoptRegs pgSEA n (words 0x080 0x0A4) d
  let d := ((d.setAx n AxDyn.reset).wr (pgAxp n) AXP.AEN 1).wr (pgAxp n) AXP.STALE 1
  showAxis n (showPchg n (setAxState n axMOORED d))

/-- A table that a new image does not configure is DISABLED (R211). -/
def dropAxes (c : ImageCfg) (d : Dev) : Dev :=
  (List.finRange 256).foldl (fun (d : Dev) (n : Fin 256) =>
    if c.axes.any fun (a : AxisId × List (BitVec 12 × Word)) => a.1 == n then d
    else setAxState n axDISABLED ((d.wr (pgAxp n) AXP.AEN 0).wrS pgPRF n PRF.HOMED 0)) d

/-! ## Calibration (R547 to R551, R559) -/

/-- The bytes of the active set, and CCRC. -/
def Dev.calBytes (d : Dev) : List Byte :=
  (List.range 33).flatMap fun i => bytesLE 4 (d.reg pgCAL 0 (CAL.GAIN0.off + 4 * i)).toNat
def calCrc (d : Dev) : Dev := d.wr pgCAL CAL.CCRC (crc32c d.calBytes)

/-- The active set becomes a set of 33 words. -/
def putCal (l : List Word) (d : Dev) : Dev :=
  calCrc (d.each (List.range 33) fun i d => d.putFields pgCAL (CAL.GAIN0.off + 4 * i) (l.getD i 0))

/-- CALOK of CAL and its copies. -/
def setCalok (b : Bool) (d : Dev) : Dev := showStg (d.wr pgCAL CAL.CALOK (b2n b))

/-- The checks of R531 on flags, pairs and capacity; a ring whose last schedule check gave SCHOK = 0 bars entry (R93). -/
def Dev.fullOk (d : Dev) : Bool :=
  d.stage == 1 && d.ready && d.on pgSTG STG.FULLOK &&
  ((workingPairs d.conf).all fun p => d.on (pgCep p) CEP.BISTOK && d.healthy p) &&
  ((List.finRange 4).all fun (r : Fin 4) => !d.ringUsed r || d.on (pgRing r) RING.SCHOK) &&
  d.assignOk d.rate (workingPairs d.conf)

/-- GO_FULL (R531): accepted, it waits for its re-verification with BUSY = 1. -/
def cmdGoFull (arg : Nat) (d : Dev) : Dev :=
  if d.on pgSTG HDR.BUSY ∨ !d.fullOk then takeCmd pgSTG 0x01 arg (fun _ => rSTATE) id d
  else { deferCmd pgSTG 0x01 arg d with load := { d.load with goFull := true } }

/-- The image in DRAM and the program RAM of every pair stand as found at load (R531). -/
def Dev.imageStands (d : Dev) : Bool :=
  d.imgCrc == d.rd pgSTG STG.IMGCRC && d.load.pairCrc.all fun (x : Nat × Word) => d.pairCrc x.1 == x.2.toNat

/-- Entry to FULL (R36, R352, R371); how long it took since PORST_N release is a free value. -/
def enterFull (d : Dev) : Dev :=
  let d := (d.wr pgSTG STG.FTIME (d.openBits 16)).openUsed
  let d := { d with tsu := { d.tsu with work := workingPairs d.conf, spare := [16, 17] } }
  stageChange 2 (assignAxes { d with keep := { d.keep with full := d.st } })

/-- FULL_ENTRY (R531): at the tick that follows the re-verification. -/
def fullEntry (d : Dev) : Dev :=
  if !d.load.goFull then d
  else
    let d := { d with load := { d.load with goFull := false } }
    if d.imageStands then enterFull (settleCmd pgSTG rOK d) else settleCmd pgSTG rSTATE d

/-- A joining head enters FULL under the checks of R531 (R554); whether it did. -/
def joinFull (d : Dev) : Bool × Dev :=
  if d.stage = 2 then (true, d)
  else if d.fullOk && d.imageStands then (true, enterFull d) else (false, d)

/-- AUTOFULL (R532): the device issues GO_FULL to itself when CALOK becomes 1 after READY. -/
def autoFull (d : Dev) : Dev :=
  if d.stage = 1 ∧ d.ready ∧ bitOf d.imgFlags 0 ∧ d.on pgSTG STG.CALOK then cmdGoFull 0 d else d

/-- Is core `c` in the scan of nine entries of a validation? CSTATE shows SCAN; the entries are the validation's own. -/
def Dev.validating (d : Dev) (c : Fin 4) : Bool :=
  d.on pgCAL CAL.VBUSY && d.rd (pgMfc c) MFC.CSTATE == 4 && d.mfe.core[c].phase == 3 && !d.mfe.core[c].testing

/-- A core that is free scans for the validation, with EXC 0 and BOMODE 0 (R551); one in a scan of its own does so after it. -/
def validateCore (c : Fin 4) (d : Dev) : Dev :=
  let s := d.rd (pgMfc c) MFC.CSTATE
  if s = 1 ∨ s = 2 ∨ s = 3 then
    { d.wr (pgMfc c) MFC.CSTATE 4 with mfe := { d.mfe with
      core := d.mfe.core.set c { d.mfe.core[c] with phase := 3, testing := false, exc := 0, burn := 0 } } }
  else d

/-- Validation starts anew (R551): CALOK clears; without the measurement die it is set at READY when SRC ≠ 0. -/
def startValidation (d : Dev) : Dev :=
  let d := setCalok false d
  if d.dieFitted then (List.finRange 4).foldl (fun (d : Dev) (c : Fin 4) => validateCore c d) (d.wr pgCAL CAL.VBUSY 1)
  else if d.ready && d.on pgCAL CAL.SRC then autoFull (setCalok true d)
  else d

/-- The active set takes a new source; CAL_SET (R548, R549, R559). -/
def calSource (src : Nat) (uvalid : Bool) (d : Dev) : Dev :=
  raise pgCAL 1 src ((d.wr pgCAL CAL.SRC src).wr pgCAL CAL.UVALID (b2n uvalid))

/-- The words of the factory set. -/
def Dev.factorySet (d : Dev) : List Word := (List.range 33).map fun i => d.reg pgOTP 0 (OTP.FCAL.off + 4 * i)

/-- Nominal values: every GAIN and DACG 1, every other field 0. -/
def nominalSet : List Word :=
  (List.range 33).map fun i =>
    if i < 32 ∧ (i % 8 = 0 ∨ i % 8 = 2 ∨ i % 8 = 4 ∨ i % 8 = 6) then 0x4000_0000#32 else 0#32

/-- The active set at PROGRAM (R547). -/
def loadCal (c : ImageCfg) (d : Dev) : Dev :=
  match c.calu with
  | some l => calSource 2 true (putCal l d)
  | none =>
    if d.on pgOTP OTP.FCRCOK then calSource 1 false (putCal d.factorySet d) else calSource 0 false (putCal nominalSet d)

/-- Does a core pass (R551)? `codes` are its nine codes: range by range, DACV 0, +24,576, −24,576. -/
def Dev.corePasses (d : Dev) (n : Nat) (codes : List (BitVec 24)) : Bool :=
  let w := fun (i : Nat) => (d.reg pgCAL 0 (CAL.GAIN0.off + 0x20 * n + 4 * i)).toNat
  let dacg := sxt 32 (w 6)
  let gains := [w 0, w 2, w 4, w 6].all fun g => decide (0x3999_999A ≤ g) && decide (g ≤ 0x4666_6666)
  let trims := [0, 8, 16].all fun i => decide (-100 ≤ sxt 8 (bitsOf (w 7) i 8)) && decide (sxt 8 (bitsOf (w 7) i 8) ≤ 100)
  let vtol : Int := d.rd pgCAL CAL.VTOL
  let near := (codes.zipIdx).all fun (c : BitVec 24 × Nat) =>
    let dacv : Int := match c.2 % 3 with | 0 => 0 | 1 => 24576 | _ => -24576
    let want := rnd (dacv * 256 * dacg) 30
    decide (c.1.toInt - want ≤ vtol) && decide (want - c.1.toInt ≤ vtol)
  decide (codes.length = 9) && near && gains && trims

/-- RESTORE_FACTORY (R549). -/
def cmdRestore (arg : Nat) : Dev → Dev :=
  takeCmd pgCAL 0x01 arg
    (fun d => checks (d.stage == 1 && (d.activeAxes.all fun (n : Fin 256) => d.axState n == axMOORED) && d.on pgOTP OTP.FCRCOK) true)
    fun d => startValidation (calSource 1 false (putCal d.factorySet d))

/-- VALIDATE (R559). -/
def cmdValidate (arg : Nat) : Dev → Dev := takeCmd pgCAL 0x02 arg (fun d => checks (d.stage == 1) true) startValidation

def landCal (code arg : Nat) (d : Dev) : Dev :=
  match code with
  | 0x01 => cmdRestore arg d
  | 0x02 => cmdValidate arg d
  | _ => takeCmd pgCAL code arg (fun _ => rCODE) id d

/-- A write that changed the active set (R548). -/
def calWritten (d : Dev) : Dev := startValidation (calSource 3 true (calCrc d))

/-! ## The other commands of STG (R554, R556) -/

def cmdGoLantern (arg : Nat) : Dev → Dev := takeCmd pgSTG 0x02 arg (fun d => checks (d.stage == 2) true) (dropLantern 7)

/-- PARK (R533); the conditions of R529 alone say how long the device stays (notes/assumptions/30.md). -/
def cmdPark (arg : Nat) : Dev → Dev :=
  takeCmd pgSTG 0x06 arg
    (fun d => checks (d.stage == 1 && (d.role == roNONE || d.role == roSILENT) && d.insertsLow) true)
    (dropKeeper 6)

def cmdSrst (arg : Nat) : Dev → Dev := takeCmd pgSTG 0x07 arg (fun d => checks d.insertsLow true) (dropKeeper 5)

def cmdStgClrcnt (arg : Nat) : Dev → Dev := takeCmd pgSTG 0x08 arg (fun _ => rOK) fun d => d.setReg pgSTG 0 STG.WDCNT.off 0

/-! ## The stage watchdog (R535 to R537) -/

/-- Does the watchdog run? -/
def Dev.wdRuns (d : Dev) : Bool := d.on pgSTG STG.WDEN && d.stage != 0

/-- WDPER in ST LSB. -/
def Dev.wdPeriod (d : Dev) : Nat :=
  16000000 * (match d.rd pgSTG STG.WDPER with
    | 0 => 10 | 1 => 20 | 2 => 50 | 3 => 100 | 4 => 200 | 5 => 500 | 6 => 1000 | 7 => 2000 | 8 => 5000 | _ => 10000)

/-- WATCHDOG_KICK (R535): 0xA5 in KEY, over a path that WDSRC allows. -/
def watchdogKick (p : Path) (v : Nat) (d : Dev) : Dev :=
  let src := d.rd pgSTG STG.WDSRC
  let allowed := src == 0 || bitOf src (match p with | .pcie => 0 | .spi => 1)
  if v % 256 = 0xA5 ∧ allowed then restartWatchdog d else d

/-- WDLEFT: ms to expiry; 0 while the watchdog does not run. -/
def Dev.wdLeft (d : Dev) : Nat := if d.wdRuns then (d.wdPeriod - (d.st - d.keep.kicked)) / 16000000 else 0

/-- WATCHDOG_WARN (R535): half the period has passed. -/
def watchdogWarn (d : Dev) : Dev := if d.wdRuns then raise pgSTG 3 3 (d.at (d.keep.kicked + d.wdPeriod / 2)) else d

/-- WATCHDOG_EXPIRE (R535): the period has passed. -/
def watchdogExpire (d : Dev) : Dev :=
  if d.wdRuns then
    let d := d.at (d.keep.kicked + d.wdPeriod)
    let d := (d.inc pgSTG STG.WDCNT).wr pgSTG STG.WDRUN (min 3 (d.rd pgSTG STG.WDRUN + 1))
    dropKeeper 1 d
  else d

def watchdogRestart (d : Dev) : Dev :=
  if d.stage = 0 ∧ d.keep.wdWait ∧ d.on pgSTG STG.WDAUTO then { d with keep := { d.keep with wdWait := false } } else d

/-- WDRUN_CLEAR (R537): the device has stayed in FULL for 10 s. -/
def wdrunClear (d : Dev) : Dev := if d.stage = 2 then (d.at (d.keep.full + 160000000000)).wr pgSTG STG.WDRUN 0 else d

/-! ## OTP (R560, R561) -/

/-- PROGKEY and BUMPVER wait for the fuses with BUSY = 1. -/
def landOtp (code arg : Nat) (d : Dev) : Dev :=
  let res := match code with
    | 0x01 =>
      checks (d.stage == 1 && (d.lstep == 3 || d.lstep == 7) && !d.on pgOTP OTP.KSET)
        ((List.range 8).any fun i => d.reg pgOTP 0 (OTP.KSTG.off + 4 * i) != 0)
    | 0x02 => checks (d.stage != 0 && d.ready && decide (d.rd pgOTP OTP.MINVER < d.rd pgSTG STG.VERSION)) true
    | _ => rCODE
  if res = rOK ∧ !d.on pgOTP HDR.BUSY then (deferCmd pgOTP code arg d).wr pgOTP OTP.BUSY 1
  else takeCmd pgOTP code arg (fun _ => res) id d

/-- What the fuses hold after the command that waits: the key hash once, MINVER only upward. -/
def programFuse (code : Nat) (d : Dev) (f : Fuse) : Fuse :=
  match code with
  | 0x01 =>
    if f.kset then f
    else { f with kset := true, khash := Vector.ofFn fun i => d.reg pgOTP 0 (OTP.KSTG.off + 4 * i.val) }
  | 0x02 => if f.minver.toNat < d.rd pgSTG STG.VERSION then { f with minver := BitVec.ofNat 6 (d.rd pgSTG STG.VERSION) } else f
  | _ => f

/-- OTP_PROGRAM_DONE (R561). -/
def otpProgramDone (ok : Bool) (f : Fuse) (d : Dev) : Fuse × Dev :=
  if !d.on pgOTP OTP.BUSY then (f, d)
  else
    let code := d.rd pgOTP HDR.PCST_CODE
    let d := settleCmd pgOTP rOK (d.wr pgOTP OTP.BUSY 0)
    if ok then
      let f' := programFuse code d f
      let d := (d.wr pgOTP OTP.KSET (b2n f'.kset)).wr pgOTP OTP.MINVER f'.minver.toNat
      let d := d.each (List.range 8) fun i d => d.setReg pgOTP 0 (OTP.KHASH.off + 4 * i) (f'.khash.toList.getD i 0)
      (f', raise pgOTP 0 code d)
    else (f, raise pgOTP 1 code d)

end Sys2Proof.Machine
end

