-- ==== Sys2Proof/Machine/Pairs.lean ====
section
/-! DEFINITION. Engine pairs in service (spec/08): the instruction a pair issues and what follows from it, traps, pair faults,
uncorrectable ECC errors, the commands of the CEP pages, the window on a halted pair (R13, R331 to R349). -/
namespace Sys2Proof.Machine

/-! ## What a pair runs -/

/-- What the running task of a pair sees of its surroundings: user task code, or kernel code in the tasks below 288 (R305,
*Task numbers*); RDT traps in an axis task and in a user task that is not marked (R338); BKPT halts in LANTERN with BKPTEN
(R343). -/
def Dev.taskEnv (d : Dev) (p : Fin 18) (task : Nat) : Env :=
  { pair := p, code := if task < 288 then .kernel else .user,
    nondet := decide (256 ≤ task) && (decide (task < 288) || (d.tsu.cfgOf task).ndet),
    halts := d.stage == 1 && d.on (pgCep p) CEP.BKPTEN }

/-- A pair enters HALTED (R348). -/
def haltPair (p : Fin 18) (d : Dev) : Dev :=
  let x := d.pair p
  raise (pgCep p) 3 p (showPairs ((d.setPair p { x with wasRun := x.running != .nothing }).wr (pgCep p) CEP.PSTATE 3))

/-- The task of a pair ends (R332, R342): its loop and call levels are discarded, its instance is finished, the pair runs
nothing. -/
def endTask (p : Fin 18) (ok : Bool) (d : Dev) : Dev :=
  let d := d.setPair p { d.pair p with eng := { (d.pair p).eng with loops := [], calls := [] } }
  match (d.pair p).running with
  | .nothing => d
  | .task t s =>
    let d := setRunning p .nothing d
    finishInst t s ok (d.setPair p { d.pair p with wasRun := false })

/-! ## Faults (R345, R372, R533) -/

/-- CFLT of a pair that stops: cause, trap code, PC as CPC reads it (0xFFFF when it was issuing no task), cycle, count. -/
def recordFault (p : Fin 18) (cause trap : Nat) (d : Dev) : Dev :=
  let pg := pgCep p
  let pc := match (d.pair p).running with
    | .nothing => if (d.axisOn p).isSome then d.rd pg CEP.PC else 0xFFFF
    | .task t _ => if t < 288 then 0x8000 else d.rd pg CEP.PC
  let d := ((d.wr pg CEP.FCAUSE cause).wr pg CEP.FTRAP trap).wr pg CEP.FPC pc
  (d.wr pg CEP.CFCYC (d.rd pgTIM TIM.CYCLO)).inc pg CEP.FCNT

/-- The last healthy working pair is lost: DCAUSE 10 (R533). -/
def noPairLeft (d : Dev) : Dev := if d.tsu.work.any fun q => d.healthy q then d else dropLantern 10 d

/-- A pair stops with a cause and, for a kernel trap, its code (R345): FAULTED, PAIR_FAULT, the TSU takes over its work. -/
def stopPair (p : Fin 18) (cause trap : Nat) (d : Dev) : Dev :=
  if d.pstate p = 0 ∨ d.pstate p = 4 then d
  else
    let wasWork := d.tsu.work.contains p.val
    let d := recordFault p cause trap d
    let d := (showTask p .nothing (d.setPair p { d.pair p with running := .nothing, wasRun := false })).wr (pgCep p) CEP.PSTATE 4
    let d := takePairs (tsuPairFault p (raise (pgCep p) 0 p d))
    if wasWork then noPairLeft d else d

/-- A pair fault (R345). -/
def faultPair (p : Fin 18) (cause : Nat) (d : Dev) : Dev := stopPair p cause 0 d

/-! ## Traps (R342) -/

/-- A trap in a user task: recorded, TRAP posted, the task marked and ended; in kernel ROM code (*Task numbers*: the tasks below
288): recorded, and a pair fault with FCAUSE 5 (*Trap reactions*). -/
def taskTrap (p : Fin 18) (task code : Nat) (d : Dev) : Dev :=
  let d := recordTrap p code (d.pair p).eng.pc.toNat task 0 d
  if task < 288 then stopPair p 5 code d
  else endTask p false ((raise (pgCep p) 1 p d).wrS pgTSU task TSU.TRAPF 1)

/-! ## Issue -/

/-- What follows an instruction that ran. -/
def afterIssue (p : Fin 18) (ctl : Ctl) (d : Dev) : Dev :=
  match ctl with
  | .next => d
  | .jump _ => d
  | .yield => yieldPoint p d
  | .done => endTask p true d
  | .halt => haltPair p d
  | .post n arg => postEvent (224 + n) arg d

/-- A pair issues an instruction for a task, with its reaction to a trap. -/
def issueAs (p : Fin 18) (task : Nat) (trapped : Nat → Dev → Dev) (f : IFun) (d : Dev) : Dev :=
  let e := (d.pair p).eng
  match issue (d.taskEnv p task) f e d with
  | .error code => trapped code d
  | .ok r =>
    let d := r.d.setPair p { r.d.pair p with eng := r.e, issued := (r.d.pair p).issued + 1 }
    let d := d.wr (pgCep p) CEP.PC (pcShown e.pc)
    let d := if r.numeric then raise (pgCep p) 2 p d else d
    afterIssue p r.ctl d

/-- A trap of a pair that runs no task: recorded with the task its TID register holds, TRAP posted (DESIGN CHOICE,
notes/assumptions/110.md). -/
def idleTrap (p : Fin 18) (code : Nat) (d : Dev) : Dev :=
  let e := (d.pair p).eng
  raise (pgCep p) 1 p (recordTrap p code e.pc.toNat (e.TID.toNat % 1024) 0 d)

/-- A pair issues an instruction of its running task. -/
def issueOn (p : Fin 18) (f : IFun) (d : Dev) : Dev :=
  match (d.pair p).running with
  | .nothing => d
  | .task t _ => issueAs p t (taskTrap p t) f d

/-- An instruction row: the pair, in RUN, issues it; a pair in any other state issues none. -/
def pairIssue (p : Fin 18) (f : IFun) (d : Dev) : Dev := if d.pstate p = 2 then issueOn p f d else d

/-- The instruction at the pair's PC; a PROT trap where the code may not run there. The words of the kernel ROM are open
(notes/assumptions/106.md). -/
def insAtPc (p : Fin 18) (d : Dev) : IFun := fun env =>
  let pc := (d.pair p).eng.pc
  if !env.code.mayJump pc then fun _ _ => .error 2
  else insOf (if inKernelRom pc then (Config.kernelRom pc).toNat else d.progWord p pc) env

/-! ## Uncorrectable ECC errors (R13) -/

/-- FCAUSE of a cause. -/
def causeCode : PairCause → Nat
  | .lockstep => 1
  | .eccProgram => 2
  | .eccX => 3
  | .eccY => 4

/-- An uncorrectable error in shared SRAM (R13, R216, R601): an axis table moors its axis. -/
def eccShared (off : Nat) (d : Dev) : Dev :=
  if d.stage = 0 then d
  else
    let d := raise pgGLB 2 2 ((d.inc pgGLB GLB.SECC_UNCOR).wr pgGLB GLB.SUADR_ADR off)
    let n := axisNo (off / 0x3000)
    if off < 0x30_0000 ∧ d.configured n then moorFault n 0x06 d else d

/-- A byte of DRAM holds an uncorrectable error until it is written; what it reads as is an open value other than the one it held
(notes/assumptions/102.md). -/
def spoilByte (off : Nat) (d : Dev) : Dev :=
  let v := d.mem8 off ^^^ BitVec.ofNat 8 (1 + d.openBits 32 % 255)
  let d := (d.setMem8 off v).openUsed
  { d with bad := off :: d.bad }

/-- An uncorrectable error in DRAM (R13, R533, R601): the units find it when they next read the byte (R256, R481, R587); the
engine images and configuration region drops the device. -/
def eccDram (off : Nat) (d : Dev) : Dev :=
  if d.stage = 0 then d
  else
    let d := raise pgGLB 1 1 ((d.inc pgGLB GLB.DECC_UNCOR).wr pgGLB GLB.DUADR_ADR (off / 64 * 64))
    let d := spoilByte off (showStg (d.wr pgSTG STG.DRAMOK 0))
    if dramImage ≤ off ∧ off < dramStaging then dropLantern 8 d
    else d

/-- UNCORRECTABLE_ECC (R13). -/
def uncorrectable (site : EccSite) (d : Dev) : Dev :=
  match site with
  | .pair p c => faultPair p (causeCode c) d
  | .shared off => eccShared off d
  | .dram off => eccDram off d

/-! ## The commands of a CEP page (R348) -/

/-- STEP: one instruction, then HALTED, entered once also where the instruction is a BKPT (R349); a pair that was IDLE before
HALT executes the instruction at its PC as user code (notes/assumptions/110.md). -/
def stepPair (p : Fin 18) (d : Dev) : Dev :=
  let d := match (d.pair p).running with
    | .nothing => issueAs p 288 (idleTrap p) (insAtPc p d) (d.wr (pgCep p) CEP.PSTATE 2)
    | .task _ _ => issueOn p (insAtPc p d) (d.wr (pgCep p) CEP.PSTATE 2)
  if d.pstate p = 3 ∨ d.pstate p = 4 then d else haltPair p d

/-- RESUME: ICRC is computed again; IDLE or RUN as before the halt. -/
def resumePair (p : Fin 18) (d : Dev) : Dev :=
  let d := d.setReg (pgCep p) 0 CEP.CIMG.off (BitVec.ofNat 32 (d.pairCrc p))
  showPairs (d.wr (pgCep p) CEP.PSTATE (if (d.pair p).running = .nothing then 1 else 2))

/-- A self-test begins. -/
def testPair (p : Fin 18) (reviving : Bool) (d : Dev) : Dev :=
  showPairs ((d.setPair p { d.pair p with reviving := reviving }).wr (pgCep p) CEP.PSTATE 5)

/-- CLRCNT. -/
def clearPair (p : Fin 18) (d : Dev) : Dev :=
  let pg := pgCep p
  let d := ((d.wr pg CEP.FCNT 0).wr pg CEP.CORR 0).setReg pg 0 CEP.TCODE.off 0
  d.setReg pg 0 CEP.TTID.off 0

/-- A command reaches a CEP page. -/
def landCep (p : Fin 18) (code arg : Nat) (d : Dev) : Dev :=
  let pg := pgCep p
  let st := d.pstate p
  let lantern := d.stage == 1
  match code with
  | 0x01 => takeCmd pg code arg (fun _ => checks (lantern && (st == 1 || st == 2)) true) (haltPair p) d
  | 0x02 => takeCmd pg code arg (fun _ => checks (st == 3) true) (stepPair p) d
  | 0x03 => takeCmd pg code arg (fun _ => checks (st == 3) true) (resumePair p) d
  | 0x04 => takeCmd pg code arg (fun _ => checks (lantern && st == 1) true) (testPair p false) d
  | 0x05 => takeCmd pg code arg (fun _ => checks (lantern && st == 1) true) (faultPair p 1) d
  | 0x06 => takeCmd pg code arg (fun _ => checks (d.stage != 0 && st == 4) true) (testPair p true) d
  | 0x07 => takeCmd pg code arg (fun _ => rOK) (clearPair p) d
  | _ => takeCmd pg code arg (fun _ => rCODE) id d

/-- BIST_COMPLETE (R346, R376). -/
def bistComplete (p : Fin 18) (pass : Bool) (d : Dev) : Dev :=
  let pg := pgCep p
  if d.pstate p ≠ 5 ∨ !d.load.tested then d
  else
    let back := (d.pair p).reviving
    let d := (d.wr pg CEP.BISTOK (b2n pass)).setPair p { d.pair p with reviving := false }
    let d :=
      if pass then
        let d := d.wr pg CEP.PSTATE 1
        if back then
          { d with tsu := { d.tsu with
            work := d.tsu.work.filter fun q => q != p.val,
            spare := if d.tsu.spare.contains p.val then d.tsu.spare else d.tsu.spare ++ [p.val] } }
        else d
      else
        let d := (d.wr pg CEP.PSTATE 4).wr pg CEP.FCAUSE 6
        let d := raise pg 0 p d
        if back then d else takePairs (tsuPairFault p d)
    raise pg 4 p (showPairs d)

/-! ## The window on a pair (R347) -/

/-- May CWDATLO and CWDATHI be accessed? -/
def Dev.cwOpen (d : Dev) (p : Fin 18) : Bool := d.pstate p == 0 || d.pstate p == 3

/-- The word at CWSEL in space 3: SCL reads with bits [31:6] as its sign, and BEXP is 0 to 31 (*Special registers*). -/
def Eng.windowRead (e : Eng) (i : Nat) : Nat :=
  if i < 16 then (e.D.toList.getD i 0).toNat
  else if i < 24 then (e.A.toList.getD (i - 16) 0).toNat
  else if i < 32 then (e.M.toList.getD (i - 24) 0).toNat
  else if i < 40 then (e.L.toList.getD (i - 32) 0).toNat
  else if i < 48 then
    let a := (e.AC.toList.getD ((i - 40) / 2) 0).toNat
    if i % 2 = 0 then a % 2 ^ 64 else a / 2 ^ 64
  else match i with
    | 48 => e.srRead.toNat
    | 49 => toBits 32 (sxt 6 e.SCL.toNat)
    | 50 => e.BEXP.toNat
    | 51 => e.pc.toNat
    | _ => 0

/-- Write the word at CWSEL in space 3. -/
def Eng.windowWrite (i v : Nat) (e : Eng) : Eng :=
  let w := BitVec.ofNat 32 v
  if h : i < 16 then { e with D := e.D.set i w h }
  else if h : i - 16 < 8 ∧ i < 24 then { e with A := e.A.set (i - 16) w h.1 }
  else if h : i - 24 < 8 ∧ i < 32 then { e with M := e.M.set (i - 24) w h.1 }
  else if h : i - 32 < 8 ∧ i < 40 then { e with L := e.L.set (i - 32) w h.1 }
  else if h : (i - 40) / 2 < 4 ∧ i < 48 then
    let a := (e.AC[(i - 40) / 2]'h.1).toNat
    let a' := if i % 2 = 0 then a / 2 ^ 64 * 2 ^ 64 + v % 2 ^ 64 else a % 2 ^ 64 + v % 2 ^ 8 * 2 ^ 64
    { e with AC := e.AC.set ((i - 40) / 2) (BitVec.ofNat 72 a') h.1 }
  else match i with
    | 48 => e.srWrite w
    | 49 => { e with SCL := BitVec.ofNat 32 (v % 64) }
    | 50 => { e with BEXP := BitVec.ofNat 32 (v % 32) }
    | 51 => { e with pc := BitVec.ofNat 16 v }
    | _ => e

/-- The word at CWSEL. -/
def Dev.cwRead (d : Dev) (p : Fin 18) : Nat :=
  let a := d.rd (pgCep p) CEP.WADR
  match d.rd (pgCep p) CEP.SPACE with
  | 0 => d.progWord p (BitVec.ofNat 16 a)
  | 1 => d.memLE (xBase p + 4 * a) 4
  | 2 => d.memLE (yBase p + 4 * a) 4
  | _ => (d.pair p).eng.windowRead a

/-- Write the word at CWSEL. -/
def cwWrite (p : Fin 18) (v : Nat) (d : Dev) : Dev :=
  let a := d.rd (pgCep p) CEP.WADR
  match d.rd (pgCep p) CEP.SPACE with
  | 0 => d.setMemLE (progBase p + 8 * a) 8 v
  | 1 => d.setMemLE (xBase p + 4 * a) 4 v
  | 2 => d.setMemLE (yBase p + 4 * a) 4 v
  | _ => d.setPair p { d.pair p with eng := (d.pair p).eng.windowWrite a v }

end Sys2Proof.Machine
end

