-- ==== Sys2Proof/Machine/LocalIo.lean ====
section
/-! DEFINITION. Local feedback, compares, latches, step channels, pulse inputs and GPIO (R382 to R400, R406 to R409, R417,
R419, R420). -/
namespace Sys2Proof.Machine

def Dev.fbu (d : Dev) (c : Fin 8) : FbuDyn := d.io.fbu[c]
def Dev.mapFbu (c : Fin 8) (f : FbuDyn → FbuDyn) (d : Dev) : Dev :=
  { d with io := { d.io with fbu := d.io.fbu.set c (f (d.fbu c)) } }
def Dev.mapCmp (c : Fin 8) (u : Fin 2) (f : Compare → Compare) (d : Dev) : Dev :=
  d.mapFbu c fun x => { x with cmp := x.cmp.set u (f x.cmp[u]) }

/-- An event of an FBU page (R417). -/
def fbuEvent (c bit : Nat) (d : Dev) : Dev := raise (pgFbu c) bit bit d

/-- 10 ns in ST LSB. -/
def tenNs : Nat := 160

/-- The width of the glitch filter in ST LSB (R384). -/
def filterLsb (code : Nat) : Nat := if code = 0 then 0 else tenNs * 2 ^ (code - 1)

/-! ## Local compares (R397 to R400) -/

/-- A field of compare unit `u` of an FBU page. -/
def Dev.rdC (d : Dev) (c : Fin 8) (u : Fin 2) (f : Fld) : Nat := d.rd (pgFbu c) (f.nth 0x20 u)
def Dev.rdCI (d : Dev) (c : Fin 8) (u : Fin 2) (f : Fld) : Int := d.rdI (pgFbu c) (f.nth 0x20 u)
def Dev.wrC (c : Fin 8) (u : Fin 2) (f : Fld) (v : Nat) (d : Dev) : Dev := d.wr (pgFbu c) (f.nth 0x20 u) v

/-- The signed COUNT of a channel. -/
def Dev.count (d : Dev) (c : Nat) : Int := d.rdI (pgFbu c) FBU.COUNT

/-- Is a direction admitted by CDIR or RDIR? -/
def admits (cdir : Nat) (up : Bool) : Bool := !(cdir == 1 && !up) && !(cdir == 2 && up)

/-- A compare output is driven at `t`; OUT shows the pin level, inverted by CINV (R397, R416). -/
def driveCmp (c : Fin 8) (u : Fin 2) (active : Bool) (t : Nat) (d : Dev) : Dev :=
  let d := d.mapCmp c u fun x => { x with active := active }
  let level := active != (d.rdC c u FBU.CINV == 1)
  if d.rdC c u FBU.OUT = b2n level then d
  else pinEdge (0x40 + 2 * c.val + u.val) level t ((d.wrC c u FBU.OUT (b2n level)).emit (.cmp (2 * c.val + u.val) level t))

/-- CCFG of a unit is written: its pin follows CINV. -/
def cmpConfigured (c : Fin 8) (u : Fin 2) (d : Dev) : Dev := driveCmp c u ((d.fbu c).cmp[u]).active d.st d

/-- A unit fires, its output edge at `t` (R397, R399): its pin, CTAG, CHITS, CMP_HIT, and what its mode does next. -/
def fireCmp (c : Fin 8) (u : Fin 2) (t : Nat) (d : Dev) : Dev :=
  let d := match d.rdC c u FBU.CACT with
    | 0 => driveCmp c u true t d
    | 1 => driveCmp c u true t d
    | 2 => driveCmp c u false t d
    | _ => driveCmp c u (!((d.fbu c).cmp[u]).active) t d
  let d := d.wrC c u FBU.CHITS (d.rdC c u FBU.CHITS + 1)
  let d := fbuEvent c 6 (d.mapCmp c u fun x => { x with last := t, tag := d.tagOf CAL.TOUT t })
  if d.rdC c u FBU.CMODE = 2 then
    let d := d.wrC c u FBU.CVAL (toBits 32 (d.rdCI c u FBU.CVAL + d.rdCI c u FBU.CSTEP))
    if ((d.fbu c).cmp[u]).endless then d
    else
      let num := d.rdC c u FBU.CNUM
      let d := d.wrC c u FBU.CNUM (num - 1)
      if num = 1 then d.wrC c u FBU.ARMED 0 else d
  else d.wrC c u FBU.ARMED 0

/-- A unit fires with its output edge `lo` to `hi` ns after `t` (*Local I/O timing*, R398); where in that span is free
(notes/assumptions/132.md). -/
def fireAfter (c : Fin 8) (u : Fin 2) (t lo hi : Nat) (d : Dev) : Dev :=
  fireCmp c u (t + 16 * lo + d.openBits 32 % (16 * (hi - lo) + 1)) d.openUsed

/-- Does the change from `q0` to `q1` pass CVAL in an admitted direction? -/
def Dev.passes (d : Dev) (c : Fin 8) (u : Fin 2) (q0 q1 : Int) : Bool :=
  let v := d.rdCI c u FBU.CVAL
  (admits (d.rdC c u FBU.CDIR) true && decide (q0 < v) && decide (v ≤ q1)) ||
  (admits (d.rdC c u FBU.CDIR) false && decide (v < q0) && decide (q1 ≤ v))

/-- Is the unit armed and on? -/
def Dev.cmpArmed (d : Dev) (c : Fin 8) (u : Fin 2) : Bool := d.rdC c u FBU.ARMED == 1 && d.rdC c u FBU.CMODE != 0

/-- CVAL is behind at time `t` (R398). -/
def Dev.cmpBehind (d : Dev) (c : Fin 8) (u : Fin 2) (t : Nat) : Bool :=
  let s : Fin 8 := ⟨d.rdC c u FBU.CSRC % 8, Nat.mod_lt _ (by decide)⟩
  match (d.fbu s).change with
  | none => false
  | some (tc, up) =>
    decide (t ≤ tc + d.period) && admits (d.rdC c u FBU.CDIR) up &&
    (if up then decide (d.rdCI c u FBU.CVAL ≤ d.count s) else decide (d.count s ≤ d.rdCI c u FBU.CVAL))

/-- Every unit that watches channel `s` sees a change of its COUNT. -/
def watchCount (s : Fin 8) (q0 q1 : Int) (t : Nat) (d : Dev) : Dev :=
  (List.finRange 8).foldl (fun (d : Dev) (c : Fin 8) =>
    (List.finRange 2).foldl (fun (d : Dev) (u : Fin 2) =>
      if d.rdC c u FBU.CSRC = s.val ∧ d.cmpArmed c u ∧ d.passes c u q0 q1 then
        fireAfter c u (t + filterLsb (d.rd (pgFbu s) FBU.FILT)) 8 20 (d.mapCmp c u fun x => { x with span := some (q0, q1) })
      else d) d) d

/-- The length of a compare pulse, CPW × 10 ns (R397). -/
def Dev.pulseLsb (d : Dev) (c : Fin 8) (u : Fin 2) : Nat := max 1 (d.rdC c u FBU.CPW) * tenNs

/-- COMPARE_PULSE_END (R397): the pulse of a firing has lasted CPW × 10 ns, and the pin returns to its inactive level. -/
def comparePulseEnd (c : Fin 8) (u : Fin 2) (t : Nat) (d : Dev) : Dev :=
  let x := (d.fbu c).cmp[u]
  if d.rdC c u FBU.CACT = 0 ∧ x.active ∧ x.last + d.pulseLsb c u ≤ t then driveCmp c u false (x.last + d.pulseLsb c u) (d.at t)
  else d

/-- COMPARE_FIRING_IN_TURN (R399): in regular mode a value that the same change passed, or that is still behind with BPOL 1;
2 × CPW × 10 ns after the previous firing. -/
def compareInTurn (c : Fin 8) (u : Fin 2) (t : Nat) (d : Dev) : Dev :=
  let passed : Bool := match ((d.fbu c).cmp[u]).span with
    | some (q0, q1) => d.passes c u q0 q1
    | none => false
  if (passed || (d.rdC c u FBU.BPOL == 1 && d.cmpBehind c u t)) = true ∧ d.cmpArmed c u ∧ d.rdC c u FBU.CMODE = 2 ∧
      ((d.fbu c).cmp[u]).last + 2 * d.pulseLsb c u ≤ t then
    fireCmp c u (((d.fbu c).cmp[u]).last + 2 * d.pulseLsb c u) (d.at t)
  else d

/-- A write of CVAL has landed (R398). -/
def cvalWritten (c : Fin 8) (u : Fin 2) (d : Dev) : Dev :=
  if d.rdC c u FBU.CMODE = 0 then d
  else
    let d := (d.wrC c u FBU.ARMED 1).mapCmp c u fun x => { x with span := none, endless := d.rdC c u FBU.CNUM == 0 }
    if d.cmpBehind c u d.st then
      let d := fbuEvent c 7 (d.wrC c u FBU.BEHIND 1)
      if d.rdC c u FBU.BPOL = 1 then fireAfter c u d.st 0 20 d else d
    else d

/-! ## Counting (R382 to R386) -/

/-- COUNT of a channel takes a value; a change is watched by the compare units, and SLSAT follows (R383). -/
def setCount (c : Fin 8) (q : Int) (t : Nat) (d : Dev) : Dev :=
  let pg := pgFbu c
  let q0 := d.count c
  let lim := d.rd pg FBU.LIMEN = 1
  let q1 := sxt 32 (toBits 32 (if lim then clampI (d.rdI pg FBU.SLMIN) (d.rdI pg FBU.SLMAX) q else q))
  let d := d.mapFbu c fun x => { x with lost := x.lost + (if lim then q - q1 else 0) }
  let at' := decide lim && (q1 == d.rdI pg FBU.SLMIN || q1 == d.rdI pg FBU.SLMAX)
  let was := d.on pg FBU.SLSAT
  let d := (d.wr pg FBU.COUNT (toBits 32 q1)).wr pg FBU.SLSAT (b2n at')
  let d := if at' ∧ (!was ∨ q0 ≠ q1) then fbuEvent c 2 d else d
  if q0 = q1 then d
  else watchCount c q0 q1 t (d.mapFbu c fun x => { x with change := some (t, decide (q0 < q1)) })

/-- COUNT from RAW (R383, steps 2 and 3); counts lost at a soft limit are not restored. -/
def formCount (c : Fin 8) (t : Nat) (d : Dev) : Dev :=
  let pg := pgFbu c
  let raw := d.rdI pg FBU.RAW - (d.fbu c).lost
  let diff := sxt 32 (toBits 32 (d.count c - raw))
  let q := d.count c - diff + (if d.on pg FBU.HYS then clampI 0 1 diff else 0)
  setCount c q t d

/-- A counting step of a channel (R383). -/
def countStep (c : Fin 8) (s : Int) (t : Nat) (d : Dev) : Dev :=
  let pg := pgFbu c
  let s := if d.on pg FBU.DIR then -s else s
  formCount c t (d.wr pg FBU.RAW (toBits 32 (d.rdI pg FBU.RAW + s)))

/-- Position of two quadrature levels in the cycle 00, 10, 11, 01, in which A leads: counting up (notes/assumptions/31.md). -/
def quadPhase (a b : Bool) : Nat := match a, b with
  | false, false => 0
  | true, false => 1
  | true, true => 2
  | false, true => 3

/-- The step of a quadrature edge: 0 where nothing changed, nothing where both lines changed. -/
def quadStep (a0 b0 a1 b1 : Bool) : Option Int :=
  match (quadPhase a1 b1 + 4 - quadPhase a0 b0) % 4 with
  | 0 => some 0
  | 1 => some 1
  | 3 => some (-1)
  | _ => none

/-- The step of a pair of edges by count mode (R382): 0 and 3 quadrature ×4, 1 quadrature ×1 (edges of A while B is low), 2
up/down. -/
def stepOf (mode : Nat) (a0 b0 a1 b1 : Bool) : Option Int :=
  match mode with
  | 1 =>
    match quadStep a0 b0 a1 b1 with
    | some s => some (if a0 != a1 && !b1 then s else 0)
    | none => none
  | 2 => if a0 != a1 && b0 != b1 then none else some ((if a1 && !a0 then 1 else 0) - (if b1 && !b0 then 1 else 0))
  | _ => quadStep a0 b0 a1 b1

/-- An A or B edge at `t` follows the last edge of the other line too closely (R384). -/
def tooClose (gap t : Nat) (other : Option Nat) : Bool := match other with
  | some t0 => decide (t < t0 + gap)
  | none => false

/-- Does an edge at `t` follow the last edge of the other line too closely? -/
def FbuDyn.closeEdge (x : FbuDyn) (a b : Bool) (gap t : Nat) : Bool :=
  (x.a != a && tooClose gap t x.edgeB) || (x.b != b && tooClose gap t x.edgeA)

/-- Incremental mode: the channel counts, or finds an illegal transition (R384). -/
def incEdge (c : Fin 8) (a b : Bool) (t : Nat) (d : Dev) : Dev :=
  let pg := pgFbu c
  let x := d.fbu c
  let d := d.mapFbu c fun x => { x with
    edgeA := if x.a != a then some t else x.edgeA, edgeB := if x.b != b then some t else x.edgeB }
  let bad := x.closeEdge a b (tenNs + filterLsb (d.rd pg FBU.FILT)) t
  match bad, stepOf (d.rd pg FBU.QM) x.a x.b a b with
  | false, some s => if s = 0 then d else countStep c s t d
  | _, _ => fbuEvent c 1 (d.inc pg FBU.QERR)

/-- Sector of a Hall state, in the order 101, 100, 110, 010, 011, 001 of U, V, W (notes/assumptions/31.md). -/
def hallSector (u v w : Bool) : Option Nat :=
  match u, v, w with
  | true, false, true => some 0
  | true, false, false => some 1
  | true, true, false => some 2
  | false, true, false => some 3
  | false, true, true => some 4
  | false, false, true => some 5
  | _, _, _ => none

/-- FERR (R390). -/
def showFerr (c : Fin 8) (d : Dev) : Dev :=
  let pg := pgFbu c
  d.wr pg FBU.FERR (b2n (d.on pg FBU.LF || d.on pg FBU.HALLERR || (d.fbu c).serr || d.on pg FBU.IXF))

/-- Hall mode (R386). -/
def hallEdge (c : Fin 8) (u v w : Bool) (t : Nat) (d : Dev) : Dev :=
  let pg := pgFbu c
  let old := (d.fbu c).hall
  match hallSector u v w with
  | none => showFerr c (d.wr pg FBU.HALLERR 1)
  | some s =>
    let d := d.mapFbu c fun x => { x with hall := some s }
    match old with
    | none => showFerr c (d.wr pg FBU.HALLERR 0)
    | some s0 =>
      match (s + 6 - s0) % 6 with
      | 0 => showFerr c (d.wr pg FBU.HALLERR 0)
      | 1 => countStep c 1 t (showFerr c (d.wr pg FBU.HALLERR 0))
      | 5 => countStep c (-1) t (showFerr c (d.wr pg FBU.HALLERR 0))
      | _ => showFerr c (d.wr pg FBU.HALLERR 1)

/-! ## Line faults, serial frames (R385, R387) -/

/-- Is a differential pair (0 A, 1 B, 2 Z) in use in a mode (*Feedback modes*)? -/
def lineUsed (mode : Nat) (l : Nat) : Bool := mode == 1 || (mode == 3 && l != 2)

def lineFault (c : Fin 8) (l : Nat) (d : Dev) : Dev :=
  let pg := pgFbu c
  if d.on pg FBU.LFEN && lineUsed (d.rd pg FBU.MODE) l && !d.rdBit pg FBU.LF l then
    fbuEvent c 0 (showFerr c ((d.wrBit pg FBU.LF l true).inc pg FBU.LFC))
  else d

def lineFaultEnd (c : Fin 8) (l : Nat) (d : Dev) : Dev := showFerr c (d.wrBit (pgFbu c) FBU.LF l false)

/-- Position bits of a frame: `bits` has the k-th received data bit at bit k; the position's most significant bit first. -/
def framePos (bits pofs pbits : Nat) : Nat :=
  (List.range pbits).foldl (fun acc i => 2 * acc + bitsOf bits (pofs + i) 1) 0

/-- Decode Gray code of `w` bits. -/
def grayDecode : Nat → Nat → Nat
  | 0, g => g
  | n + 1, g => grayDecode n (xorN g (g / 2 ^ 2 ^ n))

/-- SERIAL_FRAME (R387): the frame of a tick, with the measured delay of its start bit in ns. -/
def serialFrame (c : Fin 8) (delay : Nat) (bits : Nat) (d : Dev) : Dev :=
  let pg := pgFbu c
  if d.stage = 0 ∨ d.rd pg FBU.MODE ≠ 3 then d
  else
    let pbits := d.rd pg FBU.PBITS
    let pofs := d.rd pg FBU.POFS
    let err := decide (2000 < delay) || (d.on pg FBU.EBIT && bitOf bits (pofs + pbits))
    let d := if delay ≤ 2000 then d.wr pg FBU.SDLY (delay / 10) else d
    let d := showFerr c ((d.mapFbu c fun x => { x with serr := err }).wr pg FBU.SERR (b2n err))
    if err then fbuEvent c 4 d
    else
      let g := framePos bits pofs pbits
      let p := if d.on pg FBU.GRAY then grayDecode 6 g else g
      let prev := (d.fbu c).serial
      let d := d.mapFbu c fun x => { x with serial := some p }
      match prev with
      | none => formCount c d.st (d.wr pg FBU.RAW p)
      | some p0 =>
        let s := sxt pbits (toBits pbits ((p : Int) - p0))
        if s = 0 then d else countStep c s d.st d

/-! ## Index and latches (R391 to R395) -/

/-- The check of an index (R392). -/
def indexCheck (c : Fin 8) (t : Nat) (d : Dev) : Dev :=
  let pg := pgFbu c
  let per : Int := d.rd pg FBU.IPER
  if per = 0 then d
  else
    let x := sxt 32 (toBits 32 (d.rdI pg FBU.IPOS - d.rdI pg FBU.IREF))
    let dev := x - per * ((2 * x + per) / (2 * per))
    if |dev| ≤ (d.rd pg FBU.ITOL : Int) then d
    else
      let d := fbuEvent c 3 ((d.wrI pg FBU.IDEV dev).inc pg FBU.IDEVC)
      match d.rd pg FBU.IPOL with
      | 1 =>
        let d := d.wr pg FBU.RAW (toBits 32 (d.rdI pg FBU.RAW - dev))
        setCount c (sxt 32 (toBits 32 (d.count c - dev))) t d
      | 2 => showFerr c (d.wr pg FBU.IXF 1)
      | _ => d

/-- The latch takes an edge (R393). -/
def latchTake (c : Fin 8) (t : Nat) (d : Dev) : Dev :=
  let pg := pgFbu c
  let d := if d.on pg FBU.LFULL then d.inc pg FBU.LMISS else d
  let d := (d.wr pg FBU.LPOS (d.rd pg FBU.COUNT)).wr64 pg 0 FBU.LTAGLO.off
    (d.tagOf (if d.on pg FBU.LSRC then CAL.TFBU else CAL.TLAT) t)
  fbuEvent c 5 (((d.wr pg FBU.LFULL 1).incW pg FBU.LCNT).mapFbu c fun x => { x with latched := true })

/-- An edge of the latch source of a channel: taken by the polarity of LEDGE, when armed or automatic (R393). -/
def latchSource (c : Fin 8) (rising : Bool) (t : Nat) (d : Dev) : Dev :=
  let pg := pgFbu c
  let edge := d.rd pg FBU.LEDGE
  if !(edge == 3 || (edge == 1 && rising) || (edge == 2 && !rising)) then d
  else if d.on pg FBU.LAUTO then latchTake c t d
  else if d.on pg FBU.LARMD then latchTake c t (d.wr pg FBU.LARMD 0)
  else d.inc pg FBU.LMISS

/-! ## Edges at the input pins (R382 to R386, R391, R393) -/

/-- The inputs of a channel, past the filter, take new levels by an edge at `t`: the channel counts by its mode, and a change of Z
is an edge of the latch with LSRC = 1 where the mode uses Z. -/
def countEdge (c : Fin 8) (a b z : Bool) (t : Nat) (d : Dev) : Dev :=
  let pg := pgFbu c
  let was := (d.fbu c).z
  let mode := d.rd pg FBU.MODE
  let d := match mode with
    | 1 => incEdge c a b t d
    | 2 => hallEdge c a b z t d
    | _ => d
  let d := d.mapFbu c fun x => { x with a := a, b := b, z := z }
  if was ≠ z ∧ d.on pg FBU.LSRC ∧ (mode = 1 ∨ mode = 2) then latchSource c z t d else d

/-- The width of a channel's filter. -/
def Dev.filterOf (d : Dev) (c : Nat) : Nat := filterLsb (d.rd (pgFbu c) FBU.FILT)

/-- A line shows a level at `t`; `v` is its level past the filter. A change is held until the filter has passed it; one taken back
before was a pulse to ignore (R384). -/
def holdLine (i : Nat) (v level : Bool) (t : Nat) (l : List Held) : List Held :=
  if l.any fun h => h.line == i then (if level = v then l.filter fun h => h.line != i else l)
  else if level = v then l
  else l ++ [⟨i, level, t⟩]

/-- The changes that the filter of a channel has passed by `now` count, those of one instant together. -/
def settleFbu (c : Fin 8) (now : Nat) (d : Dev) : Dev :=
  let due := fun (h : Held) => decide (h.t + d.filterOf c ≤ now)
  let l := (d.fbu c).held.filter due
  let d := d.mapFbu c fun x => { x with held := x.held.filter fun h => !due h }
  (l.map Held.t).eraseDups.foldl (fun (d : Dev) (t : Nat) =>
    let x := d.fbu c
    let m := l.filter fun h => h.t == t
    countEdge c (heldLevel 0 x.a m) (heldLevel 1 x.b m) (heldLevel 2 x.z m) t d) d

/-- The levels of the input pins of a channel at `t`. -/
def fbuPins (c : Fin 8) (a b z : Bool) (t : Nat) (d : Dev) : Dev :=
  let s := 0x10 + 4 * c.val
  let d := pinEdge (s + 2) z t (pinEdge (s + 1) b t (pinEdge s a t d))
  d.mapFbu c fun x => { x with held := holdLine 2 x.z z t (holdLine 1 x.b b t (holdLine 0 x.a a t x.held)) }

/-- FBU_COUNT_STEP: the levels of a channel's input pins at `t`. -/
def fbuEdge (c : Fin 8) (a b z : Bool) (t : Nat) (d : Dev) : Dev :=
  if d.stage = 0 then d
  else settleFbu c t (fbuPins c a b z t (settleFbu c t (d.at t)))

/-- Z of a channel stands at its active level by an index edge at `t`. -/
def zActive (c : Fin 8) (t : Nat) (d : Dev) : Dev :=
  let was := (d.fbu c).z
  let d := (pinEdge (0x12 + 4 * c.val) true t d).mapFbu c fun x => { x with z := true, held := x.held.filter fun h => h.line != 2 }
  if !was ∧ d.on (pgFbu c) FBU.LSRC then latchSource c true t d else d

/-- INDEX_EDGE (R391): COUNT with every step whose edge came before, the tag, the latch, the check. -/
def indexEdge (c : Fin 8) (t : Nat) (d : Dev) : Dev :=
  let pg := pgFbu c
  if d.stage = 0 ∨ d.rd pg FBU.MODE ≠ 1 then d
  else
    let d := zActive c t (settleFbu c (t + d.filterOf c) (d.at t))
    let d := (d.wr pg FBU.IPOS (d.rd pg FBU.COUNT)).wr64 pg 0 FBU.ITAGLO.off (d.tagOf CAL.TFBU t)
    indexCheck c t ((d.incW pg FBU.ISEEN).mapFbu c fun x => { x with indexed := true })

/-- The latch of a channel takes the edges of a LAT pin. -/
def Dev.latchesOn (d : Dev) (c pin : Nat) : Bool := !d.on (pgFbu c) FBU.LSRC && d.rd (pgFbu c) FBU.LPIN == pin

/-- LATCH_EDGE (R393): an edge of a LAT pin, for every channel whose latch takes that pin. -/
def latchEdge (pin : Fin 8) (rising : Bool) (t : Nat) (d : Dev) : Dev :=
  if d.stage = 0 then d
  else
    let d := (pinEdge (0x30 + pin.val) rising t (d.at t)).mapFbu pin fun x => { x with pin := rising }
    (List.finRange 8).foldl (fun (d : Dev) (c : Fin 8) =>
      if d.latchesOn c pin then latchSource c rising t (settleFbu c (t + d.filterOf c) d) else d) d

/-- LATCH_LEVEL_DEBOUNCE (R395): the level of a LAT pin has held. -/
def latchLevel (pin : Fin 8) (level : Bool) (d : Dev) : Dev :=
  let d := pinEdge (0x30 + pin.val) level d.st (d.mapFbu pin fun x => { x with pin := level })
  if d.on (pgFbu pin) FBU.LIEN then d.mapFbu pin fun x => { x with lat := level } else d

/-! ## Configuration and commands of an FBU page (R389, R417) -/

/-- The channel is the position source of a table that is not MOORED, or the master of a slave in RUN. -/
def Dev.fbuInUse (d : Dev) (c : Fin 8) : Bool :=
  d.activeAxes.any fun (n : Fin 256) =>
    (d.axState n != axMOORED && d.par n AXP.LFB == 1 && d.par n AXP.LFBCH == c.val) ||
    (d.axState n == axRUN && decide (2 ≤ d.par n AXP.SPSRC) && d.par n AXP.MKIND == 0 && d.par n AXP.MIDX == c.val)

/-- MODE or QM has changed: COUNT, RAW, the index record and the latch record clear. Hall mode starts from the levels that stand
(R386). -/
def fbuModeChanged (c : Fin 8) (d : Dev) : Dev :=
  let pg := pgFbu c
  let d := ((d.wr pg FBU.RAW 0).wr pg FBU.COUNT 0).wr pg FBU.SLSAT 0
  let d := (d.wr pg FBU.IPOS 0).wr64 pg 0 FBU.ITAGLO.off 0
  let d := ((d.wr pg FBU.LPOS 0).wr64 pg 0 FBU.LTAGLO.off 0).wr pg FBU.LFULL 0
  let sector := hallSector (d.fbu c).a (d.fbu c).b (d.fbu c).z
  let hall := d.rd pg FBU.MODE == 2
  let d := d.wr pg FBU.HALLERR (b2n (hall && sector.isNone))
  showFerr c (d.mapFbu c fun x => { x with
    serial := none, serr := false, hall := if hall then sector else none, lost := 0, change := none, indexed := false,
    latched := false, edgeA := none, edgeB := none })

/-- SLSAT is 1 while COUNT sits at a soft limit in use (R383). -/
def showLimit (c : Fin 8) (d : Dev) : Dev :=
  let pg := pgFbu c
  d.wr pg FBU.SLSAT (b2n (d.on pg FBU.LIMEN && (d.count c == d.rdI pg FBU.SLMIN || d.count c == d.rdI pg FBU.SLMAX)))

/-- Pairs that the channel no longer checks have no line fault (R385). -/
def dropLines (c : Fin 8) (d : Dev) : Dev :=
  let pg := pgFbu c
  showFerr c ((List.range 3).foldl (fun (d : Dev) (l : Nat) =>
    if d.on pg FBU.LFEN && lineUsed (d.rd pg FBU.MODE) l then d else d.wrBit pg FBU.LF l false) d)

/-- FCFG of a channel has been written; `old` and `v` are its values before and now (R383, R385, R389). -/
def fbuConfigured (c : Fin 8) (old v : Nat) (d : Dev) : Dev :=
  showLimit c (dropLines c (if old % 16 = v % 16 then d else fbuModeChanged c d))

/-- A command reaches an FBU page. -/
def landFbu (c : Fin 8) (code arg : Nat) (d : Dev) : Dev :=
  let pg := pgFbu c
  match code with
  | 0x01 => takeCmd pg code arg (fun _ => rOK) (fun d => d.wr pg FBU.LARMD 1) d
  | 0x02 => takeCmd pg code arg (fun _ => rOK) (fun d => d.wr pg FBU.LARMD 0) d
  | 0x03 =>
    takeCmd pg code arg (fun _ => checks true (decide (arg ≤ 1)))
      (fun d => d.wrC c ⟨arg % 2, Nat.mod_lt _ (by decide)⟩ FBU.ARMED 0) d
  | 0x04 => takeCmd pg code arg (fun d => checks (!d.on pg FBU.LF) true) (fun d => showFerr c (d.wr pg FBU.IXF 0)) d
  | 0x05 =>
    takeCmd pg code arg (fun _ => rOK) (fun d =>
      let d := ((d.setReg pg 0 FBU.QERR.off 0).wr pg FBU.IDEVC 0).wr pg FBU.LMISS 0
      (d.wr pg FBU.BEHIND 0).wr pg (FBU.BEHIND.nth 0x20 1) 0) d
  | _ => takeCmd pg code arg (fun _ => rCODE) id d

/-! ## Pulse inputs (R296, R297, R408) -/

def Dev.pulseIn (d : Dev) (i : Fin 4) : PulseDyn := d.io.pulse[i]
def Dev.mapPulse (i : Fin 4) (f : PulseDyn → PulseDyn) (d : Dev) : Dev :=
  { d with io := { d.io with pulse := d.io.pulse.set i (f (d.pulseIn i)) } }

/-- The step of a pulse input by PMODE: 1 step/direction (a rising edge of A, up while B is high), 2 quadrature ×4, 3 up/down. -/
def pulseStep (mode : Nat) (a0 b0 a1 b1 : Bool) : Int :=
  match mode with
  | 1 => if a1 && !a0 then (if b1 then 1 else -1) else 0
  | 2 => (quadStep a0 b0 a1 b1).getD 0
  | 3 => (stepOf 2 a0 b0 a1 b1).getD 0
  | _ => 0

/-- The lines of a pulse input, past the filter, take new levels by an edge at `t` (R408). -/
def countPulse (i : Fin 4) (a b : Bool) (t : Nat) (d : Dev) : Dev :=
  let x := d.pulseIn i
  let f := fun (g : Fld) => g.nth 0x10 i
  let s := pulseStep (d.rd pgSGU (f SGU.PMODE)) x.a x.b a b
  let d := d.mapPulse i fun x => { x with a := a, b := b }
  if s = 0 then d
  else
    let s := if d.on pgSGU (f SGU.PDIR) then -s else s
    let tag := d.tagOf CAL.TLAT t
    let d := d.wr pgSGU (f SGU.PCNT) (toBits 32 (d.rdI pgSGU (f SGU.PCNT) + s))
    let d := (d.wr pgSGU (f SGU.PT2) (d.rd pgSGU (f SGU.PT1))).wr pgSGU (f SGU.PT1) tag
    d.mapPulse i fun x => { x with t1 := tag, t2 := x.t1, up1 := some (decide (0 < s)), up2 := x.up1 }

/-- The changes that the filter of a pulse input has passed by `now` count. -/
def settlePulse (i : Fin 4) (now : Nat) (d : Dev) : Dev :=
  let w := filterLsb (d.rd pgSGU (SGU.FILT.nth 0x10 i))
  let due := fun (h : Held) => decide (h.t + w ≤ now)
  let l := (d.pulseIn i).held.filter due
  let d := d.mapPulse i fun x => { x with held := x.held.filter fun h => !due h }
  (l.map Held.t).eraseDups.foldl (fun (d : Dev) (t : Nat) =>
    let x := d.pulseIn i
    let m := l.filter fun h => h.t == t
    countPulse i (heldLevel 0 x.a m) (heldLevel 1 x.b m) t d) d

/-- The levels of the pins of a pulse input at `t`. -/
def pulsePins (i : Fin 4) (a b : Bool) (t : Nat) (d : Dev) : Dev :=
  let s := 0x38 + 2 * i.val
  let d := pinEdge (s + 1) b t (pinEdge s a t d)
  d.mapPulse i fun x => { x with held := holdLine 1 x.b b t (holdLine 0 x.a a t x.held) }

/-- PULSE_INPUT_EDGE (R408): the levels of the pins of a pulse input at `t`. -/
def pulseEdge (i : Fin 4) (a b : Bool) (t : Nat) (d : Dev) : Dev :=
  if d.stage = 0 then d
  else settlePulse i t (pulsePins i a b t (settlePulse i t (d.at t)))

/-- At the tick, every edge counts that its filter has passed by then. -/
def settleInputs (tick : Nat) (d : Dev) : Dev :=
  let d := (List.finRange 8).foldl (fun (d : Dev) (c : Fin 8) => settleFbu c tick d) d
  (List.finRange 4).foldl (fun (d : Dev) (i : Fin 4) => settlePulse i tick d) d

/-- The interpolated position at a tick, in LSB of Q47.16 (R296, R297); `prev` is that of the cycle before. -/
def Dev.pulsePos (d : Dev) (i : Fin 4) (prev : Int) (tick : Nat) : Int :=
  let f := fun (g : Fld) => g.nth 0x10 i
  let x := d.pulseIn i
  let n := d.rdI pgSGU (f SGU.PCNT) * 65536
  let since := tick - x.t1
  let gap := x.t1 - x.t2
  match x.up1, x.up2 with
  | some u1, some u2 =>
    if u1 != u2 then n
    else
      let f0 : Nat :=
        if !d.on pgPRF (PRF.IEN.nth 4 i) || decide (d.rd pgPRF (PRF.TMO.nth 4 i) * d.period < since) || gap == 0 then 0
        else min (since * 65536 / gap) 65535
      let p := if u1 then n + f0 else n - f0
      if u1 then max p (min prev (n + 65535)) else min p (max prev (n - 65535))
  | _, _ => n

/-! ## Step channels (R406, R407, R420) -/

def Dev.stp (d : Dev) (n : Fin 16) : StepDyn := d.io.stp[n]
def Dev.setStp (n : Fin 16) (x : StepDyn) (d : Dev) : Dev := { d with io := { d.io with stp := d.io.stp.set n x } }

/-- Step width in ns. -/
def Dev.spw (d : Dev) (n : Fin 16) : Nat := max 20 (d.rd (pgSgc n) SGC.SPW)

/-- A step channel at the tick of a cycle at `tick` (R406, R407); a table in MOORED owes no steps. -/
def stepTick (n : Fin 16) (tick : Nat) (d : Dev) : Dev :=
  let pg := pgSgc n
  if !d.on pg SGC.SEN then d
  else
    let x := d.stp n
    let want := (d.ax (axisNo (d.rd pg SGC.SAX))).pSet / ((65536 * 2 ^ min 8 (d.rd pg SGC.SDIV) : Nat) : Int)
    let go := if d.axState (axisNo (d.rd pg SGC.SAX)) = axMOORED then 0 else want - d.rdI pg SGC.SPOS
    let turn := go ≠ 0 ∧ decide (go < 0) ≠ x.neg
    let a := if turn then min 5000 (max 20 (d.rd pg SGC.DSET)) else 0
    let m := min go.natAbs ((d.period / 16 - a) / max (2 * d.spw n) 40)
    let owed := go.natAbs - m
    let d := d.setStp n { neg := if turn then !x.neg else x.neg, m := m, i := 0, a := a, tick := tick }
    let d := ((d.wr pg SGC.RUN (b2n (m != 0))).wr pg SGC.LAG (b2n (owed != 0))).wr pg SGC.LAGN (min 0xFFFF owed)
    let max' := d.rd pg SGC.LAGMAX
    if max' ≠ 0 ∧ max' < owed then raise pg 0 0 (d.wr pg SGC.LAGF 1) else d

/-- STEP_PULSE (R406): the next step of the cycle. -/
def stepPulse (n : Fin 16) (t : Nat) (d : Dev) : Dev :=
  let pg := pgSgc n
  let x := d.stp n
  if d.on pg SGC.SEN ∧ x.i < x.m then
    let begins := x.tick + 16 * (x.a + (2 * x.i + 1) * (d.period / 16 - x.a) / (2 * x.m))
    let d := (d.at t).setStp n { x with i := x.i + 1 }
    let d := d.wr pg SGC.SPOS (toBits 32 (d.rdI pg SGC.SPOS + (if x.neg then -1 else 1)))
    let idle := d.on pg SGC.SPINV
    let d := (if x.i + 1 = x.m then d.wr pg SGC.RUN 0 else d).emit (.step n (x.neg != d.on pg SGC.SDINV) (!idle) begins)
    pinEdge (0x50 + n.val) idle (begins + 16 * d.spw n) (pinEdge (0x50 + n.val) (!idle) begins d)
  else d

/-- A command reaches an SGC page. -/
def landSgc (n : Fin 16) (code arg : Nat) (d : Dev) : Dev :=
  match code with
  | 0x01 => takeCmd (pgSgc n) code arg (fun _ => rOK) (fun d => d.wr (pgSgc n) SGC.LAGF 0) d
  | _ => takeCmd (pgSgc n) code arg (fun _ => rCODE) id d

/-! ## SGU (R401, R409, R419) -/

/-- A command reaches the SGU page. -/
def landSgu (code arg : Nat) (d : Dev) : Dev :=
  match code with
  | 0x01 => takeCmd pgSGU code arg (fun _ => checks true (decide (arg < 16))) (fun d => d.wrS pgSGU arg SGU.ARMED 0) d
  | 0x02 =>
    takeCmd pgSGU code arg (fun _ => rOK) (fun d =>
      d.each (List.range 16) fun r d => (d.wrS pgSGU r SGU.RMISS 0).wrS pgSGU r SGU.BEHIND 0) d
  | _ => takeCmd pgSGU code arg (fun _ => rCODE) id d

end Sys2Proof.Machine
end

