-- ==== Sys2Proof/Machine/Mfe.lean ====
section
/-! DEFINITION. The measurement front end (R423 to R452). A scan runs with the registers of its start (R434), kept as the adopted
copies of the MFC page; the code of a conversion before calibration comes with RUNDOWN_COMPLETE. -/
namespace Sys2Proof.Machine

def Dev.core (d : Dev) (c : Fin 4) : Core := d.mfe.core[c]
def Dev.mapCore (c : Fin 4) (f : Core → Core) (d : Dev) : Dev :=
  { d with mfe := { d.mfe with core := d.mfe.core.set c (f (d.core c)) } }

/-- A register field of core `c`, live, and as in force for the scan. -/
def Dev.mf (d : Dev) (c : Fin 4) (f : Fld) : Nat := d.rd (pgMfc c) f
def Dev.mfScan (d : Dev) (c : Fin 4) (f : Fld) : Nat := d.rdS (pgMfc c) (adopted 0) f

/-- Is the core in a scan of its own, dump included? -/
def Dev.inScan (d : Dev) (c : Fin 4) : Bool := decide (4 ≤ d.rd (pgMfc c) MFC.CSTATE) && !d.validating c

/-- A field of MCFG to MCHK as in force now: a scan in progress keeps the values of its start (R434). -/
def Dev.mfNow (d : Dev) (c : Fin 4) (f : Fld) : Nat := if d.inScan c then d.mfScan c f else d.mf c f
def Dev.mfPut (c : Fin 4) (f : Fld) (v : Nat) (d : Dev) : Dev := d.wr (pgMfc c) f v

/-- CSTATE: 0 OFF, 1 IDLE, 2 SLEEP, 3 WAKE, 4 SCAN, 5 DUMP. -/
def Dev.cstate (d : Dev) (c : Fin 4) : Nat := d.mf c MFC.CSTATE

/-- An event of core `c` (R452): the argument is the channel, or 0xFF. -/
def mfcEvent (c : Fin 4) (bit arg : Nat) (d : Dev) : Dev := raise (pgMfc c) bit arg d

/-- Microseconds in ST LSB. -/
def usLsb : Nat := 16000

/-! ## Triggers (R431, R432) -/

/-- Is the source predictable (*Trigger sources*)? -/
def predictable (tsrc : Nat) : Bool := tsrc == 1 || tsrc == 2 || tsrc == 3

/-- A cycle in which sources 2 and 3 trigger. -/
def Dev.trigCycle (d : Dev) (c : Fin 4) (k : Nat) : Bool :=
  k % 2 ^ d.mfNow c MFC.TDIV == d.mfNow c MFC.TPH % 2 ^ d.mfNow c MFC.TDIV

/-- The offset of a trigger of sources 2 and 3 from its tick. -/
def Dev.trigOffset (d : Dev) (c : Fin 4) : Nat :=
  if d.mfNow c MFC.TSRC = 3 then
    (2 * min (d.mfNow c MFC.PJ) (2 ^ d.mfNow c MFC.PDIV - 1) + 1) * d.period / 2 ^ (d.mfNow c MFC.PDIV + 1)
  else 0

/-- The timer period of source 1 in ST LSB. -/
def Dev.timerLsb (d : Dev) (c : Fin 4) : Nat := max 20 (d.mfNow c MFC.TPER) * usLsb

/-- The time of the last hit of the compare output that source 4 names. -/
def Dev.hitTime (d : Dev) (c : Fin 4) : Nat :=
  let m := d.mfNow c MFC.CSEL
  (((d.fbu ⟨m / 2 % 8, Nat.mod_lt _ (by decide)⟩).cmp)[m % 2]'(Nat.mod_lt _ (by decide))).last

/-- Does a trigger of the selected source fall at `t`: for source 4 the last hit of its compare output, for source 5 the first
AXIS or IO frame of its station accepted in the present cycle? -/
def Dev.trigAt (d : Dev) (c : Fin 4) (t : Nat) : Bool :=
  match d.mfNow c MFC.TSRC with
  | 1 => t % d.timerLsb c == 0
  | 2 | 3 => d.trigCycle c d.cyc && t == d.tickSt + d.trigOffset c
  | 4 => t == d.hitTime c
  | 5 => (d.rg ⟨d.mfNow c MFC.RRING % 4, Nat.mod_lt _ (by decide)⟩).first.contains (d.mfNow c MFC.RSTA, t)
  | _ => false

/-- The first trigger time of a predictable source after `t`. -/
def Dev.nextTrig (d : Dev) (c : Fin 4) (t : Nat) : Nat :=
  if d.mfNow c MFC.TSRC = 1 then (t / d.timerLsb c + 1) * d.timerLsb c
  else
    let m := 2 ^ d.mfNow c MFC.TDIV
    let ph := d.mfNow c MFC.TPH % m
    let k0 := d.cyc / m * m + ph
    let at' := fun (k : Nat) => k * d.period + d.trigOffset c
    if t < at' k0 then at' k0 else if t < at' (k0 + m) then at' (k0 + m) else at' (k0 + 2 * m)

/-- A scan becomes pending; with one pending already, the trigger is lost (R432). -/
def pendScan (c : Fin 4) (d : Dev) : Dev :=
  if d.on (pgMfc c) MFC.PEND then mfcEvent c 3 0xFF (d.inc (pgMfc c) MFC.TRGLOST) else d.mfPut c MFC.PEND 1

/-- Scans whose due time the busy core has let pass before `t` are pending (R432; notes/assumptions/136.md). -/
def passDues (c : Fin 4) (t : Nat) (d : Dev) : Dev :=
  let late := fun (t0 : Nat) => decide (t0 < t)
  let n := ((d.core c).due.filter late).length
  (d.mapCore c fun x => { x with due := x.due.filter fun t0 => !late t0 }).each (List.range n) fun _ d => pendScan c d

/-- A trigger at `t` of a core that is not OFF. While the core scans or dumps, it makes a scan pending; so does one while the core
wakes, but for the trigger of a predictable source it wakes for (`own`); otherwise a scan is due after TDLY, each at its own time
(R431, R432). -/
def mfcTake (c : Fin 4) (own : Bool) (t : Nat) (d : Dev) : Dev :=
  let s := d.cstate c
  if s = 0 then d
  else if 4 ≤ s then pendScan c (passDues c t d)
  else if (s = 3 ∧ !own) ∨ (s ≠ 3 ∧ d.on (pgMfc c) MFC.PEND) then pendScan c d
  else d.mapCore c fun x => { x with due := x.due ++ [t + d.mf c MFC.TDLY * 160] }

/-- MFC_TRIGGER (R431). -/
def mfcTrigger (c : Fin 4) (t : Nat) (d : Dev) : Dev :=
  if d.trigAt c t ∧ d.mfNow c MFC.CONT = 0 then mfcTake c (predictable (d.mfNow c MFC.TSRC)) t (d.at t) else d

/-! ## Scans (R431 to R434, R438, R439) -/

/-- The registers of the start of a scan (R434): MCFG to MCHK, and CCFG and CAPER of every channel. -/
def adoptScan (c : Fin 4) (d : Dev) : Dev :=
  let pg := pgMfc c
  let d := d.each (List.range 8) fun i d => d.copyReg pg 0 (adopted 0) (0x40 + 4 * i)
  d.each (List.range 8) fun n d =>
    (d.copyReg pg 0 (adopted 0) (0x80 + 0x20 * n)).copyReg pg 0 (adopted 0) (0x84 + 0x20 * n)

/-- Entry `e` of the sequence in force: channel, and whether it is a check entry. -/
def Dev.entryOf (d : Dev) (c : Fin 4) (e : Nat) : Nat × Bool :=
  let w := d.mfScan c (if e < 8 then MFC.MSEQLO else MFC.MSEQHI)
  let n := bitsOf w (4 * (e % 8)) 4
  (n % 8, decide (8 ≤ n))

/-- The entry in progress, and a channel field in force for it. -/
def Dev.entryNow (d : Dev) (c : Fin 4) : Nat × Bool := d.entryOf c (d.mf c MFC.ENTRY)
def Dev.chanScan (d : Dev) (c : Fin 4) (f : Fld) : Nat := d.mfScan c (f.nth 0x20 (d.entryNow c).1)

/-- BOMODE with 3 as 0, and the range with 3 as 0. -/
def Dev.bomode (d : Dev) (c : Fin 4) : Nat := let m := d.chanScan c MFC.BOMODE; if m = 3 then 0 else m
def Dev.rangeOf (d : Dev) (c : Fin 4) : Nat := let r := d.chanScan c MFC.RANGE; if r = 3 then 0 else r

/-- Step 1 of an entry at `t` (R433, R426): multiplexer, excitation, burn-out current; the calibration of the conversion. -/
def beginEntry (c : Fin 4) (e t : Nat) (d : Dev) : Dev :=
  let d := (d.mfPut c MFC.ENTRY e).mfPut c MFC.CSTATE 4
  let r := d.rangeOf c
  let w := fun (i : Nat) => d.reg pgCAL 0 (CAL.GAIN0.off + 0x20 * c.val + 8 * r + 4 * i)
  d.mapCore c fun x => { x with
    phase := 0, testing := false, since := t, nolock := false, gain := (w 0).toInt, offs := (w 1).toInt,
    exc := d.chanScan c MFC.EXC, burn := if d.bomode c = 1 then d.chanScan c MFC.BOCUR + 1 else 0 }

/-- The scan that a free core starts by `t`: the first that is due (`some` its due time), or else the pending one (`none`). -/
def Dev.nextScan (d : Dev) (c : Fin 4) (t : Nat) : Option (Option Nat) :=
  match (d.core c).due with
  | t0 :: _ => if t0 ≤ t + 2 * 160 then some (some t0) else if d.on (pgMfc c) MFC.PEND then some none else none
  | [] => if d.on (pgMfc c) MFC.PEND then some none else none

/-- SCAN_START (R431, R432): a due or a pending scan of a free core; one that another scan has put off is late. -/
def scanStart (c : Fin 4) (t : Nat) (d : Dev) : Dev :=
  if d.cstate c ≠ 1 then d
  else match d.nextScan c t with
  | none => d
  | some due =>
    let d := adoptScan c (d.at t)
    let slack := if predictable (d.mf c MFC.TSRC) then 2 * 160 else 5 * 160
    let d := match due with
      | some t0 => d.mapCore c fun x => { x with due := x.due.drop 1, late := x.late || decide (t0 + slack < t), aborted := false }
      | none => (d.mfPut c MFC.PEND 0).mapCore c fun x => { x with late := true, aborted := false }
    beginEntry c 0 t d

/-- When the next scan of a predictable source is due. -/
def Dev.nextDue (d : Dev) (c : Fin 4) (t : Nat) : Nat :=
  match (d.core c).due with
  | t0 :: _ => t0
  | [] => d.nextTrig c t + d.mfNow c MFC.TDLY * 160

/-- The core is free at `t`: a validation takes it (R551), or it starts again (`cont`), waits, or sleeps (R431, R438). -/
def coreRest (c : Fin 4) (cont sleep : Bool) (t : Nat) (d : Dev) : Dev :=
  let d := (passDues c t d).mapCore c fun x =>
    { x with phase := 0, testing := false, late := false, aborted := false, burn := 0, due := if cont then x.due ++ [t] else x.due }
  if d.on pgCAL CAL.VBUSY then validateCore c (d.mfPut c MFC.CSTATE 1)
  else if cont || d.on (pgMfc c) MFC.PEND || !sleep then d.mfPut c MFC.CSTATE 1
  else (d.mfPut c MFC.CSTATE 2).mapCore c fun x => { x with exc := 0 }

/-- Does a core that becomes free at `t` with no scan pending go to sleep (R438)? -/
def Dev.sleepsAt (d : Dev) (c : Fin 4) (t : Nat) : Bool :=
  d.mfNow c MFC.PWRDN == 1 && (!predictable (d.mfNow c MFC.TSRC) || decide (t + 400 * usLsb < d.nextDue c t))

/-- A scan ends at `t`: what follows is by the registers it ran with (R434). -/
def coreFree (c : Fin 4) (t : Nat) (d : Dev) : Dev := coreRest c (d.mfNow c MFC.CONT == 1) (d.sleepsAt c t) t d

/-- The core is free of the validation: what is pending starts now, or it rests as after a scan of its own (R438, R551). -/
def validatedCore (c : Fin 4) (t : Nat) (d : Dev) : Dev :=
  if d.cstate c = 4 ∧ (d.core c).phase = 3 ∧ !(d.core c).testing then
    let d := d.mfPut c MFC.CSTATE 1
    coreRest c false (d.sleepsAt c t) t d
  else d

/-- CAL_VALIDATION_DONE (R551, R559). -/
def calValidationDone (codes : List (List (BitVec 24))) (d : Dev) : Dev :=
  if !d.on pgCAL CAL.VBUSY then d
  else
    let res := ((List.range 4).map fun n => if d.corePasses n (codes.getD n []) then 0 else 2 ^ n).foldl (· + ·) 0
    let d := (List.finRange 4).foldl (fun (d : Dev) (c : Fin 4) => validatedCore c d.st d)
      ((d.wr pgCAL CAL.VBUSY 0).wr pgCAL CAL.VRES res)
    let ok := res == 0 && d.on pgCAL CAL.SRC
    let d := raise pgCAL 0 res (setCalok ok d)
    if ok then autoFull d else d

/-- The next entry, or the end of the scan. -/
def nextEntry (c : Fin 4) (t : Nat) (d : Dev) : Dev :=
  let e := d.mf c MFC.ENTRY
  if (d.core c).aborted then coreFree c t d
  else if e < d.mfScan c MFC.SEQN then beginEntry c (e + 1) t d
  else coreFree c t (mfcEvent c 4 0xFF (d.incW (pgMfc c) MFC.SCANS))

/-- WAKE_START (R439): 200 µs before the due start of a predictable source; at the trigger of another. -/
def wakeStart (c : Fin 4) (t : Nat) (d : Dev) : Dev :=
  let ready := if predictable (d.mf c MFC.TSRC) then decide (d.nextDue c t ≤ t + 200 * usLsb) else (d.core c).due != []
  if d.cstate c = 2 ∧ ready then (d.at t).mfPut c MFC.CSTATE 3 else d

/-- WAKE_COMPLETE (R439): a start that waking has delayed makes the scan late. -/
def wakeComplete (c : Fin 4) (t : Nat) (d : Dev) : Dev :=
  if d.cstate c = 3 then
    let slow : Bool := match (d.core c).due with
      | t0 :: _ => decide (t0 < t)
      | [] => false
    ((d.at t).mfPut c MFC.CSTATE 1).mapCore c fun x => { x with late := slow }
  else d

/-! ## The aperture (R427, R430, R433) -/

/-- The aperture of an entry in ns (R427). -/
def Dev.aperture (d : Dev) (c : Fin 4) : Nat :=
  let a := d.chanScan c MFC.APER
  if d.chanScan c MFC.AMODE = 1 then min 10000 (max 2 a) * d.rd pgMFE MFE.LPER / 1000 * 10
  else min 100000 (max 10 a) * 1000

/-- 10 ns, the tolerance of the start and the end of an aperture (*Conversion timing*), in ST LSB. -/
def aperTol : Nat := 160

/-- SETTLE_END: the aperture starts, SETTLE µs after the entry. -/
def settleEnd (c : Fin 4) (t : Nat) (d : Dev) : Dev :=
  if d.cstate c = 4 ∧ (d.core c).phase = 0 ∧ (d.core c).since + d.chanScan c MFC.SETTLE * usLsb ≤ t + aperTol then
    let d := d.at t
    let nolock := d.chanScan c MFC.AMODE == 1 && !d.on pgMFE MFE.LOCK
    d.mapCore c fun x => { x with phase := 1, t0 := t, capt := d.aperture c, nolock := nolock }
  else d

/-- APERTURE_END: the rundown starts. -/
def apertureEnd (c : Fin 4) (t : Nat) (d : Dev) : Dev :=
  if d.cstate c = 4 ∧ (d.core c).phase = 1 ∧ (d.core c).t0 + (d.core c).capt * 16 ≤ t + aperTol then
    (d.at t).mapCore c fun x => { x with phase := 2, since := t }
  else d

/-! ## Results (R425, R435, R440, R441, R443 to R445) -/

/-- A word of the process image input area: byte `off` of the device's input bank (R54, R55). -/
def putInput (off v : Nat) (d : Dev) : Dev :=
  let bank := 3 - (d.rd pgTIM TIM.PIXI_HOST + d.rd pgTIM TIM.NEWEST)
  d.setMemLE (bankBase bank + d.rd pgTIM TIM.OSIZE * 64 + off) 4 v

/-- The result register of channel `n` stands in the process image (R435) and goes to the capture engine (R437). -/
def imageResult (c : Fin 4) (n : Nat) (d : Dev) : Dev :=
  if d.on (pgMfc c) MFC.IEN then
    putInput (4 * (d.mf c MFC.IOFS + n)) (d.reg (pgMfc c) 0 (MFC.CODE.nth 0x20 n).off).toNat d
  else d
def offerResult (c : Fin 4) (n : Nat) (d : Dev) : Dev :=
  capResult (8 * c.val + n) (d.rd64 (pgMfc c) 0 (MFC.CTAGLO.off + 0x20 * n)) d

/-- A result of the entry in progress: the code (`none` leaves it unchanged), its flags, the aperture in ns (`none` where it has
not started). -/
def writeResult (c : Fin 4) (code : Option Int) (ovr ow err : Bool) (capt : Option Nat) (d : Dev) : Dev :=
  let pg := pgMfc c
  let x := d.core c
  let (n, chk) := d.entryNow c
  let f := fun (g : Fld) => g.nth 0x20 n
  let d := if err then mfcEvent c 5 n (d.inc pg MFC.ERRC) else d
  if chk then
    match code with
    | none => d
    | some v =>
      let want := sxt 16 (d.mfScan c MFC.DACV) * 256
      let bad := decide ((d.mfScan c MFC.CHKTOL : Int) < |v - want|)
      let d := (d.wr pg MFC.CCODE (toBits 24 v)).wr pg MFC.CHKF (b2n bad)
      if bad then mfcEvent c 2 n (d.inc pg MFC.CHKFC) else d
  else
    let d := match code with
      | some v => d.wr pg (f MFC.CODE) (toBits 24 v)
      | none => d
    let d := match capt with
      | some ns => (d.wr pg (f MFC.CAPT) ns).wr64 pg 0 (MFC.CTAGLO.off + 0x20 * n) x.t0
      | none => d
    let d := ((d.wr pg (f MFC.OVR) (b2n ovr)).wr pg (f MFC.OW) (b2n ow)).wr pg (f MFC.ERR) (b2n err)
    let d := (d.wr pg (f MFC.NOLOCK) (b2n x.nolock)).wr pg (f MFC.LATE) (b2n x.late)
    offerResult c n (imageResult c n (d.wr pg (f MFC.RCNT) (d.rd pg (f MFC.RCNT) + 1)))

/-- The end of step 4: burn-out current off, excitation off unless EXCC (R444, R445). -/
def endConversion (c : Fin 4) (d : Dev) : Dev :=
  let keep := d.chanScan c MFC.EXCC == 1
  d.mapCore c fun x => { x with phase := 3, burn := 0, exc := if keep then x.exc else 0 }

/-- The dump after an overrange begins (R441). -/
def beginDump (c : Fin 4) (t : Nat) (d : Dev) : Dev := (d.mfPut c MFC.CSTATE 5).mapCore c fun x => { x with since := t }

/-- An overrange of an entry (R440). -/
def overrange (c : Fin 4) (d : Dev) : Dev := mfcEvent c 0 (d.entryNow c).1 (d.inc (pgMfc c) MFC.OVRC)

/-- The result code from the uncorrected code (R425, R550), not yet saturated. -/
def correctCode (gain offs code : Int) : Int := rnd (gain * (256 * code - offs)) 38

/-- RUNDOWN_COMPLETE (R433, R435), 4 µs after the aperture: `code` is the uncorrected code. -/
def rundownComplete (c : Fin 4) (code : BitVec 25) (t : Nat) (d : Dev) : Dev :=
  let x := d.core c
  if d.cstate c ≠ 4 ∨ x.phase ≠ 2 ∨ t < x.since + 4 * usLsb then d
  else
    let d := d.at t
    let v := correctCode x.gain x.offs code.toInt
    let q := satS 24 v
    let ovr := decide (v ≠ q)
    let ow := ovr && decide (0 < v) && d.bomode c == 1
    let n := (d.entryNow c).1
    let d := writeResult c (some q) ovr ow false (some x.capt) d
    let d := if ovr then overrange c d else d
    let d := if ow then mfcEvent c 1 n d else d
    let d := endConversion c d
    let d := if d.bomode c = 2 then
        d.mapCore c fun x => { x with testing := true, since := t, burn := d.chanScan c MFC.BOCUR + 1 }
      else d
    if ovr then beginDump c t d else if d.bomode c = 2 then d else nextEntry c t d

/-- BURNOUT_TEST_COMPLETE (R444): the current has flowed for 50 µs. -/
def burnoutTestComplete (c : Fin 4) (high : Bool) (t : Nat) (d : Dev) : Dev :=
  if !(d.core c).testing ∨ t < (d.core c).since + 50 * usLsb then d
  else
    let d := d.at t
    let (n, chk) := d.entryNow c
    let d := d.mapCore c fun x => { x with testing := false, burn := 0 }
    let d := if high then
        mfcEvent c 1 n (if chk then d else imageResult c n (d.wr (pgMfc c) (MFC.OW.nth 0x20 n) 1))
      else d
    if d.cstate c = 4 then nextEntry c t d else d

/-- OVERLOAD_TRIP (R440, R441): the aperture ends at once, and CAPT shows the time integrated. -/
def overloadTrip (c : Fin 4) (positive : Bool) (t : Nat) (d : Dev) : Dev :=
  let x := d.core c
  if d.cstate c ≠ 4 ∨ x.phase ≠ 1 then d
  else
    let d := d.at t
    let ow := positive && d.bomode c == 1
    let n := (d.entryNow c).1
    let d := writeResult c (some (if positive then smax 24 else smin 24)) true ow false (some ((t - x.t0) / 16)) d
    let d := overrange c d
    let d := if ow then mfcEvent c 1 n d else d
    beginDump c t (endConversion c d)

/-- DUMP_COMPLETE (R441): DUMPT µs, 300 at least, have passed. -/
def dumpComplete (c : Fin 4) (t : Nat) (d : Dev) : Dev :=
  if d.cstate c = 5 ∧ (d.core c).since + max 300 (d.mfScan c MFC.DUMPT) * usLsb ≤ t then
    nextEntry c t ((d.at t).mapCore c fun x => { x with testing := false, burn := 0 })
  else d

/-! ## Commands of the MFC pages (R447, R451) -/

/-- With CONT = 1 triggers are ignored while a scan runs, is due or is pending (R431). -/
def Dev.contRuns (d : Dev) (c : Fin 4) : Bool :=
  d.mfNow c MFC.CONT == 1 && (d.inScan c || d.on (pgMfc c) MFC.PEND || (d.core c).due != [])

/-- CONV: one trigger of a scan; with CONT = 1 it starts the first (notes/assumptions/33.md). -/
def cmdConv (c : Fin 4) (arg : Nat) : Dev → Dev :=
  takeCmd (pgMfc c) 0x01 arg (fun d => checks (d.stage != 0 && d.cstate c != 0) true) fun d =>
    if d.contRuns c then d else mfcTake c false d.st d

/-- ABORT; the scan of a validation goes on. -/
def cmdMfcAbort (c : Fin 4) (arg : Nat) : Dev → Dev :=
  takeCmd (pgMfc c) 0x02 arg
    (fun d => checks (decide (3 ≤ d.cstate c) || d.on (pgMfc c) MFC.PEND) true) fun d =>
    let s := d.cstate c
    let d := d.mfPut c MFC.PEND 0
    if d.validating c then d.mapCore c fun x => { x with due := [] }
    else if s = 5 then d.mapCore c fun x => { x with aborted := true }
    else if s = 4 ∨ s = 3 then
      let keep := s == 4 && d.chanScan c MFC.EXCC == 1
      coreFree c d.st (d.mapCore c fun x => { x with due := [], exc := if keep then x.exc else 0 })
    else d

/-- CLRCNT. -/
def cmdMfcClrcnt (c : Fin 4) (arg : Nat) : Dev → Dev :=
  takeCmd (pgMfc c) 0x03 arg (fun d => checks (d.stage != 0) true) fun d =>
    ((d.setReg (pgMfc c) 0 MFC.TRGLOST.off 0).mfPut c MFC.CHKFC 0).mfPut c MFC.ERRC 0

def landMfc (c : Fin 4) (code arg : Nat) (d : Dev) : Dev :=
  match code with
  | 0x01 => cmdConv c arg d
  | 0x02 => cmdMfcAbort c arg d
  | 0x03 => cmdMfcClrcnt c arg d
  | _ => takeCmd (pgMfc c) code arg (fun _ => rCODE) id d

/-- The MFE page: CLRCNT (R449). -/
def landMfe (code arg : Nat) (d : Dev) : Dev :=
  match code with
  | 0x01 => takeCmd pgMFE code arg (fun d => checks (d.stage != 0) true) (fun d => d.setReg pgMFE 0 MFE.LCRC.off 0) d
  | _ => takeCmd pgMFE code arg (fun _ => rCODE) id d

/-! ## Line tracking (R428, R429) -/

/-- LPER takes a value, and LFREQ follows. -/
def setLper (ns : Nat) (d : Dev) : Dev := (d.wr pgMFE MFE.LPER ns).wr pgMFE MFE.LFREQ (10 ^ 11 / max 1 ns)

/-- The nominal period. -/
def Dev.lineNominal (d : Dev) : Nat := if d.on pgMFE MFE.LFNOM then 16666667 else 20000000

/-- The line is lost. -/
def loseLine (d : Dev) : Dev :=
  let was := d.on pgMFE MFE.LOCK
  let d := setLper d.lineNominal (d.wr pgMFE MFE.LOCK 0)
  if was then raise pgMFE 1 1 d else d

/-- Is a period in ST LSB within 45 Hz to 65 Hz? -/
def periodOk (p : Nat) : Bool := decide (15384616 * 16 ≤ p) && decide (p ≤ 22222222 * 16)

/-- Is each of the first `n` periods within 0.5 % of the one before it (the next in the list)? -/
def steadyRun : Nat → List Nat → Bool
  | 0, _ => true
  | n + 1, p :: q :: l => decide (((p : Int) - q).natAbs * 200 ≤ q) && steadyRun n (q :: l)
  | _ + 1, _ => false

/-- LINE_CROSSING: a rising crossing, tagged to 250 ps. -/
def lineCrossing (t : Nat) (d : Dev) : Dev :=
  if d.stage = 0 ∨ !d.on pgMFE MFE.LEN then d
  else
    let d := d.at t
    let tag := t / 4 * 4
    let put := fun (l : List Nat) (d : Dev) => { d with mfe := { d.mfe with crossing := some tag, periods := l } }
    match d.mfe.crossing with
    | none => put [] d
    | some t0 =>
      let p := tag - t0
      if !periodOk p then loseLine (put [] d)
      else
        let l := (p :: d.mfe.periods).take 9
        let d := put l d
        let mean := (l.take 8).foldl (· + ·) 0 / 128
        if d.on pgMFE MFE.LOCK then setLper mean d
        else if steadyRun 8 l then raise pgMFE 0 0 ((setLper mean d).wr pgMFE MFE.LOCK 1)
        else d

/-- LINE_LOST: no crossing for 25 ms. -/
def lineLost (t : Nat) (d : Dev) : Dev :=
  match d.mfe.crossing with
  | some t0 =>
    if d.stage ≠ 0 ∧ t0 + 25000 * usLsb ≤ t then
      loseLine { d.at t with mfe := { d.mfe with crossing := none, periods := [] } }
    else d
  | none => d

/-- LCFG has been written: with LEN = 0, LPER holds the nominal value and LOCK reads 0 (R429). -/
def lcfgWritten (d : Dev) : Dev :=
  if d.on pgMFE MFE.LEN then (if d.on pgMFE MFE.LOCK then d else setLper d.lineNominal d)
  else setLper d.lineNominal ({ d with mfe := { d.mfe with crossing := none, periods := [] } }.wr pgMFE MFE.LOCK 0)

/-! ## Faults, enables (R446, R447) -/

/-- The result of an abandoned entry has ERR = 1, its code unchanged (R446): a result of its own before the end of the rundown,
the one just written while the burn-out test runs. CAPT of an aperture cut short is the time integrated, which the fault does not
tell (notes/assumptions/137.md). -/
def errResult (c : Fin 4) (d : Dev) : Dev :=
  let x := d.core c
  if x.testing then
    let (n, chk) := d.entryNow c
    let d := mfcEvent c 5 n (d.inc (pgMfc c) MFC.ERRC)
    if chk then d else imageResult c n (d.wr (pgMfc c) (MFC.ERR.nth 0x20 n) 1)
  else match x.phase with
    | 0 => writeResult c none false false true none d
    | 1 => writeResult c none false false true (some (d.openBits 32 % (x.capt + 1))) d.openUsed
    | 2 => writeResult c none false false true (some x.capt) d
    | _ => d

/-- A core abandons its entry and its pending scan; an abandoned entry leaves a result with ERR = 1. -/
def abandonCore (c : Fin 4) (err : Bool) (d : Dev) : Dev :=
  let d := if err && d.inScan c then errResult c d else d
  ((d.mfPut c MFC.PEND 0).mfPut c MFC.CSTATE 0).mapCore c fun _ => Core.reset

/-- MFE_DIE_FAULT: `bits` are the bits of DSTAT that clear. -/
def mfeDieFault (bits : Nat) (d : Dev) : Dev :=
  if d.stage = 0 ∨ !d.dieFitted ∨ bits % 32 = 0 then d
  else
    let d := d.wr pgMFE ⟨MFE.P5OK.off, 0, 5⟩ (Nat.land (d.rd pgMFE ⟨MFE.P5OK.off, 0, 5⟩) (31 - bits % 32))
    let d := if bitOf bits 3 then d.inc pgMFE MFE.LCRC else d
    let d := if bits % 8 ≠ 0 ∨ bitOf bits 4 then d.inc pgMFE MFE.FAULTS else d
    let d := raise pgMFE 2 2 { d with mfe := { d.mfe with fault := true } }
    (List.finRange 4).foldl (fun (d : Dev) (c : Fin 4) => abandonCore c true d) d

/-- A core leaves OFF when its enable is 1 and no fault holds, and enters OFF otherwise (R447). -/
def mfcEnableChanged (c : Fin 4) (d : Dev) : Dev :=
  let on := d.on (pgMfc c) HDR.EN && !d.mfe.fault && d.stage != 0
  if on then
    (if d.cstate c ≠ 0 then d
    else if d.on pgCAL CAL.VBUSY then validateCore c (d.mfPut c MFC.CSTATE 1)
    else d.mfPut c MFC.CSTATE 1)
  else if d.cstate c = 0 then d else abandonCore c false d

/-- MFE_FAULT_RECOVERY: every bit of DSTAT has read 1 for 10 ms. -/
def mfeFaultRecovery (d : Dev) : Dev :=
  if d.stage ≠ 0 ∧ d.mfe.fault then
    let d := d.wr pgMFE ⟨MFE.P5OK.off, 0, 5⟩ 31
    let d := { d with mfe := { d.mfe with fault := false } }
    (List.finRange 4).foldl (fun (d : Dev) (c : Fin 4) => mfcEnableChanged c d) d
  else d

end Sys2Proof.Machine
end

