-- ==== Sys2Proof/Machine/Unload.lean ====
section
/-! DEFINITION. UNLOAD (R545), and the commands of the STG page. -/
namespace Sys2Proof.Machine

/-- A page of a measurement core goes back to reset: the core is on, and free unless a fault holds it OFF (R446, R447). -/
def resetCore (c : Fin 4) (d : Dev) : Dev :=
  (d.mapCore c fun _ => Core.reset).mfPut c MFC.CSTATE (b2n (d.dieFitted && !d.mfe.fault))

/-- A page of a feedback unit goes back to reset; the levels of its pins stay. -/
def resetFbu (c : Fin 8) (d : Dev) : Dev :=
  let d := d.mapFbu c fun x => { FbuDyn.reset with a := x.a, b := x.b, z := x.z, pin := x.pin }
  cmpConfigured c 1 (cmpConfigured c 0 d)

/-- What follows where a page of the image goes back to reset (R545): the lines of the die keep their state (R446). -/
def pageReset (dstat : Word) (page : Nat) (d : Dev) : Dev :=
  match clsOf page with
  | some .mfc => resetCore ⟨(page - 0x41) % 4, Nat.mod_lt _ (by decide)⟩ d
  | some .mfe => lcfgWritten (d.setReg pgMFE 0 MFE.P5OK.off dstat)
  | some .fbu => resetFbu ⟨(page - 0x60) % 8, Nat.mod_lt _ (by decide)⟩ d
  | some .sgc => pinEdge (0x50 + (page - 0x70)) (d.on page SGC.SPINV) d.st d
  | _ => d

/-- UNLOAD (R545): everything the image gave goes back to reset, and the pairs are cleared. -/
def unloadImage (d : Dev) : Dev :=
  let head := d.rd pgSYS SYS.HEAD
  let touched := match d.load.cfg with
    | some c => c.pages.map fun (w : RegRef × Word) => w.1.page
    | none => []
  let cal := match d.load.cfg with
    | some c => c.calu.isSome
    | none => false
  let locks := copyLocks
  let d := if cal then (List.finRange 4).foldl (fun (d : Dev) (c : Fin 4) => validatedCore c d.st d) (d.wr pgCAL CAL.VBUSY 0) else d
  let dstat := d.reg pgMFE 0 MFE.P5OK.off
  let known := d.tsu.insts.map Inst.task ++ d.tsu.failed
  let d := d.resetPages fun p =>
    decide (0x100 ≤ p) || (decide (0x10 ≤ p) && decide (p ≤ 0x14)) || (touched.contains p && !isKept p && p != pgTIM) ||
    (cal && p == pgCAL)
  let d := (touched.eraseDups).foldl (fun (d : Dev) (p : Nat) => pageReset dstat p d) d
  let d := d.each (List.range 256) fun n d => d.wrS pgPRF n PRF.HOMED 0
  let d := locks ((d.wr pgSYS SYS.HEAD head).each (List.range 4) fun r d => d.wr (pgRing r) RING.MYST head)
  let d := (d.wr pgRED RED.PAIRED 0).wr pgRED RED.NCFG 0
  let d := (putRate 1 (d.wr pgTIM TIM.OSIZE 0)).each (List.range 4) fun n d => d.setReg (pgMfc n) 0 MFC.IOFS.off 0
  let d := (d.setReg pgSGU 0 SGU.IOFS.off 0).each (List.range 8) fun n d => d.setReg (pgFbu n) 0 FBU.BADR.off 0
  let d := d.each (List.range 16) fun n d => (d.wr (pgSgc n) SGC.SEN 0).wr (pgSgc n) SGC.SAX 0
  let d := { d with
    mot := Motor.reset, ring := Vector.replicate 4 RingDyn.reset, time := { d.time with hop := 0 },
    tsu := { Tsu.reset with cfg := d.tsu.cfg, due := d.tsu.due, work := d.tsu.work, spare := d.tsu.spare },
    load := { Load.reset with tested := d.load.tested } }
  let d := d.each (fittedPairs d.conf) fun p d =>
    let d := (d.clearMem (progBase p) (progBase p + 0x4_0000)).wr (pgCep p) CEP.LOADED 0
    let d := d.setReg (pgCep p) 0 CEP.CIMG.off 0
    if h : p < 18 then setRunning ⟨p, h⟩ .nothing d else d
  let d := known.foldl (fun (d : Dev) (t : Nat) => Dev.showTask t d) d
  let d := (d.setReg pgSTG 0 STG.VERSION.off 0).wr pgSTG STG.IMGCRC 0
  setLstep 3 (showPairs d)

def cmdUnload (arg : Nat) : Dev → Dev :=
  takeCmd pgSTG 0x04 arg
    (fun d => checks (d.stage == 1 && d.ready && (d.role == roNONE || d.role == roSILENT) && d.insertsLow &&
      !d.on pgSYS SYS.INS) true) unloadImage

def landStg (code arg : Nat) (d : Dev) : Dev :=
  match code with
  | 0x01 => cmdGoFull arg d
  | 0x02 => cmdGoLantern arg d
  | 0x03 => cmdLoad arg d
  | 0x04 => cmdUnload arg d
  | 0x05 => cmdLantern arg d
  | 0x06 => cmdPark arg d
  | 0x07 => cmdSrst arg d
  | 0x08 => cmdStgClrcnt arg d
  | _ => takeCmd pgSTG code arg (fun _ => rCODE) id d

end Sys2Proof.Machine
end

