-- ==== Sys2Proof/Machine/RingMac.lean ====
section
/-! DEFINITION. The ring MAC on its receive side: geometry, acceptance windows, copies, integration, forwarding, own copies
(R69 to R74, R84, R86, R87, R94, R97, R125, R126, R147 to R154, R540). -/
namespace Sys2Proof.Machine

/-! ## Geometry (R97) -/

/-- A geometry as a function of the station: de and fwd; `none` for an absent station. -/
abbrev Geo := List (Option (Nat × Nat))

/-- The geometry that PTAB words spell. -/
def geoOf (l : List Word) : Geo :=
  l.map fun w => if w.toNat % 2 ^ 20 = 0xFFFFF then none else some (w.toNat % 2 ^ 20, w.toNat / 2 ^ 20 % 2 ^ 12)

/-- le, lw and PTAB of the geometry in force (R93, R95). -/
def Dev.inForce (d : Dev) (r : Fin 4) : Nat × Nat × List Word :=
  (d.rg r).kept.getD (d.rd (pgRing r) RING.LOOPE_LOOP, d.rd (pgRing r) RING.LOOPW_LOOP,
    (List.range 64).map fun i => d.reg (pgRing r) 0 (RING.DE.off + 4 * i))
def Dev.geo (d : Dev) (r : Fin 4) : Geo := geoOf (d.inForce r).2.2

/-- The nominal geometry of the image (R125, R152). -/
def Dev.nominal (d : Dev) (r : Fin 4) : Geo := geoOf (d.rg r).nom

/-- PTAB0 to PTAB63 take a geometry. -/
def putPtab (r : Fin 4) (l : List Word) (d : Dev) : Dev :=
  d.each (List.range 64) fun i d => d.setReg (pgRing r) 0 (RING.DE.off + 4 * i) (l.getD i 0x000FFFFF#32)

def Geo.at' (g : Geo) (i : Nat) : Option (Nat × Nat) := (g.getD i none)

/-- tloop: de of the ranging head, which is the whole loop, and its forwarding latency. -/
def Geo.tloop (g : Geo) : Nat :=
  let m := g.foldl (fun (m : Nat × Nat) (x : Option (Nat × Nat)) => match x with
    | some y => if m.1 ≤ y.1 then y else m
    | none => m) (0, 0)
  m.1 + m.2

/-- pe(i, j); pw(i, j) = pe(j, i). -/
def Geo.pe (g : Geo) (i j : Nat) : Option Nat :=
  match g.at' i, g.at' j with
  | some x, some y =>
    let t : Int := g.tloop
    if t = 0 then none else some (((y.1 : Int) - ((x.1 + x.2 : Nat) : Int) % t) % t).toNat
  | _, _ => none

/-- Propagation from `src` to station `me` for a copy that arrives on a port: W receives what travels east. -/
def Geo.propTo (g : Geo) (src me : Nat) (port : Port) : Option Nat :=
  match port with
  | .w => g.pe src me
  | .e => g.pe me src

/-! ## Slots of a frame (R94) -/

/-- May a frame of a type and source stand in the slot? COLDSTART stands in SYNC slots, RANGING in async slots. -/
def Slot.takes (t src : Nat) (s : Slot) : Bool :=
  if t = ftCOMMAND ∨ t = ftMIRROR then s.type == t
  else if t = ftCOLDSTART then s.type == ftSYNC && s.holder == src
  else if t = ftRANGING then (s.type == ftASYNC || s.type == ftRANGING) && s.holder == src
  else s.type == t && s.holder == src

/-- Half of the mirror slot in ST LSB (R90). -/
def halfSlot (rate : Nat) : Nat := 4000 * 2 ^ rate

/-- The action points a frame may have in a slot, from the tick. -/
def Slot.points (rate t : Nat) (s : Slot) : List Nat :=
  if t = ftMIRROR then [s.ap * 80, s.ap * 80 + halfSlot rate] else [s.ap * 80]

/-- The window of R94: ±5 SU, ±32 SU in resettle and in INTEGRATE (R107, R153). -/
def Dev.tolerance (d : Dev) (r : Nat) : Nat :=
  if d.on (pgRing r) RING.RESETTLE ∨ d.rstate r = rsINTEGRATE then 32 * suLsb else 5 * suLsb

/-- The slot in whose window a copy lies, by a geometry. -/
def Dev.slotIn (d : Dev) (g : Geo) (r : Fin 4) (t src : Nat) (port : Port) (tag : Nat) : Option Nat :=
  match g.propTo src d.myst port with
  | none => none
  | some p =>
    (List.range (d.rd (pgRing r) RING.NSLOT)).find? fun n =>
      let s := d.slot r n
      s.takes t src && s.turn d.cyc &&
        (s.points d.rate t).any fun ap => decide (((tag : Int) - (d.tickSt + ap + p : Nat)).natAbs ≤ d.tolerance r)

/-- The same by the geometry in force. -/
def Dev.slotFor (d : Dev) (r : Fin 4) (t src : Nat) (port : Port) (tag : Nat) : Option Nat := d.slotIn (d.geo r) r t src port tag

/-- Number of the slot this head holds of a type. -/
def Dev.ownSlot (d : Dev) (r t : Nat) : Option Nat :=
  (List.range (d.rd (pgRing r) RING.NSLOT)).find? fun n =>
    let s := d.slot r n
    s.type == t && s.holder == d.myst

/-! ## Ring states, time -/

def ringEvent (r : Nat) (bit arg : Nat) (d : Dev) : Dev := raise (pgRing r) bit arg d

/-- RATEC.SYNC: some ring is in SYNC. -/
def showSync (d : Dev) : Dev :=
  d.wr pgTIM TIM.SYNC (b2n ((List.range 4).any fun r => d.rstate r == rsSYNC || d.rstate r == rsPASSIVE))

/-- The ring state changes; entry to LISTEN starts the listen timer and forgets what R154 remembers (R144, R154). -/
def setRstate (r : Fin 4) (s : Nat) (d : Dev) : Dev :=
  let d := showSync (d.wr (pgRing r) RING.RSTATE s)
  if s = rsLISTEN then d.mapRg r fun g => { g with listen := d.st, far := false } else d

/-- SYNC or PASSIVE: synchronised. -/
def Dev.ringSync (d : Dev) (r : Nat) : Bool := d.rstate r == rsSYNC || d.rstate r == rsPASSIVE
/-- SYNC, PASSIVE or INTEGRATE: the station runs R128. -/
def Dev.ringFollows (d : Dev) (r : Nat) : Bool := d.ringSync r || d.rstate r == rsINTEGRATE

/-- SYNC_LOST of a ring. In the double cycle in which it posted INTEGRATED a ring posts none (R164;
notes/assumptions/80.md). -/
def postSyncLost (r : Fin 4) (cause : Nat) (d : Dev) : Dev :=
  if (d.rg r).syncDc = some (d.cyc / 2) then d else ringEvent r 4 cause d

/-- What is kept of a ring under a time it has left: muted stations are heard again (R160, and those of R159 with them:
notes/assumptions/81.md). -/
def RingDyn.unsynced (g : RingDyn) : RingDyn :=
  { g with
    goodRun := 0, disagree := 0, muted := [], viol := [], grace := [], ownViol := 0, ranging := none, wantRange := false,
    loopMoved := false, rangeNow := false, grantAt := none, insg := none, resettleNext := false, resettleN := 0, rtag := none,
    takeover := false,
    dev := [], devPrev := [] }

/-- A ring leaves SYNC, PASSIVE or INTEGRATE for LISTEN (R132, R133, R136, R150): SYNC_LOST where it was in SYNC. -/
def leaveSync (r : Fin 4) (cause : Nat) (d : Dev) : Dev :=
  if d.ringFollows r then
    let was := d.rstate r == rsSYNC
    let d := (setRstate r rsLISTEN d).mapRg r RingDyn.unsynced
    let d := (d.wr (pgRing r) RING.RESETTLE 0).wr (pgRing r) RING.GPEND 0
    if was then postSyncLost r cause d else d
  else d

/-- ST takes a value that is not earlier; the cycle index follows it (R124, R152). What counts from an instant of ST, and what is
measured against it, steps along: listen timers (R144), ST heard on a SYS lane (R145). -/
def stepTime (t : Nat) (d : Dev) : Dev :=
  if t ≤ d.st then d
  else
    let by' := t - d.st
    let d := (d.at t).eachRing fun (r : Fin 4) (d : Dev) => d.mapRg r fun g => { g with listen := g.listen + by' }
    let d := { d with time := { d.time with sysOff := d.time.sysOff.map fun (o : Int) => o - by' } }
    let k := t / d.period
    if d.cyc < k then (d.wr64 pgTIM 0 TIM.CYCLO.off k).wr64 pgTIM 0 TIM.NTLO.off ((k + 1) * d.period) else d

/-- Does this head already have ST from another ring of its cluster (R154)? -/
def Dev.hasRingTime (d : Dev) (r : Nat) : Bool := (List.range 4).any fun q => q != r && d.ringFollows q

/-- The ring enters INTEGRATE. -/
def enterIntegrate (r : Fin 4) (d : Dev) : Dev :=
  (setRstate r rsINTEGRATE d).mapRg r fun g => { g with goodRun := 0, intFrom := d.cyc }

/-- The ring integrates on a frame of deviation `dev` (R152). With ST from another ring of the cluster, it does so only if the
first deviation it accepts is within ±400 LSB; otherwise it stays in LISTEN (R154). A head whose only source is the system link
integrates as one without a source (notes/assumptions/82.md). -/
def integrate (r : Fin 4) (dev : Int) (d : Dev) : Dev :=
  if d.hasRingTime r then
    if (d.rg r).far then d
    else if dev.natAbs ≤ 400 then enterIntegrate r d
    else d.mapRg r fun g => { g with far := true }
  else enterIntegrate r (if dev < 0 then stepTime (d.st + dev.natAbs) d else d)

/-- A cold start yields to a frame of deviation `v` (R147, R148): it goes on to the end of its present cycle, at whose end the
ring integrates on that frame. -/
def yieldTo (r : Fin 4) (v : Int) (d : Dev) : Dev := d.mapRg r fun g => { g with yields := true, yieldDev := v }

/-- The step of ST that rings which yielded ask for at this tick. -/
def Dev.pendingStep (d : Dev) : Nat := (List.finRange 4).foldl (fun (m : Nat) (r : Fin 4) => max m (d.rg r).stepBy) 0

/-- At the tick a cold start that yielded integrates on its frame (R147), the first one with the step of ST that gives it
deviation 0; with ST from another ring of the cluster only within ±400 LSB, and otherwise it is back in LISTEN (R154). -/
def ringYield (r : Fin 4) (d : Dev) : Dev :=
  let g := d.rg r
  if d.rstate r = rsCOLDSTART ∧ g.yields then
    let d := d.mapRg r fun g => { g with yields := false }
    if d.hasRingTime r then
      if 400 < (g.yieldDev + d.pendingStep).natAbs then (setRstate r rsLISTEN d).mapRg r fun g => { g with far := true }
      else enterIntegrate r d
    else (enterIntegrate r d).mapRg r fun g => { g with stepBy := (-g.yieldDev).toNat }
  else d

/-- Once the work of the tick is done, ST takes the step of the rings that yielded; the cycle index follows it. -/
def stepYields (d : Dev) : Dev :=
  let n := d.pendingStep
  if n = 0 then d
  else
    let d := stepTime (d.st + n) d
    d.eachRing fun (r : Fin 4) (d : Dev) => d.mapRg r fun g => if g.stepBy = 0 then g else { g with stepBy := 0, intFrom := d.cyc }

/-! ## What frames carry -/

/-- Bytes of a payload as a number. -/
def field (f : RawFrame) (o n : Nat) : Nat := numLE ((f.data.drop o).take n)
def fieldI (f : RawFrame) (o n : Nat) : Int := sxt (8 * n) (field f o n)

/-- Highest epoch seen (R515). -/
def noteEpoch (e : Nat) (d : Dev) : Dev :=
  let h := d.rd pgRED RED.HEPOCH
  let ahead := (e + 65536 - h) % 65536
  if 1 ≤ ahead ∧ ahead ≤ 32767 then d.wr pgRED RED.HEPOCH e else d

/-- The peer is heard in the present cycle (R512); its role where the frame names it. -/
def hearPeer (role : Option Nat) (d : Dev) : Dev :=
  let d := { d with red := { d.red with
    heard := true, sinceNit := true, role := if role.isSome then role else d.red.role } }
  match role with
  | some x => if x = roACTIVE ∨ x = roALONE then { d with red := { d.red with noCmdr := 0 } } else d
  | none => d

/-- An axis record of a frame (*Axis record*), from byte `o`. -/
def axRecAt (f : RawFrame) (o : Nat) : AxRec :=
  let b1 := field f (o + 1) 1
  { seq := field f o 1, idxv := bitOf b1 2, latv := bitOf b1 3, fberr := bitOf b1 4, linef := bitOf b1 5, pstf := bitOf b1 6,
    ia := fieldI f (o + 2) 2, ib := fieldI f (o + 4) 2, ic := fieldI f (o + 6) 2, udc := field f (o + 8) 2,
    temp := field f (o + 10) 2, pos := field f (o + 12) 4, postof := fieldI f (o + 16) 2, lpos := field f (o + 18) 4,
    ltim := fieldI f (o + 22) 4, aux := field f (o + 26) 2, nstat := field f (o + 28) 1, cmpf := field f (o + 29) 1 }

/-- The axis table that a station's axis feeds. -/
def Dev.tableOf (d : Dev) (r sta ax : Nat) : Option (Fin 256) :=
  d.activeAxes.find? fun (n : Fin 256) =>
    d.configured n && d.rd (pgAxp n) AXP.RING == r && d.rd (pgAxp n) AXP.STA == sta && d.rd (pgAxp n) AXP.AX == ax &&
      (d.stepChannel n).isNone

/-- The records of an AXIS frame are written and the record flags set (R15, R86). -/
def writeRecords (r : Nat) (src : Nat) (f : RawFrame) (d : Dev) : Dev :=
  (List.range (f.data.length / 32)).foldl (fun d i =>
    match d.tableOf r src (field f (32 * i + 1) 1 % 4) with
    | some n => d.mapAx n fun x => { x with rcd := axRecAt f (32 * i), arrived := true }
    | none => d) d

/-- A configured axis node (R488). -/
def Dev.axisNode (d : Dev) (r sta : Nat) : Bool :=
  d.activeAxes.any fun (n : Fin 256) =>
    d.rd (pgAxp n) AXP.RING == r && d.rd (pgAxp n) AXP.STA == sta && (d.stepChannel n).isNone && !d.isLocal n

/-! ## Forwarding, own copies (R69, R72, R102, R161, R540) -/

/-- A frame goes on out of the port of its direction, unless R72 removes it. The header of a frame with a wrong HCRC says nothing
reliable: such a frame is never removed (notes/assumptions/83.md). -/
def forwardFrame (r : Fin 4) (f : RawFrame) (d : Dev) : Dev :=
  let h := hdrOf f.sof
  let removed := hcrcOk f.sof && (h.src == d.myst || (h.type == ftMIRROR && h.src == 1 - d.myst) ||
    (d.ringSync r && h.rcc != d.cyc % 64))
  if removed then d
  else d.transmit (.frame (.ring r (match f.port with | .e => .w | .w => .e)) f.sof f.data f.crc)

/-- A frame of this head's own number that it did not launch: the head falls silent; `at'` is its ring, or 4 and 5 for SYS east
and west (R540, R557). -/
def foreignFrame (at' : Nat) (d : Dev) : Dev :=
  if d.on pgSTG STG.HDUP then d
  else
    let d := d.eachRing fun (r : Fin 4) (d : Dev) => d.mapRg r fun g => { g with insert := some false, takeover := false }
    let d := d.wr pgSTG STG.HDUP 1
    let d := if d.role = roNONE then d else setRole roSILENT d
    raise pgSTG 4 at' { d with keep := { d.keep with dupAt := at' } }

/-- Is it a frame that this head launched in this cycle? -/
def launchedHere (l : List Launched) (sof : BitVec 56) (crc : Word) : Bool :=
  let key := fun (b : BitVec 56) => ({ hdrOf b with dirf := 0 } : Hdr)
  l.any fun (x : Launched) => decide (key x.sof = key sof) && x.crc == crc

/-- A returning copy of this head's own SYNC frame: its window, both copies, the loop delays (R95, R102, R161). -/
def ownSync (r : Fin 4) (f : RawFrame) (d : Dev) : Dev :=
  let pg := pgRing r
  let inWin := (d.slotFor r ftSYNC d.myst f.port f.tag).isSome
  let d := d.mapRg r fun g => { g with
    ownSeen := some (inWin || g.ownSeen == some true),
    backE := g.backE || (inWin && f.port == .e), backW := g.backW || (inWin && f.port == .w) }
  match d.ownSlot r ftSYNC with
  | none => d
  | some n =>
    let loop : Int := (f.tag : Int) - (d.tickSt + (d.slot r n).ap * 80 : Nat)
    let was : Int := d.rd pg (match f.port with | .w => RING.LOOPE_LOOP | .e => RING.LOOPW_LOOP)
    if d.on pg RING.RNGV ∧ 640 < (loop - was).natAbs then
      let d := d.wr pg RING.GDONE 1
      if d.commanding && !d.on pg RING.BROKEN then d.mapRg r fun g => { g with loopMoved := true } else d
    else d

/-- A returning copy of this head's ranging request gives le or lw (R97). -/
def ownRanging (r : Fin 4) (f : RawFrame) (d : Dev) : Dev :=
  match (d.rg r).ranging with
  | none => d
  | some q =>
    let launch := d.tickSt + (match (List.range (d.rd (pgRing r) RING.NSLOT)).find? fun n =>
        ((d.rg r).launched.any fun (x : Launched) => x.slot == n && (hdrOf x.sof).type == ftRANGING) with
      | some n => (d.slot r n).ap * 80
      | none => 0)
    let t := f.tag - launch
    d.mapRg r fun g => { g with
      ranging := some (match f.port with | .w => { q with le := some t } | .e => { q with lw := some t }) }

/-- A frame that carries this head's own station number. -/
def ownCopy (r : Fin 4) (f : RawFrame) (d : Dev) : Dev :=
  let h := hdrOf f.sof
  if !(d.rg r).everSent || !launchedHere (d.rg r).launched f.sof f.crc then foreignFrame r d
  else if h.type = ftSYNC then ownSync r f d
  else if h.type = ftRANGING then ownRanging r f d
  else d

/-! ## Copies (R73, R94) -/

/-- Is the payload whole (R73)? -/
def payloadOk (f : RawFrame) : Bool :=
  !f.bad && f.data.length == 8 * (hdrOf f.sof).len && crc32c f.data == f.crc.toNat

/-- What of a frame's own time and table a SYNC or COLDSTART frame states: ST at its action point, rate code, SHASH. -/
def beaconTime (f : RawFrame) : Nat := field f 0 8
def beaconFits (r : Nat) (f : RawFrame) (d : Dev) : Bool :=
  let t := (hdrOf f.sof).type
  let rate := if t = ftSYNC then field f 9 1 % 4 else field f 9 1
  let hash := if t = ftSYNC then field f 24 4 else field f 12 4
  rate == d.rate && hash == d.rd (pgRing r) RING.SHASH

/-- The deviation of a copy by a geometry (R126). -/
def Geo.deviation (g : Geo) (me : Nat) (f : RawFrame) : Option Int :=
  (g.propTo (hdrOf f.sof).src me f.port).map fun p => (f.tag : Int) - beaconTime f - p

/-- The deviation by the geometry in force, and by the nominal one, which a station in LISTEN and in COLDSTART uses (R125,
R152). -/
def Dev.deviation (d : Dev) (r : Fin 4) (f : RawFrame) : Option Int := (d.geo r).deviation d.myst f
def Dev.nominalDev (d : Dev) (r : Fin 4) (f : RawFrame) : Option Int := (d.nominal r).deviation d.myst f

/-- The role field of a SYNC frame, noted for R150 and R151. -/
def noteRole (r : Fin 4) (f : RawFrame) (d : Dev) : Dev :=
  let named := field f 9 1 / 32 != 0
  d.mapRg r fun g => { g with roleNow := some (named || g.roleNow == some true) }

/-- A frame of a station was accepted in the present cycle (*RING.RSTAT*, NHEARD). -/
def RingDyn.hearing (g : RingDyn) (src : Nat) : RingDyn :=
  { g with heard := if g.heard.contains src then g.heard else src :: g.heard }

/-- The slot of a frame, whatever its window: that of its type and source whose turn the present cycle is. -/
def Dev.slotOf (d : Dev) (r : Fin 4) (t src : Nat) : Option Nat :=
  (List.range (d.rd (pgRing r) RING.NSLOT)).find? fun n => (d.slot r n).takes t src && (d.slot r n).turn d.cyc

/-- A copy outside its window is discarded and counted (R94). -/
def copyOutside (r : Fin 4) (t src : Nat) (d : Dev) : Dev :=
  (d.inc (pgRing r) RING.COPYW).mapRg r fun g => { g with outside := (d.slotOf r t src).toList ++ g.outside }

/-- A beacon copy at a ring that is not synchronised has no window; the first copy of a slot is used, the second counted (R73,
R147, R152). -/
def firstBeacon (r : Fin 4) (f : RawFrame) (use : Dev → Dev) (d : Dev) : Dev :=
  let h := hdrOf f.sof
  match d.slotOf r h.type h.src with
  | none => use d
  | some n =>
    if (d.rg r).accepted.contains n then d.incW (pgRing r) RING.CNTDUP
    else use (d.mapRg r fun g => { g with accepted := n :: g.accepted })

/-- A good copy is taken into a cycle: the first copy of a slot is kept, the second counted (R73); frames of a muted station are
discarded (R157). `use` is what the frame does. -/
def acceptCopy (r : Fin 4) (f : RawFrame) (use : Dev → Dev) (d : Dev) : Dev :=
  let h := hdrOf f.sof
  let pg := pgRing r
  match d.slotFor r h.type h.src f.port f.tag with
  | none => copyOutside r h.type h.src d
  | some n =>
    if (d.rg r).muted.contains h.src then d
    else if (d.rg r).accepted.contains n then d.incW pg RING.CNTDUP
    else use (d.mapRg r fun g => { (g.hearing h.src) with
      accepted := n :: g.accepted,
      first := if (h.type == ftAXIS || h.type == ftIO) && !g.first.any fun (x : Nat × Nat) => x.1 == h.src then
        (h.src, f.tag) :: g.first else g.first })

/-- A frame on a ring, of the types of the event: forwarding, header, own number, payload; then `use` by the state of the
ring. A frame with a correct HCRC restarts the listen timer (R144). -/
def receive (types : List Nat) (r : Fin 4) (f : RawFrame) (use : Dev → Dev) (d : Dev) : Dev :=
  if !d.hears (.ring r f.port) then d
  else if !hcrcOk f.sof then (forwardFrame r f d).inc (pgRing r) RING.HCRC
  else
    let h := hdrOf f.sof
    if !types.contains h.type then d
    else
      let d := d.at f.tag
      let d := forwardFrame r f (d.mapRg r fun g => { g with listen := d.st })
      if h.src = d.myst then ownCopy r f d
      else
        let d := noteEpoch h.epoch d
        if !payloadOk f then (if crc32c f.data = f.crc.toNat then d else d.inc (pgRing r) RING.PCRC)
        else use d

/-- A frame whose use asks for a synchronised station. -/
def receiveSync (types : List Nat) (r : Fin 4) (f : RawFrame) (use : Dev → Dev) (d : Dev) : Dev :=
  receive types r f (fun d => if d.ringFollows r then acceptCopy r f use d else d) d

/-! ## AXIS and IO frames -/

/-- AXIS_FRAME_RECEIVE (R15, R86, R353). -/
def axisFrameReceive (r : Fin 4) (f : RawFrame) (d : Dev) : Dev :=
  receiveSync [ftAXIS] r f (fun d =>
    let src := (hdrOf f.sof).src
    let d := if d.axisNode r src && !d.red.nodes.contains (r.val, src) then
        { d with red := { d.red with nodes := (r.val, src) :: d.red.nodes } }
      else d
    readyByRecords (writeRecords r src f d)) d

/-- IO_FRAME_RECEIVE (R55, R87). -/
def ioFrameReceive (r : Fin 4) (f : RawFrame) (d : Dev) : Dev :=
  receiveSync [ftIO] r f (fun d =>
    match (d.rg r).accepted with
    | n :: _ =>
      let bank := 3 - (d.rd pgTIM TIM.PIXI_HOST + d.rd pgTIM TIM.NEWEST)
      d.setMemBytes (bankBase bank + (d.slot r n).piofs * 8) f.data
    | [] => d) d

/-! ## SYNC and COLDSTART frames -/

/-- The beacon's deviation of the cycle is kept (R126). -/
def noteBeacon (r : Fin 4) (f : RawFrame) (d : Dev) : Dev :=
  match d.deviation r f with
  | some v => d.mapRg r fun g => { g with dev := g.dev ++ [⟨(hdrOf f.sof).src, v⟩], nbs := g.nbs + 1 }
  | none => d

/-- A rate change announced by another head is followed (R124). -/
def followRate (f : RawFrame) (d : Dev) : Dev :=
  let ratef := field f 9 1
  let nrate := bitsOf ratef 2 2
  if bitOf ratef 4 ∧ nrate ≠ d.rate ∧ !d.commanding then
    let now := d.st / 128000000
    let at' := now + (field f 10 2 + 65536 - now % 65536) % 65536
    { (d.wr pgTIM TIM.NRATE nrate).wr pgTIM TIM.RPEND 1 with time := { d.time with rateAt := some at' } }
  else d

/-- A valid INSG of a commanding head in the cycle with RCC 63 (R105 to R107). -/
def noteInsg (r : Fin 4) (f : RawFrame) (d : Dev) : Dev :=
  let b := field f 22 1
  let role := field f 9 1 / 32
  if bitOf b 7 ∧ (role = roACTIVE ∨ role = roALONE) ∧ d.cyc % 64 = 63 ∧ d.ringSync r then
    d.mapRg r fun g => { g with insg := some (b % 64, bitOf b 6), resettleNext := true }
  else d

/-- An accepted SYNC frame. -/
def useSync (r : Fin 4) (f : RawFrame) (d : Dev) : Dev :=
  let src := (hdrOf f.sof).src
  let d := noteRole r f (noteBeacon r f d)
  let d := if src = 1 - d.myst then hearPeer (some (field f 9 1 / 32)) d else d
  followRate f (noteInsg r f d)

/-- SYNC_FRAME_RECEIVE (R84, R126, R147, R152). Frames of a reserved type are counted here: no slot pairs their two copies, and
each copy counts (notes/assumptions/118.md). -/
def syncFrameReceive (r : Fin 4) (f : RawFrame) (d : Dev) : Dev :=
  let t := (hdrOf f.sof).type
  if t = 0 ∨ 9 ≤ t then receive [t] r f (fun d => d.inc (pgRing r) RING.UNKT) d
  else
    receive [ftSYNC] r f (fun d =>
      if d.ringFollows r then acceptCopy r f (useSync r f) d
      else if beaconFits r f d then
        firstBeacon r f (fun d =>
          let d := noteRole r f d
          if d.rstate r = rsLISTEN then
            match d.nominalDev r f with
            | some v => integrate r v d
            | none => d
          else if d.rstate r = rsCOLDSTART ∧ !(d.rg r).yields then yieldTo r ((d.nominalDev r f).getD 0) d
          else d) d
      else d) d

/-- Has a COLDSTART frame priority over this head's own, of rank 0 (R143)? -/
def coldPriority (own : Nat) (f : RawFrame) : Bool := field f 8 1 == 0 && decide ((hdrOf f.sof).src < own)

/-- Has no SYNC frame that names a head role been accepted in the last 64 cycles (R150)? -/
def RingDyn.headless64 (g : RingDyn) : Bool := decide (64 ≤ g.headless) && g.roleNow != some true

/-- COLDSTART_FRAME_RECEIVE (R147, R148, R150, R152). A frame of a station that the nominal geometry does not hold gives no
deviation: a ring in LISTEN cannot set ST by it; a cold start yields to it with ST as it stands (notes/assumptions/84.md). -/
def coldstartFrameReceive (r : Fin 4) (f : RawFrame) (d : Dev) : Dev :=
  receive [ftCOLDSTART] r f (fun d =>
    if !beaconFits r f d then d
    else if d.rstate r = rsLISTEN then
      firstBeacon r f (fun d => match d.nominalDev r f with
        | some v => integrate r v d
        | none => d) d
    else if d.rstate r = rsCOLDSTART then
      firstBeacon r f (fun d =>
        if coldPriority d.myst f && !(d.rg r).yields then yieldTo r ((d.nominalDev r f).getD 0) d else d) d
    else if d.rstate r = rsINTEGRATE then acceptCopy r f (noteBeacon r f) d
    else if d.rstate r = rsSYNC ∧ field f 8 1 = 0 ∧ (hdrOf f.sof).src ≤ 1 ∧ (d.rg r).headless64 then
      firstBeacon r f (fun d =>
        let d := leaveSync r 5 d
        match d.nominalDev r f with
        | some v => integrate r v d
        | none => d) d
    else d) d

/-! ## COMMAND frames -/

/-- COMMAND_FRAME_RECEIVE (R512): the peer commands. -/
def commandFrameReceive (r : Fin 4) (f : RawFrame) (d : Dev) : Dev :=
  receiveSync [ftCOMMAND] r f (fun d =>
    if (hdrOf f.sof).src = 1 - d.myst then
      let d := hearPeer none d
      { d with red := { d.red with command := true, noCmdr := 0 } }
    else d) d

/-! ## Block lock, breaks, ordered sets (R68, R75, R76, R79, R100 to R102) -/

/-- Block lock of a lane, and its copy in the KEEP domain (R555). -/
def setLock (l : Lane) (v : Bool) (d : Dev) : Dev :=
  match l with
  | .ring r p =>
    let e := p == Port.e
    let d := d.wrBit pgSTG STG.RLOCK (2 * r.val + if e then 0 else 1) v
    if d.stage = 0 then d else d.wr (pgRing r) (if e then RING.LOCKE else RING.LOCKW) (b2n v)
  | .sys p =>
    let e := p == Port.e
    let d := d.wrBit pgSTG STG.SLOCK (if e then 0 else 1) v
    if d.stage = 0 then d else d.wr pgSYS (if e then SYS.LOCKE else SYS.LOCKW) (b2n v)

/-- BLOCK_LOCK_ACQUIRE: a loss that was no break is counted (R100); LINK_UP on the system link (R122). -/
def blockLockAcquire (l : Lane) (d : Dev) : Dev :=
  let was := d.locked l
  let d := if d.fitted l then setLock l true d else d
  if !d.sends l || was then d
  else
    match l with
    | .ring r p =>
      let g := d.rg r
      let short := match p with | .e => g.lostE | .w => g.lostW
      let d := if short then d.inc (pgRing r) RING.LOCKL else d
      d.mapRg r fun g => match p with | .e => { g with lostE := false } | .w => { g with lostW := false }
    | .sys _ => raise pgSYS 1 1 d

/-- BLOCK_LOCK_LOSS: LINK_LOST on the system link (R122). -/
def blockLockLoss (l : Lane) (d : Dev) : Dev :=
  let was := d.locked l
  let d := if d.fitted l then setLock l false d else d
  if !d.sends l || !was then d
  else
    match l with
    | .ring r p => d.mapRg r fun g => match p with | .e => { g with lostE := true } | .w => { g with lostW := true }
    | .sys _ => raise pgSYS 0 0 d

/-- The argument of BREAK and HEAL sets of this head: station, lost port (0 = W, 1 = E). -/
def breakArg (d : Dev) (p : Port) : Nat := d.myst + match p with | .e => 64 | .w => 0

/-- BREAK_DETECT (R100): 2 µs without block lock on a port. -/
def breakDetect (r : Fin 4) (p : Port) (d : Dev) : Dev :=
  if !d.sends (.ring r p) || d.locked (.ring r p) then d
  else
    let d := d.mapRg r fun g => match p with
      | .e => { g with brokenE := true, lostE := false }
      | .w => { g with brokenW := true, lostW := false }
    osRing r 0x02 (breakArg d p) d

/-- HEAL_SEND (R102): the broken port has held block lock for 1 ms. -/
def healSend (r : Fin 4) (p : Port) (d : Dev) : Dev :=
  let broken := match p with | .e => (d.rg r).brokenE | .w => (d.rg r).brokenW
  if broken && d.hears (.ring r p) then
    let d := d.mapRg r fun g => match p with | .e => { g with brokenE := false } | .w => { g with brokenW := false }
    osRing r 0x03 (breakArg d p) d
  else d

/-- An ordered set goes on out of the port of its direction, unchanged (R75, R76); on the system link out of the other port
(R109, R110). -/
def forwardSet (l : Lane) (code : Byte) (arg : BitVec 48) (d : Dev) : Dev :=
  let over' := fun (p : Port) => match p with | .e => Port.w | .w => Port.e
  match l with
  | .ring r p => d.transmit (.os (.ring r (over' p)) code arg)
  | .sys p => d.transmit (.os (.sys (over' p)) code arg)

/-- A STOP, BREAK or HEAL set with an argument: one that names this head as its origin is removed, any other goes on, and `use` is
what it does here (R76). -/
def receiveSet (l : Lane) (code : Byte) (arg : BitVec 48) (use : Dev → Dev) (d : Dev) : Dev :=
  if !d.hears l || arg.toNat % 64 == d.osOrigin l then d else use (forwardSet l code arg d)

/-- STOP_OS_RECEIVE (R76, R79, R118). -/
def stopOsReceive (l : Lane) (arg : BitVec 48) : Dev → Dev :=
  let org := arg.toNat % 64
  receiveSet l 0x01 arg fun d =>
    match l with
    | .ring r _ =>
      let d := if d.on (pgRing r) RING.STOPRX then d else (d.wr (pgRing r) RING.STOPRX 1).wr (pgRing r) RING.STOPORG org
      safRing org (ringEvent r 2 2 d)
    | .sys _ => safRing 0 d

/-- A break location: recorded where there is room, counted and posted once while the ring stays BROKEN (R101, R118); the sets
that repeat it in every NIT do neither again (notes/assumptions/120.md). -/
def recordBreak (r : Fin 4) (sta port : Nat) (d : Dev) : Dev :=
  let pg := pgRing r
  let d := d.wr pg RING.BROKEN 1
  if (d.rg r).breaks.contains (sta, port) then d
  else
    let d := (d.mapRg r fun g => { g with breaks := (sta, port) :: g.breaks }).inc pg RING.BCNT
    let d := if !d.on pg RING.BV1 then ((d.wr pg RING.BV1 1).wr pg RING.BSTA1 sta).wr pg RING.BPORT1 port
      else if !d.on pg RING.BV2 then ((d.wr pg RING.BV2 1).wr pg RING.BSTA2 sta).wr pg RING.BPORT2 port
      else d
    ringEvent r 0 0 d

/-- BREAK_OS_RECEIVE (R76, R101). -/
def breakOsReceive (l : Lane) (arg : BitVec 48) : Dev → Dev :=
  receiveSet l 0x02 arg fun d =>
    match l with
    | .ring r _ => recordBreak r (arg.toNat % 64) (arg.toNat / 64 % 2) d
    | .sys _ => d

/-- HEAL_OS_RECEIVE (R76): forwarded; BROKEN clears by R102. -/
def healOsReceive (l : Lane) (arg : BitVec 48) : Dev → Dev := receiveSet l 0x03 arg id

/-- UNKNOWN_OS_RECEIVE (R75): forwarded unchanged; a ring counts it. -/
def unknownOsReceive (l : Lane) (code : Byte) (arg : BitVec 48) (d : Dev) : Dev :=
  if !d.hears l || decide (1 ≤ code.toNat ∧ code.toNat ≤ 3) then d
  else
    let d := forwardSet l code arg d
    match l with
    | .ring r _ => d.inc (pgRing r) RING.OSERR
    | .sys _ => d

/-- BROKEN clears at the end of the first cycle with both copies of the own SYNC frame (R102). -/
def healRing (r : Fin 4) (d : Dev) : Dev :=
  let g := d.rg r
  if d.on (pgRing r) RING.BROKEN && g.backE && g.backW then
    let d := ((d.wr (pgRing r) RING.BROKEN 0).wr (pgRing r) RING.BV1 0).wr (pgRing r) RING.BV2 0
    ringEvent r 1 1 (d.mapRg r fun g => { g with breaks := [] })
  else d

end Sys2Proof.Machine
end

