-- ==== Sys2Proof/Machine/RingTime.lean ====
section
/-! DEFINITION. The time base: the correction of a double cycle, loss of synchronisation, steering across the system link, cold
start and integration, slot violations (R110 to R112, R124 to R164). -/
namespace Sys2Proof.Machine

def Dev.timeMap (f : TimeBase → TimeBase) (d : Dev) : Dev := { d with time := f d.time }

/-! ## The fault-tolerant average (R128) -/

/-- Insert in ascending order. -/
def insertInt (x : Int) : List Int → List Int
  | [] => [x]
  | y :: l => if x ≤ y then x :: y :: l else y :: insertInt x l

def sortInt (l : List Int) : List Int := l.foldr insertInt []

/-- fta: one value discarded at each end from 3 values on, two from 8 on; the rest averaged, rounded toward zero. -/
def fta (l : List Int) : Int :=
  let n := l.length
  let d := if n ≤ 2 then 0 else if n ≤ 7 then 1 else 2
  let keep := ((sortInt l).drop d).take (n - 2 * d)
  divTrunc (keep.foldl (· + ·) 0) keep.length

/-- Is the head a beacon: does it hold a SYNC slot on a ring it follows? -/
def Dev.isBeacon (d : Dev) : Bool := (List.range 4).any fun r => d.ringFollows r && (d.ownSlot r ftSYNC).isSome

/-- Deviations of a ring in the odd cycle, and differences of beacons heard in both cycles. -/
def RingDyn.ofs (g : RingDyn) : List Int := g.dev.map BeaconDev.dev
def RingDyn.rte (g : RingDyn) : List Int :=
  g.dev.filterMap fun (b : BeaconDev) => (g.devPrev.find? fun (a : BeaconDev) => a.sta == b.sta).map fun a => b.dev - a.dev

/-- The pooled lists over the rings in SYNC or INTEGRATE (R135), and in PASSIVE, which runs R128 as in SYNC
(notes/assumptions/121.md): offsets without rings in resettle, rates of all; and whether any beacon was accepted at all. -/
def Dev.pooled (d : Dev) : List Int × List Int × Bool :=
  (List.finRange 4).foldl (fun (a : List Int × List Int × Bool) (r : Fin 4) =>
    if d.ringFollows r then
      let g := d.rg r
      (if d.on (pgRing r) RING.RESETTLE then a.1 else a.1 ++ g.ofs, a.2.1 ++ g.rte, a.2.2 || !g.dev.isEmpty)
    else a) ([], [], false)

/-! ## The system link: lighthouse, parent, steering (R137 to R141) -/

def Dev.sysPort (d : Dev) (p : Port) : SysPort := match p with | .e => d.time.e | .w => d.time.w
def Dev.mapSys (p : Port) (f : SysPort → SysPort) (d : Dev) : Dev :=
  d.timeMap fun t => match p with | .e => { t with e := f t.e } | .w => { t with w := f t.w }

/-- Every ring with axes is in SYNC, and some ring is. -/
def Dev.ringsInSync (d : Dev) : Bool :=
  ((List.range 4).any fun r => d.rstate r == rsSYNC) && (List.range 4).all fun r => !d.ringFeeds r || d.rstate r == rsSYNC

/-- What a port knows of the lighthouse: its index and hops. The spec gives what it heard no lifetime; it stands for as long as
a PDX message may be late, 64 cycles (R140; notes/assumptions/85.md). -/
def SysPort.knows (s : SysPort) : Option (Nat × Nat) := if s.hops = 255 ∨ 64 < s.age then none else some (s.lidx, s.hops)

/-- The lighthouse as this head knows it: system index and hops from here. -/
def Dev.lighthouse (d : Dev) : Option (Nat × Nat) :=
  let me := if d.commanding && d.ringsInSync then [(d.rd pgSYS SYS.SIDX, 0)] else []
  let near := (d.time.e.knows.toList ++ d.time.w.knows.toList).map fun (x : Nat × Nat) => (x.1, x.2 + 1)
  (me ++ near).foldl (fun (a : Option (Nat × Nat)) (x : Nat × Nat) => match a with
    | none => some x
    | some y => if x.1 < y.1 || (x.1 == y.1 && decide (x.2 < y.2)) then some x else some y) none

/-- This head is the lighthouse. -/
def Dev.isLighthouse (d : Dev) : Bool := match d.lighthouse with
  | some (_, 0) => true
  | _ => false

/-- The parent's port: primary in ROUTE for the lighthouse's index. -/
def Dev.parent (d : Dev) : Option Port :=
  match d.lighthouse with
  | none => none
  | some (_, 0) => none
  | some (i, _) => match d.rd pgSYS (SYS.PRIM.nth 4 i) with
    | 1 => some .e
    | 2 => some .w
    | _ => none

/-- The offset to the parent, where it is measured and within 1,600 LSB (R141). -/
def Dev.steerOffset (d : Dev) : Option Int :=
  if !d.commanding then none
  else
    match d.parent with
    | none => none
    | some p => match (d.sysPort p).o with
      | some o => if o.natAbs ≤ 1600 then some o else none
      | none => none

/-- Steering terms of a double cycle: offset and rate (R139). -/
def Dev.steer (d : Dev) : Int × Int :=
  match d.steerOffset with
  | none => (0, 0)
  | some o =>
    let r := match d.time.oPrev with
      | some o0 => clampI (-10000) 10000 (-(divTrunc ((o - o0) * 1000000000) (4 * d.period)))
      | none => 0
    (clampI (-64) 64 (divTrunc (-o) 2), r)

/-- Double cycles within 320 and beyond 480 LSB of the parent (R140). A double cycle without a new PDX message counts the offset
as it stands (notes/assumptions/86.md). -/
def noteSteer (d : Dev) : Dev :=
  match d.parent with
  | none => d.timeMap fun t => { t with oPrev := none, within := 0, beyond := 0 }
  | some p =>
    match (d.sysPort p).o with
    | none => d
    | some o => d.timeMap fun t => { t with
        oPrev := some o, within := if o.natAbs ≤ 320 then t.within + 1 else 0,
        beyond := if 480 < o.natAbs then t.beyond + 1 else 0 }

/-- SYS_SYNC_ACQUIRE (R140). -/
def sysSyncAcquire (d : Dev) : Dev :=
  if !d.fitted (.sys .e) then d
  else if d.isLighthouse || (d.parent.isSome && decide (8 ≤ d.time.within)) then d.wr pgSYS SYS.SSYNC 1 else d

/-- SSYNC clears where it stood, and event 62 is posted with a cause. -/
def loseSysSync (arg : Nat) (d : Dev) : Dev :=
  if d.on pgSYS SYS.SSYNC then raise pgSYS 2 arg (d.wr pgSYS SYS.SSYNC 0) else d

/-- No PDX message has come for 64 cycles from the parent; where what its port heard of the lighthouse has lapsed, on any port. -/
def Dev.parentSilent (d : Dev) : Bool :=
  match d.parent with
  | some p => decide (64 ≤ (d.sysPort p).age)
  | none => !d.isLighthouse && decide (64 ≤ d.time.e.age) && decide (64 ≤ d.time.w.age)

/-- SYS_SYNC_LOSS (R140): drift, or no PDX from the parent for 64 cycles. -/
def sysSyncLoss (cause : SysLoss) (d : Dev) : Dev :=
  match cause with
  | .drift => if d.parent.isSome && decide (4 ≤ d.time.beyond) then loseSysSync 3 d else d
  | .silent => if d.parentSilent then loseSysSync 2 d else d

/-- The offset to the parent lies beyond 1,600 LSB. -/
def Dev.parentFar (d : Dev) : Bool :=
  match d.parent with
  | some p => (d.sysPort p).o.any fun (o : Int) => decide (1600 < o.natAbs)
  | none => false

/-- STEER_LIMIT (R141, R163), whatever the role: SSYNC is 0 while the offset lies beyond the limit, and event 62 is posted when it
first does (notes/assumptions/87.md). -/
def steerLimit (d : Dev) : Dev :=
  let was := d.time.far
  let d := d.timeMap fun t => { t with far := d.parentFar }
  if !d.parentFar then d
  else
    let d := d.wr pgSYS SYS.SSYNC 0
    if was then d else raise pgSYS 2 1 d

/-- Own m and the neighbour's M of one cycle give the hop delay and the offset (R138). -/
def pairPdx (p : Port) (d : Dev) : Dev :=
  let x := d.sysPort p
  match x.m, x.theirs with
  | some (c, own), some (c', them) =>
    if c % 2 ^ 32 = c' then
      let d := d.wr pgSYS (match p with | .e => SYS.PDLYE_PDLY | .w => SYS.PDLYW_PDLY) (toBits 20 (divTrunc (own + them) 2))
      d.mapSys p fun s => { s with o := some (divTrunc (own - them) 2) }
    else d
  | _, _ => d

/-- PDX_RECEIVE (R138, R141). -/
def pdxReceive (p : Port) (m : PdxMsg) (d : Dev) : Dev :=
  if !d.hears (.sys p) then d
  else
    let d := d.mapSys p fun s => { s with
      hops := m.hops.toNat, lidx := m.lidx.toNat, age := 0, theirs := some (m.cyc.toNat, m.m.toInt) }
    steerLimit (pairPdx p d)

/-! ## The double cycle (R128, R132, R135, R136) -/

/-- sync_lost: every ring in SYNC or INTEGRATE leaves it, and nothing is applied (R132, R164). -/
def syncLost (cause : Nat) (d : Dev) : Dev :=
  let d := d.timeMap fun t => { t with ofsNext := none, rcorNext := none, good := false }
  d.eachRing fun (r : Fin 4) (d : Dev) => leaveSync r cause d

/-- Each ring against the pool (R136), and its good double cycles in INTEGRATE (R153): the double cycle in whose odd cycle the
ring entered INTEGRATE is not one (notes/assumptions/88.md). -/
def judgeRings (pool : Int) (d : Dev) : Dev :=
  d.eachRing fun (r : Fin 4) (d : Dev) =>
    let g := d.rg r
    if !d.ringFollows r then d
    else
      let own := fta (g.ofs ++ [0])
      let off := decide (400 < (own - pool).natAbs)
      d.mapRg r fun g => { g with
        disagree := if off && !d.on (pgRing r) RING.RESETTLE then g.disagree + 1 else 0,
        goodRun := if d.rstate r = rsINTEGRATE ∧ g.intFrom < d.cyc then (if g.dev.isEmpty then 0 else g.goodRun + 1)
          else g.goodRun }

/-- CLOCK_CORRECTION (R128) at the end of the upstream window of an odd cycle; a head that steers adds its terms in holdover too
(R139). -/
def clockCorrection (d : Dev) : Dev :=
  let (ofs, rte, any) := d.pooled
  let own : List Int := if d.isBeacon then [0] else []
  let (so, sr) := d.steer
  if ofs.isEmpty && !any then
    let rcor := clampI (-500000) 500000 (d.rdI pgTIM TIM.RCOR + sr)
    (judgeRings 0 d).timeMap fun t => { t with miss := t.miss + 1, ofsNext := some so, rcorNext := some rcor, good := false }
  else
    let c := if ofs.isEmpty then 0 else -(fta (ofs ++ own))
    let rcor := d.rdI pgTIM TIM.RCOR
    let r := if rte.isEmpty then rcor else rcor - divTrunc (fta (rte ++ own) * 1000000000) (2 * d.period)
    let d := d.timeMap fun t => { t with miss := 0 }
    if 1600 < c.natAbs then syncLost 1 d
    else if 500000 < r.natAbs then syncLost 2 d
    else
      let d := judgeRings (-c) d
      d.timeMap fun t => { t with
        ofsNext := some (c + so), rcorNext := some (clampI (-500000) 500000 (r + sr)), good := true }

/-! ## Slot violations (R156 to R161) -/

/-- Is a slot judged in this cycle: an upstream slot of another station, in its turn? -/
def Dev.judged (d : Dev) (r : Fin 4) (n : Nat) : Bool :=
  let s := d.slot r n
  (s.type == ftAXIS || s.type == ftIO || s.type == ftSYNC) && s.holder != d.myst && s.turn d.cyc

/-- Does a station still have its grace after RESUME? -/
def Dev.inGrace (d : Dev) (r : Fin 4) (sta : Nat) : Bool := (d.rg r).grace.any fun (x : Nat × Nat) => x.1 == sta && decide (d.cyc < x.2)

/-- A slot is found violated or not: SLOTW, and the count of R156. Between REJOIN and the ACT of its RESUME a station counts no
violations (notes/assumptions/89.md). -/
def noteSlot (r : Fin 4) (n : Nat) (ok : Bool) (d : Dev) : Dev :=
    let s := d.slot r n
    let d := if ok then d else d.inc (pgRing r) RING.SLOTW
    let node := decide (2 ≤ s.holder) && !d.inGrace r s.holder && !(d.rg r).muted.contains s.holder
    let count := ((((d.rg r).viol.find? fun (x : Nat × Nat) => x.1 == n).map Prod.snd).getD 0)
    d.mapRg r fun g => { g with
      viol := (g.viol.filter fun (x : Nat × Nat) => x.1 != n) ++ (if ok || !node then [] else [(n, count + 1)]) }

/-- One slot at the end of the upstream window. -/
def judgeSlot (r : Fin 4) (n : Nat) (d : Dev) : Dev :=
  if d.judged r n then noteSlot r n ((d.rg r).accepted.contains n) d else d

/-- One slot of the async window, at the tick that ends cycle `k`. A station need not fill it: it is violated only where copies
came and none was accepted (R94; notes/assumptions/123.md). -/
def judgeAsync (r : Fin 4) (k n : Nat) (d : Dev) : Dev :=
  let s := d.slot r n
  if (s.type == ftASYNC || s.type == ftRANGING) && s.holder != d.myst && s.turn k then
    noteSlot r n ((d.rg r).accepted.contains n || !(d.rg r).outside.contains n) d
  else d

/-- Own SYNC slot: violated when copies returned and none in its window (R161). -/
def judgeOwn (r : Fin 4) (d : Dev) : Dev :=
  d.mapRg r fun g => { g with ownViol := if g.ownSeen = some false then g.ownViol + 1 else 0 }

/-- END_OF_UPSTREAM_WINDOW (R40, R128, R156, R161). -/
def endOfUpstream (d : Dev) : Dev :=
  if d.stage = 0 then d
  else
    let d := readyAll (d.at (d.tickSt + upEnd d.rate))
    let d := d.eachRing fun (r : Fin 4) (d : Dev) =>
      let judge := fun (d : Dev) => d.each (List.range (d.rd (pgRing r) RING.NSLOT)) fun n d => judgeSlot r n d
      if d.rstate r = rsSYNC then judgeOwn r (judge d) else if d.ringSync r then judge d else d
    if d.cyc % 2 = 1 ∧ ((List.range 4).any fun r => d.ringFollows r) then noteSteer (clockCorrection d) else d

/-- A station is muted (R157): its frames are discarded, and the tables it feeds moor at the CWD. -/
def muteStation (r : Fin 4) (sta : Nat) (d : Dev) : Dev :=
  d.mapRg r fun g => { g with muted := if g.muted.contains sta then g.muted else sta :: g.muted }

/-- A channel-0 message to a node (*Ring management messages*): mailbox header and data. -/
def mgmtMessage (dst src ch seq frag : Nat) (last : Bool) (data : List Byte) : List Byte :=
  let pad := (8 - data.length % 8) % 8
  bytesLE 2 dst ++ bytesLE 2 src ++ bytesLE 1 ch ++ bytesLE 1 seq ++ bytesLE 1 (frag + b2n last * 128) ++ bytesLE 1 pad ++
    data ++ List.replicate pad 0

/-- The system ID of a station of this cluster (R162). -/
def Dev.sysId (d : Dev) (r sta : Nat) : Nat := d.rd pgSYS SYS.SIDX * 256 + r * 64 + sta

/-- Queue a message for the next own async slots of a ring; a PASSIVE order goes to the front (R157). -/
def queueAsync (r : Fin 4) (m : AsyncMsg) (d : Dev) : Dev :=
  d.mapRg r fun g => { g with queue := match m with
    | .order _ => m :: g.queue
    | _ => g.queue ++ [m] }

/-- SLOT_MUTE (R157): 3 occurrences in a row, on a commanding head. -/
def slotMute (r : Fin 4) (n : Nat) (d : Dev) : Dev :=
  let s := d.slot r n
  let due := (d.rg r).viol.any fun (x : Nat × Nat) => x.1 == n && decide (3 ≤ x.2)
  if d.commanding && due && !(d.rg r).muted.contains s.holder then
    let d := muteStation r s.holder d
    let d := queueAsync r (.order (mgmtMessage (d.sysId r s.holder) (d.sysId r d.myst) 0 0 0 true [1, 0, 0, 0, 0, 0, 0, 0])) d
    ringEvent r 6 s.holder d
  else d

/-- OWN_SLOT_VIOLATED (R161): the ring leaves SYNC, and muted nodes without an async slot are heard again (R160). -/
def ownSlotViolated (r : Fin 4) (d : Dev) : Dev :=
  if d.rstate r = rsSYNC ∧ 3 ≤ (d.rg r).ownViol then
    let rejoins := fun (sta : Nat) => (d.slots r).any fun s => s.type == ftASYNC && s.holder == sta
    postSyncLost r 6 ((setRstate r rsPASSIVE d).mapRg r fun g => { g with muted := g.muted.filter rejoins })
  else d

/-- BEACON_MISS_LIMIT (R133): of a head in STANDBY or SILENT. The rule says nothing of a head with role NONE, which runs on as a
commanding head does (notes/assumptions/90.md). -/
def beaconMissLimit (d : Dev) : Dev :=
  if 8 ≤ d.time.miss ∧ (d.role = roSTANDBY ∨ d.role = roSILENT) then
    (d.eachRing fun (r : Fin 4) (d : Dev) => leaveSync r 3 d).timeMap fun t => { t with miss := 0 }
  else d

/-- RING_POOL_DISAGREE (R136). -/
def ringPoolDisagree (r : Fin 4) (d : Dev) : Dev := if 3 ≤ (d.rg r).disagree then leaveSync r 4 d else d

/-! ## Cold start and integration (R144 to R155) -/

/-- The listen timeout of a head (*Listen timeouts*): 10 ms for station 0, 11 ms for station 1. -/
def Dev.listenTime (d : Dev) : Nat := if d.myst = 0 then 160000000 else 176000000

/-- A ring begins a cold start (R145, R146): INSERT is high, and COLDSTART frames begin with the next cycle. -/
def enterColdstart (r : Fin 4) (d : Dev) : Dev :=
  let d := setRstate r rsCOLDSTART d
  (d.wr (pgRing r) RING.INS 1).mapRg r fun g => { g with
    coldFrom := d.cyc + 1, csSent := 0, yields := false, txWait := false, takeover := false }

/-- May this head lead a cold start of a ring: it holds a SYNC slot there (R127), and is not silenced (R540)? -/
def Dev.mayStart (d : Dev) (r : Fin 4) : Bool := d.ringUsed r && !d.on pgSTG STG.HDUP && (d.ownSlot r ftSYNC).isSome

/-- Does another ring of the cluster stand in SYNC, and so give ST (R145)? -/
def Dev.ringSource (d : Dev) (r : Nat) : Bool := (List.range 4).any fun q => q != r && d.rstate q == rsSYNC

/-- ST from the source of the highest precedence (R145): a ring in SYNC, which has it already; the system link; the own count. -/
def takeSource (r : Fin 4) (d : Dev) : Dev :=
  if d.ringSource r then d else stepTime (d.st + (d.time.sysOff.getD 0).toNat) d

/-- LISTEN_TIMEOUT (R144, R145): the listen timer reaches its timeout within the present cycle. -/
def listenTimeout (r : Fin 4) (d : Dev) : Dev :=
  let due := (d.rg r).listen + d.listenTime
  if d.stage ≠ 0 ∧ d.rstate r = rsLISTEN ∧ d.mayStart r ∧ due < d.tickSt + d.period then
    enterColdstart r (takeSource r (d.at due))
  else d

/-- HEAD_RING_TAKEOVER (R151): INSERT rises, and the cold start begins, in the next NIT. A ring in SYNC with INSERT high is not
taken over by its own head (notes/assumptions/91.md). -/
def headRingTakeover (r : Fin 4) (d : Dev) : Dev :=
  let synced := (List.range 4).any fun q => d.ringSync q
  let open' := d.rstate r == rsLISTEN || d.rstate r == rsINTEGRATE || (d.ringSync r && !d.inserted r)
  if synced ∧ 64 ≤ (d.rg r).role0 ∧ open' ∧ d.mayStart r then d.mapRg r fun g => { g with takeover := true } else d

/-- A ring enters SYNC: INTEGRATED, and ranging is due unless another head commands (R95, R120, R163). -/
def enterSync (r : Fin 4) (arg : Nat) (d : Dev) : Dev :=
  let d := setRstate r rsSYNC d
  let mine := d.role != roSTANDBY && d.role != roSILENT
  ringEvent r 5 arg (d.mapRg r fun g => { g with
    wantRange := mine, goodRun := 0, disagree := 0, ownViol := 0, offline := 0, syncDc := some (d.cyc / 2) })

/-- COLDSTART_COMPLETE (R146): COLDSTART frames have been sent in 8 cycles. -/
def coldstartComplete (r : Fin 4) (d : Dev) : Dev :=
  if d.rstate r = rsCOLDSTART ∧ 8 ≤ (d.rg r).csSent ∧ (d.rg r).coldFrom + 8 ≤ d.cyc ∧ !(d.rg r).yields then enterSync r 0 d else d

/-- INTEGRATE_TO_SYNC (R153, R155). -/
def integrateToSync (r : Fin 4) (d : Dev) : Dev :=
  if d.rstate r = rsINTEGRATE ∧ 4 ≤ (d.rg r).goodRun then enterSync r (if d.inserted r then 1 else 2) d else d

/-! ## SYS frames (R110, R111) -/

/-- A frame on a SYS port: header and payload good, not of this head's own number. Only CRC errors are counted (*SYS.SCNT*). -/
def sysReceive (p : Port) (f : RawFrame) (use : Hdr → Dev → Dev) (d : Dev) : Dev :=
  if !d.hears (.sys p) then d
  else
    let h := hdrOf f.sof
    if !hcrcOk f.sof then d.inc pgSYS SYS.CRCERR
    else
      let own := h.src + 64 * h.srcx == d.deviceNo % 512
      let x := d.sysPort p
      if own && !(x.everSent && launchedHere x.launched f.sof f.crc) then
        foreignFrame (match p with | .e => 4 | .w => 5) (d.at f.tag)
      else if crc32c f.data != f.crc.toNat then d.inc pgSYS SYS.CRCERR
      else if !payloadOk f then d
      else
        let d := d.at f.tag
        if own then d else use h d

/-- A frame leaves a SYS port. -/
def emitSys (p : Port) (h : Hdr) (data : List Byte) (d : Dev) : Dev :=
  let h := { h with dirf := match p with | .e => 0 | .w => 1 }
  let crc : Word := BitVec.ofNat 32 (crc32c data)
  if d.on pgSTG STG.HDUP then d
  else (d.emit (.frame (.sys p) h.bits data crc)).mapSys p fun s => { s with
    everSent := true, launched := ⟨0, h.bits, crc⟩ :: s.launched }

/-- The header of a frame of this head on the system link (R109). -/
def Dev.sysHdr (d : Dev) (type len : Nat) : Hdr :=
  ⟨type, d.deviceNo % 64, d.cyc % 64, len, 0, d.on pgSAF SAF.HOLD, d.deviceNo / 64 % 8, d.rd pgRED RED.EPOCH⟩

/-- The PDX message for a port: the lighthouse, and M with its cycle (*PDX message data*). -/
def Dev.pdxData (d : Dev) (p : Port) : List Byte :=
  let (hops, idx) := match d.lighthouse with
    | some (i, h) => (h, i)
    | none => (255, 0)
  let (c, m) := (d.sysPort p).m.getD (0, 0)
  [0x10#8] ++ bytesLE 1 hops ++ bytesLE 1 idx ++ [0] ++ bytesLE 4 (toBits 32 m) ++ bytesLE 4 c

/-- PDX_SEND (R137, R162): unicast to the neighbour, whose system ID its SYNC frames give; none is sent before one has come
(notes/assumptions/92.md). -/
def sendPdx (p : Port) (d : Dev) : Dev :=
  let d' := d.mapSys p fun s => { s with pdxDue := false }
  match (d.sysPort p).nid with
  | none => d'
  | some dst =>
    let msg := mgmtMessage dst (d.rd pgSYS SYS.SIDX * 256 + d.myst) 0 0 0 true (d.pdxData p)
    if d.on pgSTG STG.HDUP then d' else emitSys p (d.sysHdr ftASYNC (msg.length / 8)) msg d'

/-- SYS_SYNC_FRAME_RECEIVE (R111, R137, R138, R145): m of the neighbour's SYNC frame, whose cycle its STAP gives; a PDX message
that waits for it leaves. What a frame with STATE 4 says stays the source until the next such frame (notes/assumptions/122.md).
-/
def sysSyncFrameReceive (p : Port) (f : RawFrame) (d : Dev) : Dev :=
  sysReceive p f (fun h d =>
    if h.type ≠ ftSYNC then d
    else
      let m : Int := (f.tag : Int) - beaconTime f
      let d := d.mapSys p fun s => { s with m := some (beaconTime f / d.period, m), nid := some (field f 12 2) }
      let d := if field f 8 1 % 8 = rsSYNC then d.timeMap fun t => { t with sysOff := some ((t.hop : Int) - m) } else d
      let d := steerLimit (pairPdx p d)
      if (d.sysPort p).pdxDue then sendPdx p d else d) d

/-- SYS CLRCNT (R122). -/
def landSys (code arg : Nat) (d : Dev) : Dev :=
  match code with
  | 0x01 => takeCmd pgSYS code arg (fun _ => rOK) (fun d => d.setReg pgSYS 0 SYS.RTFAIL.off 0) d
  | _ => takeCmd pgSYS code arg (fun _ => rCODE) id d

/-! ## NIT (R70, R78, R100, R105, R106, R112, R129) -/

/-- A ring in NIT: BREAK again while a break lasts, which is until HEAL (notes/assumptions/119.md); a takeover that is due; a
change of INSERT that is due. -/
def nitRing (r : Fin 4) (d : Dev) : Dev :=
  let d := if (d.rg r).brokenE then osRing r 0x02 (breakArg d .e) d else d
  let d := if (d.rg r).brokenW then osRing r 0x02 (breakArg d .w) d else d
  let d := if (d.rg r).takeover then enterColdstart r (leaveSync r 5 d) else d
  match (d.rg r).insert with
  | some v => (d.wr (pgRing r) RING.INS (b2n v)).mapRg r fun g => { g with insert := none }
  | none => d

/-- OFS of this NIT (R129, R130). -/
def nitOffset (d : Dev) : Dev :=
  match d.time.ofsNext with
  | some c => (d.wrI pgTIM TIM.OFS c).timeMap fun t => { t with ofsNext := none }
  | none => d

/-- SYS_INSERT (R104, R112, R540). -/
def nitSysInsert (d : Dev) : Dev :=
  if !d.fitted (.sys .e) then d
  else if d.on pgSTG STG.HDUP then d.wr pgSYS SYS.INS 0
  else if d.on pgTIM TIM.SYNC then d.wr pgSYS SYS.INS 1 else d

/-- A PDX message whose neighbour's SYNC frame did not come in the async window leaves at its end, with the last measurement
(R137; notes/assumptions/92.md). -/
def nitPdx (d : Dev) : Dev :=
  let send := fun (p : Port) (d : Dev) => if (d.sysPort p).pdxDue then sendPdx p d else d
  send .w (send .e d)

/-- From here on the peer counts as heard for the next cycle (R512). -/
def nitHeard (d : Dev) : Dev := { d with red := { d.red with sinceNit := false } }

/-- NIT_START. -/
def startNit (d : Dev) : Dev :=
  if d.stage = 0 then d
  else
    let d := nitOffset (nitPdx (d.at (d.tickSt + nitStart d.rate)))
    nitSysInsert (nitHeard ((if d.on pgSAF SAF.HOLD then sendStop d else d).eachRing nitRing))

end Sys2Proof.Machine
end

