-- ==== Sys2Proof/Machine/RingLink.lean ====
section
/-! DEFINITION. Ring management: ranging and the geometry, the schedule check, insertion and withdrawal, channel 0 and mailboxes,
the routes of the system link (R89, R91 to R99, R105 to R112, R119, R159, R161, R162, R582). -/
namespace Sys2Proof.Machine

/-! ## The schedule check (R91, R92) -/

/-- A frame that a slot may carry: its action point and holder; its slot. -/
structure Launch where
  ap : Nat
  holder : Nat
  slot : Slot
  no : Nat
deriving DecidableEq, Repr

/-- Every frame of a slot table: a COMMAND slot belongs to either head, a half of a MIRROR slot to either head. -/
def launchesOf (rate : Nat) (l : List Slot) : List Launch :=
  (l.zipIdx).flatMap fun (x : Slot × Nat) =>
    let s := x.1
    if s.type = ftCOMMAND then [⟨s.ap * 80, 0, s, x.2⟩, ⟨s.ap * 80, 1, s, x.2⟩]
    else if s.type = ftMIRROR then
      [0, 1].flatMap fun h => (s.points rate ftMIRROR).map fun ap => (⟨ap, h, s, x.2⟩ : Launch)
    else [⟨s.ap * 80, s.holder, s, x.2⟩]

/-- Is a launch within the window of its type? -/
def Launch.inWindow (rate : Nat) (x : Launch) : Bool :=
  let inside := fun (lo hi : Nat) => decide (lo ≤ x.ap) && decide (x.ap ≤ hi)
  if x.slot.type = ftCOMMAND then inside (cwdTime rate) (cmdEnd rate)
  else if x.slot.type = ftMIRROR then inside (upEnd rate) (mirrorEnd rate)
  else if x.slot.type = ftASYNC ∨ x.slot.type = ftRANGING then inside (asyncStart rate) (asyncEnd rate)
  else inside (upStart rate) (upEnd rate)

/-- Deadlines of the first copy and of the longer route (*Delivery deadlines*), from the tick. -/
def deadlines (rate t : Nat) : Nat × Nat :=
  if t = ftCOMMAND then (nitStart rate, periodOf rate - 16000)
  else if t = ftMIRROR then (cwdTime rate, cwdTime rate)
  else if t = ftASYNC ∨ t = ftRANGING then (asyncEnd rate, asyncEnd rate)
  else (upEnd rate, upEnd rate)

/-- The two arrivals of a frame's last block at station `j`. -/
def Launch.arrivals (g : Geo) (x : Launch) (j : Nat) : Option (Nat × Nat) :=
  match g.pe x.holder j, g.pe j x.holder with
  | some a, some b => some (x.ap + min a b + x.slot.wire, x.ap + max a b + x.slot.wire)
  | _, _ => none

/-- R91 for one frame. -/
def Launch.inTime (g : Geo) (rate : Nat) (x : Launch) : Bool :=
  x.inWindow rate &&
  (List.range 64).all fun j => j == x.holder || match x.arrivals g j with
    | some (a, b) => decide (a ≤ (deadlines rate x.slot.type).1) && decide (b ≤ (deadlines rate x.slot.type).2)
    | none => true

/-- When a frame leaves station `a` east, or west; its length with the gap. -/
def Launch.leaves (g : Geo) (x : Launch) (east : Bool) (a : Nat) : Option Nat :=
  if x.holder = a then some x.ap
  else
    match (if east then g.pe x.holder a else g.pe a x.holder), g.at' a with
    | some p, some y => some (x.ap + p + y.2)
    | _, _ => none
def Launch.span (x : Launch) : Nat := ((x.slot.len + 4) * 2112 + 9) / 10

/-- R92 for two frames on every segment. -/
def apartOn (g : Geo) (x y : Launch) : Bool :=
  (List.range 64).all fun a => [true, false].all fun east =>
    match x.leaves g east a, y.leaves g east a with
    | some s, some t => decide (s + x.span + 800 ≤ t) || decide (t + y.span + 800 ≤ s)
    | _, _ => true

/-- Can two slots be used in one cycle (R49)? -/
def Slot.meets (s t : Slot) : Bool := let m := min (2 ^ s.mexp) (2 ^ t.mexp); s.base % m == t.base % m

/-- R92 for every pair of frames of different slots; the two halves of a mirror slot run on disjoint arcs (R90). -/
def separated (g : Geo) : List Launch → Bool
  | [] => true
  | x :: l =>
    (l.all fun (y : Launch) => x.no == y.no || !x.slot.meets y.slot || apartOn g x y) && separated g l

/-- The slot table meets R91 and R92 under a geometry. -/
def scheduleOk (g : Geo) (rate : Nat) (l : List Slot) : Bool :=
  let q := (launchesOf rate l).filter fun (x : Launch) => (g.at' x.holder).isSome
  q.all (fun (x : Launch) => x.inTime g rate) && separated g q

/-! ## Own async slots -/

/-- The multiplex factor and the data bytes of this head's async slot on a ring. -/
def Dev.asyncSlot (d : Dev) (r : Nat) : Nat × Nat :=
  match d.ownSlot r ftASYNC with
  | some n => (2 ^ (d.slot r n).mexp, 8 * (min 64 (d.slot r n).len) - 8)
  | none => (1, 504)

/-- Cycles until a message of `n` fragments queued now has left: what is queued already and up to four PASSIVE orders go before
it; a ranging request waits until a GEO message has acted (notes/assumptions/93.md). -/
def Dev.asyncLead (d : Dev) (r : Fin 4) (n : Nat) : Nat := ((d.rg r).queue.length + n + 4) * (d.asyncSlot r).1

/-- Cut data into fragments of at most `m` bytes. -/
def cutData (m : Nat) : Nat → List Byte → List (List Byte)
  | 0, _ => []
  | fuel + 1, l => if l.length ≤ m then [l] else l.take m :: cutData m fuel (l.drop m)

/-- Queue a channel-0 message, cut to this head's async slot. -/
def queueMgmt (r : Fin 4) (dst : Nat) (data : List Byte) (d : Dev) : Dev :=
  let m := max 8 (d.asyncSlot r).2
  let parts := cutData m 64 data
  let n := parts.length
  (parts.zipIdx).foldl (fun (d : Dev) (x : List Byte × Nat) =>
    queueAsync r (.mail (mgmtMessage dst (d.sysId r d.myst) 0 0 x.2 (x.2 + 1 == n) x.1)) d) d

/-! ## Ranging (R93 to R99) -/

/-- This head's forwarding latency, 96 ns (R69). -/
def ownFwd : Nat := 1536

/-- The words PTAB0 to PTAB63 of a finished round. -/
def rangedPtab (me l : Nat) (replies : List (Nat × Int × Nat)) : List Word :=
  (List.range 64).map fun i =>
    if i = me then BitVec.ofNat 32 (l % 2 ^ 20 + ownFwd * 2 ^ 20)
    else
      match replies.find? fun (x : Nat × Int × Nat) => x.1 == i with
      | some (_, delta, fwd) => BitVec.ofNat 32 (toBits 20 ((delta + l - fwd) / 2) + fwd % 4096 * 2 ^ 20)
      | none => 0x000FFFFF#32

/-- The data of a GEO message (R99). -/
def geoData (g : Geometry) : List Byte :=
  bytesLE 4 g.le ++ bytesLE 4 g.lw ++ bytesLE 4 g.act ++ bytesLE 1 (b2n g.gok) ++ [0, 0, 0] ++
    g.ptab.flatMap fun w => bytesLE 4 w.toNat

/-- GEO_SEND: the geometry is broadcast; its ACT lies at least 4 cycles after the last fragment. -/
def sendGeo (r : Fin 4) (g : Geometry) (d : Dev) : Dev :=
  let parts := (cutData (max 8 (d.asyncSlot r).2) 64 (geoData g)).length
  let g := { g with act := (d.cyc + d.asyncLead r parts + 4) % 2 ^ 32 }
  (queueMgmt r 0xFFFF (geoData g) d).mapRg r fun x => { x with geo := some g, geoOld := false }

/-- ASYM of a ring: le and lw differ by more than 64 LSB (R98). -/
def showAsym (r : Fin 4) (le lw : Nat) (d : Dev) : Dev :=
  d.wr (pgRing r) RING.ASYM (b2n (decide (64 < ((le : Int) - lw).natAbs)))

/-- RANGING_COMPLETE (R93, R97, R98): both own copies have returned and the replies are in. PTAB takes the geometry; it is in
force from the ACT of its GEO message on. With SCHOK = 0 it never is, and the message repeats the geometry in force. -/
def rangingComplete (r : Fin 4) (d : Dev) : Dev :=
  let pg := pgRing r
  match (d.rg r).ranging with
  | some ⟨_, _, some le, some lw, replies⟩ =>
    let ptab := rangedPtab d.myst ((le + lw) / 2) replies
    let ok := scheduleOk (geoOf ptab) d.rate (d.slots r)
    let force := d.inForce r
    let d := showAsym r le lw ((d.wr pg RING.LOOPE_LOOP le).wr pg RING.LOOPW_LOOP lw)
    let d := putPtab r ptab ((d.wr pg RING.SCHOK (b2n ok)).wr pg RING.RNGV 1)
    let d := d.mapRg r fun g => { g with ranging := none, kept := some force }
    sendGeo r (if ok then ⟨le, lw, 0, true, ptab⟩ else ⟨force.1, force.2.1, 0, false, force.2.2⟩) (ringEvent r 3 3 d)
  | _ => d

/-- The slot in whose window a RANGING copy lies (R94): by the geometry in force; of a station that it does not hold, a new one,
by the nominal geometry; of a station that neither holds, its slot at any time (notes/assumptions/94.md). -/
def Dev.rangingSlot (d : Dev) (r : Fin 4) (f : RawFrame) : Option Nat :=
  let src := (hdrOf f.sof).src
  let inBy := fun (g : Geo) => d.slotIn g r ftRANGING src f.port f.tag
  if ((d.geo r).propTo src d.myst f.port).isSome then inBy (d.geo r)
  else if ((d.nominal r).propTo src d.myst f.port).isSome then inBy (d.nominal r)
  else d.slotOf r ftRANGING src

/-- A reply to this head's round: one of a station (R97). -/
def takeRanging (r : Fin 4) (f : RawFrame) (d : Dev) : Dev :=
  let src := (hdrOf f.sof).src
  match (d.rg r).ranging with
  | some q =>
    if q.rid % 65536 ≠ field f 2 2 ∨ q.replies.any fun (x : Nat × Int × Nat) => x.1 == src then d
    else
      d.mapRg r fun g => { g with
        ranging := some { q with replies := q.replies ++ [(src, fieldI f 4 4, field f 8 2)] } }
  | none => d

/-- A request of the other head is tagged on both ports (R96). -/
def tagRequest (r : Fin 4) (f : RawFrame) (d : Dev) : Dev :=
  let rid := field f 2 2
  let old : Option (Option Nat × Option Nat) := ((d.rg r).rtag.filter fun t => t.1 == rid).map Prod.snd
  let t := old.getD (none, none)
  let t : Option Nat × Option Nat := match f.port with
    | .e => (some f.tag, t.2)
    | .w => (t.1, some f.tag)
  d.mapRg r fun g => { g with rtag := some (rid, t.1, t.2) }

/-- RANGING_REPLY_RECEIVE (R73, R94, R96, R97): a frame of a muted station is discarded (R157), a copy outside its window is
counted, and so is the second copy of a slot; a reply is collected, both copies of a request of the other head are tagged. -/
def rangingReplyReceive (r : Fin 4) (f : RawFrame) (d : Dev) : Dev :=
  receive [ftRANGING] r f (fun d =>
    let src := (hdrOf f.sof).src
    if !d.ringSync r || (d.rg r).muted.contains src then d
    else
      match d.rangingSlot r f with
      | none => copyOutside r ftRANGING src d
      | some n =>
        let again := (d.rg r).accepted.contains n
        let d := if again then d.incW (pgRing r) RING.CNTDUP
          else d.mapRg r fun g => { (g.hearing src) with accepted := n :: g.accepted }
        if field f 0 1 = 1 then (if again then d else takeRanging r f d)
        else if src = 1 - d.myst then tagRequest r f d
        else d) d

/-- A payload of a RANGING frame (*RANGING payload*). -/
def rangingPayload (kind rid : Nat) (delta : Int) (fwd : Nat) : List Byte :=
  bytesLE 1 kind ++ [0] ++ bytesLE 2 rid ++ bytesLE 4 (toBits 32 delta) ++ bytesLE 2 fwd ++ List.replicate 6 0

/-- GEO_ACT (R99, R105, R107): the geometry takes effect with GOK = 1; with GOK = 0 the one in force stays, and GEOACT with it
(notes/assumptions/95.md). Stations leave resettle, unless the message is older than it; a head inserted before the message
transmits in all its slots. -/
def geoAct (r : Fin 4) (d : Dev) : Dev :=
  let pg := pgRing r
  match (d.rg r).geo with
  | none => d
  | some g =>
    if (d.cyc + 2 ^ 32 - g.act) % 2 ^ 32 < 2 ^ 31 then
      let fresh := !(d.rg r).geoOld
      let d := if fresh then
          (d.wr pg RING.RESETTLE 0).mapRg r fun x => { x with
            resettleN := 0, disagree := 0, txWait := if g.gok then false else x.txWait }
        else d
      let d := d.mapRg r fun x => { x with geo := none, geoOld := false }
      if g.gok then
        let d := (d.wr pg RING.GEOACT g.act).wr pg RING.RNGV 1
        let d := showAsym r g.le g.lw ((d.wr pg RING.LOOPE_LOOP g.le).wr pg RING.LOOPW_LOOP g.lw)
        (putPtab r g.ptab d).mapRg r fun x => { x with kept := none }
      else d
    else d

/-- RESETTLE_TIMEOUT (R107): 256 cycles in which no GEO message has arrived. -/
def resettleTimeout (r : Fin 4) (d : Dev) : Dev :=
  let g := d.rg r
  if d.on (pgRing r) RING.RESETTLE ∧ 256 ≤ g.resettleN ∧ (g.geo.isNone || g.geoOld) then
    (d.wr (pgRing r) RING.RESETTLE 0).mapRg r fun g => { g with resettleN := 0, disagree := 0 }
  else d

/-! ## RING commands, insertion (R105, R106, R108, R119) -/

/-- GRANT and WITHDRAW (R108): announced up to the next cycle with RCC 63. The conditions R108 names for GRANT hold for WITHDRAW
too (notes/assumptions/96.md). -/
def cmdGrant (r : Fin 4) (code arg : Nat) : Dev → Dev :=
  let pg := pgRing r
  takeCmd pg code arg
    (fun d => checks (d.commanding && d.rstate r == rsSYNC && d.on pg RING.HOTINS && !d.on pg RING.BROKEN &&
      !d.on pg RING.GPEND && arg != d.myst) (decide (arg ≤ 63)))
    fun d =>
      let d := (((d.wr pg RING.GSTA arg).wr pg RING.GWD (code - 2)).wr pg RING.GPEND 1).wr pg RING.GDONE 0
      d.mapRg r fun g => { g with grantAt := some (d.cyc / 64 * 64 + if d.cyc % 64 = 63 then 127 else 63) }

def landRing (r : Fin 4) (code arg : Nat) (d : Dev) : Dev :=
  let pg := pgRing r
  match code with
  | 0x01 =>
    takeCmd pg code arg (fun d => checks (d.commanding && d.rstate r == rsSYNC) true)
      (fun d => d.mapRg r fun g => { g with wantRange := true }) d
  | 0x02 => cmdGrant r code arg d
  | 0x03 => cmdGrant r code arg d
  | 0x04 =>
    takeCmd pg code arg (fun _ => rOK) (fun d =>
      (((((d.wr pg RING.CNTDUP 0).setReg pg 0 RING.HCRC.off 0).setReg pg 0 RING.COPYW.off 0).setReg pg 0 RING.TXCOLL.off 0).wr
        pg RING.BCNT 0)) d
  | _ => takeCmd pg code arg (fun _ => rCODE) id d

/-- INSERT_BY_GRANT (R105): the head named by INSG raises INSERT. It replies to the ranging that its insertion starts, and waits
for the GEO message of that ranging; what it heard of an earlier round is void. -/
def insertByGrant (r : Fin 4) (d : Dev) : Dev :=
  if (d.rg r).insg = some (d.myst, false) ∧ !d.inserted r ∧ d.ringSync r ∧ !d.on pgSTG STG.HDUP then
    (d.wr (pgRing r) RING.INS 1).mapRg r fun g => { g with txWait := true, rtag := none, geoOld := g.geo.isSome, frags := [] }
  else d

/-- INSERT_LOWER_BY_WITHDRAW (R106). -/
def insertLower (r : Fin 4) (d : Dev) : Dev :=
  if (d.rg r).insg = some (d.myst, true) ∧ d.inserted r then d.wr (pgRing r) RING.INS 0 else d

/-- A station is heard again (R159). -/
def unmute (r : Fin 4) (sta act : Nat) (d : Dev) : Dev :=
  d.mapRg r fun g => { g with
    muted := g.muted.filter fun s => s != sta, viol := g.viol.filter fun (x : Nat × Nat) => (d.slot r x.1).holder != sta,
    grace := (g.grace.filter fun (x : Nat × Nat) => x.1 != sta) ++ [(sta, act)] }
/-- REJOIN (R159): the commanding head unmutes the station and orders RESUME. -/
def rejoin (r : Fin 4) (sta : Nat) (d : Dev) : Dev :=
  if d.commanding && d.ringSync r && (d.rg r).muted.contains sta then
    let act := d.cyc + d.asyncLead r 1 + 4
    queueMgmt r (d.sysId r sta) ([2, 0, 0, 0] ++ bytesLE 4 act) (unmute r sta act d)
  else d

/-! ## Mailboxes, receive side (R582) -/

/-- A mailbox fragment: destination, source, channel, sequence number, index, LAST, data. -/
structure Frag where
  dst : Nat
  src : Nat
  ch : Nat
  seq : Nat
  idx : Nat
  last : Bool
  data : List Byte
deriving DecidableEq, Repr

def fragOf (f : RawFrame) : Frag :=
  let b6 := field f 6 1
  let n := f.data.length - 8 - field f 7 1 % 8
  ⟨field f 0 2, field f 2 2, field f 4 1, field f 5 1, b6 % 128, bitOf b6 7, (f.data.drop 8).take n⟩

/-- Size of the mailbox rings. -/
def mailSize : Nat := 0x40_0000

/-- Bytes a record of `len` data bytes occupies. -/
def recSpace (len : Nat) : Nat := (32 + len + 63) / 64 * 64

/-- A mailbox record header. -/
def mailHeader (tag src dst ch seq ring len : Nat) : List Byte :=
  bytesLE 8 tag ++ bytesLE 2 src ++ bytesLE 2 dst ++ bytesLE 1 ch ++ bytesLE 1 seq ++ bytesLE 1 ring ++ [0] ++ bytesLE 4 len ++
    List.replicate 12 0

/-- Count a message that is not delivered; MB_DROP. -/
def mailDrop (f : Fld) (d : Dev) : Dev := raise pgHIF 4 4 (d.inc pgHIF f)

/-- Append a complete message at RXW. -/
def mailAppend (m : Reasm) (data : List Byte) (d : Dev) : Dev :=
  let w := d.rd pgHIF HIF.RXW
  let rd := d.rd pgHIF HIF.RXR
  let o := w % mailSize
  let size := recSpace data.length
  let pad := if mailSize < o + size then mailSize - o else 0
  if mailSize < toBits 32 ((w : Int) - rd) + pad + size then mailDrop HIF.RXDROP d
  else
    let d := if pad = 0 then d else d.setMemBytes (dramMailRx + o) (mailHeader 0 0 0 0 0 0 (pad - 32))
    let o := (o + pad) % mailSize
    let head := mailHeader m.tag m.key.src.toNat m.dst m.key.ch.toNat m.key.seq.toNat m.ring data.length
    let d := d.setMemBytes (dramMailRx + o) (head ++ data ++ List.replicate (size - 32 - data.length) 0)
    raise pgHIF 2 2 (d.wr pgHIF HIF.RXW (w + pad + size))

/-- Does the reassembly hold fragments 0 to LAST? -/
def Reasm.whole (m : Reasm) : Bool := match m.last with
  | some l => (List.range (l + 1)).all fun i => m.frags.any fun (x : Nat × List Byte) => x.1 == i
  | none => false

def Reasm.data (m : Reasm) : List Byte := match m.last with
  | some l => (List.range (l + 1)).flatMap fun i => ((m.frags.find? fun (x : Nat × List Byte) => x.1 == i).map Prod.snd).getD []
  | none => []

def putMail (l : List Reasm) (d : Dev) : Dev := { d with host := { d.host with mail := l } }

/-- A fragment on channels 1 to 255 for this head (R582). The last one shows whether another is missing, as the fragments of a
message leave in order (R583). -/
def mailFragment (ring tag : Nat) (f : Frag) (d : Dev) : Dev :=
  if !d.on pgHIF HIF.RXEN then d
  else if bitsOf (d.reg pgHIF 0 (HIF.MBCH.off + 4 * (f.ch / 32))).toNat (f.ch % 32) 1 = 0 then
    (if f.idx = 0 then mailDrop HIF.CHOFF d else d)
  else
    let key : MailKey := ⟨BitVec.ofNat 16 f.src, BitVec.ofNat 8 f.ch, BitVec.ofNat 8 f.seq⟩
    let l := d.host.mail
    match l.find? fun (m : Reasm) => m.key == key with
    | none =>
      if 16 ≤ l.length then (if f.idx = 0 then mailDrop HIF.RXBAD d else d)
      else addTo ⟨key, f.dst, ring, d.cyc, tag, [], none⟩ l d
    | some m => addTo m (l.filter fun (m : Reasm) => m.key != key) d
where
  addTo (m : Reasm) (rest : List Reasm) (d : Dev) : Dev :=
    let m := { m with
      tag := tag, frags := (m.frags.filter fun (x : Nat × List Byte) => x.1 != f.idx) ++ [(f.idx, f.data)],
      last := if f.last then some f.idx else m.last }
    if m.whole then mailAppend m m.data (putMail rest d)
    else if f.last then mailDrop HIF.RXBAD (putMail rest d)
    else putMail (rest ++ [m]) d

/-- MAILBOX_TIMEOUT (R582): not complete within RTMO cycles of its first fragment. -/
def mailboxTimeout (key : MailKey) (d : Dev) : Dev :=
  match d.host.mail.find? fun (m : Reasm) => m.key == key with
  | some m =>
    if m.cycle + d.rd pgHIF HIF.RTMO ≤ d.cyc then
      mailDrop HIF.RXBAD (putMail (d.host.mail.filter fun (m : Reasm) => m.key != key) d)
    else d
  | none => d

/-- Is a system ID one of this head's own, or the broadcast of a ring? -/
def Dev.ownId (d : Dev) (dst : Nat) : Bool := dst == 0xFFFF || (List.range 4).any fun r => d.sysId r d.myst == dst

/-! ## ASYNC frames (R89, R99, R110, R161, R162) -/

/-- A fragment of a GEO message on a head that does not command. -/
def geoFragment (r : Fin 4) (f : Frag) (d : Dev) : Dev :=
  let all := (if f.idx = 0 then [] else (d.rg r).frags) ++ f.data
  let d := d.mapRg r fun g => { g with frags := if f.last then [] else all }
  if f.last ∧ 272 ≤ all.length then
    let n := fun (o : Nat) => numLE ((all.drop o).take 4)
    let gok := n 12 % 2 == 1
    let g : Geometry := ⟨n 0, n 4, n 8, gok, (List.range 64).map fun i => BitVec.ofNat 32 (n (16 + 4 * i))⟩
    (d.wr (pgRing r) RING.SCHOK (b2n gok)).mapRg r fun x => { x with geo := some g, geoOld := false }
  else d

/-- Channel 0 on a ring: GEO; PASSIVE and RESUME orders of the peer, which a standby applies to its own set (R161). -/
def ringMgmt (r : Fin 4) (f : Frag) (d : Dev) : Dev :=
  if d.commanding then d
  else if f.dst = 0xFFFF then geoFragment r f d
  else
    let sta := f.dst % 64
    match numLE (f.data.take 1) with
    | 1 => muteStation r sta d
    | 2 => unmute r sta (numLE ((f.data.drop 4).take 4)) d
    | _ => d

/-- A port of the system link by a code of the route table (*SYS.ROUTE000 to SYS.ROUTE255*). -/
def routePort : Nat → Option Port
  | 1 => some .e
  | 2 => some .w
  | _ => none

/-- By the route table of a system index (R110): `here` where the entry says local; otherwise `send` out of the primary port, or
of the alternate one when the primary has no block lock; RTFAIL when neither has. -/
def sysRoute (idx : Nat) (here : Dev → Dev) (send : Port → Dev → Dev) (d : Dev) : Dev :=
  let prim := d.rd pgSYS (SYS.PRIM.nth 4 idx)
  let alt := d.rd pgSYS (SYS.ALT.nth 4 idx)
  let up := fun (c : Nat) => (routePort c).filter fun q => d.hears (.sys q)
  if prim = 0 then here d
  else
    match up prim, up alt with
    | some q, _ => send q d
    | none, some q => send q d
    | none, none => if alt = 0 then here d else raise pgSYS 3 3 (d.inc pgSYS SYS.RTFAIL)

/-- A payload for another cluster leaves through the system link as a frame of this head (R109, R110). -/
def sendRouted (idx : Nat) (here : Dev → Dev) (payload : List Byte) (d : Dev) : Dev :=
  sysRoute idx here (fun p d => emitSys p (d.sysHdr ftASYNC (payload.length / 8)) payload d) d

/-- ASYNC_FRAME_RECEIVE (R89, R110): channel 0 of the other head is ring management; other channels are mailboxes of this head, or
go to another cluster through the commanding head (notes/assumptions/97.md). The REJOIN of a muted station is an event of its
own. -/
def asyncFrameReceive (r : Fin 4) (f : RawFrame) (d : Dev) : Dev :=
  receiveSync [ftASYNC] r f (fun d =>
    let m := fragOf f
    if m.ch = 0 then (if (hdrOf f.sof).src = 1 - d.myst then ringMgmt r m d else d)
    else if d.ownId m.dst then mailFragment r f.tag m d
    else if m.dst / 256 ≠ d.rd pgSYS SYS.SIDX ∧ d.commanding then sendRouted (m.dst / 256) id f.data d
    else d) d

/-- A mailbox payload goes to the ring that its DST names. -/
def toRing (dst : Nat) (payload : List Byte) : Dev → Dev := queueAsync ⟨dst / 64 % 4, Nat.mod_lt _ (by decide)⟩ (.mail payload)

/-- An ASYNC frame of the system link for this cluster: this head's own mailboxes, or the ring in DST. Channel 0 for this head
is the PDX message, an event of its own. -/
def sysLocal (f : RawFrame) (d : Dev) : Dev :=
  let m := fragOf f
  if d.ownId m.dst then (if m.ch = 0 then d else mailFragment 0 f.tag m d)
  else toRing m.dst f.data d

/-- SYS_ASYNC_FRAME_RECEIVE (R110): store-and-forward toward the system index in DST. -/
def sysAsyncFrameReceive (p : Port) (f : RawFrame) (d : Dev) : Dev :=
  sysReceive p f (fun h d =>
    let dst := (fragOf f).dst
    if h.type ≠ ftASYNC then d
    else if dst = 0xFFFF ∨ dst / 256 = d.rd pgSYS SYS.SIDX then sysLocal f d
    else sysRoute (dst / 256) (sysLocal f) (fun q d => d.transmit (.frame (.sys q) f.sof f.data f.crc)) d) d

end Sys2Proof.Machine
end

