-- ==== Sys2Proof/Machine/RedRole.lean ====
section
/-! DEFINITION. The roles of a head pair and their decisions, held requests, the phases of resynchronisation as the commands and
events of the RED page move them (R487, R488, R512 to R525). -/
namespace Sys2Proof.Machine

def Dev.redMap (f : Red → Red) (d : Dev) : Dev := { d with red := f d.red }

/-- N, and R of the present cycle (R488). -/
def Dev.nodesN (d : Dev) : Nat := d.rd pgRED RED.NCFG
def Dev.reach (d : Dev) : Nat := d.red.nodes.length

/-- Configured axis tables that are not local, ascending. -/
def Dev.pairAxes (d : Dev) : List (Fin 256) := d.activeAxes.filter fun (n : Fin 256) => d.configured n && !d.isLocal n

/-! ## The journal queue (R494, R496, R497) -/

/-- The journal runs: ACTIVE, or ALONE with a peer in BULK or later. -/
def Dev.journalRuns (d : Dev) : Bool := d.role == roACTIVE || (d.role == roALONE && decide (2 ≤ d.rd pgRED RED.RPH))

/-- JQ. -/
def showQueue (d : Dev) : Dev := d.wr pgRED RED.JQ (min 1024 d.red.wait.length)

/-- Addresses of the marked blocks among the items of a stream (notes/assumptions/42.md: kind 1). -/
def blocksIn : Nat → List Byte → List Nat
  | 0, _ => []
  | n + 1, l =>
    let h := numLE (l.take 4)
    let tail := blocksIn n (l.drop 68)
    if h / 2 ^ 28 = 1 then h % 2 ^ 28 * 64 :: tail else tail

/-- Blocks the host has written that are not carried yet: marked ones, and those on their way. -/
def Red.uncarried (r : Red) : List Nat := (r.dirty ++ blocksIn (r.items.length / 68) r.items).eraseDups

/-- An entry waits in the journal queue; a host write waits for every block written before it (R497). -/
def pushEntry (e : JEntry) (d : Dev) : Dev := showQueue (d.redMap fun r => { r with wait := r.wait ++ [⟨e, r.uncarried⟩] })

/-- A decision of the commanding head is journalled; it waits for no block. -/
def pushDecision (e : JEntry) (d : Dev) : Dev := showQueue (d.redMap fun r => { r with wait := r.wait ++ [⟨e, []⟩] })

/-! ## Taking a role (R513, R515, R526) -/

/-- E of R515: the highest epoch seen or held. -/
def Dev.topEpoch (d : Dev) : Nat :=
  let h := d.rd pgRED RED.HEPOCH
  let e := d.rd pgRED RED.EPOCH
  let ahead := (h + 65536 - e) % 65536
  if 1 ≤ ahead ∧ ahead ≤ 32767 then h else e

/-- EPOCH_INCREMENT, with TAKEOVER. -/
def takeEpoch (d : Dev) : Dev :=
  let e := (d.topEpoch + 1) % 65536
  raise pgRED 1 e (((d.wr pgRED RED.EPOCH e).wr pgRED RED.HEPOCH e).inc pgRED RED.TAKEOVERS)

/-- What is kept of the pair starts anew with a new role: journal, items, digests, replays and repairs. -/
def clearRed (d : Dev) : Dev :=
  showQueue (d.redMap fun r => { Red.reset with
    heard := r.heard, role := r.role, reach := r.reach, syncm := r.syncm, sinceNit := r.sinceNit, command := r.command,
    commandPrev := r.commandPrev, noCmdr := r.noCmdr, more := r.more, less := r.less, nodes := r.nodes, rsel := r.rsel, past := r.past })

/-- Decision `code` gives this head the role `new`; `takes` when it takes a commanding role by R515. -/
def decide' (code new : Nat) (takes : Bool) (d : Dev) : Dev :=
  let old := d.role
  let d := ((d.wr pgRED RED.DCODE code).wr pgRED RED.OROLE old).wr pgRED RED.NROLE new
  let d := d.wr pgRED RED.LASTDC (d.cyc % 2 ^ 32)
  let d := if takes then takeEpoch d else d
  let d := if code = 1 ∨ code = 11 then moorAll d else d
  let d := if code = 10 then d else (clearRed d).wr pgRED RED.RPH 0
  setRole new d

/-! ## Resynchronisation as a state (R520, R521) -/

/-- RESYNC_FAIL: the joining head stays SILENT. -/
def resyncFail (cause : Nat) (d : Dev) : Dev :=
  let d := (d.wr pgRED RED.RFAIL cause).wr pgRED RED.RPH 0
  let d := d.redMap fun r => { r with
    bulkIn := [], ready := false, pass := 0, cursor := 0, captured := false, same := none, stored := [], opened := none, parts := [],
    clean := 0, reply := [], repairs := [] }
  let d := if cause = 1 then d.wr pgRED RED.CONFMIS 1 else d
  moorAll (raise pgRED 5 cause d)

/-- Is this head joining? -/
def Dev.joining (d : Dev) : Bool := d.role == roSILENT && decide (1 ≤ d.rd pgRED RED.RPH)

/-- JOIN_COMPLETE (R520): `equal` says whether the configuration codes are; the joining head compares the image CRC that the
RESYNC entry of JOIN has brought with its own, and the commanding head opens BULK. -/
def joinComplete (equal : Bool) (d : Dev) : Dev :=
  if d.rd pgRED RED.RPH ≠ 1 then d
  else if d.commanding then
    if equal then
      pushDecision (.resync 2 0) ((d.wr pgRED RED.RPH 2).redMap fun r => { r with
        pass := 1, cursor := 0, captured := false, items := [], bulk := [], istart := 0 })
    else d.wr pgRED RED.CONFMIS 1
  else if d.joining then
    match d.red.same with
    | some same => if equal && same then d.wr pgRED RED.CONFMIS 0 else resyncFail 1 d
    | none => d
  else d

/-- Have all parts of the state block of every table come (R520)? -/
def Dev.blocksCame (d : Dev) : Bool :=
  d.pairAxes.all fun (n : Fin 256) => (List.range 4).all fun i => d.red.parts.contains (4 * n.val + i)

/-- SNAPSHOT_COMPLETE: every captured block has arrived. The joining head enters REPLAY at the next CWD. -/
def snapshotComplete (d : Dev) : Dev :=
  if d.rd pgRED RED.RPH ≠ 3 then d
  else if d.joining then (if d.blocksCame then d.redMap fun r => { r with ready := true } else d)
  else if d.commanding && d.red.captured && d.red.bulk.isEmpty then pushDecision (.resync 4 0) (d.wr pgRED RED.RPH 4)
  else d

/-- REPLAY_CATCH_UP: the joining head has run every stored cycle and computes in step. -/
def replayCatchUp (d : Dev) : Dev :=
  if d.rd pgRED RED.RPH ≠ 4 then d
  else if d.commanding then pushDecision (.resync 5 0) ((d.wr pgRED RED.RPH 5).redMap fun r => { r with clean := 0 })
  else if d.joining && d.red.opened.isNone then (d.wr pgRED RED.RPH 5).redMap fun r => { r with clean := 0 }
  else d

/-- CHECK_COMPLETE (R520, R523), after 128 cycles in a row without a mismatch, which hold one slice round: D10 at the next CWD. -/
def checkComplete (d : Dev) : Dev :=
  if d.rd pgRED RED.RPH = 5 ∧ 128 ≤ d.red.clean ∧ (d.joining || d.role == roALONE) then d.redMap fun r => { r with d10 := true } else d

/-- RESYNC_TIMEOUT (R521): 10 s. -/
def resyncTimeout (d : Dev) : Dev :=
  if d.joining && decide (d.red.since + 160000000000 < d.st) then resyncFail 6 d else d

/-- D10: resynchronisation completes. -/
def resyncDone (d : Dev) : Dev :=
  let ms := min 65535 ((d.st - d.red.since) / 16000000)
  let d := (d.wr pgRED RED.RPH 0).redMap fun r => { r with d10 := false, bulkIn := [], ready := false, parts := [], same := none }
  if d.role = roSTANDBY then raise pgRED 4 ms (d.wr pgRED RED.RMS ms) else d

/-! ## Role decisions (R512 to R518) -/

/-- HINT in force (R518). -/
def Dev.hinted (d : Dev) : Bool := d.rd pgRED RED.HINT == 1 && decide (d.rd pgRED RED.HAGE < 64)

/-- The takeover condition of a standby, the peer loss of an ACTIVE head (R512). -/
def Dev.peerLost (d : Dev) : Bool := !d.red.commandPrev && !d.red.sinceNit
def Dev.peerIs (d : Dev) (l : List Nat) : Bool := d.red.heard && match d.red.role with
  | some x => l.contains x
  | none => false

/-- Rings that feed configured axes as a mask of those in SYNC. -/
def Dev.feedsInSync (d : Dev) : Bool := (List.range 4).all fun r => !d.ringFeeds r || d.rstate r == rsSYNC
def Dev.peerInSync (d : Dev) : Bool := (List.range 4).all fun r => !d.ringFeeds r || bitOf d.red.syncm r

/-- The start mandate (R514). -/
def Dev.mandateStart (d : Dev) : Bool :=
  (d.stage == 2 || d.ready) && d.feedsInSync && decide (8 ≤ d.red.more) && decide (64 ≤ d.red.noCmdr) &&
  (!(d.peerIs [roNONE] && decide (d.nodesN < 2 * d.red.reach)) || d.myst == 0)

/-- Rows D1 to D6 for this head: code, new role, whether a commanding role is taken. -/
def Dev.earlyRow (d : Dev) : Option (Nat × Nat × Bool) :=
  let role := d.role
  let r := d.reach
  let n := d.nodesN
  let gone := d.peerIs [roSILENT, roNONE]
  let late := if d.hinted then 4 else 3
  if role = roNONE ∧ d.mandateStart then some (1, roALONE, true)
  else if role = roNONE ∧ d.peerIs [roACTIVE, roALONE] then some (2, roSILENT, false)
  else if role = roSTANDBY ∧ n < 2 * r ∧ (d.peerLost || gone) then some (3, roALONE, true)
  else if role = roSTANDBY ∧ 2 * r ≤ n ∧ (d.peerLost || gone) then some (4, roSILENT, false)
  else if role = roACTIVE ∧ (d.peerLost || gone) ∧ n ≤ 2 * r then some (5, roALONE, false)
  else if d.commanding ∧ late ≤ d.red.less then some (6, roSILENT, false)
  else if role = roSTANDBY ∧ late ≤ d.red.peerLess ∧ n < 2 * r then some (6, roALONE, true)
  else none

/-- Rows D7 to D12. -/
def Dev.lateRow (d : Dev) : Option (Nat × Nat × Bool) :=
  let role := d.role
  let due := d.red.handover = some d.cyc
  let out := if d.hinted then 3 else 2
  if role = roACTIVE ∧ due then some (7, roSTANDBY, false)
  else if role = roSTANDBY ∧ due then some (7, roALONE, true)
  else if role = roACTIVE ∧ d.red.outRun.any (fun n => decide (out ≤ n)) ∧ d.peerIs [roSTANDBY] ∧ d.peerInSync then some (7, roSILENT, false)
  else if role = roSTANDBY ∧ d.red.peerOut.any (fun n => decide (out ≤ n)) ∧ d.feedsInSync then some (7, roALONE, true)
  else if role = roSTANDBY ∧ d.red.d8 then some (8, roSILENT, false)
  else if role = roACTIVE ∧ d.red.d9 then some (9, roSILENT, false)
  else if role = roSTANDBY ∧ d.red.d9 then some (9, roALONE, true)
  else if role = roSILENT ∧ d.red.d10 then some (10, roSTANDBY, false)
  else if role = roALONE ∧ d.red.d10 then some (10, roACTIVE, false)
  else if (role = roSILENT ∨ role = roNONE) ∧ d.red.mandate then some (11, roALONE, true)
  else if d.commanding ∧ d.red.silence then some (12, roSILENT, false)
  else none

/-- ROLE_DECISION at the CWD: the first row in code order. -/
def roleDecision (d : Dev) : Dev :=
  match d.earlyRow.orElse fun _ => d.lateRow with
  | none => d
  | some (code, new, takes) =>
    let d := decide' code new takes d
    if code = 10 then resyncDone d else d

/-- Cycles in a row in which a ring that feeds axes is not among those in SYNC (`sync`, a mask), ring by ring (D7). -/
def Dev.outRuns (d : Dev) (sync : Nat) (old : Vector Nat 4) : Vector Nat 4 :=
  Vector.ofFn fun (r : Fin 4) => if d.ringFeeds r && !bitOf sync r then old[r] + 1 else 0

/-- The rings in SYNC here, as a mask. -/
def Dev.syncMask (d : Dev) : Nat := ((List.range 4).map fun r => 2 ^ r * b2n (d.rstate r == rsSYNC)).foldl (· + ·) 0

/-- Runs of 2R > N, 2R < N and of lost rings up to this CWD. -/
def noteReach (d : Dev) : Dev :=
  let r := d.reach
  let n := d.nodesN
  d.redMap fun x => { x with
    more := if n < 2 * r then x.more + 1 else 0, less := if 2 * r < n then x.less + 1 else 0,
    outRun := d.outRuns d.syncMask x.outRun }

/-! ## Commands of the RED page (R519, R525) -/

/-- Does the ring contradict a request (R519)? -/
def Dev.contradicted (d : Dev) (code : Nat) : Bool :=
  if code = 4 then decide (d.red.noCmdr < 64) else decide (2 * d.rd pgRED RED.PREACH ≤ d.nodesN)

/-- The other conditions of HANDOVER and MANDATE. -/
def Dev.redOk (d : Dev) (code : Nat) : Bool :=
  if code = 4 then
    (d.role == roSILENT || d.role == roNONE) && d.stage != 0 && decide (d.nodesN < 2 * d.rd pgRED RED.REACH) &&
    !d.on pgSTG STG.HDUP
  else d.role == roACTIVE && d.on pgRED RED.INSTEP

/-- What they do. -/
def redApply (code : Nat) (d : Dev) : Dev :=
  if code = 4 then d.redMap fun r => { r with mandate := true }
  else
    let k := d.cyc + 2
    pushDecision (.handover k) (d.redMap fun r => { r with handover := some k })

/-- HANDOVER and MANDATE: rejected, held as a request, or applied. -/
def cmdRequest (code arg : Nat) : Dev → Dev :=
  takeCmd pgRED code arg (fun d => checks (d.redOk code) true) fun d =>
    if d.contradicted code then
      let d := ((d.wr pgRED RED.RCODE code).wr pgRED RED.RV 1).wr pgRED RED.RAGE 0
      raise pgRED 6 code (d.wr pgRED RED.DISAGREE 1)
    else redApply code d

def dropRequest (d : Dev) : Dev := d.setReg pgRED 0 RED.RCODE.off 0

/-- HELD_REQUEST_EVAL at the CWD. -/
def heldRequestEval (d : Dev) : Dev :=
  if !d.on pgRED RED.RV then d
  else
    let code := d.rd pgRED RED.RCODE
    if d.redOk code && !d.contradicted code then redApply code (dropRequest d) else d.inc pgRED RED.RAGE

/-- HELD_REQUEST_EXPIRE: after 256 cycles. -/
def heldRequestExpire (d : Dev) : Dev := if d.on pgRED RED.RV ∧ 256 ≤ d.rd pgRED RED.RAGE then dropRequest d else d

/-- RESYNC: inserted and in SYNC on every ring that feeds axes, and a commanding peer heard. -/
def Dev.mayJoin (d : Dev) : Bool :=
  d.role == roSILENT && d.stage != 0 && !d.on pgSTG STG.HDUP &&
  ((List.range 4).all fun r => !d.ringFeeds r || (d.inserted r && d.rstate r == rsSYNC)) &&
  (d.rd pgRED RED.PROLE == roACTIVE || d.rd pgRED RED.PROLE == roALONE)

def landRed (code arg : Nat) (d : Dev) : Dev :=
  match code with
  | 0x01 => cmdRequest code arg d
  | 0x02 =>
    takeCmd pgRED code arg
      (fun d => checks (d.role == roSTANDBY ||
        (d.commanding && d.activeAxes.all fun (n : Fin 256) => d.axState n == axMOORED)) true)
      (fun d => if d.role = roSTANDBY then d.redMap fun r => { r with d8 := true } else d.redMap fun r => { r with silence := true }) d
  | 0x03 =>
    takeCmd pgRED code arg (fun d => checks d.mayJoin true)
      (fun d => (d.wr pgRED RED.RPH 1).redMap fun r => { r with
        since := d.st, ready := false, bulkIn := [], items := [], istart := 0, same := none, parts := [], stored := [], opened := none }) d
  | 0x04 => cmdRequest code arg d
  | 0x05 => takeCmd pgRED code arg (fun _ => rOK) (fun d => (dropRequest d).wr pgRED RED.DISAGREE 0) d
  | 0x06 =>
    takeCmd pgRED code arg (fun _ => rOK) (fun d =>
      (((d.wr pgRED RED.JRETX 0).setReg pgRED 0 RED.DIGMIS.off 0).setReg pgRED 0 RED.REPAIRS.off 0).wr pgRED RED.RFAIL 0) d
  | _ => takeCmd pgRED code arg (fun _ => rCODE) id d

/-- MGMT_HINT_WRITE (R518). -/
def hintWrite (v : Nat) (d : Dev) : Dev := (d.wr pgRED RED.HINT v).wr pgRED RED.HAGE 0

end Sys2Proof.Machine
end

