-- ==== Sys2Proof/Machine/StateBlock.lean ====
section
/-! DEFINITION. The state of an axis table as the pair keeps, compares and sends it (R504, R508): what it holds, the 32 units it
has on the wire, and what the mirror buffers and histories keep of the last cycles.

The manual gives the size of the state block and what it holds, not its layout: `stateUnit` and `stateOf` are free
(notes/assumptions/41.md). -/
namespace Sys2Proof.Config

/-- Unit `i` of the state block of a table. -/
opaque stateUnit : Machine.TableState → Nat → BitVec 64

/-- The state that the units of a block give. -/
opaque stateOf : List (BitVec 64) → Machine.TableState

end Sys2Proof.Config

namespace Sys2Proof.Machine

/-! ## What a table keeps between cycles (R504) -/

/-- The ring compare units that a table owns (R401). -/
def Dev.unitsOf (d : Dev) (n : Nat) : List Nat := (List.range 16).filter fun r => d.rdS pgSGU (adopted r) SGU.RAX == n

/-- The status words of a table that its task, the generator and Season write and go by: page, window, offset, bits. What a host
request leaves on one head alone (DISAGREE) is none of them. -/
def Dev.statusWords (d : Dev) (n : Nat) : List (Nat × Nat × Nat × Nat) :=
  [(pgAxp n, 0, AXP.STATE.off, 0x00FF_EFFF), (pgAxp n, 0, 0x0A4, 0xFFFF_FFFF), (pgAxp n, 0, 0x0A8, 0xFFFF_FFFF),
    (pgAxp n, 0, AXP.DEV.off, 0xFFFF_FFFF), (pgAxp n, 0, AXP.STALEC.off, 0xFFFF_FFFF), (pgPRF, n, PRF.MRUN.off, 0xFFFF_FBFF),
    (pgPRF, n, PRF.DEFF.off, 0xFFFF_FFFF), (pgSEA, n, SEA.STAT_SSTATE.off, 0xFFFF_FFEF)] ++
  ([SEA.IIDX.off, SEA.TSUM.off, SEA.INJV.off, SEA.UPDC.off, SEA.SOFSLO.off, SEA.SOFSHI.off].map fun o => (pgSEA, n, o, 0xFFFF_FFFF)) ++
  (d.unitsOf n).flatMap fun r =>
    (pgSGU, r, SGU.ARMED.off, 0xFFFF_FFF7) ::
    ([SGU.RNUM.off, SGU.RVALLO.off, SGU.RVALHI.off].flatMap fun o => [(pgSGU, r, o, 0xFFFF_FFFF), (pgSGU, adopted r, o, 0xFFFF_FFFF)])

/-- The axis state without what a cycle brings anew: records and samples of the tick, the task in progress, what other tables
read. -/
def AxDyn.kept (x : AxDyn) : AxDyn :=
  { x with
    rcd := AxRec.zero, arrived := false, loc := AxRec.zero, latNow := none, latUsed := none, ready := false, readyTime := 0,
    cmd := none, wasMoored := false, began := 0, wasMuted := false, ex := Export.zero }

/-- The state `y` of a block with what the present cycle of `x` has brought. -/
def AxDyn.withKept (x y : AxDyn) : AxDyn :=
  { y with
    rcd := x.rcd, arrived := x.arrived, loc := x.loc, latNow := x.latNow, latUsed := x.latUsed, ready := x.ready,
    readyTime := x.readyTime, cmd := x.cmd, wasMoored := x.wasMoored, began := x.began, wasMuted := x.wasMuted, ex := x.ex }

/-- The state of a table. -/
def Dev.tableState (d : Dev) (n : Fin 256) : TableState :=
  { ax := (d.ax n).kept, sea := d.sea n, prof := d.prof n,
    grps := (List.finRange 8).filterMap fun g =>
      if (d.grp g).mem.contains n.val then some (g.val, { d.grp g with was := none }) else none,
    words := (d.statusWords n).map fun w =>
      (w.1, w.2.1, w.2.2.1, d.reg w.1 w.2.1 w.2.2.1 &&& BitVec.ofNat 32 w.2.2.2) }

/-- A state takes the place of that of a table: of each status word, the bits that belong to it. What the task of the table has
evaluated and not committed no longer holds. -/
def putTable (n : Fin 256) (s : TableState) (d : Dev) : Dev :=
  let d := (((dropAhead n d).mapAx n fun x => x.withKept s.ax).setSea n s.sea).setProf n s.prof
  let d := s.grps.foldl (fun (d : Dev) (g : Nat × Group) =>
    d.mapGrp (groupNo g.1) fun x => { g.2 with was := x.was }) d
  let d := (d.statusWords n).foldl (fun (d : Dev) (w : Nat × Nat × Nat × Nat) =>
    match s.words.find? fun x => x.1 == w.1 && x.2.1 == w.2.1 && x.2.2.1 == w.2.2.1 with
    | some x => d.takeBits w.1 w.2.1 w.2.2.1 (Nat.land w.2.2.2 (fieldBits w.1 w.2.2.1)) x.2.2.2
    | none => d) d
  showAxis n d

/-- The 32 units of a state. -/
def TableState.units (s : TableState) : List (BitVec 64) := (List.range 32).map fun i => Config.stateUnit s i

/-! ## Mirror buffers and histories (R28, R508) -/

/-- Does the head keep them: ACTIVE, STANDBY, ALONE, and while it joins, from BULK on? -/
def Dev.keepsPast (d : Dev) : Bool :=
  d.role == roACTIVE || d.role == roSTANDBY || d.role == roALONE || (d.joining && decide (2 ≤ d.rd pgRED RED.RPH))

/-- At the tick of cycle `k`, before anything of the cycle is done: what the commit of cycle k − 1 left. -/
def keepPast (k : Nat) (gpio : Word) (d : Dev) : Dev :=
  if d.keepsPast then d.redMap fun r => { r with past := ⟨k, gpio, d.regs, d.mot, d.mem⟩ :: r.past.take 255 } else d

/-- What was kept at the tick of cycle `k`. -/
def Dev.pastAt (d : Dev) (k : Nat) : Option Past := d.red.past.find? fun p => p.cycle == k

/-- The device as it stood at that tick, as far as tables go; events of what is computed on it again are posted nowhere. -/
def Dev.asAt (d : Dev) (p : Past) : Dev :=
  { d with regs := p.regs, mot := { p.mot with image := none }, mem := p.mem, evt := { d.evt with hold := some [] } }

/-- The state of a table as of commit `c`. -/
def Dev.commitOf (d : Dev) (c : Nat) (n : Fin 256) : Option TableState := (d.pastAt (c + 1)).map fun p => (d.asAt p).tableState n

/-- A commit that the mirror buffers hold: `c`, or the last one where `c` is older. -/
def Dev.heldCommit (d : Dev) (c : Nat) : Nat := if d.cyc ≤ c + 4 ∧ c < d.cyc then c else d.cyc - 1

/-- The state block of a table as of commit `c`; the present state where none is kept. -/
def Dev.blockAt (d : Dev) (c : Nat) (n : Fin 256) : List (BitVec 64) := ((d.commitOf c n).getD (d.tableState n)).units

/-- A state takes the place of that of a table in commit `c` of the mirror buffers. -/
def adoptCommit (c : Nat) (n : Fin 256) (s : TableState) (d : Dev) : Dev :=
  d.redMap fun r => { r with past := r.past.map fun p =>
    if p.cycle = c + 1 then
      let x := putTable n s (d.asAt p)
      { p with regs := x.regs, mot := x.mot }
    else p }

end Sys2Proof.Machine
end

