-- ==== Sys2Proof/Machine/HostWrite.lean ====
section
/-! DEFINITION. What a host write does to a page (R562 to R574): bus errors, the register a write reaches, alias views, what
follows a write, and the commands of the pages TIM, EVT, HIF, SPM, DMC and GLB. -/
namespace Sys2Proof.Machine

/-! ## Bus errors (R569) -/

/-- A bus error is recorded in HIF and raises BUSERR. In KEEPER the HIF page is off. -/
def busError (p : Path) (space adr : Nat) (wr : Bool) (cause : Nat) (d : Dev) : Dev :=
  if d.stage = 0 then d
  else
    let d := ((d.wr pgHIF HIF.OFS adr).wr pgHIF HIF.SPACE space).wr pgHIF HIF.WR (b2n wr)
    let d := d.wr pgHIF HIF.PATH (match p with | .pcie => 0 | .spi => 1)
    raise pgHIF 0 0 ((d.wr pgHIF HIF.CAUSE cause).inc pgHIF HIF.BECNT)

/-- Does a page answer in the present stage (R21, R424, R453, R527)? -/
def Dev.answers (d : Dev) (page : Nat) : Bool :=
  match clsOf page with
  | none => false
  | some c => (isKept page || d.stage != 0) && !d.absent page

/-! ## Windows -/

/-- The selector of the window an offset lies in, if it lies in one. -/
def windowFld (c : Cls) (off : Nat) : Option Fld :=
  match c with
  | .prf => if 0x080 ≤ off then some PRF.AXSEL else none
  | .sea => if 0x080 ≤ off ∧ off < 0x800 then some SEA.AXSEL else none
  | .tsu => if 0x058 ≤ off ∧ off < 0x070 then some TSU.TASK else if 0x074 ≤ off ∧ off < 0x08C then some TSU.FSEL_FLOW else none
  | .sgu => if 0x0A0 ≤ off then some SGU.RSEL else none
  | .cap => if off = 0x050 then some CAP.PROBE else none
  | _ => none

/-- The window selection an offset of a page stands for now; 0 outside windows. -/
def Dev.selOf (d : Dev) (page off : Nat) : Nat :=
  match clsOf page with
  | none => 0
  | some c => match windowFld c off with
    | none => 0
    | some f => d.rd page f

/-- The value last written to a register of a journalled page, landed or not. -/
def Dev.lastWritten (d : Dev) (page off : Nat) : Nat :=
  let waits := d.red.wait.filterMap fun (w : JWait) => match w.entry with
    | .write w => some w
    | _ => none
  match ((waits ++ d.host.held).filter fun (w : HostWrite) => w.page == page && w.off == off && w.view == 0).getLast? with
  | some w => w.value.toNat
  | none => (d.reg page 0 off).toNat

/-- The window selection that will stand when a write that arrives now lands. -/
def Dev.selAhead (d : Dev) (page off : Nat) : Nat :=
  match clsOf page with
  | none => 0
  | some c => match windowFld c off with
    | none => 0
    | some f => bitsOf (d.lastWritten page f.off) f.lsb f.width

/-! ## Which writes are refused -/

/-- The value a register takes by a write of `v` through a view (R567). -/
def viewed (r : RegRow) (view old v : Nat) : Nat :=
  let m := v &&& r.rw
  match view with
  | 0 => (old - (old &&& r.rw)) + m
  | 1 => old ||| m
  | 2 => old - (old &&& (v &&& (r.rw ||| r.rc)))
  | _ => old ^^^ m

/-- Is a probe used by a channel of a capture unit that is neither IDLE nor STOPPED (R482)? `edge` for edge probes. -/
def Dev.probeInUse (d : Dev) (edge : Bool) (n : Nat) : Bool :=
  (List.finRange 16).any fun (u : Fin 16) =>
    let st := d.rd (pgCapu u) CAPU.USTATE
    st != 0 && st != 4 && (List.range (min 64 (d.rd (pgCapu u) CAPU.NCH))).any fun c => d.chan u c == (n, edge)

/-- The sum of QMAX over the user flows with flow `q` at `v` (*Flows*). -/
def Dev.flowSum (d : Dev) (q v : Nat) : Nat :=
  ((List.range 40).map fun i => if i + 24 = q then v else d.rdS pgTSU (i + 24) TSU.QMAX).foldl (· + ·) 0

/-- An axis in READY, RUN, STOPPING or FAULT. -/
def Dev.axUp (d : Dev) (n : Nat) : Bool := decide (axREADY ≤ d.axState n)

/-- The cause for which the state of the unit refuses a register the value `v` (R206, R379, R389, R414, R479, R480, R482, R484,
R548, R585, R603, R609, R638); `old` is its value, `sel` its window selection. -/
def Dev.stateCause (d : Dev) (page sel off old v : Nat) : Option Nat :=
  let five := fun (b : Bool) => if b then some 5 else none
  match clsOf page with
  | some .axp =>
    let n := page - 0x100
    let b := 0x100 + 0x100 * d.bank n
    if d.axUp n ∧ b ≤ off ∧ off < b + 0x100 then some 5
    else if d.axUp n ∧ off = AXP.HDEC.off ∧ v = 0 then some 6
    else none
  | some .tsu =>
    if 0x058 ≤ off ∧ off ≤ 0x064 then five (decide (sel < 288))
    else if off = TSU.QMAX.off then
      five (decide (sel < 24) || d.stage != 1 || decide (1792 < d.flowSum sel (bitsOf v TSU.QMAX.lsb TSU.QMAX.width)))
    else none
  | some .fbu => if off = FBU.MODE.off ∨ off = FBU.NBITS.off then five (d.fbuInUse ⟨(page - 0x60) % 8, Nat.mod_lt _ (by decide)⟩) else none
  | some .sgc => if off = SGC.SEN.off then five (d.axState (d.rd page SGC.SAX) != axMOORED) else none
  | some .cap =>
    if off = CAP.KIND.off then five (d.probeInUse false sel)
    else if 0x100 ≤ off ∧ off < 0x200 then five (d.probeInUse true ((off - 0x100) / 4))
    else none
  | some .capu =>
    let u : Fin 16 := ⟨(page - 0x50) % 16, Nat.mod_lt _ (by decide)⟩
    let st := d.rd page CAPU.USTATE
    if off = CAPU.RCNT.off then (if rcntOk u v d then none else some 6)
    else if off = CAPU.HREL.off then (if hrelOk u v d then none else some 6)
    else five (st != 0 && st != 4)
  | some .saf =>
    five (!d.on pgSAF SAF.HOLD &&
      ((decide (SAF.SIEN.off ≤ off) && decide (off < SAF.SIEN.off + 16)) || off == SAF.SDEB.off ||
        (decide (SAF.STODLY.off ≤ off) && decide (off < SAF.STODLY.off + 16))))
  | some .cal => if CAL.GAIN0.off ≤ off then five (d.stage != 1) else none
  | some .dmc =>
    let e := (off - 0x040) / 0x20
    let busy := decide (0x040 ≤ off) && d.on page (DMC.EN.nth 0x20 e)
    match (off - 0x040) % 0x20 with
    | 0x00 => five (busy && decide (old / 2 % 16 ≠ v / 2 % 16))
    | 0x08 => five busy
    | 0x0C => five busy
    | _ => none
  | some .evt =>
    if off = EVT.LOGR.off then
      (if (v % 1024 + 1024 - old % 1024) % 1024 ≤ d.logUnread then none else some 6)
    else none
  | some .hif =>
    if off = HIF.RXR.off then (if v % 64 = 0 ∧ inSpan old (d.rd page HIF.RXW) v then none else some 6)
    else if off = HIF.TXW.off then
      (if v % 64 = 0 ∧ inSpan old (d.rd page HIF.TXR + mailSize) v then none else some 6)
    else none
  | some .cep =>
    if off = CEP.CWDATLO.off ∨ off = CEP.CWDATHI.off then
      five (!d.cwOpen ⟨(page - 0x20) % 18, Nat.mod_lt _ (by decide)⟩)
    else none
  | _ => none

/-- The cause for which a write is refused (*Bus error causes*), with `sel` the window selection it will meet. -/
def Dev.writeCause (d : Dev) (p : Path) (page sel view off v : Nat) : Option Nat :=
  match clsOf page with
  | none => some 1
  | some c =>
    if !d.answers page then some 1
    else if off % 4 ≠ 0 then some 2
    else match regRow c off with
      | none => some 1
      | some r =>
        let old := (d.reg page sel off).toNat
        let safOwned := page == pgSAF && p == .pcie && d.on pgSPM SPM.SAFOWN
        if view ≠ 0 ∧ (r.wo ≠ 0 ∨ r.w1p ≠ 0 ∨ (r.rw = 0 ∧ r.rc = 0)) then some 3
        else if (view = 1 ∨ view = 3) ∧ r.rc ≠ 0 then some 3
        else if view = 0 ∧ r.rw = 0 ∧ r.w1p = 0 ∧ r.wo = 0 then some 4
        else if safOwned then some 5
        else if r.rw ≠ 0 ∧ off ≠ HDR.PEVE.off ∧ d.on page HDR.LOCK then some 5
        else if page = pgSPM ∧ off = SPM.SAFOWN.off ∧ p = .pcie then some 5
        else if r.rw = 0 then none
        else d.stateCause page sel off old (viewed r view old v)

/-! ## The commands of TIM, EVT, HIF, SPM, DMC, GLB -/

/-- SETRATE is possible at a rate (R25, R34, R35, R38). -/
def Dev.rateFits (d : Dev) (rate : Nat) : Bool :=
  ((List.range 4).all fun r => trafficOk rate (d.slots r)) && d.assignOk rate (workingPairs d.conf)

/-- SETRATE (R52, R53): the switch comes at the second super-cycle boundary after acceptance. -/
def cmdSetrate (arg : Nat) : Dev → Dev :=
  takeCmd pgTIM 0x01 arg
    (fun d =>
      if !(d.stage == 1 && d.activeAxes.all fun (n : Fin 256) => d.axState n == axMOORED || d.axState n == axDISABLED) then rSTATE
      else if 3 < arg then rPARAM
      else if !d.rateFits arg then rSTATE
      else rOK)
    fun d =>
      ((d.wr pgTIM TIM.NRATE arg).wr pgTIM TIM.RPEND 1).timeMap fun t => { t with rateAt := some (d.st / 128000000 + 2) }

def landTim (code arg : Nat) (d : Dev) : Dev :=
  match code with
  | 0x01 => cmdSetrate arg d
  | 0x02 =>
    takeCmd pgTIM code arg (fun _ => rOK) (fun d => (d.setReg pgTIM 0 TIM.MISS.off 0).setReg pgTIM 0 TIM.ABORT.off 0) d
  | _ => takeCmd pgTIM code arg (fun _ => rCODE) id d

/-- Unread entries of the log, in LOGSTAT. -/
def showLog (n : Nat) (d : Dev) : Dev := (d.wr pgEVT EVT.NENT n).wr pgEVT EVT.FULL (b2n (n == 1024))

def landEvt (code arg : Nat) (d : Dev) : Dev :=
  match code with
  | 0x01 => takeCmd pgEVT code arg (fun _ => rOK) (fun d => d.wr pgEVT EVT.LOST 0) d
  | 0x02 =>
    takeCmd pgEVT code arg (fun _ => rOK) (fun d =>
      showLog 0 ({ d with evt := { d.evt with lseq := 0 } }.wr pgEVT EVT.LOGR (d.rd pgEVT EVT.LOGW))) d
  | _ => takeCmd pgEVT code arg (fun _ => rCODE) id d

def landHif (code arg : Nat) (d : Dev) : Dev :=
  match code with
  | 0x01 =>
    takeCmd pgHIF code arg (fun _ => rOK) (fun d =>
      ((d.wr pgHIF HIF.BECNT 0).wr pgHIF HIF.HCNT 0).setReg pgHIF 0 HIF.RXDROP.off 0) d
  | 0x02 =>
    takeCmd pgHIF code arg (fun d => checks (!d.on pgHIF HIF.RXEN && !d.on pgHIF HIF.TXEN) true) (fun d =>
      let d := { d with host := { d.host with txSent := 0 } }
      (d.wr pgHIF HIF.RXR (d.rd pgHIF HIF.RXW)).wr pgHIF HIF.TXW (d.rd pgHIF HIF.TXR)) d
  | _ => takeCmd pgHIF code arg (fun _ => rCODE) id d

def landSpm (code arg : Nat) (d : Dev) : Dev :=
  match code with
  | 0x01 => takeCmd pgSPM code arg (fun _ => rOK) (fun d => d.setReg pgSPM 0 SPM.CRCERR.off 0) d
  | _ => takeCmd pgSPM code arg (fun _ => rCODE) id d

def landDmc (code arg : Nat) (d : Dev) : Dev :=
  match code with
  | 0x01 =>
    let f := DMC.HALT.nth 0x20 (arg % 4)
    takeCmd pgDMC code arg (fun d => checks (d.on pgDMC f) true) (fun d => d.wr pgDMC f 0) d
  | 0x02 =>
    takeCmd pgDMC code arg (fun _ => rOK) (fun d => d.each (List.range 4) fun e d => d.wr pgDMC (DMC.DONE.nth 0x20 e) 0) d
  | _ => takeCmd pgDMC code arg (fun _ => rCODE) id d

def landGlb (code arg : Nat) (d : Dev) : Dev :=
  match code with
  | 0x01 =>
    takeCmd pgGLB code arg (fun _ => rOK) (fun d =>
      ((d.wr pgGLB GLB.PCNT 0).setReg pgGLB 0 GLB.DECC_CORR.off 0).setReg pgGLB 0 GLB.SECC_CORR.off 0) d
  | _ => takeCmd pgGLB code arg (fun _ => rCODE) id d

def landCapu (u : Fin 16) (code arg : Nat) (d : Dev) : Dev :=
  match code with
  | 0x01 => cmdArm u arg d
  | 0x02 => cmdCapuStop u arg d
  | 0x03 => cmdForce u arg d
  | 0x04 => cmdCapuReset u arg d
  | 0x05 => cmdCapuClrcnt u arg d
  | _ => takeCmd (pgCapu u) code arg (fun _ => rCODE) id d

def landCap (code arg : Nat) (d : Dev) : Dev :=
  match code with
  | 0x01 => cmdCapClrcnt arg d
  | _ => takeCmd pgCAP code arg (fun _ => rCODE) id d

/-- A command reaches its page (R570). Those of AXP, PRF, PGRP, SEA and TSU are evaluated in cycle k + 2. -/
def landCmd (page code arg : Nat) (d : Dev) : Dev :=
  let i (m : Nat) (h : 0 < m) (b : Nat) : Fin m := ⟨(page - b) % m, Nat.mod_lt _ h⟩
  match clsOf page with
  | none => d
  | some .glb => landGlb code arg d
  | some .stg => landStg code arg d
  | some .tim => landTim code arg d
  | some .evt => landEvt code arg d
  | some .hif => landHif code arg d
  | some .spm => landSpm code arg d
  | some .cal => landCal code arg d
  | some .otp => landOtp code arg d
  | some .saf => landSaf code arg d
  | some .red => landRed code arg d
  | some .tsu => noteCmd page code arg noDesc d
  | some .dmc => landDmc code arg d
  | some .ring => landRing (i 4 (by decide) 0x10) code arg d
  | some .sys => landSys code arg d
  | some .cep => landCep (i 18 (by decide) 0x20) code arg d
  | some .mfe => landMfe code arg d
  | some .mfc => landMfc (i 4 (by decide) 0x41) code arg d
  | some .cap => landCap code arg d
  | some .capu => landCapu (i 16 (by decide) 0x50) code arg d
  | some .fbu => landFbu (i 8 (by decide) 0x60) code arg d
  | some .sgu => landSgu code arg d
  | some .sgc => landSgc (i 16 (by decide) 0x70) code arg d
  | some .prf => noteCmd page code arg (d.moveDesc (arg % 256)) d
  | some .sea => noteCmd page code arg noDesc d
  | some .pgrp => noteCmd page code arg noDesc d
  | some .axp => landAxpCmd (i 256 (by decide) 0x100) code arg d

/-! ## What a landed register write brings about -/

/-- PIXCTL (R56, R57). -/
def pixAcq (d : Dev) : Dev :=
  if d.on pgTIM TIM.NEW then
    let h := d.rd pgTIM TIM.PIXI_HOST
    ((d.wr pgTIM TIM.PIXI_HOST (d.rd pgTIM TIM.NEWEST)).wr pgTIM TIM.NEWEST h).wr pgTIM TIM.NEW 0
  else d
def pixPub (d : Dev) : Dev :=
  let h := d.rd pgTIM TIM.PIXO_HOST
  ((d.wr pgTIM TIM.PIXO_HOST (d.rd pgTIM TIM.PEND)).wr pgTIM TIM.PEND h).wr pgTIM TIM.FRESH 1

/-- Header registers: EN acts on MFC pages only, and reads 1 elsewhere. -/
def headerWritten (page : Nat) (d : Dev) : Dev :=
  match clsOf page with
  | some .mfc => mfcEnableChanged ⟨(page - 0x41) % 4, Nat.mod_lt _ (by decide)⟩ d
  | _ => d.wr page HDR.EN 1

/-- GPDIR or GPOUT is written: the pins that are outputs stand at their levels (R409). -/
def gpioWritten (d : Dev) : Dev :=
  (List.range 32).foldl (fun (d : Dev) (n : Nat) =>
    if bitOf (d.reg pgSGU 0 SGU.GPDIR.off).toNat n then pinEdge (0x60 + n) (bitOf (d.reg pgSGU 0 SGU.GPOUT.off).toNat n) d.st d else d) d

/-- The register at `off` of a page has the value `v` by a write that landed; `old` was its value. -/
def written (page sel off old v : Nat) (d : Dev) : Dev :=
  let w := BitVec.ofNat 32 v
  match clsOf page with
  | some .stg =>
    if off ≠ STG.WDEN.off then d
    else
      let d := lockWatchdog (if d.keep.wdLock then d.wr page STG.WDEN 1 else d)
      if !bitOf old STG.WDEN.lsb && d.on page STG.WDEN then restartWatchdog d else d
  | some .evt =>
    if off = EVT.LOGR.off then showLog (d.logUnread - (v % 1024 + 1024 - old % 1024) % 1024) d else d
  | some .hif =>
    if off = HIF.MBCH.off then d.wr page ⟨off, 0, 1⟩ 0
    else if 0x800 ≤ off ∧ off < 0xA00 ∧ off % 16 = 12 then
      let v : Fin 32 := ⟨(off - 0x800) / 16 % 32, Nat.mod_lt _ (by decide)⟩
      if d.evt.msgPending.get v then msixRequest v d else d
    else d
  | some .spm => if off = SPM.SAFOWN.off ∧ bitOf old 0 then d.wr page SPM.SAFOWN 1 else d
  | some .cal => if CAL.GAIN0.off ≤ off then calWritten d else d
  | some .saf => (List.finRange 4).foldl (fun (d : Dev) (n : Fin 4) => clearDisc n d) (showSafe d)
  | some .red => if off = RED.HINT.off then hintWrite (v % 4) d else d
  | some .tsu => if 0x058 ≤ off ∧ off ≤ 0x064 then tsuNoteWrite ⟨sel, off, d.reg page sel off, d.cyc + 2⟩ d else d
  | some .cap => if 0x100 ≤ off then edgeSrcWritten ((off - 0x100) / 4) d else d
  | some .mfe => if off = MFE.LFNOM.off then lcfgWritten d else d
  | some .fbu =>
    let c : Fin 8 := ⟨(page - 0x60) % 8, Nat.mod_lt _ (by decide)⟩
    if off = FBU.MODE.off then fbuConfigured c old v d
    else if off = FBU.SLMIN.off ∨ off = FBU.SLMAX.off then showLimit c d
    else if off = FBU.CVAL.off then cvalWritten c 0 d
    else if off = FBU.CVAL.off + 0x20 then cvalWritten c 1 d
    else if off = FBU.CINV.off then cmpConfigured c 0 d
    else if off = FBU.CINV.off + 0x20 then cmpConfigured c 1 d
    else d
  | some .sgu =>
    if 0x0A0 ≤ off then noteWrite (d.rdS page sel SGU.RAX) page sel off w d
    else if off = SGU.RSEL.off then d.redMap fun r => { r with rsel := v % 16 }
    else if off = SGU.GPDIR.off ∨ off = SGU.GPOUT.off then gpioWritten d
    else d
  | some .sgc =>
    if off = SGC.SPINV.off then pinEdge (0x50 + (page - 0x70)) (d.on page SGC.SPINV) d.st d else d
  | some .prf => if profLiveOffs.contains off then noteWrite sel page sel off w d else d
  | some .sea => if 0x098 ≤ off ∧ off ≤ 0x0A4 then noteWrite sel page sel off w d
    else
      let n := axisNo sel
      showSeaPchg n (if seaStructOffs.contains off then d.mapSea n fun s => { s with chg := true } else d)
  | some .pgrp => if groupLiveOffs.contains off then noteWrite 0 page 0 off w d else d
  | some .axp =>
    let n := axisNo (page - 0x100)
    let d := if liveOffs.contains off then noteWrite n page 0 off w d else d
    showPchg n (d.mapAx n fun x => { x with
      chgMoor := x.chgMoor || mooringOffs.contains off, chgStart := x.chgStart || startOffs.contains off })
  | _ => d

/-- The value that a word of CWDAT gives the 64-bit word at CWSEL (R347). -/
def cwHalf (p : Fin 18) (hi : Bool) (v : Nat) (d : Dev) : Dev :=
  let old := d.cwRead p
  cwWrite p (if hi then old % 2 ^ 32 + v * 2 ^ 32 else old - old % 2 ^ 32 + v) d

/-- What a write to CWDATLO or CWDATHI leaves there: through a SET, CLR or TOG view, from what the word reads as (R567). -/
def Dev.cwViewed (d : Dev) (p : Fin 18) (view off v : Nat) : Nat :=
  let old := if off = CEP.CWDATHI.off then d.cwRead p / 2 ^ 32 else d.cwRead p % 2 ^ 32
  match regRow .cep off with
  | some r => viewed r view old v
  | none => v

/-- A write recomputes the parity of its register (R575). -/
def restoreParity (r : RegRef) (d : Dev) : Dev :=
  { d with host := { d.host with reported := d.host.reported.filter fun x => x != r } }

/-- One register of a landed write takes its value. -/
def putReg (page sel view off v : Nat) (d : Dev) : Dev :=
  match (clsOf page).bind fun c => regRow c off with
  | none => d
  | some r =>
    if r.wo ≠ 0 ∨ r.w1p ≠ 0 then d
    else restoreParity ⟨page, sel, off⟩
      (d.setReg page sel off (BitVec.ofNat 32 (viewed r view (d.reg page sel off).toNat v)))

/-- The words a write carries, by offset. -/
def HostWrite.words (w : HostWrite) : List (Nat × Nat) :=
  (w.off, w.value.toNat) :: match w.high with
    | some h => [(w.off + 4, h.toNat)]
    | none => []

/-- Does the state of the unit refuse the write where it lands? -/
def Dev.refusedNow (d : Dev) (w : HostWrite) : Bool :=
  w.words.any fun x =>
    let sel := d.selOf w.page x.1
    match (clsOf w.page).bind fun c => regRow c x.1 with
    | none => true
    | some r =>
      let old := (d.reg w.page sel x.1).toNat
      r.rw != 0 && (d.stateCause w.page sel x.1 old (viewed r w.view old x.2)).isSome

/-- A host write reaches its page: a command, a kick, a pulse of PIXCTL, the window on a pair, or a register (both words of a
64-bit pair at once, R565) with what follows it. -/
def landWrite (w : HostWrite) (d : Dev) : Dev :=
  let v := w.value.toNat
  if w.off = HDR.PCMD_CODE.off then landCmd w.page (v % 2 ^ 8) (v / 2 ^ 16) d
  else if w.page = pgTIM ∧ w.off = TIM.ACQ.off then
    let d := if bitOf v 0 then pixAcq d else d
    if bitOf v 1 then pixPub d else d
  else if d.refusedNow w then d
  else if clsOf w.page = some .cep ∧ CEP.CWDATLO.off ≤ w.off then
    let p : Fin 18 := ⟨(w.page - 0x20) % 18, Nat.mod_lt _ (by decide)⟩
    w.words.foldl (fun (d : Dev) (x : Nat × Nat) =>
      cwHalf p (x.1 == CEP.CWDATHI.off) (d.cwViewed p w.view x.1 x.2) d) d
  else
    let before := w.words.map fun x => (x.1, d.selOf w.page x.1, (d.reg w.page (d.selOf w.page x.1) x.1).toNat)
    let d := w.words.foldl (fun (d : Dev) (x : Nat × Nat) => putReg w.page (d.selOf w.page x.1) w.view x.1 x.2 d) d
    if w.off = HDR.EN.off then headerWritten w.page d
    else if w.off < 0x40 then d
    else
      before.foldl (fun (d : Dev) (x : Nat × Nat × Nat) =>
        written w.page x.2.1 x.1 x.2.2 (d.reg w.page x.2.1 x.1).toNat d) d

end Sys2Proof.Machine
end

