-- ==== Sys2Proof/Machine/Program.lean ====
section
/-! DEFINITION. PROGRAM: the sections of an image come into force (R530, R536, R547). -/
namespace Sys2Proof.Machine

/-- A PAGES entry gives the RW fields of its register; no other bit changes (R6, R7; notes/assumptions/101.md). What follows in
the unit is as after a write of the host; the task table, the calibration set and what axis tasks use come into force of their
own below. One for a page of an absent unit has no effect (R21). -/
def loadWrite (r : RegRef) (v : Word) (d : Dev) : Dev :=
  if d.absent r.page then d
  else
    let old := (d.reg r.page r.sel r.off).toNat
    let d := d.takeBits r.page r.sel r.off (rwBits r.page r.off) v
    if r.off = HDR.EN.off then headerWritten r.page d
    else if r.off < 0x40 ∨ r.page = pgTSU ∨ r.page = pgCAL ∨ r.page = pgPRF ∨ r.page = pgSEA ∨ 0x100 ≤ r.page ∨
      (r.page = pgSGU ∧ 0x0A0 ≤ r.off) then d
    else written r.page r.sel r.off old (d.reg r.page r.sel r.off).toNat d

/-- A word of an AXIS page image: the RW fields, and STA, RING and AX of ACFG, which come from the image (R227). -/
def loadAxisWord (n : AxisId) (off : Nat) (v : Word) (d : Dev) : Dev :=
  d.takeBits (pgAxp n) 0 off (rwBits (pgAxp n) off + if off = 0x040 then 0x03FF_0000 else 0) v

def loadPages (c : ImageCfg) (d : Dev) : Dev :=
  let d := c.axes.foldl (fun (d : Dev) (a : AxisId × List (BitVec 12 × Word)) =>
    a.2.foldl (fun (d : Dev) (w : BitVec 12 × Word) => loadAxisWord a.1 w.1.toNat w.2 d) d) d
  let d := c.pages.foldl (fun (d : Dev) (w : RegRef × Word) => loadWrite w.1 w.2 d) d
  c.pages.foldl (fun (d : Dev) (w : RegRef × Word) =>
    if w.1.page = pgTSU ∧ 288 ≤ w.1.sel ∧ w.1.sel < 1024 then tsuAdopt w.1.sel d
    else if w.1.page = pgSGU then d.copyReg pgSGU w.1.sel (adopted w.1.sel) w.1.off
    else d) d

/-- PIMG and LOCAL: process-image bindings and step channels. -/
def loadBindings (c : ImageCfg) (d : Dev) : Dev :=
  let d := c.mimg.foldl (fun (d : Dev) (x : CoreId × Word) => d.putFields (pgMfc x.1) MFC.IOFS.off x.2) d
  let d := d.putFields pgSGU SGU.IOFS.off c.gpimg
  let d := c.limg.foldl (fun (d : Dev) (x : FbuId × Word) => d.putFields (pgFbu x.1) FBU.BADR.off x.2) d
  let d := c.steps.foldl (fun (d : Dev) (x : StepId × AxisId) => (d.wr (pgSgc x.1) SGC.SEN 1).wr (pgSgc x.1) SGC.SAX x.2.val) d
  d.wr pgTIM TIM.OSIZE c.osize.toNat

/-- CLUSTER: head pairing, NCFG, nominal hop delay of the system link (R145) and route table. -/
def loadCluster (c : ImageCfg) (d : Dev) : Dev :=
  let d := (d.wr pgRED RED.PAIRED (b2n c.paired)).wr pgRED RED.NCFG c.ncfg.toNat
  let d := { d with time := { d.time with hop := c.sysHop } }
  c.routes.foldl (fun (d : Dev) (x : Byte × Word) => d.setReg pgSYS 0 (SYS.PRIM.off + 4 * x.1.toNat) (x.2 &&& 0xF#32)) d

/-- PROGRAM_COMPLETE: every section in force, READY. -/
def programComplete (d : Dev) : Dev :=
  match d.load.cfg with
  | none => d
  | some c =>
    if d.stage = 1 ∧ d.lstep = 5 ∧ d.load.tested then
      let d := loadPages c (loadCluster c (putRate d.imgRate (dropAxes c d)))
      let d := c.rings.foldl (fun (d : Dev) (r : ImageRing) => loadRing r d) d
      let d := loadBindings c (d.setMemBytes dramCam (c.cam.take 0x100_0000))
      let d := d.wr pgSYS SYS.SIDX (d.imgN 17 1)
      let d := c.axes.foldl (fun (d : Dev) (a : AxisId × List (BitVec 12 × Word)) => programAxis a.1 d) d
      let d := notePairs (loadPairs c d)
      let d := if bitOf d.imgFlags 1 then
          restartWatchdog (lockWatchdog ((d.wr pgSTG STG.WDPER (d.imgN 16 1)).wr pgSTG STG.WDEN 1))
        else d
      let d := ((d.wr pgSTG STG.VERSION (d.imgN 12 1)).wr pgSTG STG.SRCUSED d.load.source).wr pgSTG STG.IMGCRC (d.imgN 20 4)
      let d := raise pgSTG 1 d.load.source (setLstep 6 (loadCal c d))
      startValidation (readyTimes d)
    else d
where
  /-- TLOG: the time since PORST_N release is not ST, which starts at entry to LANTERN (notes/assumptions/9.md). -/
  readyTimes (d : Dev) : Dev := (d.wr pgSTG STG.LTIME (d.openBits 16)).openUsed

end Sys2Proof.Machine
end

