-- ==== Sys2Proof/Machine/Journal.lean ====
section
/-! DEFINITION. The journal of host writes and decisions (R494 to R500): which writes it carries, the bytes of its entries, how a
write waits for it, what an entry brings about where it lands, and the outcomes of the cycle. -/
namespace Sys2Proof.Machine

/-! ## Bytes of an entry (*Journal entries*) -/

/-- The entry header: type, length in 4-byte words, ARG; then the content. -/
def jBytes (ty arg : Nat) (content : List Byte) : List Byte :=
  [BitVec.ofNat 8 ty, BitVec.ofNat 8 (content.length / 4 + 1)] ++ bytesLE 2 arg ++ content

/-- Content padded to words. -/
def padWords (l : List Byte) : List Byte := l ++ List.replicate ((4 - l.length % 4) % 4) 0

/-- An entry as bytes. The flag of VERDICT stands in bit 8 of ARG (notes/assumptions/40.md). -/
def JEntry.bytes : JEntry → List Byte
  | .write w =>
    match w.high with
    | none => jBytes 0x01 w.page (bytesLE 4 (w.off + w.view * 2 ^ 12) ++ bytesLE 4 w.value.toNat)
    | some h => jBytes 0x02 w.page (bytesLE 4 w.off ++ bytesLE 4 w.value.toNat ++ bytesLE 4 h.toNat)
  | .outcome c l =>
    jBytes 0x03 0 (padWords (bytesLE 4 c ++ l.flatMap fun x => [BitVec.ofNat 8 x.1, BitVec.ofNat 8 x.2]))
  | .plate g c => jBytes 0x04 g (bytesLE 4 c)
  | .pub => jBytes 0x05 0 []
  | .handover c => jBytes 0x06 0 (bytesLE 4 c)
  | .mismatch n c => jBytes 0x07 n (bytesLE 4 c)
  | .verdict n c eq => jBytes 0x08 (n + 256 * b2n eq) (bytesLE 4 c)
  | .resync ph crc => jBytes 0x09 0 (if ph = 1 then bytesLE 4 crc.toNat else bytesLE 4 ph)
  | .repair n c => jBytes 0x0A n (bytesLE 4 c)

/-- Pairs of table and code; code 0 is padding. -/
def outcomePairs : List Byte → List (Nat × Nat)
  | a :: b :: l => if b = 0 then outcomePairs l else (a.toNat, b.toNat) :: outcomePairs l
  | _ => []

/-- The entry of a type with an argument and its content. -/
def jEntryOf (ty arg : Nat) (c : List Byte) : Option JEntry :=
  let w := fun (i : Nat) => numLE ((c.drop (4 * i)).take 4)
  match ty with
  | 0x01 => some (.write ⟨arg, w 0 / 2 ^ 12 % 4, w 0 % 2 ^ 12, BitVec.ofNat 32 (w 1), none⟩)
  | 0x02 => some (.write ⟨arg, 0, w 0 % 2 ^ 12, BitVec.ofNat 32 (w 1), some (BitVec.ofNat 32 (w 2))⟩)
  | 0x03 => some (.outcome (w 0) (outcomePairs (c.drop 4)))
  | 0x04 => some (.plate arg (w 0))
  | 0x05 => some .pub
  | 0x06 => some (.handover (w 0))
  | 0x07 => some (.mismatch arg (w 0))
  | 0x08 => some (.verdict (arg % 256) (w 0) (bitOf arg 8))
  | 0x09 => some (if 2 ≤ w 0 ∧ w 0 ≤ 5 then .resync (w 0) 0 else .resync 1 (BitVec.ofNat 32 (w 0)))
  | 0x0A => some (.repair arg (w 0))
  | _ => none

/-- The entries of a piece of journal, each with the byte offset it starts at. -/
def jParse : Nat → Nat → List Byte → List (Nat × JEntry)
  | 0, _, _ => []
  | fuel + 1, o, l =>
    match l with
    | ty :: n :: a0 :: a1 :: rest =>
      let len := 4 * n.toNat
      if len < 4 then []
      else
        let tail := jParse fuel (o + len) (l.drop len)
        match jEntryOf ty.toNat (a0.toNat + 256 * a1.toNat) (rest.take (len - 4)) with
        | some e => (o, e) :: tail
        | none => tail
    | _ => []

/-! ## What the journal carries (R494, R571, R573) -/

/-- Is the write one to a journalled page? The SGU page in its ring compare window and commands, TIM in PUB, SAF in RELEASE. -/
def HostWrite.journalled (w : HostWrite) : Bool :=
  match clsOf w.page with
  | some .axp | some .prf | some .pgrp | some .sea | some .tsu => true
  | some .sgu => decide (SGU.RSEL.off ≤ w.off) || w.off == HDR.PCMD_CODE.off
  | some .saf => w.off == HDR.PCMD_CODE.off && w.value.toNat % 2 ^ 8 == 0x02
  | _ => false

/-- DISAGREE of the page a write is meant for (R61, R207, R252, R298, R377, R401, R414). -/
def disagree (w : HostWrite) (d : Dev) : Dev :=
  match clsOf w.page with
  | some .axp => d.wr w.page AXP.DISAGREE 1
  | some .prf => d.wrS pgPRF (d.rd pgPRF PRF.AXSEL) PRF.DISAGREE 1
  | some .pgrp => d.wr w.page PGRP.DISAGREE 1
  | some .sea => d.wrS pgSEA (d.rd pgSEA SEA.AXSEL) SEA.STAT_DISAGREE 1
  | some .tsu => d.wr pgTSU TSU.DISAGREE 1
  | some .sgu => d.wrS pgSGU (d.rd pgSGU SGU.RSEL) SGU.DISAGREE 1
  | some .saf => d.wr pgSAF SAF.DISAGREE 1
  | some .tim => d.wr pgTIM TIM.DISAGREE 1
  | _ => d

/-- A write that a STANDBY head holds as a request: DISAGREE, and PCST for a command (R573); nothing else. -/
def requestOnly (w : HostWrite) (d : Dev) : Dev :=
  let d := disagree w d
  if w.off = HDR.PCMD_CODE.off then
    if d.on w.page HDR.BUSY then d.wr w.page HDR.LOST 1
    else recordCmd w.page (w.value.toNat % 2 ^ 8) (w.value.toNat / 2 ^ 16) rSTATE false d
  else d

/-- How a write was taken: done, or not taken because 64 writes are held (R600). -/
inductive Taken where
  | done
  | retry
deriving DecidableEq, Repr

/-- Writes held while the journal queue is full (R496, R600). -/
def holdWrite (w : HostWrite) (d : Dev) : Taken × Dev :=
  if 64 ≤ d.host.held.length then (.retry, d)
  else
    let d := { d with host := { d.host with held := d.host.held ++ [w] } }
    (.done, if d.host.held.length = 64 then raise pgHIF 1 1 (d.inc pgHIF HIF.HCNT) else d)

/-- A write to SGU.RSEL, which selects what the window shows and lies outside it (R401). -/
def HostWrite.selectsCompare (w : HostWrite) : Bool := w.page == pgSGU && w.off == SGU.RSEL.off

/-- A write on its way to its page (R495, R496, R573): held as a request on a STANDBY, given to the journal while it runs, landing
on arrival otherwise. A STANDBY holds no write to RSEL: it selects what its own host reads (notes/assumptions/133.md). -/
def submit (w : HostWrite) (d : Dev) : Taken × Dev :=
  if !w.journalled then (.done, landWrite w d)
  else if d.role = roSTANDBY then
    (.done, if w.selectsCompare then (landWrite w d).redMap (fun r => { r with rsel := d.red.rsel }) else requestOnly w d)
  else if d.journalRuns then
    if d.host.held = [] ∧ d.red.wait.length < 1024 then (.done, pushEntry (.write w) d) else holdWrite w d
  else (.done, landWrite w d)

/-- Space in the queue: held writes enter it in arrival order. -/
def admitHeld : Nat → Dev → Dev
  | 0, d => d
  | fuel + 1, d =>
    match d.host.held with
    | [] => d
    | w :: rest =>
      if d.red.wait.length < 1024 then
        admitHeld fuel (pushEntry (if w.page = pgTIM then .pub else .write w) { d with host := { d.host with held := rest } })
      else d

/-- When the journal stops with the role, writes that wait in it land nowhere; a head that becomes SILENT or STANDBY drops them.
-/
def dropWaiting (d : Dev) : Dev := { d with host := { d.host with held := [] } }

/-! ## Marked blocks (R497, R498) -/

/-- ODIRTY and CDIRTY. -/
def showDirty (d : Dev) : Dev :=
  let n := (d.red.dirty.filter fun a => decide (sramBase ≤ a)).length
  (d.wr pgRED RED.ODIRTY (min 0x3FFF n)).wr pgRED RED.CDIRTY (min 0x3FFFF (d.red.dirty.length - n))

/-- Insert a block in ascending order. -/
def insertBlock (a : Nat) : List Nat → List Nat
  | [] => [a]
  | b :: l => if a < b then a :: b :: l else if a = b then b :: l else b :: insertBlock a l

/-- The 64-byte blocks of `len` bytes at `a` are marked while the journal runs. -/
def markBlocks (a len : Nat) (d : Dev) : Dev :=
  if !d.journalRuns ∨ len = 0 then d
  else
    let l := (List.range ((a + len - 1) / 64 - a / 64 + 1)).map fun i => (a / 64 + i) * 64
    showDirty (d.redMap fun r =>
      { r with dirty := l.foldl (fun acc b => insertBlock b acc) r.dirty })

/-- Does this head discard host writes to the output area and to the cam and path region? -/
def Dev.discardsData (d : Dev) : Bool := d.role == roSTANDBY || d.role == roSILENT

/-- A discarded data write. -/
def noteDiscard (d : Dev) : Dev := raise pgRED 6 0 (d.wr pgRED RED.DISAGREE 1)

/-! ## Outcomes (R41 to R47, R500) -/

/-- The outcome `code` of the task of a table in a cycle takes effect: 1 sent with HOLD, 2 aborted, 3 moored for overrun (R41,
R43, R44, R47). It stands for the count of misses too, and the observer takes u_ab = 0 for that cycle (R199). -/
def applyOutcome (cycle n code : Nat) (d : Dev) : Dev :=
  let a := axisNo n
  if !d.configured n then d
  else match code with
    | 1 => ((d.mapAx a fun x => { x with holdAt := some cycle }).wr (pgAxp n) AXP.MISSN 1).inc (pgAxp n) AXP.HOLDS
    | 2 => moorFault a 0x02 d
    | 3 => moorFault a 0x01 (d.wr (pgAxp n) AXP.MISSN 2)
    | _ => d

/-- The standby notes an outcome of its own, to be kept when it takes the commanding role without having received the entry; the
journal of the next cycle, once received, stands in its place. -/
def noteOwnOutcome (cycle n code : Nat) (d : Dev) : Dev :=
  d.redMap fun r => { r with outcomes := r.outcomes ++ [(cycle, n, code)] }

/-- The full cycle index whose low 32 bits are `c`, near the present one. -/
def Dev.fullCycle (d : Dev) (c : Nat) : Nat := ((d.cyc : Int) + sxt 32 (toBits 32 ((c : Int) - (d.cyc : Int)))).toNat

/-- A received OUTCOME entry stands in place of the own outcomes of its cycle. -/
def takeOutcome (cycle : Nat) (l : List (Nat × Nat)) (d : Dev) : Dev :=
  let d := d.redMap fun r => { r with outcomes := r.outcomes.filter fun x => x.1 % 2 ^ 32 != cycle }
  l.foldl (fun (d : Dev) (x : Nat × Nat) => applyOutcome (d.fullCycle cycle) x.1 x.2 d) d

/-- Own outcomes of the cycles whose entries have not come take effect on a standby that has taken the commanding role (R500). -/
def keepOwnOutcomes (l : List (Nat × Nat × Nat)) (d : Dev) : Dev :=
  l.foldl (fun (d : Dev) (x : Nat × Nat × Nat) => applyOutcome x.1 x.2.1 x.2.2 d) d

/-! ## Where an entry lands -/

/-- More than 4 repairs in 128 cycles (R510). -/
def Dev.manyRepairs (d : Dev) : Bool := decide (4 < (d.red.repairLog.filter fun c => decide (d.cyc < c + 128)).length)

/-- A repair of a table is pending from now on. -/
def noteRepair (n c : Nat) (d : Dev) : Dev :=
  d.redMap fun r => { r with
    repairs := (n, c) :: r.repairs.filter (fun x => x.1 != n),
    repairLog := d.cyc :: r.repairLog.filter fun x => decide (d.cyc < x + 128) }

/-- An entry takes effect on the head that sent it, at the end of the mirror slot (R495). The cycle that first carries RESYNC of
SNAPSHOT is W (R520). -/
def landOwn (e : JEntry) (d : Dev) : Dev :=
  match e with
  | .write w => landWrite w d
  | .pub => pixPub d
  | .resync 3 _ => d.redMap fun r => { r with w := d.cyc }
  | _ => d

/-- Is a register one of those that W finds and REPLAY computes: those of the journalled pages, and the output banks of TIM (R494,
R498, R520)? -/
def pairReg (key : Nat) : Bool :=
  match clsOf (key / 4096 % 1024) with
  | some .axp | some .prf | some .pgrp | some .sea | some .tsu | some .sgu => true
  | some .tim => key % 4096 == TIM.PIXO_HOST.off
  | _ => false

/-- Registers take the values of a list, where `p` holds; one the list does not give stands at its reset value. -/
def putKept (p : Nat → Bool) (l : List (Nat × Word)) (d : Dev) : Dev :=
  let d := { d with regs := d.regs.filter fun kw => !p kw.1 }
  l.foldl (fun (d : Dev) (kw : Nat × Word) =>
    if p kw.1 then d.setReg (kw.1 / 4096 % 1024) (kw.1 / 4096 / 1024) (kw.1 % 4096) kw.2 else d) d

/-- The input area as published now: offset in the area, byte. -/
def Dev.inputImage (d : Dev) : List Host.Cell :=
  let base := bankBase d.publishedBank + d.rd pgTIM TIM.OSIZE * 64
  (d.mem.filter fun (c : Host.Cell) => decide (base ≤ c.1) && decide (c.1 < bankBase d.publishedBank + 0x8_0000)).map fun c =>
    (c.1 - base, c.2)

/-- The joining head stores the present cycle from now on. -/
def openStored (d : Dev) : Dev := d.redMap fun r => { r with opened := some ⟨d.cyc, d.inputImage, [], [], []⟩ }

/-- Cycle W begins on the joining head (R520): what its tick has done to tables is taken back, and their state stands until REPLAY
computes it; records that have come stay. -/
def beginStored (d : Dev) : Dev :=
  let d := match d.pastAt d.cyc with
    | none => d
    | some p =>
      let now := d.mot
      let d := putKept pairReg p.regs { d with mot := p.mot }
      d.each (List.range 256) fun n d =>
        d.mapAx (axisNo n) fun x => { x with rcd := (now.ax[axisNo n]).rcd, arrived := (now.ax[axisNo n]).arrived }
  openStored (d.redMap fun r => { r with w := d.cyc, stored := [], parts := [] })

/-- A RESYNC entry on the joining head (R520, R521). -/
def takeResync (ph : Nat) (crc : Word) (d : Dev) : Dev :=
  if !d.joining then d
  else match ph with
    | 1 =>
      let same := crc == d.reg (pgCep 0) 0 CEP.CIMG.off
      (if same then d else d.wr pgRED RED.CONFMIS 1).redMap fun r => { r with same := some same }
    | 2 => d.wr pgRED RED.RPH 2
    | 3 => if d.red.opened.isSome then d else beginStored (d.wr pgRED RED.RPH 3)
    | _ => d

/-- The digest of the first run of a table in cycle `k`. -/
def Dev.firstDigest (d : Dev) (n k : Nat) : Nat :=
  ((d.red.digests.find? fun x => x.1 == k && x.2.1 == n).map fun x => x.2.2.1).getD 0

/-- A write that the journal brings: to the ring compare window, it goes to the unit that the journal selects, and the selection
of the head's own host stays. -/
def landBrought (w : HostWrite) (d : Dev) : Dev :=
  if w.page = pgSGU ∧ 0x0A0 ≤ w.off then
    let own := d.rd pgSGU SGU.RSEL
    (landWrite w (d.wr pgSGU SGU.RSEL d.red.rsel)).wr pgSGU SGU.RSEL own
  else landWrite w d

/-- An entry takes effect on the head that received it. -/
def landPeer (e : JEntry) (d : Dev) : Dev :=
  match e with
  | .write w => landBrought w d
  | .pub => pixPub d
  | .outcome c l => takeOutcome c l d
  | .plate g c => if h : g < 8 then followPlate ⟨g, h⟩ (d.fullCycle c) d else d
  | .handover c => d.redMap fun r => { r with handover := some (d.fullCycle c) }
  | .mismatch n c =>
    let d := (d.wr pgRED RED.DAX n).wr pgRED RED.RPEND 1
    let d := if d.joining && d.rd pgRED RED.RPH == 5 then resyncFail 5 d else d
    let k := d.fullCycle c
    (d.inc pgRED RED.REPLAYS).redMap fun r => { r with replay := some ⟨n, k, d.firstDigest n k, none, none⟩ }
  | .verdict n _ eq =>
    d.redMap fun r => { r with replay := r.replay.map fun x => if x.axis = n then { x with peer := some eq } else x }
  | .resync ph crc => takeResync ph crc d
  | .repair n c =>
    let d := noteRepair n (d.fullCycle c) d
    if d.manyRepairs then d.redMap fun r => { r with d8 := true } else d

/-- An entry that was first sent in the cycle before takes effect as of that cycle (R499). -/
def asOfBefore (f : Dev → Dev) (d : Dev) : Dev :=
  let k := d.cyc
  (f (d.wr64 pgTIM 0 TIM.CYCLO.off (k - 1))).wr64 pgTIM 0 TIM.CYCLO.off k

end Sys2Proof.Machine
end

