-- ==== Sys2Proof/Machine/Mirror.lean ====
section
/-! DEFINITION. The mirror slot (R490 to R511, R520, R521): digests, state blocks and histories, the two halves as they are built
and taken, replay, repair, and what resynchronisation sends.

The manual gives the sizes of items and of the state block and not their layout: notes/assumptions/41.md and 42.md. -/
namespace Sys2Proof.Machine

/-! ## Bytes of records, digests, state blocks -/

/-- A command record as the command frame carries it (*Command record*). -/
def cmdBytes (sta ax : Nat) (c : CmdRec) : List Byte :=
  bytesLE 1 (sta % 64 + ax % 4 * 64) ++
  bytesLE 1 (b2n c.hold + 2 * b2n c.moor + 4 * b2n c.en + 8 * b2n c.brk + 16 * b2n c.cmpv + c.cmpo % 4 * 32) ++
  bytesLE 1 c.cseq ++ [0] ++ bytesLE 2 c.da ++ bytesLE 2 c.db ++ bytesLE 2 c.dc ++ [0, 0] ++ bytesLE 4 c.cmpt

/-- The record of table `n` in the command frame. -/
def Dev.recordBytes (d : Dev) (n : Fin 256) (c : CmdRec) : List Byte :=
  cmdBytes (d.rd (pgAxp n) AXP.STA) (d.rd (pgAxp n) AXP.AX) c

/-- The digest of a table (R501). -/
def Dev.digestOf (d : Dev) (n : Fin 256) (c : CmdRec) : Nat :=
  let x := crc16 (d.recordBytes n { c with hold := false })
  if x = 0 then 1 else x

/-- An axis record as the history keeps it (*Axis record*). -/
def AxRec.bytes (r : AxRec) : List Byte :=
  bytesLE 1 r.seq ++
  bytesLE 1 (4 * b2n r.idxv + 8 * b2n r.latv + 16 * b2n r.fberr + 32 * b2n r.linef + 64 * b2n r.pstf) ++
  bytesLE 2 (toBits 16 r.ia) ++ bytesLE 2 (toBits 16 r.ib) ++ bytesLE 2 (toBits 16 r.ic) ++ bytesLE 2 r.udc ++ bytesLE 2 r.temp ++
  bytesLE 4 r.pos ++ bytesLE 2 (toBits 16 r.postof) ++ bytesLE 4 r.lpos ++ bytesLE 4 (toBits 32 r.ltim) ++ bytesLE 2 r.aux ++
  bytesLE 1 r.nstat ++ bytesLE 1 r.cmpf ++ [0, 0]

/-- The exported values of a table (R508). -/
def Export.bytes (e : Export) : List Byte :=
  bytesLE 8 (toBits 64 e.pAct) ++ bytesLE 8 (toBits 64 e.pSet) ++ bytesLE 4 (toBits 32 e.vSet) ++ bytesLE 4 (toBits 32 e.iqRef) ++
    bytesLE 4 (toBits 32 e.iQ)

/-! ## Histories (R508) -/

/-- Histories in the resynchronisation staging region. -/
def recordAddr (c n : Nat) : Nat := dramStaging + c % 256 * 0x2000 + n * 32
def exportAddr (c n : Nat) : Nat := dramStaging + 0x20_0000 + c % 256 * 0x1C00 + n * 28
def journalAddr (c : Nat) : Nat := dramStaging + 0x3C_0000 + c % 256 * 0x200
/-- The transfer area; state blocks that have come stand at its start. -/
def transferBase : Nat := dramStaging + 0x3E_0000

def blockBytes (l : List (BitVec 64)) : List Byte := l.flatMap fun w => bytesLE 8 w.toNat

/-- The state block of table `n` in the transfer area. -/
def Dev.blockCame (d : Dev) (n : Nat) : List (BitVec 64) :=
  (List.range 32).map fun i => BitVec.ofNat 64 (d.memLE (transferBase + n * 256 + 8 * i) 8)

/-- Cycle `k` enters the histories: records of the tables that are not local, exported values of every table. -/
def keepHistory (k : Nat) (d : Dev) : Dev :=
  if !d.keepsPast then d
  else
    d.activeAxes.foldl (fun (d : Dev) (n : Fin 256) =>
      if !d.configured n then d
      else
        let d := if d.isLocal n then d else d.setMemBytes (recordAddr k n) (d.recordOf n).bytes
        d.setMemBytes (exportAddr k n) (d.ax n).ex.bytes) d

/-- Own digests and freshness of cycle `k`, at the tick that ends it; those of the three cycles before stay. A digest is 0 where
the command was sent with HOLD or the task has not ended (R502, R503). -/
def noteDigests (k : Nat) (d : Dev) : Dev :=
  if !d.on pgRED RED.PAIRED then d
  else
    let l := d.pairAxes.map fun (n : Fin 256) =>
      let x := d.ax n
      let dig := match x.cmd with
        | some c => if d.commanding && x.holdAt == some k then 0 else d.digestOf n c
        | none => 0
      (k, n.val, dig, d.freshIn n k)
    d.redMap fun r => { r with digests := l ++ r.digests.filter fun x => decide (k ≤ x.1 + 3) }

/-! ## The shape of a half (R490 to R493) -/

/-- Largest payload of a MIRROR frame and JMAX, by rate (*Mirror budget*). -/
def mirrorPayload (rate : Nat) : Nat := match rate with | 0 => 112 | 1 => 264 | 2 => 568 | _ => 1176
def jmax (rate : Nat) : Nat := match rate with | 0 => 32 | 1 => 96 | 2 => 192 | _ => 384

/-- Rings on which the head sends MIRROR frames: inserted and in SYNC. -/
def Dev.mirrorRings (d : Dev) : List (Fin 4) :=
  (List.finRange 4).filter fun (r : Fin 4) => d.ringUsed r && d.inserted r && d.rstate r == rsSYNC

/-- Nn, and U of R504. -/
def Dev.pairCount (d : Dev) : Nat := d.pairAxes.length
def Dev.sliceUnits (d : Dev) : Nat := (d.pairCount + 3) / 4

/-- The header of a MIRROR payload (*Mirror header*). -/
def Dev.mirrorHeader (d : Dev) (second : Bool) (part parts jnew seq jlen cofs istart : Nat) : List Byte :=
  bytesLE 1 (d.role + 8 * b2n second + part % 4 * 16 + (parts - 1) % 4 * 64) ++ bytesLE 1 (d.syncMask + d.rd pgRED RED.RPH * 16) ++
    bytesLE 1 (min 248 d.reach) ++ bytesLE 1 jnew ++ bytesLE 4 seq ++ bytesLE 2 jlen ++ bytesLE 2 cofs ++ bytesLE 4 istart

/-- Bytes padded to whole blocks. -/
def padBlocks (l : List Byte) : List Byte := l ++ List.replicate ((8 - l.length % 8) % 8) 0

/-- The payloads of a half: header, journal, the shared bytes cut across the frames in ring order. -/
def Dev.cutHalf (d : Dev) (second : Bool) (jnew seq : Nat) (journal shared : List Byte) (istart : Nat) : List (List Byte) :=
  let parts := d.mirrorRings.length
  let room := mirrorPayload d.rate - 16 - journal.length
  (List.range parts).map fun i =>
    padBlocks (d.mirrorHeader second i parts jnew seq journal.length (i * room) istart ++ journal ++
      (shared.drop (i * room)).take room)

/-! ## The item stream (R497, R506, R520; notes/assumptions/42.md) -/

/-- An item: kind and index, 64 bytes. Kinds: 0 filler, 1 marked block, 2 part of a state block, 3 block of memory, 4 registers.
-/
def itemOf (kind idx : Nat) (data : List Byte) : List Byte :=
  bytesLE 4 (idx % 2 ^ 28 + kind * 2 ^ 28) ++ data ++ List.replicate (64 - data.length) 0

def Dev.blockItem (d : Dev) (kind a : Nat) : List Byte := itemOf kind (a / 64) (d.memBytes a 64)

/-- The four items of a state block. -/
def blockItems (n : Nat) (blk : List (BitVec 64)) : List Byte :=
  (List.range 4).flatMap fun i => itemOf 2 (4 * n + i) (blockBytes ((blk.drop (8 * i)).take 8))

/-- Is a register one of a table that is local (R489)? -/
def Dev.localReg (d : Dev) (key : Nat) : Bool :=
  match clsOf (key / 4096 % 1024) with
  | some .axp => d.isLocal (key / 4096 % 1024 - 0x100)
  | some .prf | some .sea => decide (0x80 ≤ key % 4096) && d.isLocal (key / 4096 / 1024 % 0x1000)
  | _ => false

/-- Registers of the journalled pages, those of local tables aside. -/
def Dev.pairRegs (d : Dev) : List (Nat × Word) := d.regs.filter fun kw => pairReg kw.1 && !d.localReg kw.1

/-- Five registers in one item. -/
def regItem (l : List (Nat × Word)) : List Byte :=
  itemOf 4 l.length (l.flatMap fun kw => bytesLE 8 kw.1 ++ bytesLE 4 kw.2.toNat)

/-- Blocks of the cam and path region that hold something. -/
def Dev.camBlocks (d : Dev) : List Nat :=
  (d.mem.filter fun (c : Host.Cell) => decide (dramCam ≤ c.1) && decide (c.1 < dramImage)).foldl
    (fun (l : List Nat) (c : Host.Cell) => insertBlock (c.1 / 64 * 64) l) []

/-- *Bulk content* but the registers: base and blocks of each piece. -/
def Dev.bulkRegions (d : Dev) : List (Nat × Nat) :=
  (d.pairAxes.map fun (n : Fin 256) => (tableBase n, 192)) ++
  (d.pairAxes.map fun (n : Fin 256) => (seaAddr n 0, (d.seaN n + 15) / 16)) ++
  (d.camBlocks.map fun a => (a, 1)) ++
  ((List.range 3).map fun b => (bankBase b, d.rd pgTIM TIM.OSIZE)) ++ [(sramBase + 0x80_0000, 57344)]

/-- Items of *Bulk content*. -/
def Dev.bulkTotal (d : Dev) : Nat := (d.bulkRegions.map Prod.snd).foldl (· + ·) 0 + (d.pairRegs.length + 4) / 5

/-- Where the `i`-th block of a list of regions stands. -/
def nthBlock : List (Nat × Nat) → Nat → Sum Nat Nat
  | [], i => .inr i
  | (a, n) :: l, i => if i < n then .inl (a + 64 * i) else nthBlock l (i - n)

/-- The `i`-th bulk item. -/
def Dev.bulkItem (d : Dev) (i : Nat) : List Byte :=
  match nthBlock d.bulkRegions i with
  | .inl a => d.blockItem 3 a
  | .inr j => regItem ((d.pairRegs.drop (5 * j)).take 5)

/-- `cap` bytes of the item stream (R493): what is left and repair items, then marked blocks, then captured and bulk items, then
filler. An entry of the journal waits no longer for a block that is carried (R497). -/
def takeItems (cap : Nat) (d : Dev) : List Byte × Dev :=
  let r := d.red
  let off := r.istart % 68
  let need := (cap + off + 67) / 68 - r.items.length / 68
  let marked := r.dirty.take need
  let taken := min (need - marked.length) (r.bulk.length / 68)
  let bulk := if d.rd pgRED RED.RPH = 2 then min (need - marked.length) (d.bulkTotal - r.cursor) else 0
  let fill := need - marked.length - taken - bulk
  let all := r.items ++ (marked.flatMap fun a => d.blockItem 1 a) ++ r.bulk.take (68 * taken) ++
    ((List.range bulk).flatMap fun i => d.bulkItem (r.cursor + i)) ++ List.replicate (68 * fill) 0
  let whole := (off + cap) / 68
  let dirty := r.dirty.drop marked.length
  let carried := (blocksIn whole all).filter fun a => !dirty.contains a
  let d := showDirty (d.redMap fun r => { r with
    dirty := dirty, cursor := r.cursor + bulk, bulk := r.bulk.drop (68 * taken), items := all.drop (68 * whole),
    istart := r.istart + cap, wait := r.wait.map fun w => { w with after := w.after.filter fun a => !carried.contains a } })
  ((all.drop off).take cap, d)

/-! ## The first half -/

/-- Entries of the queue that are admitted now, within `room` bytes (R496, R497). -/
def admitted : Nat → List JWait → List JEntry × List JWait
  | _, [] => ([], [])
  | room, w :: l =>
    let n := w.entry.bytes.length
    if n ≤ room ∧ w.after = [] then
      let (a, rest) := admitted (room - n) l
      (w.entry :: a, rest)
    else ([], w :: l)

/-- The journal of this cycle: retransmission from JACK, then new entries (R496, R499). -/
def nextJournal (d : Dev) : Dev :=
  let r := d.red
  let retx := r.jnow.drop (r.jack - r.jseq)
  let (new, rest) := admitted (jmax d.rate - retx.length) r.wait
  let next := r.jseq + r.jnow.length
  let d := d.wr pgRED RED.JRETX (min 0xFFFF (d.rd pgRED RED.JRETX + (jParse retx.length 0 retx).length))
  showQueue (d.redMap fun r => { r with
    wait := rest, carried := new, jprev := retx, jnow := new.flatMap JEntry.bytes, jseq := next, jack := next })

/-- Does a state slice go with this cycle (R504)? -/
def Dev.sendsSlice (d : Dev) : Bool := d.peerIs [roSTANDBY] || d.rd pgRED RED.RPH == 5

/-- The slice of commit `k`: units of the round order (R504). -/
def Dev.sliceAt (d : Dev) (k : Nat) : List (Nat × Nat × BitVec 64) :=
  let axes := d.pairAxes
  let u := d.sliceUnits
  ((List.range u).map fun i => k % 128 * u + i).filterMap fun j =>
    (axes[j / 32]?).map fun (n : Fin 256) => (n.val, j % 32, (d.blockAt k n).getD (j % 32) 0)

/-- RLEFT: blocks to send in BULK or SNAPSHOT. -/
def showLeft (d : Dev) : Dev :=
  let n := match d.rd pgRED RED.RPH with
    | 2 => d.bulkTotal - d.red.cursor
    | 3 => d.red.bulk.length / 68
    | _ => 0
  d.wr pgRED RED.RBULK n

/-- The half of a commanding head (R490 to R493, R496, R499). Slice units that do not fit are dropped for the cycle. -/
def buildFirst (d : Dev) : Dev :=
  let d := nextJournal d
  let journal := d.red.jprev ++ d.red.jnow
  let seq := d.red.jseq - d.red.jprev.length
  let cap := d.mirrorRings.length * (mirrorPayload d.rate - 16 - journal.length)
  let slice := if d.sendsSlice then (d.sliceAt (d.cyc - 1)).flatMap fun x => bytesLE 8 x.2.2.toNat else []
  let fits := decide (slice.length ≤ cap)
  let slice := slice.take (cap / 8 * 8)
  let istart := d.red.istart
  let (items, d) := if d.journalRuns then takeItems (cap - slice.length) d else ([], d)
  let d := showLeft (d.wr pgRED RED.DEGR (b2n !fits))
  let tx := d.cutHalf false (d.red.jprev.length / 4) seq journal (slice ++ items) istart
  d.redMap fun r => { r with tx := tx, clean := if fits then r.clean else 0 }

/-! ## The second half -/

/-- A bitmap, bit 0 of byte 0 first. -/
def bitmap (l : List Bool) : List Byte :=
  bytesLE ((l.length + 7) / 8) ((l.zipIdx.map fun (x : Bool × Nat) => 2 ^ x.2 * b2n x.1).foldl (· + ·) 0)

/-- A table whose digest of cycle `k` is not compared: a repair is pending, or was installed in that cycle or later (R507). -/
def Dev.inRepair (d : Dev) (n k : Nat) : Bool :=
  d.red.repairs.any (fun x => x.1 == n) || d.red.installed.any fun x => x.1 == n && decide (k ≤ x.2)

/-- The digest section of cycle `k` (R502). -/
def Dev.digestSection (d : Dev) (k : Nat) : List Byte :=
  let of' := fun (n : Fin 256) => (d.red.digests.find? fun x => x.1 == k && x.2.1 == n.val).map fun x =>
    if d.inRepair n k then (0, x.2.2.2) else x.2.2
  let l := d.pairAxes.map fun (n : Fin 256) => (of' n).getD (0, false)
  bytesLE 4 k ++ [0, 0, 0, 0] ++ bitmap (l.map Prod.snd) ++ l.flatMap fun x => bytesLE 2 x.1

/-- Does this head check as a standby: STANDBY, or joining in CHECK? -/
def Dev.checks (d : Dev) : Bool := d.role == roSTANDBY || (d.joining && d.rd pgRED RED.RPH == 5)

/-- The half of a head that does not command: header only, unless it checks (R487). Digests that do not fit are dropped for the
cycle (R493). Its JACK is put in when a frame leaves. -/
def buildSecond (d : Dev) : Dev :=
  let cap := d.mirrorRings.length * (mirrorPayload d.rate - 16)
  let sec := if d.checks then d.digestSection (d.cyc - 1) else []
  let fits := decide (sec.length ≤ cap)
  let room := (cap - sec.length) / 8 * 8
  let head := 8 + (d.pairCount + 7) / 8
  let shared := if d.checks then sec.take (head + (cap - head) / 2 * 2) ++ d.red.reply.take room else []
  let d := d.wr pgRED RED.DEGR (b2n !fits)
  let tx := d.cutHalf true 0 d.red.jexpect [] shared 0
  d.redMap fun r => { r with tx := tx, reply := if d.checks then r.reply.drop room else r.reply }

/-- The full number near `x` whose low 32 bits are `low`. -/
def nearSeq (x low : Nat) : Nat := ((x : Int) + sxt 32 (toBits 32 ((low : Int) - x))).toNat

/-- JACK (*Mirror header*): the next journal byte expected, the first half of the present cycle included. -/
def Dev.jackNow (d : Dev) : Nat :=
  match d.red.rx.find? fun m => m.first with
  | none => d.red.jexpect
  | some m =>
    let seq := nearSeq d.red.jexpect m.jseq
    if d.red.jexpect < seq ∧ !(d.joining && d.rd pgRED RED.RPH == 1) then d.red.jexpect
    else max d.red.jexpect (seq + m.journal.length)

/-- A payload of the second half with its JACK. -/
def Dev.withJack (d : Dev) (p : List Byte) : List Byte := p.take 4 ++ bytesLE 4 d.jackNow ++ p.drop 8

/-- The half of the mirror slot of the present cycle. -/
def mirrorBuild (d : Dev) : Dev :=
  if d.stage = 0 then d
  else if d.commanding then buildFirst d
  else if d.role = roSTANDBY ∨ d.role = roSILENT then buildSecond d
  else d.redMap fun r => { r with tx := [] }

/-! ## Repairs and replays (R506, R507, R509, R510) -/

/-- REPAIR_SEND (R506): the entry, and the state block as items. -/
def startRepair (n c : Nat) (d : Dev) : Dev :=
  let c := d.heldCommit c
  let blk := d.blockAt c (axisNo n)
  (pushDecision (.repair n c) (noteRepair n c d)).redMap fun r => { r with items := r.items ++ blockItems n blk }

/-- A verdict of divergence: VERDICT 2, repair. -/
def diverged (n c : Nat) (d : Dev) : Dev :=
  let d := raise pgRED 3 2 d
  if d.commanding then startRepair n c d else d

/-- A mismatch of cycle `k` (R503, R510). -/
def mismatch (n k : Nat) (d : Dev) : Dev :=
  let d := (raise pgRED 2 n ((d.inc pgRED RED.DIGMIS).wr pgRED RED.DAX n)).redMap fun r => { r with clean := 0 }
  if d.hooked (axisNo n) then diverged n k d
  else if d.red.replay.isSome then d
  else
    ((d.inc pgRED RED.REPLAYS).wr pgRED RED.RPEND 1).redMap fun r => { r with
      replay := some ⟨n, k, d.firstDigest n k, none, none⟩ }

/-- DIGEST_COMPARE of one table (R503, R506). -/
def compareDigest (k : Nat) (n : Fin 256) (dig : Nat) (fresh : Bool) (d : Dev) : Dev :=
  match d.red.digests.find? fun x => x.1 == k && x.2.1 == n.val with
  | none => d
  | some (_, _, own, ownFresh) =>
    if fresh ≠ ownFresh then startRepair n k d
    else if own = 0 ∨ dig = 0 ∨ !fresh then d
    else if own = dig then d.redMap fun r => { r with repairs := r.repairs.filter fun x => x.1 != n.val }
    else if d.red.repairs.any fun x => x.1 == n.val then d
    else mismatch n k d

/-- The standby's digest section. -/
def takeDigests (l : List Byte) (d : Dev) : Dev :=
  let axes := d.pairAxes
  let k := d.fullCycle (numLE (l.take 4))
  let map := (axes.length + 7) / 8
  let bits := numLE ((l.drop 8).take map)
  (axes.zipIdx).foldl (fun (d : Dev) (x : Fin 256 × Nat) =>
    compareDigest k x.1 (numLE ((l.drop (8 + map + 2 * x.2)).take 2)) (bitOf bits x.2) d) d

/-- A reply item: a verdict of the standby's replay, or a slice difference. -/
def replyItem (kind n : Nat) (flag : Bool) (c : Nat) : List Byte := bytesLE 1 kind ++ bytesLE 1 n ++ bytesLE 1 (b2n flag) ++ [0] ++ bytesLE 4 c

def takeReply (l : List Byte) (d : Dev) : Dev :=
  let n := numLE ((l.drop 1).take 1)
  let flag := numLE ((l.drop 2).take 1) != 0
  let c := d.fullCycle (numLE ((l.drop 4).take 4))
  match numLE (l.take 1) with
  | 1 => d.redMap fun r => { r with replay := r.replay.map fun x => if x.axis = n then { x with peer := some flag } else x }
  | 2 => (startRepair n c d).redMap fun r => { r with clean := 0 }
  | _ => d

def takeReplies : Nat → List Byte → Dev → Dev
  | 0, _, d => d
  | n + 1, l, d => takeReplies n (l.drop 8) (takeReply (l.take 8) d)

/-- VERDICT_APPLY (*Verdicts*): at the CWD of cycle k + 3. -/
def verdictApply (d : Dev) : Dev :=
  match d.red.replay with
  | none => d
  | some x =>
    if d.cyc < x.cycle + 3 then d
    else
      let d := (d.wr pgRED RED.RPEND 0).redMap fun r => { r with replay := none }
      let cmd := if d.commanding then x.own else x.peer
      let stb := if d.commanding then x.peer else x.own
      match cmd, stb with
      | some true, some false => (raise pgRED 3 0 d).redMap fun r => { r with d8 := true }
      | some false, some true => (raise pgRED 3 1 d).redMap fun r => { r with d9 := true }
      | some false, some false => (raise pgRED 3 3 d).redMap fun r => { r with d8 := true }
      | _, _ => diverged x.axis x.cycle d

/-- REPAIR_TIMEOUT (R507): not installed within 256 cycles. -/
def repairTimeout (n : Nat) (d : Dev) : Dev :=
  if d.role = roSTANDBY ∧ d.red.repairs.any fun x => x.1 == n && decide (x.2 + 256 ≤ d.cyc) then
    d.redMap fun r => { r with d8 := true, repairs := r.repairs.filter fun x => x.1 != n }
  else d

/-! ## What arrives (R491, R498, R499, R505, R512, R521) -/

/-- A MIRROR payload. -/
def mirrorOf (f : RawFrame) : MirrorRx :=
  let n := fun (o k : Nat) => field f o k
  let jlen := n 8 2
  { first := !bitOf (n 0 1) 3, part := n 0 1 / 16 % 4, parts := n 0 1 / 64 + 1, jnew := n 3 1, jseq := n 4 4,
    journal := (f.data.drop 16).take jlen, cofs := n 10 2, shared := f.data.drop (16 + jlen), istart := n 12 4 }

/-- Writes that wait for a journal that no longer runs land in order. -/
def landWaiting (d : Dev) : Dev :=
  let w := d.red.wait
  let h := d.host.held
  let d := dropWaiting (showQueue (d.redMap fun r => { r with wait := [], carried := [] }))
  let d := w.foldl (fun (d : Dev) (x : JWait) => landOwn x.entry d) d
  h.foldl (fun (d : Dev) (x : HostWrite) => landWrite x d) d

/-- What a commanding head does with the phase in its peer's header (R520, R521). -/
def peerPhase (role rph : Nat) (d : Dev) : Dev :=
  if role ≠ roSILENT ∨ d.role ≠ roALONE then d
  else
    let own := d.rd pgRED RED.RPH
    if rph = 1 ∧ own = 0 then
      pushDecision (.resync 1 (d.reg (pgCep 0) 0 CEP.CIMG.off)) (d.wr pgRED RED.RPH 1)
    else if rph = 0 ∧ own ≠ 0 then
      let d := (d.wr pgRED RED.RPH 0).redMap fun r => { r with
        pass := 0, cursor := 0, captured := false, dirty := [], items := [], bulk := [], clean := 0, d10 := false }
      showLeft (showDirty (landWaiting d))
    else d

/-- A MIRROR frame of the peer: its header, once for each cycle; its parts are kept for the end of the slot. -/
def takeMirror (f : RawFrame) (d : Dev) : Dev :=
  let b0 := field f 0 1
  let b1 := field f 1 1
  let reach := field f 2 1
  let m := mirrorOf f
  let d := hearPeer (some (b0 % 8)) d
  let d := if m.first then d else d.redMap fun r => { r with jack := nearSeq r.jseq m.jseq }
  if d.red.rx ≠ [] then
    if d.red.rx.any fun x => x.part == m.part then d else d.redMap fun r => { r with rx := r.rx ++ [m] }
  else
    let d := (d.wr pgRED RED.PREACH reach).redMap fun r => { r with
      rx := [m], reach := reach, syncm := b1 % 16, peerLess := if 2 * reach < d.nodesN then r.peerLess + 1 else 0,
      peerOut := d.outRuns (b1 % 16) r.peerOut }
    peerPhase (b0 % 8) (b1 / 16 % 8) d

/-- MIRROR_FRAME_RECEIVE (R491, R512). -/
def mirrorFrameReceive (r : Fin 4) (f : RawFrame) (d : Dev) : Dev :=
  receiveSync [ftMIRROR] r f (fun d => if (hdrOf f.sof).src = 1 - d.myst then takeMirror f d else d) d

/-- The shared bytes of the frames received, as far as they follow one another. -/
def sharedOf (l : List MirrorRx) : List Byte :=
  (List.range 4).foldl (fun (acc : List Byte) i =>
    match l.find? fun (m : MirrorRx) => m.part == i with
    | some m => if m.cofs = acc.length then acc ++ m.shared else acc
    | none => acc) []

/-- JOURNAL_GAP (R499). -/
def journalGap (d : Dev) : Dev :=
  let d := d.inc pgRED RED.JGAP
  if d.joining then resyncFail 2 d else d.redMap fun r => { r with d8 := true }

/-- What a joining head has stored outgrows the transfer area (R521, cause 3; notes/assumptions/42.md). -/
def Dev.backlog (d : Dev) : Nat :=
  let r := d.red
  64 * (r.bulkIn.length + r.parts.length) +
    ((r.stored ++ r.opened.toList).map fun x =>
      32 * x.recs.length + (x.entries.map fun e => e.bytes.length).foldl (· + ·) 0 + 64 * x.blocks.length).foldl (· + ·) 0
def checkBacklog (d : Dev) : Dev := if 0xC2_0000 < d.backlog then resyncFail 3 d else d

/-- An entry that the joining head stores (R520): with the present cycle, or with the one before where it was first sent in
that. -/
def storeEntry (late : Bool) (e : JEntry) (d : Dev) : Dev :=
  let add := fun (x : Stored) => { x with entries := x.entries ++ [e] }
  if !late then checkBacklog (d.redMap fun r => { r with opened := r.opened.map add })
  else match d.red.stored.reverse with
    | x :: l => d.redMap fun r => { r with stored := (add x :: l).reverse }
    | [] => asOfBefore (landPeer e) d

def JEntry.isResync : JEntry → Bool
  | .resync _ _ => true
  | _ => false

/-- W was the cycle before: it is closed with the records that came in it. -/
def settleOpened (d : Dev) : Dev :=
  match d.red.opened with
  | some x =>
    if x.cycle + 1 ≠ d.cyc then d
    else
      let recs := match d.pastAt d.cyc with
        | some p => d.pairAxes.filterMap fun (n : Fin 256) => if (p.mot.ax[n]).arrived then some (n.val, (p.mot.ax[n]).rcd) else none
        | none => []
      openStored (d.redMap fun r => { r with stored := r.stored ++ [{ x with recs := recs }] })
  | none => d

/-- Entries of the peer's journal that have not been received before. Before BULK a joining head takes RESYNC entries alone;
from W on it stores the others. -/
def takeEntries (m : MirrorRx) (new : List (Nat × JEntry)) (d : Dev) : Dev :=
  let late := fun (x : Nat × JEntry) => decide (x.1 < 4 * m.jnew)
  let land := fun (x : Nat × JEntry) (d : Dev) => if late x then asOfBefore (landPeer x.2) d else landPeer x.2 d
  let d := settleOpened ((new.filter fun x => d.joining && x.2.isResync).foldl (fun (d : Dev) x => land x d) d)
  (new.filter fun x => !(d.joining && x.2.isResync)).foldl (fun (d : Dev) (x : Nat × JEntry) =>
    if d.joining && d.rd pgRED RED.RPH == 1 then d
    else if d.red.opened.isSome then storeEntry (late x) x.2 d
    else land x d) d

/-- The peer's journal (R495, R499). Without a gap it settles the outcomes of every cycle before the present one (R500). -/
def takeJournal (m : MirrorRx) (d : Dev) : Dev :=
  let seq := nearSeq d.red.jexpect m.jseq
  let joins := d.joining && d.rd pgRED RED.RPH == 1
  let done := d.red.jexpect - seq
  let next := seq + m.journal.length
  if joins then takeEntries m (jParse m.journal.length 0 m.journal) (d.redMap fun r => { r with jexpect := next })
  else if d.red.jexpect < seq then journalGap (d.redMap fun r => { r with jexpect := next })
  else
    let d :=
      if m.journal.length ≤ done then d
      else
        let bytes := m.journal.drop done
        let d := (d.redMap fun r => { r with jexpect := next, jnow := bytes }).setMemBytes (journalAddr d.cyc) bytes
        takeEntries m (jParse bytes.length done bytes) d
    d.redMap fun r => { r with outcomes := r.outcomes.filter fun x => decide (d.cyc ≤ x.1) }

/-- SLICE_COMPARE (R505): one unit of commit `k`. The received unit takes the place of the own one in that commit. -/
def compareUnit (k n i : Nat) (own got : BitVec 64) (d : Dev) : Dev :=
  if own = got then d
  else
    let a := axisNo n
    let d := adoptCommit k a (Config.stateOf ((d.blockAt k a).set i got)) (d.inc pgRED RED.SLMIS)
    d.redMap fun r => { r with reply := r.reply ++ replyItem 2 n true k, clean := 0 }

/-- The state slice at the front of the shared bytes. -/
def takeSlice (k : Nat) (l : List Byte) (d : Dev) : Dev :=
  (((d.sliceAt k).take (l.length / 8)).zipIdx).foldl (fun (d : Dev) (x : (Nat × Nat × BitVec 64) × Nat) =>
    compareUnit k x.1.1 x.1.2.1 x.1.2.2 (BitVec.ofNat 64 (numLE ((l.drop (8 * x.2)).take 8))) d) d

/-- A register item takes its place, without the RSVD bits (R6). -/
def putRegs : Nat → List Byte → Dev → Dev
  | 0, _, d => d
  | n + 1, l, d =>
    let key := numLE (l.take 8)
    let (page, off) := (key / 4096 % 1024, key % 4096)
    putRegs n (l.drop 12) (d.takeBits page (key / 4096 / 1024) off (fieldBits page off) (BitVec.ofNat 32 (numLE ((l.drop 8).take 4))))

/-- Register items stand in the transfer area under addresses from here on. -/
def regUnit : Nat := 2 ^ 40

/-- BULK_UNIT_COMPLETE: what the transfer area holds moves into place. -/
def moveUnits (d : Dev) : Dev :=
  let l := d.red.bulkIn
  let d := d.redMap fun r => { r with bulkIn := [] }
  l.foldl (fun (d : Dev) (x : Nat × List Byte) =>
    if x.1 < regUnit then d.setMemBytes x.1 x.2 else putRegs (x.1 - regUnit) x.2 d) d

/-- A mark in the transfer area: bytes of the stream were lost, so the unit that is coming is not complete. -/
def lostUnit : Nat := 2 ^ 50

/-- The 64 KB unit that is coming, by its number; the register items are one unit. -/
def Red.unit (r : Red) : Option Nat := (r.bulkIn.find? fun x => x.1 != lostUnit).map fun x => x.1 / 0x1_0000

/-- The unit that was coming is over: a complete one moves into place (R521). -/
def endUnit (d : Dev) : Dev :=
  if d.red.bulkIn.any fun x => x.1 == lostUnit then d.redMap fun r => { r with bulkIn := [] } else moveUnits d

/-- A bulk item enters the transfer area (R521). In BULK a unit is over when an item of another comes; a snapshot stays to its
end. -/
def bulkArrives (a : Nat) (data : List Byte) (d : Dev) : Dev :=
  let d := if d.rd pgRED RED.RPH ≤ 2 && d.red.unit.any (fun u => u != a / 0x1_0000) then endUnit d else d
  checkBacklog (d.redMap fun r => { r with bulkIn := r.bulkIn ++ [(a, data)] })

/-- A marked block takes its place, or is stored with its cycle. -/
def blockArrives (a : Nat) (data : List Byte) (d : Dev) : Dev :=
  match d.red.opened with
  | some x => checkBacklog (d.redMap fun r => { r with opened := some { x with blocks := x.blocks ++ [(a, data)] } })
  | none => (d.redMap fun r => { r with bulkIn := r.bulkIn.filter fun x => x.1 != a }).setMemBytes a data

/-- One item. -/
def takeItem (l : List Byte) (d : Dev) : Dev :=
  let idx := numLE (l.take 4) % 2 ^ 28
  let data := l.drop 4
  match numLE (l.take 4) / 2 ^ 28 with
  | 0 => if d.joining && d.rd pgRED RED.RPH == 2 && d.red.unit.isSome then endUnit d else d
  | 1 => blockArrives (idx * 64) data d
  | 2 => (d.setMemBytes (transferBase + idx * 64) data).redMap fun r => { r with parts := idx :: r.parts.filter fun i => i != idx }
  | 3 => if d.joining then bulkArrives (idx * 64) data d else d
  | 4 => if d.joining then bulkArrives (regUnit + idx) data d else d
  | _ => d

def takeWhole : Nat → List Byte → Dev → Dev
  | 0, _, d => d
  | n + 1, l, d => takeWhole n (l.drop 68) (takeItem (l.take 68) d)

/-- The item part of the shared bytes, which starts at `istart` of the stream. -/
def takeStream (istart : Nat) (l : List Byte) (d : Dev) : Dev :=
  let at' := nearSeq d.red.istart istart
  let skip := (68 - at' % 68) % 68
  let buf := if at' = d.red.istart then d.red.items ++ l else l.drop skip
  let n := buf.length / 68
  let lost := at' != d.red.istart && d.joining && d.rd pgRED RED.RPH == 2
  let d := d.redMap fun r => { r with
    items := buf.drop (68 * n), istart := at' + l.length, bulkIn := if lost then (lostUnit, []) :: r.bulkIn else r.bulkIn }
  takeWhole n buf d

/-- Cycles of CHECK in a row without a mismatch: one more where `ok`. -/
def countClean (ok : Bool) (d : Dev) : Dev := d.redMap fun r => { r with clean := if ok then r.clean + 1 else 0 }

/-- What the first half of the peer brings a standby or a joining head. -/
def takeFirst (l : List MirrorRx) (d : Dev) : Dev :=
  match l.head? with
  | none => countClean false d
  | some m =>
    let d := takeJournal m d
    let shared := sharedOf l
    let cap := m.parts * (mirrorPayload d.rate - 16 - m.journal.length)
    let all := 8 * (d.sliceAt (d.cyc - 1)).length
    let n := if d.checks then min all (cap / 8 * 8) else 0
    let d := if 0 < n then takeSlice (d.cyc - 1) (shared.take n) (countClean (n == all && decide (n ≤ shared.length)) d) else d
    let d := if 0 = all then countClean d.checks d else d
    if shared.length ≤ n then d else takeStream m.istart (shared.drop n) d

/-- What the second half of the peer brings a commanding head. -/
def takeSecond (l : List MirrorRx) (d : Dev) : Dev :=
  let shared := sharedOf l
  let head := 8 + (d.pairCount + 7) / 8
  let n := head + 2 * d.pairCount
  if !d.sendsSlice then d
  else if shared.length < head then countClean false d
  else
    let d := takeDigests (shared.take n) (countClean (d.rd pgRED RED.DEGR == 0 && decide (n ≤ shared.length)) d)
    takeReplies ((shared.length - n) / 8) (shared.drop n) d

/-- MIRROR_SLOT_END (R495): entries land on both heads; halves are taken. -/
def mirrorSlotEnd (d : Dev) : Dev :=
  if d.stage = 0 then d
  else
    let d := d.at (d.tickSt + mirrorEnd d.rate)
    let own := d.red.carried
    if d.commanding then
      let d := if own = [] then d else d.setMemBytes (journalAddr d.cyc) d.red.jnow
      let d := own.foldl (fun (d : Dev) (e : JEntry) => landOwn e d) (d.redMap fun r => { r with carried := [] })
      takeSecond (d.red.rx.filter fun m => !m.first) (admitHeld 64 d)
    else if d.role = roSTANDBY ∨ d.joining then takeFirst (d.red.rx.filter fun m => m.first) d
    else d

/-! ## Resynchronisation (R520) -/

/-- BULK_PASS_END: at most 1 MB marked, or the third pass, opens SNAPSHOT; otherwise the next pass begins. -/
def bulkPassEnd (d : Dev) : Dev :=
  if d.commanding && d.rd pgRED RED.RPH == 2 && decide (d.bulkTotal ≤ d.red.cursor) then
    if d.red.dirty.length ≤ 16384 ∨ 3 ≤ d.red.pass then
      pushDecision (.resync 3 0) ((d.wr pgRED RED.RPH 3).redMap fun r => { r with captured := false, w := 0 })
    else showLeft (d.redMap fun r => { r with pass := r.pass + 1, cursor := 0 })
  else d

/-- SNAPSHOT_CAPTURE at the CWD of cycle W (R520): every block still marked; state block and user area of every table and the
output banks of TIM, as the commit before W left them, since REPLAY runs the tasks of W. -/
def snapshotCapture (d : Dev) : Dev :=
  if d.commanding && d.rd pgRED RED.RPH == 3 && !d.red.captured && d.red.w == d.cyc then
    let was := match d.pastAt d.cyc with
      | some p => d.asAt p
      | none => d
    let marked := d.red.dirty.flatMap fun a => d.blockItem 3 a
    let tables := d.pairAxes.flatMap fun (n : Fin 256) =>
      blockItems n (was.tableState n).units ++ (List.range 16).flatMap fun i => was.blockItem 3 (userArea n + 64 * i)
    let banks := regItem [(regKey pgTIM 0 TIM.PIXO_HOST.off, was.reg pgTIM 0 TIM.PIXO_HOST.off)]
    showLeft (showDirty (d.redMap fun r => { r with captured := true, dirty := [], bulk := r.bulk ++ marked ++ tables ++ banks }))
  else d

/-- The joining head enters REPLAY at the CWD at which every captured block stands (R520, R554): the snapshot moves into place. -/
def enterReplay (d : Dev) : Dev :=
  if d.joining && d.rd pgRED RED.RPH == 3 && d.red.ready then
    let (ok, d) := joinFull d
    if !ok then resyncFail 1 d
    else
      let d := (moveUnits d).redMap fun r => { r with ready := false }
      let d := d.pairAxes.foldl (fun (d : Dev) (n : Fin 256) => putTable n (Config.stateOf (d.blockCame n)) d) d
      (d.wr pgRED RED.RPH 4).redMap fun r => { r with parts := [] }
  else d

end Sys2Proof.Machine
end

