-- ==== Sys2Proof/Machine/RingTx.lean ====
section
/-! DEFINITION. The ring MAC on its transmit side (R71, R74, R78, R82, R83, R88, R95, R96, R105, R146, R490, R583): what this head
launches in a slot; the command frame; the mailbox ring TXR to TXW. -/
namespace Sys2Proof.Machine

/-! ## Launching (R71, R74) -/

/-- Out of one port, unless a forwarded frame still passes it (R74). -/
def launchPort (r : Fin 4) (p : Port) (busy : Bool) (h : Hdr) (data : List Byte) (crc : Word) (d : Dev) : Dev :=
  if busy then d.inc (pgRing r) RING.TXCOLL
  else d.transmit (.frame (.ring r p) ({ h with dirf := match p with | .e => 0 | .w => 1 } : Hdr).bits data crc)

/-- This head's own frame in slot `slot`, at `ap` from the tick. -/
def launch (r : Fin 4) (slot t ap : Nat) (busyE busyW : Bool) (data : List Byte) (d : Dev) : Dev :=
  let d := d.at (d.tickSt + ap)
  let h : Hdr := ⟨t, d.myst, d.cyc % 64, data.length / 8, 0, d.on pgSAF SAF.HOLD, 0, d.rd pgRED RED.EPOCH⟩
  let crc : Word := BitVec.ofNat 32 (crc32c data)
  let d := launchPort r .w busyW h data crc (launchPort r .e busyE h data crc d)
  d.mapRg r fun g => { g with everSent := true, launched := ⟨slot, h.bits, crc⟩ :: g.launched }

/-! ## SYNC and COLDSTART payloads -/

/-- RATEF of SYNC frames: rates and the role (*SYNC payload*). -/
def Dev.ratef (d : Dev) : Nat := d.rate + d.rd pgTIM TIM.NRATE * 4 + d.rd pgTIM TIM.RPEND * 16 + d.role * 32

/-- INSG: valid on a commanding head in the four cycles up to the one with RCC 63 (R105 to R108). -/
def Dev.insgByte (d : Dev) (r : Fin 4) : Nat :=
  match (d.rg r).grantAt with
  | some k => if d.commanding && decide (k ≤ d.cyc + 3) && decide (d.cyc ≤ k) then
      d.rd (pgRing r) RING.GSTA + 64 * d.rd (pgRing r) RING.GWD + 128 else 0
  | none => 0

/-- A SYNC payload for the action point at `t`; `state` is the ring state it names. -/
def Dev.syncPayload (d : Dev) (t state sysId nbs insg hash : Nat) : List Byte :=
  bytesLE 8 t ++ bytesLE 1 state ++ bytesLE 1 d.ratef ++ bytesLE 2 ((d.time.rateAt).getD 0) ++ bytesLE 2 sysId ++ [0, 0] ++
    bytesLE 4 (toBits 32 (d.rdI pgTIM TIM.RCOR)) ++ bytesLE 2 nbs ++ bytesLE 1 insg ++ [0] ++ bytesLE 4 hash ++ [0, 0, 0, 0]

/-- A COLDSTART payload: PST, RANK 0, rate code, SHASH. -/
def Dev.coldPayload (d : Dev) (r t : Nat) : List Byte :=
  bytesLE 8 t ++ [0] ++ bytesLE 1 d.rate ++ [0, 0] ++ bytesLE 4 (d.rd (pgRing r) RING.SHASH)

/-- The own SYNC slot: SYNC in SYNC, COLDSTART in COLDSTART from its first full cycle on, nothing in other states (R146). -/
def sendSync (r : Fin 4) (n : Nat) (s : Slot) (be bw : Bool) (d : Dev) : Dev :=
  let t := d.tickSt + s.ap * 80
  if d.rstate r = rsCOLDSTART then
    if d.cyc < (d.rg r).coldFrom then d
    else (launch r n ftCOLDSTART (s.ap * 80) be bw (d.coldPayload r t) d).mapRg r fun g => { g with csSent := g.csSent + 1 }
  else if d.rstate r = rsSYNC then
    launch r n ftSYNC (s.ap * 80) be bw
      (d.syncPayload t rsSYNC (d.sysId r d.myst) (d.rg r).nbsPrev (d.insgByte r) (d.rd (pgRing r) RING.SHASH)) d
  else d

/-! ## The command frame (R85) -/

/-- Insert a record by station and axis. -/
def insertRecord (x : Nat × List Byte) : List (Nat × List Byte) → List (Nat × List Byte)
  | [] => [x]
  | y :: l => if x.1 < y.1 then x :: y :: l else y :: insertRecord x l

/-- The record that goes out for a table: its own, or HOLD (R41); MOOR of a MOORED table, which overrides HOLD, and of one that
was MOORED at the start of the cycle and whose task has not reached DONE. -/
def Dev.outRecord (d : Dev) (n : Fin 256) : CmdRec :=
  let x := d.ax n
  let hold := x.holdAt == some d.cyc
  let moored := CmdRec.moored x.cseq
  let own := x.cmd.getD (if d.axState n = axMOORED then moored else { moored with hold := true, moor := false })
  if x.wasMoored && !d.endedNow n && !hold then moored
  else if d.axState n = axMOORED then { (if own.moor then own else moored) with hold := hold }
  else if hold then { moored with hold := true, moor := false } else own

/-- The payload of the command frame of a ring: header, records by STA and AX, output sections. The image gives the place of a
section in the output area in 8-byte units (notes/assumptions/98.md). -/
def Dev.commandPayload (d : Dev) (r : Fin 4) : List Byte :=
  let axes := d.activeAxes.filter fun (n : Fin 256) => d.rd (pgAxp n) AXP.RING == r.val && (d.stepChannel n).isNone
  let recs := axes.foldl (fun (l : List (Nat × List Byte)) (n : Fin 256) =>
    insertRecord (d.rd (pgAxp n) AXP.STA * 4 + d.rd (pgAxp n) AXP.AX, d.recordBytes n (d.outRecord n)) l) []
  let outs := (d.rg r).outs
  let bank := 3 - (d.rd pgTIM TIM.PIXO_HOST + d.rd pgTIM TIM.PEND)
  bytesLE 1 recs.length ++ bytesLE 1 outs.length ++ bytesLE 1 (b2n !d.on pgSAF SAF.HOLD) ++ [0] ++ bytesLE 4 d.cyc ++
    recs.flatMap Prod.snd ++
    outs.flatMap fun o => bytesLE 1 o.1.toNat ++ bytesLE 1 o.2.2.toNat ++ [0, 0, 0, 0, 0, 0] ++
      d.memBytes (bankBase bank + 8 * o.2.1) (8 * o.2.2.toNat)

/-- COMMAND_FRAME_BUILD: one frame for every ring of a commanding head. -/
def buildCommands (d : Dev) : Dev :=
  d.eachRing fun (r : Fin 4) (d : Dev) =>
    d.mapRg r fun g => { g with command := if d.commanding && d.ringUsed r then some (d.commandPayload r) else none }

/-! ## The mailbox ring (R583) -/

/-- A record of the transmit ring: its space, whether it is a pad or not to be sent, destination, channel, number, ring, data
bytes. -/
structure TxRec where
  space : Nat
  pad : Bool
  bad : Bool
  dst : Nat
  ch : Nat
  seq : Nat
  ring : Nat
  len : Nat
deriving DecidableEq, Repr

/-- The record at TXR, where one waits. -/
def Dev.txHead (d : Dev) : Option TxRec :=
  let t := d.rd pgHIF HIF.TXR
  if !d.on pgHIF HIF.TXEN ∨ t = d.rd pgHIF HIF.TXW then none
  else
    let a := dramMailTx + t % mailSize
    let len := d.memLE (a + 16) 4
    let ch := d.memLE (a + 12) 1
    let dst := d.memLE (a + 10) 2
    let ring := if dst = 0xFFFF then d.memLE (a + 14) 1 % 4 else dst / 64 % 4
    let pad := ch == 0 && t % mailSize + 32 + len == mailSize
    let away := dst != 0xFFFF && dst / 256 != d.rd pgSYS SYS.SIDX
    let dead := !away && decide (256 ≤ (d.rg ⟨ring, by show _ < 4; dsimp only [ring]; split <;> omega⟩).offline)
    some ⟨recSpace len, pad, !pad && (ch == 0 || decide (64512 < len) || dead), dst, ch, d.memLE (a + 13) 1, ring, len⟩

/-- TXR moves past the record at its place, and not past TXW (R583). -/
def txAdvance (x : TxRec) (d : Dev) : Dev :=
  let t := d.rd pgHIF HIF.TXR
  let left := (d.rd pgHIF HIF.TXW + 2 ^ 32 - t) % 2 ^ 32
  { (d.wr pgHIF HIF.TXR (t + min x.space left)) with host := { d.host with txSent := 0 } }

/-- Pads, and records that are not sent, give way. -/
def txSkip : Nat → Dev → Dev
  | 0, d => d
  | fuel + 1, d =>
    match d.txHead with
    | none => d
    | some x =>
      if x.pad then txSkip fuel (txAdvance x d)
      else if x.bad then txSkip fuel ((txAdvance x d).inc pgHIF HIF.TXERR)
      else d

/-- The next fragment of the record at TXR, of up to `m` data bytes, with what launching it does. -/
def Dev.txFragment (d : Dev) (x : TxRec) (m : Nat) : List Byte × (Dev → Dev) :=
  let a := dramMailTx + d.rd pgHIF HIF.TXR % mailSize + 32
  let sent := d.host.txSent
  let n := min (min 504 m) (x.len - sent)
  let last := x.len ≤ sent + n
  let payload := mgmtMessage x.dst (d.sysId x.ring d.myst) x.ch x.seq (sent / max 1 (min 504 m)) (decide last) (d.memBytes (a + sent) n)
  (payload, fun d =>
    if last then raise pgHIF 3 3 (txAdvance x d) else { d with host := { d.host with txSent := sent + n } })

/-- Records for other clusters go out through the system link in the async window, a whole record at a time. -/
def txRouted : Nat → Dev → Dev
  | 0, d => d
  | fuel + 1, d =>
    let d := txSkip 256 d
    match d.txHead with
    | none => d
    | some x =>
      if x.dst = 0xFFFF ∨ x.dst / 256 = d.rd pgSYS SYS.SIDX then d
      else
        let (p, f) := d.txFragment x 504
        txRouted fuel (f (sendRouted (x.dst / 256) (toRing x.dst p) p d))

/-! ## The own async slot (R95, R96, R105, R583) -/

/-- A ranging request is due on a ring (R95): after an insertion or a withdrawal at once; otherwise when no round runs and a GEO
message under way has acted (R99), and for a loop change alone not while the ring is BROKEN (R101). -/
def Dev.mayRange (d : Dev) (r : Fin 4) : Bool :=
  let g := d.rg r
  d.commanding && (g.rangeNow ||
    ((g.wantRange || (g.loopMoved && !d.on (pgRing r) RING.BROKEN)) && g.ranging.isNone && g.geo.isNone))

/-- A ranging round begins: its request leaves. -/
def sendRanging (r : Fin 4) (n ap : Nat) (be bw : Bool) (d : Dev) : Dev :=
  let rid := ((d.rg r).rid + 1) % 65536
  let d := d.mapRg r fun g => { g with
    rid := rid, wantRange := false, loopMoved := false, rangeNow := false, ranging := some ⟨rid, d.cyc, none, none, []⟩ }
  launch r n ftRANGING ap be bw (rangingPayload 0 rid 0 0) d

/-- The message at the front of the queue leaves. -/
def sendQueued (r : Fin 4) (n ap : Nat) (be bw : Bool) (d : Dev) : Dev :=
  match (d.rg r).queue with
  | .mail p :: q => launch r n ftASYNC ap be bw p (d.mapRg r fun g => { g with queue := q })
  | .order p :: q => launch r n ftASYNC ap be bw p (d.mapRg r fun g => { g with queue := q })
  | .ranging p :: q => launch r n ftRANGING ap be bw p (d.mapRg r fun g => { g with queue := q })
  | [] => d

/-- A PASSIVE order waits (R157). -/
def RingDyn.ordered (g : RingDyn) : Bool := match g.queue with
  | .order _ :: _ => true
  | _ => false

/-- A fragment of the record at TXR leaves, where it goes to this ring (R583). -/
def sendTx (r : Fin 4) (n ap room : Nat) (be bw : Bool) (d : Dev) : Dev :=
  let d := txSkip 256 d
  match d.txHead with
  | none => d
  | some x =>
    if x.ring ≠ r.val ∨ (x.dst ≠ 0xFFFF ∧ x.dst / 256 ≠ d.rd pgSYS SYS.SIDX) then d
    else
      let (p, f) := d.txFragment x room
      f (launch r n ftASYNC ap be bw p d)

/-- Is a queued message a fragment of a GEO message, the broadcast of channel 0 (R99)? -/
def AsyncMsg.isGeo : AsyncMsg → Bool
  | .mail p => numLE (p.take 2) == 0xFFFF && p.getD 4 0 == 0
  | _ => false

/-- Where what has just left an own async slot of multiplex factor `m` puts the last fragment of the GEO message in the queue
too close to its ACT, the message is queued anew with a later one (R99). -/
def keepAct (r : Fin 4) (d : Dev) : Dev :=
  let q := (d.rg r).queue
  let last := (q.zipIdx).foldl (fun (n : Nat) (x : AsyncMsg × Nat) => if x.1.isGeo then x.2 + 1 else n) 0
  match (d.rg r).geo with
  | some g =>
    if d.commanding && decide (last ≠ 0) && decide (sxt 32 (toBits 32 ((g.act : Int) - (d.cyc + last * (d.asyncSlot r).1 + 4 : Nat))) < 0) then
      let old := (d.rg r).geoOld
      let d := d.mapRg r fun x => { x with queue := q.filter fun m => !m.isGeo }
      (sendGeo r g d).mapRg r fun x => { x with geoOld := old }
    else d
  | none => d

/-- The own async slot: a ranging reply first, in PASSIVE too (notes/assumptions/121.md); then a PASSIVE order, a ranging request,
ring management, mailbox fragments. -/
def sendAsync (r : Fin 4) (n : Nat) (s : Slot) (be bw : Bool) (d : Dev) : Dev :=
  let g := d.rg r
  let ap := s.ap * 80
  match g.rtag with
  | some (rid, some te, some tw) =>
    launch r n ftRANGING ap be bw (rangingPayload 1 rid ((tw : Int) - te) ownFwd) (d.mapRg r fun g => { g with rtag := none })
  | _ =>
    if g.txWait ∨ d.rstate r ≠ rsSYNC then d
    else if g.ordered then keepAct r (sendQueued r n ap be bw d)
    else if d.mayRange r then keepAct r (sendRanging r n ap be bw d)
    else if g.queue.isEmpty then sendTx r n ap (8 * (min 64 s.len) - 8) be bw d
    else sendQueued r n ap be bw d

/-! ## FRAME_TRANSMIT -/

/-- The own MIRROR frame: the part of this ring, in the half of the role (R490). -/
def sendMirror (r : Fin 4) (n : Nat) (s : Slot) (be bw : Bool) (d : Dev) : Dev :=
  let ap := s.ap * 80 + if d.commanding then 0 else halfSlot d.rate
  match d.red.tx[d.mirrorRings.idxOf r]? with
  | some p => launch r n ftMIRROR ap be bw (if d.commanding then p else d.withJack p) d
  | none => d

/-- FRAME_TRANSMIT: the action point of a slot of ring `r`; a frame leaves where this head holds the slot and may send. -/
def frameTransmit (r : Fin 4) (n : Nat) (be bw : Bool) (d : Dev) : Dev :=
  let s := d.slot r n
  if d.stage = 0 ∨ d.on pgSTG STG.HDUP ∨ !d.inserted r ∨ d.rd (pgRing r) RING.NSLOT ≤ n ∨ !s.turn d.cyc then d
  else if s.type = ftCOMMAND then
    match (d.rg r).command with
    | some p => if d.commanding && d.rstate r == rsSYNC && !(d.rg r).txWait then launch r n ftCOMMAND (s.ap * 80) be bw p d else d
    | none => d
  else if s.type = ftMIRROR then
    (if d.rstate r = rsSYNC ∧ !(d.rg r).txWait ∧ d.role ≠ roNONE then sendMirror r n s be bw d else d)
  else if s.holder ≠ d.myst then d
  else if s.type = ftSYNC then (if (d.rg r).txWait then d else sendSync r n s be bw d)
  else if s.type = ftASYNC ∨ s.type = ftRANGING then sendAsync r n s be bw d
  else d

/-! ## The async window on the system link (R111, R137) -/

/-- The payload of the SYNC frame on the system link at `t`: its STATE is 4 where some ring is in SYNC and 1 otherwise, its
SYSID names the cluster and the head with ring 0, and NBS, INSG and SHASH, which belong to a ring, are 0
(notes/assumptions/99.md). -/
def Dev.sysSyncPayload (d : Dev) (t : Nat) : List Byte :=
  d.syncPayload t (if d.on pgTIM TIM.SYNC then rsSYNC else rsLISTEN) (d.rd pgSYS SYS.SIDX * 256 + d.myst) 0 0 0

/-- A SYNC frame out of one port (R111). Its PDX message follows at once where the neighbour's SYNC frame of the cycle is there,
and otherwise waits for it (R137). -/
def sysWindow (p : Port) (d : Dev) : Dev :=
  let t := d.tickSt + asyncStart d.rate
  let d := emitSys p (d.sysHdr ftSYNC 4) (d.sysSyncPayload t) d
  if (d.sysPort p).m.any fun (x : Nat × Int) => x.1 == d.cyc then sendPdx p d
  else d.mapSys p fun s => { s with pdxDue := true }

/-- ASYNC_WINDOW_START (R111, R137). -/
def asyncWindowStart (d : Dev) : Dev :=
  if d.stage = 0 then d
  else
    let d := d.at (d.tickSt + asyncStart d.rate)
    if d.on pgSTG STG.HDUP then d else txRouted 4096 (if d.fitted (.sys .e) then sysWindow .w (sysWindow .e d) else d)

end Sys2Proof.Machine
end

