-- ==== Sys2Proof/Machine/CycleStart.lean ====
section
/-! DEFINITION. What a tick ends and begins: tasks of the cycle that ended, what is sampled, what is evaluated and staged
(spec/02, spec/95). -/
namespace Sys2Proof.Machine

/-! ## Tasks of the cycle that ended (R43, R368, R502, R508) -/

/-- Every axis task of the cycle has reached DONE. -/
def Dev.allEnded (d : Dev) : Bool := d.activeAxes.all fun (n : Fin 256) => d.endedNow n

/-- The task of table `n` in cycle `k` is aborted (R43): what it evaluated or was to evaluate has no effect, the axis moors. A
standby waits for the outcome of the commanding head (R47, R500). -/
def abortTask (k : Nat) (n : Fin 256) (d : Dev) : Dev :=
  let d := (d.mapAx n fun x => { x with ready := false, cmd := none }).wrS pgTSU n TSU.TSTATE 0
  let d := d.inc pgTIM TIM.ABORT
  if d.role = roSTANDBY && !d.isLocal n then noteOwnOutcome k n 2 d
  else moorFault n 0x02 (dropFor n k d)

/-- Every task left at the tick that ends cycle `k`, with the slack of that cycle (R368). -/
def abortTasks (k : Nat) (l : List (Fin 256)) (d : Dev) : Dev :=
  let tick := (k + 1) * d.period
  let d := if l = [] then d else { d with tsu := { d.tsu with lastDone := some (max tick (d.tsu.lastDone.getD 0)) } }
  let d := cwdSlack (k * d.period + cwdTime d.rate) d
  if l = [] then d else raise pgTIM 4 4 (l.foldl (fun (d : Dev) (n : Fin 256) => abortTask k n d) d)

/-- The commanding head journals the aborts of cycle `k` and repairs their tables (R500, R506). -/
def reportAborts (k : Nat) (l : List (Fin 256)) (d : Dev) : Dev :=
  let l := l.filter fun (n : Fin 256) => !d.isLocal n
  if l = [] ∨ !d.journalRuns then d
  else
    l.foldl (fun (d : Dev) (n : Fin 256) => startRepair n k d)
      (pushDecision (.outcome k (l.map fun (n : Fin 256) => (n.val, 2))) d)

/-! ## What other tables read (R184, R196, R236) -/

def AxDyn.export (state : Nat) (p : Prof) (x : AxDyn) : Export :=
  { pAct := x.pAct, pIn := x.pIn, dp := x.dp, pSet := x.pSet, vSet := x.vSet, iqRef := x.iqRef, iQ := x.iQ, pofs := x.pofs,
    fresh := x.fresh, state := state, staged := p.staged, stagedPrev := p.stagedPrev }

/-- Slaves in RUN of a master table that has entered FAULT or MOORED note the fault MASTER (R184). -/
def masterFault (m : Fin 256) (d : Dev) : Dev :=
  d.eachAxis fun (n : Fin 256) (d : Dev) =>
    if d.axState n = axRUN ∧ 2 ≤ d.par n AXP.SPSRC ∧ d.par n AXP.MFLT = 1 ∧ (d.par n AXP.MKIND = 3 ∨ d.par n AXP.MKIND = 4) ∧
        d.par n AXP.MIDX = m.val then
      d.mapAx n fun x => { x with pend := x.pend ++ [0x24] }
    else d

/-- Is a state one that ends a master? -/
def downState (s : Nat) : Bool := s == axMOORED || s == axFAULT

/-- The values of the last commit stand for the other tables of the new cycle. -/
def exportAxes (d : Dev) : Dev :=
  d.eachAxis fun (n : Fin 256) (d : Dev) =>
    let s := d.axState n
    let d := if downState s && s != (d.ax n).ex.state then masterFault n d else d
    d.mapAx n fun x => { x with ex := x.export s (d.prof n) }

/-! ## Sampling at the tick (R174, R182, R395, R396, R405, R409) -/

/-- Counters, pulse inputs and measurement results, as masters read them. -/
def sampleMasters (tick : Nat) (d : Dev) : Dev :=
  let f := Vector.ofFn fun (i : Fin 8) => Sampled.mk (d.count i) d.mot.fbu[i].now d.mot.fbu[i].prev
  let p := Vector.ofFn fun (i : Fin 4) => Sampled.mk (d.pulsePos i d.mot.pulse[i].now tick) d.mot.pulse[i].now d.mot.pulse[i].prev
  let a := Vector.ofFn fun (i : Fin 32) =>
    Sampled.mk (sxt 24 (d.rd (pgMfc (i.val / 8)) (MFC.CODE.nth 0x20 (i.val % 8)))) d.mot.ain[i].now d.mot.ain[i].prev
  { d with mot := { d.mot with fbu := f, pulse := p, ain := a } }

/-- The record of a channel at the tick (R174, R396). -/
def Dev.localRec (d : Dev) (c : Fin 8) (k tick : Nat) : AxRec :=
  let pg := pgFbu c
  let idx := (d.fbu c).indexed
  let lat := !idx && d.on pg FBU.LFULL
  { AxRec.zero with
    seq := k % 256, idxv := idx, latv := lat, fberr := d.on pg FBU.FERR, linef := d.on pg FBU.LF,
    pos := d.rd pg FBU.COUNT, lpos := if idx then d.rd pg FBU.IPOS else if lat then d.rd pg FBU.LPOS else 0,
    ltim := if lat then sxt 32 (toBits 32 ((d.rd64 pg 0 FBU.LTAGLO.off : Int) - tick)) else 0 }

/-- The record of a step axis (R405). -/
def Dev.stepRec (d : Dev) (c k : Nat) : AxRec :=
  { AxRec.zero with
    seq := k % 256, pos := toBits 32 (d.rdI (pgSgc c) SGC.SPOS * ((2 ^ min 8 (d.rd (pgSgc c) SGC.SDIV) : Nat) : Int)) }

/-- The local channel of a table. -/
def Dev.lfbChannel (d : Dev) (n : Nat) : Option (Fin 8) :=
  if d.par n AXP.LFB = 1 then some ⟨d.par n AXP.LFBCH % 8, Nat.mod_lt _ (by decide)⟩ else none

/-- A latch of channel HLAT since the last tick, for a table that homes with it (R279): LPOS − COUNT. -/
def Dev.localLatch (d : Dev) (n : Nat) : Option Int :=
  let c : Fin 8 := ⟨d.profPar n PRF.HLAT % 8, Nat.mod_lt _ (by decide)⟩
  if d.profPar n PRF.HSRC = 1 ∧ (d.fbu c).latched then
    some (sxt 32 (toBits 32 ((d.rd (pgFbu c) FBU.LPOS : Int) - d.rd (pgFbu c) FBU.COUNT)))
  else none

/-- Position, index and latch of the tables with local feedback or a step channel. -/
def sampleLocal (k tick : Nat) (d : Dev) : Dev :=
  d.eachAxis fun (n : Fin 256) (d : Dev) =>
    let d := d.mapAx n fun x => { x with latUsed := x.latNow, latNow := d.localLatch n }
    match d.stepChannel n, d.lfbChannel n with
    | some c, _ => d.mapAx n fun x => { x with loc := d.stepRec c k }
    | none, some c => d.mapAx n fun x => { x with loc := d.localRec c k tick }
    | none, none => d

/-- A latch record that a table has taken is free again; index and serial errors of the cycle are done with (R390, R396). -/
def clearTaken (d : Dev) : Dev :=
  let taken := d.activeAxes.filterMap fun (n : Fin 256) => if (d.ax n).loc.latv then d.lfbChannel n else none
  (List.finRange 8).foldl (fun (d : Dev) (c : Fin 8) =>
    let d := if taken.contains c then d.wr (pgFbu c) FBU.LFULL 0 else d
    if (d.fbu c).indexed || (d.fbu c).latched || (d.fbu c).serr then
      showFerr c (d.mapFbu c fun x => { x with indexed := false, latched := false, serr := false })
    else d) d

/-- A bit of the input area (R581). -/
def putInputBit (badr : Nat) (v : Bool) (d : Dev) : Dev :=
  let a := bankBase (3 - (d.rd pgTIM TIM.PIXI_HOST + d.rd pgTIM TIM.NEWEST)) + d.rd pgTIM TIM.OSIZE * 64 + badr / 8
  d.setMem8 a (BitVec.ofNat 8 (putBits (d.mem8 a).toNat (badr % 8) 1 (b2n v)))

/-- GPIO pins, and debounced latch levels, in the input area (R395, R409). -/
def sampleInputs (gpio : Word) (d : Dev) : Dev :=
  let dir := d.reg pgSGU 0 SGU.GPDIR.off
  let pins := (gpio &&& ~~~dir) ||| (d.reg pgSGU 0 SGU.GPOUT.off &&& dir)
  let d := d.wr pgSGU SGU.GPIN pins.toNat
  let d := if d.on pgSGU SGU.IEN then putInput (4 * d.rd pgSGU SGU.IOFS) pins.toNat d else d
  (List.finRange 8).foldl (fun (d : Dev) (c : Fin 8) =>
    if d.on (pgFbu c) FBU.LIEN then putInputBit (d.rd (pgFbu c) FBU.BADR) (d.fbu c).lat d else d) d

/-! ## Evaluation at the tick (R249, R268, R272, R302, R378, R380, R637) -/

/-- Is a page one whose commands the generator or the scheduler evaluates at the tick? -/
def tickPage (page : Nat) : Bool := page == pgPRF || page == pgTSU || (decide (0xC0 ≤ page) && decide (page < 0xC8))

/-- Is the write one that the generator adopts at the tick? -/
def DueWrite.atTick (k : Nat) (w : DueWrite) : Bool := decide (w.cycle ≤ k) && tickPage w.page

/-- Adopt what is due of the generator's limits; an ABS or REL move in progress sees to its deceleration again (R272, R273). -/
def adoptLimits (k : Nat) (d : Dev) : Dev :=
  let due := d.mot.writes.filter fun (w : DueWrite) => w.atTick k
  if due = [] then d
  else
    let d := { d with mot := { d.mot with writes := d.mot.writes.filter fun (w : DueWrite) => !w.atTick k } }
    let d := due.foldl (fun (d : Dev) (w : DueWrite) => adoptWrite w d) d
    let tables := (due.filterMap fun (w : DueWrite) => if w.page = pgPRF then some w.axis else none).eraseDups
    tables.foldl (fun (d : Dev) (n : Nat) =>
      match (d.prof (axisNo n)).run with
      | .move m false => if m.kind = 2 then d else profDeff (axisNo n) d
      -- the move by HBACK is a REL move (R278)
      | .homing => if (d.prof (axisNo n)).hom.step = .back ∧ (d.prof (axisNo n)).hom.ref = none then profDeff (axisNo n) d else d
      | _ => d) d

/-- Evaluate one command of the PRF, PGRP or TSU pages. -/
def evalAtTick (c : DueCmd) (d : Dev) : Dev :=
  let r :=
    if c.page = pgPRF then evalPrf c.code c.arg c.desc d
    else if c.page = pgTSU then
      (match c.code with
        | 0x01 => evalTrigger c.arg d
        | 0x02 => evalCancel c.arg d
        | 0x03 => evalTsuClrcnt d
        | _ => (rCODE, d))
    else evalPgrp (groupNo (c.page - 0xC0)) c.code d
  settleCmd c.page r.1 r.2

/-- Every command of those pages that is due, in order of arrival. -/
def evalTick (k : Nat) (d : Dev) : Dev :=
  let due := fun (c : DueCmd) => decide (c.cycle ≤ k) && tickPage c.page
  let l := d.mot.cmds.filter due
  if l = [] then d
  else
    let d := { d with mot := { d.mot with cmds := d.mot.cmds.filter fun (c : DueCmd) => !due c } }
    l.foldl (fun (d : Dev) (c : DueCmd) => evalAtTick c d) d

/-- Tables that something waits for, beside those of activeAxes. -/
def Dev.awaited (d : Dev) : List (Fin 256) :=
  let c := d.mot.cmds.filterMap fun (c : DueCmd) =>
    if c.page = pgSEA then some (axisNo c.arg)
    else if 0x100 ≤ c.page ∧ c.page < 0x200 then some (axisNo (c.page - 0x100)) else none
  let w := d.mot.writes.filterMap fun (w : DueWrite) => if tickPage w.page then none else some (axisNo w.axis)
  (c ++ w).eraseDups

/-- TICK_EVALUATION (R637): tables without an axis task in cycle `k`. -/
def tickTables (k : Nat) (d : Dev) : Dev :=
  let l := (d.awaited ++ d.activeAxes.filter fun (n : Fin 256) => (d.sea n).ends.isSome).eraseDups
  (l.filter fun (n : Fin 256) => !d.runsAxes || d.axState n == axDISABLED).foldl
    (fun (d : Dev) (n : Fin 256) => tickEvaluation n k d) d

/-! ## The profile generator (R261, R285, R289) -/

/-- A path group in one cycle; a segment planned late is journalled (R289). -/
def groupTick (k : Nat) (g : Fin 8) (d : Dev) : Dev :=
  let late := d.rd (pgPgrp g) PGRP.GSTATE != 0 && (d.plateDue g k).isSome
  let d := groupStep k g d
  if d.journalRuns && late then pushDecision (.plate g k) d else d

/-- One step of the generator for every table, then the path groups. -/
def generatorTick (k : Nat) (d : Dev) : Dev :=
  if !d.runsAxes then d
  else
    let d := d.eachAxis profStep
    (List.finRange 8).foldl (fun (d : Dev) (g : Fin 8) => groupTick k g d) (d.eachAxis memberLimit)

/-! ## Banks, engines, rings and the peer at the tick -/

/-- OUTPUT_BANK_SWAP (R58). -/
def outputSwap (k : Nat) (d : Dev) : Dev :=
  if d.on pgTIM TIM.FRESH then
    let dev := 3 - (d.rd pgTIM TIM.PIXO_HOST + d.rd pgTIM TIM.PEND)
    ((d.wr pgTIM TIM.PEND dev).wr pgTIM TIM.FRESH 0).wr pgTIM TIM.TAKEN (k % 65536)
  else d

/-- CISS of every pair (*CEP registers*): instructions issued in the cycle that ended. -/
def pairTick (d : Dev) : Dev :=
  (List.finRange 18).foldl (fun (d : Dev) (p : Fin 18) =>
    (d.wr (pgCep p) CEP.ISS (min (2 ^ 18 - 1) (d.pair p).issued)).setPair p { d.pair p with issued := 0 }) d

/-- Axis tables at the tick: nothing of the cycle that ended is left. -/
def axesFresh (d : Dev) : Dev :=
  let d := d.eachAxis fun (n : Fin 256) (d : Dev) =>
    let d := if (d.ax n).ready then d.wrS pgTSU n TSU.TSTATE 0 else d
    d.mapAx n fun x => { x with arrived := false, ready := false, cmd := none, wasMoored := d.axState n == axMOORED, began := d.axState n }
  { d with tsu := { d.tsu with ended := [], order := [], lastDone := none }, mot := { d.mot with ahead := [] } }

/-- The pairs are free of the axis tasks of the cycle that ended. -/
def axesTick (d : Dev) : Dev := serveAll (axesFresh d)

/-- Counts of a ring over the cycle that ended (R146, R147, R150, R151, R583). -/
def ringCounts (r : Fin 4) (d : Dev) : Dev :=
  let sync := d.rstate r == rsSYNC
  d.mapRg r fun g => { g with
    headless := if g.roleNow = some true then 0 else min 255 (g.headless + 1),
    role0 := if g.roleNow = some false then min 255 (g.role0 + 1) else 0,
    offline := if sync then 0 else min 256 (g.offline + 1) }

/-- The end of an announcement, resettle (R105 to R107): `k` is the cycle that ended. A GEO message that came before resettle does
not end it. -/
def ringGrant (r : Fin 4) (k : Nat) (d : Dev) : Dev :=
  let pg := pgRing r
  let g := d.rg r
  let ends : Bool := match g.grantAt with
    | some c => decide (c ≤ k)
    | none => false
  let d := if ends then (d.wr pg RING.GPEND 0).mapRg r fun g => { g with grantAt := none, rangeNow := d.commanding } else d
  if ends || g.resettleNext then
    (d.wr pg RING.RESETTLE 1).mapRg r fun g => { g with resettleNext := false, resettleN := 0, geoOld := g.geo.isSome }
  else if d.on pg RING.RESETTLE then d.mapRg r fun g => { g with resettleN := g.resettleN + 1 }
  else d

/-- A new cycle begins on a ring: beacons of the double cycle (R128), what was heard and launched in the cycle before. -/
def ringFresh (r : Fin 4) (k : Nat) (d : Dev) : Dev :=
  d.mapRg r fun g => { g with
    devPrev := if k % 2 = 1 then g.dev else [], dev := [], nbsPrev := g.nbs, nbs := 0, accepted := [], outside := [],
    heard := [], first := [],
    launched := [], backE := false, backW := false, ownSeen := none, roleNow := none, insg := none, command := none,
    ranging := match g.ranging with
      | some q => if q.cycle + 72 < k then none else some q
      | none => none }

/-- SLOTW of the slots outside the upstream window: those that a frame of every cycle fills, COMMAND slots on a head that does not
command and MIRROR slots, and those of the async window; `k` is the cycle that ended (R94, R118). -/
def judgeRest (r : Fin 4) (k : Nat) (d : Dev) : Dev :=
  if !d.ringSync r then d
  else
    d.each (List.range (d.rd (pgRing r) RING.NSLOT)) fun n d =>
      let s := d.slot r n
      let due := s.turn k && ((s.type == ftCOMMAND && !d.commanding) || s.type == ftMIRROR)
      let d := if due && !(d.rg r).accepted.contains n then d.inc (pgRing r) RING.SLOTW else d
      judgeAsync r k n d

/-- A ring at the tick of cycle `k`. -/
def ringTick (k : Nat) (r : Fin 4) (d : Dev) : Dev :=
  let d := judgeRest r (k - 1) d
  let d := (healRing r d).wr (pgRing r) RING.NHEARD (min 127 (d.rg r).heard.length)
  ringFresh r k (ringGrant r (k - 1) (ringYield r (ringCounts r d)))

/-- The rate of the correction holds from the tick on (R129); ages of the system link; SSYNC is 1 on the lighthouse (R140), and
0 while the parent is far (R141). -/
def timeTick (d : Dev) : Dev :=
  let d := match d.time.rcorNext with
    | some v => d.wrI pgTIM TIM.RCOR v
    | none => d
  let recent := fun (x : Launched) => (hdrOf x.sof).rcc == (d.cyc + 63) % 64
  let older := fun (s : SysPort) => { s with age := min 255 (s.age + 1), pdxDue := false, launched := s.launched.filter recent }
  let d := d.timeMap fun t => { t with rcorNext := none, e := older t.e, w := older t.w }
  steerLimit (if d.isLighthouse && d.fitted (.sys .e) then d.wr pgSYS SYS.SSYNC 1 else d)

/-- PROLE, REACH, HAGE, and what is heard of the peer in a new cycle (R488, R512, R518). -/
def redTick (d : Dev) : Dev :=
  let r := d.red
  let d := d.wr pgRED RED.PROLE (if r.heard then r.role.getD (d.rd pgRED RED.PROLE) else 7)
  let d := (d.wr pgRED RED.REACH (min 255 r.nodes.length)).inc pgRED RED.HAGE
  d.redMap fun r => { r with
    commandPrev := r.command, command := false, heard := false, role := none, nodes := [], rx := [], noCmdr := min 255 (r.noCmdr + 1) }

/-! ## TICK (R31) -/

/-- What the cycle that ends leaves: aborted tasks, histories, capture, engine counts. `k` is the cycle that ends. -/
def cycleEnds (k : Nat) (l : List (Fin 256)) (d : Dev) : Dev :=
  let d := keepHistory k (noteDigests k (abortTasks k l d))
  let out := 3 - (d.rd pgTIM TIM.PIXO_HOST + d.rd pgTIM TIM.PEND)
  pairTick (lateTasks 2 (capTick out d.publishedBank k (k * d.period) d))

/-- The cycle index, the time of its tick and of the next. -/
def putCycle (k : Nat) (d : Dev) : Dev :=
  (d.wr64 pgTIM 0 TIM.CYCLO.off k).wr64 pgTIM 0 TIM.NTLO.off ((k + 1) * d.period)

/-- While a joining head stores cycles, its tables stand (R520). -/
def unlessStoring (f : Dev → Dev) (d : Dev) : Dev := if d.red.opened.isSome then d else f d

/-- Injection indices of the cycle (R236, R237). -/
def seasonTick (k : Nat) (d : Dev) : Dev := d.eachAxis fun (n : Fin 256) (d : Dev) => seaPrepare k n d

/-- What is sampled and evaluated at the tick of cycle `k`. -/
def cycleBegins (k : Nat) (gpio : Word) (d : Dev) : Dev :=
  let tick := k * d.period
  let d := sampleMasters tick (unlessStoring exportAxes (settleInputs tick d))
  let d := unlessStoring (seasonTick k) d
  let d := clearTaken (unlessStoring (sampleLocal k tick) d)
  let d := sampleInputs gpio d
  let d := (List.finRange 16).foldl (fun (d : Dev) (c : Fin 16) => stepTick c tick d) d
  let d := unlessStoring (fun d => tickTables k (evalTick k (tsuAdoptAll (adoptLimits k d)))) d
  unlessStoring (generatorTick k) (cyclePoint 1 k (axesTick d))

end Sys2Proof.Machine
end

