-- ==== Sys2Proof/Machine/Rerun.lean ====
section
/-! DEFINITION. Tasks of past cycles computed again: a replay after a mismatch (R509), the rerun after a repair (R507), and the
cycles that a joining head runs from what it stored (R520). -/
namespace Sys2Proof.Machine

/-! ## One table in one past cycle -/

/-- Bytes of a region as another memory has them. -/
def copyFrom (mem : List Host.Cell) (a len : Nat) (d : Dev) : Dev := d.setMemBytes a ((List.range len).map fun i => memGet mem (a + i))

/-- The memory that a table's tasks write beside its state: its Season table, its user area. -/
def copyOwn (n : Fin 256) (mem : List Host.Cell) (d : Dev) : Dev :=
  copyFrom mem (userArea n) 1024 (copyFrom mem (seaAddr n 0) (4 * d.seaN n) d)

/-- The records of a cycle, as the motion state of its end holds them. -/
def putRecords (m : Motor) (d : Dev) : Dev :=
  d.eachAxis fun (n : Fin 256) (d : Dev) => d.mapAx n fun x => { x with rcd := (m.ax[n]).rcd, arrived := (m.ax[n]).arrived }

/-- What cycle `j` ended with: the state kept at the next tick, or the present one. -/
def Dev.motorAfter (d : Dev) (j : Nat) : Motor :=
  match d.pastAt (j + 1) with
  | some p => p.mot
  | none => d.mot

/-- Table `n` in cycle `j` from the state `s` of commit j − 1, with the tick, the record and the values of other tables as they
were; `mem` is what its tasks have written since. The device of that computation. -/
def rerunTask (n : Fin 256) (s : TableState) (mem : Option (List Host.Cell)) (p : Past) (d : Dev) : Dev :=
  let v := d.asAt p
  let v := { v with red := { v.red with opened := none } }
  let v := match mem with
    | some m => copyOwn n m v
    | none => v
  runKernel n (putRecords (d.motorAfter p.cycle) (cycleBegins p.cycle p.gpio (putCycle p.cycle (putTable n s v))))

/-! ## Replay (R509 to R511) -/

/-- A healthy pair other than the one that runs the table, spare pairs first. -/
def Dev.replayPair (d : Dev) (n : Nat) : Option Nat := (d.tsu.spare ++ d.tsu.work).find? fun p => d.healthy p && p != d.pairOf n

/-- The digest of the command that the replay of table `n` in cycle `k` gives; none where it cannot be computed. -/
def Dev.replayDigest (d : Dev) (n : Fin 256) (k : Nat) : Option Nat :=
  match d.replayPair n, d.pastAt k with
  | some _, some p =>
    let v := rerunTask n ((d.asAt p).tableState n) none p d
    (v.ax n).cmd.map (v.digestOf n)
  | _, _ => none

/-- REPLAY_TASK (R509): the verdict is whether the replay gives the command of the first run. The commanding head journals
MISMATCH and VERDICT; a head that checks reports its verdict as a reply item. -/
def replayTask (n : Fin 256) (d : Dev) : Dev :=
  match d.red.replay with
  | none => d
  | some x =>
    if x.axis = n.val ∧ x.own = none ∧ x.cycle < d.cyc then
      match d.replayDigest n x.cycle with
      | none => if d.commanding then pushDecision (.mismatch n x.cycle) d else d
      | some g =>
        let eq := g == x.digest
        let d := d.redMap fun r => { r with replay := some { x with own := some eq } }
        if d.commanding then pushDecision (.verdict n x.cycle eq) (pushDecision (.mismatch n x.cycle) d)
        else if d.checks then d.redMap fun r => { r with reply := r.reply ++ replyItem 1 n eq x.cycle }
        else d
    else d

/-! ## Repair (R507) -/

/-- The tasks of `m` cycles from `j` on, from the state `s`: each commit takes its place in the mirror buffers. -/
def rerunFrom (n : Fin 256) : Nat → Nat → TableState → Option (List Host.Cell) → Dev → TableState × Option (List Host.Cell) × Dev
  | 0, _, s, mem, d => (s, mem, d)
  | m + 1, j, s, mem, d =>
    match d.pastAt j with
    | none => rerunFrom n m (j + 1) s mem d
    | some p =>
      let v := rerunTask n s mem p d
      let s' := v.tableState n
      rerunFrom n m (j + 1) s' (some v.mem) (adoptCommit j n s' d)

/-- The parts of a repair have come. -/
def Dev.repairCame (d : Dev) (n : Nat) : Bool := (List.range 4).all fun i => d.red.parts.contains (4 * n + i)

/-- REPAIR_INSTALL (R507): the received block is the commit of the cycle named in the entry; the tasks of the cycles since are run
again from the histories, that of the present cycle where it has been run. The row's block is the one that the repair items
brought; with another the row has no effect (notes/assumptions/1.md). -/
def repairInstall (n : Fin 256) (blk : List (BitVec 64)) (d : Dev) : Dev :=
  match d.red.repairs.find? fun x => x.1 == n.val with
  | none => d
  | some (_, c) =>
    if d.checks ∧ d.repairCame n ∧ blk = d.blockCame n then
      let s := Config.stateOf blk
      let last := if d.endedNow n then d.cyc else d.cyc - 1
      let (s, mem, d) := rerunFrom n (last - c) (c + 1) s none (adoptCommit c n s (d.inc pgRED RED.REPAIRS))
      let d := putTable n s d
      let d := match mem with
        | some m => copyOwn n m d
        | none => d
      d.redMap fun r => { r with
        repairs := r.repairs.filter fun x => x.1 != n.val, installed := (n.val, d.cyc) :: r.installed.filter fun x => x.1 != n.val,
        parts := r.parts.filter fun i => i / 4 != n.val }
    else d

/-! ## REPLAY of a joining head (R520, R523) -/

/-- The present stored cycle ends: the records that came in it. -/
def closeStored (d : Dev) : Dev :=
  let recs := d.pairAxes.filterMap fun (n : Fin 256) => if (d.ax n).arrived then some (n.val, (d.ax n).rcd) else none
  d.redMap fun r => { r with stored := r.stored ++ (r.opened.map fun x => { x with recs := recs }).toList, opened := none }

/-- The records of a stored cycle. -/
def putStored (l : List (Nat × AxRec)) (d : Dev) : Dev :=
  d.eachAxis fun (n : Fin 256) (d : Dev) => d.mapAx n fun x =>
    match l.find? fun r => r.1 == n.val with
    | some r => { x with rcd := r.2, arrived := true }
    | none => { x with arrived := false }

/-- A stored cycle is run: its tick, its tasks, the blocks and entries of its mirror slot. -/
def replayCycle (x : Stored) (d : Dev) : Dev :=
  let now := d.cyc
  let k := x.cycle
  let d := keepPast k 0 (putCycle k { d with mot := { d.mot with image := some x.image } })
  let d := tickTables k (evalTick k (tsuAdoptAll (adoptLimits k (seasonTick k (exportAxes d)))))
  let d := outputSwap k (generatorTick k (axesFresh d))
  let d := (putStored x.recs { d with mot := { d.mot with image := none } }).eachAxis fun (n : Fin 256) (d : Dev) =>
    if d.axState n = axDISABLED then d else runKernel n d
  let d := x.blocks.foldl (fun (d : Dev) (b : Nat × List Byte) => d.setMemBytes b.1 b.2) d
  let d := x.entries.foldl (fun (d : Dev) (e : JEntry) => landPeer e d) d
  putCycle now d

/-- Up to `m` of the stored cycles are run, oldest first. -/
def replayCycles : Nat → Dev → Dev
  | 0, d => d
  | m + 1, d =>
    match d.red.stored with
    | [] => d
    | x :: l => replayCycles m (replayCycle x (d.redMap fun r => { r with stored := l }))

/-- At the tick of a cycle a joining head that stores closes the cycle that ended, runs two stored ones in REPLAY
(notes/assumptions/42.md), and, unless none is left then, stores on (R520). -/
def storedTick (d : Dev) : Dev :=
  if d.red.opened.isNone then d
  else
    let d := closeStored d
    let d := if d.rd pgRED RED.RPH = 4 then replayCycles 2 d else d
    if d.rd pgRED RED.RPH = 3 ∨ d.red.stored ≠ [] then openStored (d.eachAxis fun n d => d.mapAx n fun x => { x with arrived := false })
    else d

end Sys2Proof.Machine
end

