-- ==== Sys2Proof/Machine/Cycle.lean ====
section
/-! DEFINITION. The tick, the command window deadline and the rate switch: the order in which one cycle's work is done (spec/02,
spec/95). -/
namespace Sys2Proof.Machine

/-! ## TICK (R31) -/

/-- TICK: the cycle k begins, with the levels of the 32 GPIO pins. -/
def tickDevice (gpio : Word) (d : Dev) : Dev :=
  if d.stage = 0 then d
  else
    let k := d.cyc + 1
    let d := d.at (k * d.period)
    let l := d.openTasks
    let d := putCycle k (cycleEnds (k - 1) l d)
    let d := storedTick (unlessStoring (keepPast k gpio) (reportAborts (k - 1) l d))
    let d := unlessStoring (outputSwap k) (cycleBegins k gpio d)
    let d := safTick k (redTick (timeTick (d.eachRing (ringTick k))))
    raise pgTIM 0 0 (stepYields d)

/-! ## CWD (R41) -/

/-- Is the station that feeds a table muted? -/
def Dev.muted (d : Dev) (n : Nat) : Bool :=
  (d.stepChannel n).isNone &&
  (d.rg ⟨d.rd (pgAxp n) AXP.RING % 4, Nat.mod_lt _ (by decide)⟩).muted.contains (d.rd (pgAxp n) AXP.STA)

/-- Tables fed by a muted station moor (R157); one that is MOORED already latches the fault once (R223). -/
def moorMuted (d : Dev) : Dev :=
  d.eachAxis fun (n : Fin 256) (d : Dev) =>
    let now := d.muted n
    let d := if now && (!(d.ax n).wasMuted || d.axState n != axMOORED) then moorFault n 0x03 d else d
    d.mapAx n fun x => { x with wasMuted := now }

/-- ROLE_DECISION with what it means for entries and writes that wait (R500, R513): where the journal stops they land, where
this head no longer commands they are dropped, and a head that takes command keeps its own outcomes. -/
def decideRole (d : Dev) : Dev :=
  let wait := d.red.wait
  let own := d.red.outcomes
  let d' := roleDecision d
  if d.commanding && d'.commanding && d.journalRuns && !d'.journalRuns then landWaiting (d'.redMap fun r => { r with wait := wait })
  else if d.commanding && !d'.commanding then dropWaiting d'
  else if !d.commanding && d'.commanding then keepOwnOutcomes own d'
  else d'

/-- A joining head whose peer commands no more, or is heard no more (R512), fails (R521; notes/assumptions/42.md). -/
def joinPeer (d : Dev) : Dev :=
  if d.joining && (d.peerLost || (d.red.heard && !d.peerIs [roACTIVE, roALONE] && d.red.role.isSome)) then resyncFail 4 d else d

/-- A local axis with commands on a ring is MOORED where the head does not command (R489). -/
def moorLocal (d : Dev) : Dev :=
  if d.commanding then d
  else
    d.eachAxis fun (n : Fin 256) (d : Dev) =>
      if d.isLocal n && (d.stepChannel n).isNone && d.axState n != axMOORED then moorAxis n d else d

/-- The outcome of a table at the CWD: 0 in time, or MOORED since the start of the cycle; 1 HOLD, 3 a second miss (R41, R44,
R45). -/
def Dev.cwdCode (d : Dev) (n : Fin 256) : Nat :=
  if d.endedNow n || (d.ax n).wasMoored || !d.configured n then 0
  else if d.rd (pgAxp n) AXP.MISSN = 0 then 1 else 3

/-- A table in time clears its count of misses (R45). -/
def cwdInTime (n : Fin 256) (d : Dev) : Dev := d.wr (pgAxp n) AXP.MISSN 0

/-- A miss: OVERRUN of the table, and MISS (R41). -/
def overrunMiss (n : Fin 256) (d : Dev) : Dev := axEvent n 3 (d.inc pgTIM TIM.MISS)

/-- OVERRUN_HOLD (R41). -/
def overrunHold (n : Fin 256) (d : Dev) : Dev :=
  let pg := pgAxp n
  overrunMiss n (((d.mapAx n fun x => { x with holdAt := some d.cyc }).wr pg AXP.MISSN 1).inc pg AXP.HOLDS)

/-- OVERRUN_MOOR (R44): the second miss in a row. -/
def overrunMoor (n : Fin 256) (d : Dev) : Dev :=
  moorFault n 0x01 (overrunMiss n ((d.wr (pgAxp n) AXP.MISSN 2).inc pgTIM TIM.MOOR))

/-- What the CWD does with one table of a head that commands. -/
def cwdAxis (n : Fin 256) (d : Dev) : Dev :=
  match d.cwdCode n with
  | 0 => cwdInTime n d
  | 1 => overrunHold n d
  | _ => overrunMoor n d

/-- A standby notes its own misses; nothing of its own is sent (R500). Its count of misses follows the outcomes of the commanding
head, of which the last one known is that of the cycle before (R47). -/
def cwdNote (n : Fin 256) (d : Dev) : Dev :=
  let d := if (d.ax n).holdAt = some (d.cyc - 1) then d else cwdInTime n d
  match d.cwdCode n with
  | 0 => d
  | c => noteOwnOutcome d.cyc n c d

/-- OVERRUN and OVR_MOOR of the TIM page. -/
def overrunEvents (codes : List Nat) (d : Dev) : Dev :=
  let d := if codes = [] then d else raise pgTIM 2 2 d
  if codes.contains 3 then raise pgTIM 3 3 d else d

/-- The outcomes of the cycle (R41 to R48), journalled where the journal runs (R500). -/
def overruns (d : Dev) : Dev :=
  if !d.runsAxes then d
  else if d.commanding then
    let missed := d.activeAxes.filter fun (n : Fin 256) => d.cwdCode n != 0
    let codes := missed.map fun (n : Fin 256) => (n.val, d.cwdCode n)
    let pair := codes.filter fun (c : Nat × Nat) => !d.isLocal c.1
    let d := overrunEvents (codes.map Prod.snd) (d.eachAxis cwdAxis)
    if pair ≠ [] ∧ d.journalRuns then pushDecision (.outcome d.cyc pair) d else d
  else d.eachAxis cwdNote

/-- INPUT_BANK_SWAP (R54); the new device bank begins with the values last delivered (R55). -/
def inputSwap (d : Dev) : Dev :=
  let newest := d.rd pgTIM TIM.NEWEST
  let dev := 3 - (d.rd pgTIM TIM.PIXI_HOST + newest)
  let area := d.rd pgTIM TIM.OSIZE * 64
  let d := d.copyMem (bankBase dev + area) (bankBase newest + area) (0x8_0000 - area)
  raise pgTIM 1 1 (((d.wr pgTIM TIM.NEWEST dev).wr pgTIM TIM.NEW 1).wr pgTIM TIM.SEQ (d.cyc % 65536))

/-- INSTEP (*RED.RSTAT*): ACTIVE and STANDBY, with no repair, replay or resynchronisation pending. -/
def showInstep (d : Dev) : Dev :=
  let pair := (d.role == roACTIVE && d.peerIs [roSTANDBY]) || (d.role == roSTANDBY && d.peerIs [roACTIVE])
  d.wr pgRED RED.INSTEP (b2n (pair && d.red.repairs.isEmpty && d.red.replay.isNone && d.rd pgRED RED.RPH == 0))

/-- What the CWD decides about the pair (R507 to R528). -/
def cwdPair (d : Dev) : Dev :=
  let d := decideRole (heldRequestEval (noteReach (verdictApply d)))
  showInstep (snapshotCapture (enterReplay (joinPeer d)))

/-- CWD. -/
def cwdDevice (d : Dev) : Dev :=
  if d.stage = 0 then d
  else
    let cwd := d.tickSt + cwdTime d.rate
    let d := cwdPair (moorMuted (d.at cwd))
    let d := overruns (moorLocal d)
    let d := lateTasks 1 (if d.allEnded then cwdSlack cwd d else d)
    buildCommands (inputSwap (cyclePoint 3 d.cyc d))

/-! ## END_OF_UPSTREAM_WINDOW, RATE_SWITCH, SERIAL_FRAME -/

/-- END_OF_UPSTREAM_WINDOW (R40, R128, R354, R490). -/
def upstreamEnds (d : Dev) : Dev :=
  if d.stage = 0 then d
  else
    let d := endOfUpstream d
    mirrorBuild (cyclePoint 2 d.cyc d)

/-- RATE_SWITCH (R53): at the super-cycle boundary announced, after its tick or just before it. A rate for which the assignment
breaks R38 by then is refused, and the present one stays (notes/assumptions/100.md). -/
def rateSwitch (d : Dev) : Dev :=
  match d.time.rateAt with
  | none => d
  | some s =>
    let at' := s * 128000000
    if d.stage = 0 ∨ d.st + d.period < at' then d
    else
      let before := decide (d.st < at')
      let new := d.rd pgTIM TIM.NRATE
      let d := (d.wr pgTIM TIM.RPEND 0).timeMap fun t => { t with rateAt := none }
      if !d.assignOk new d.tsu.work then d.wr pgTIM TIM.NRATE d.rate
      else
        let d := putRateAt (if before then at' / periodOf new - 1 else d.st / periodOf new) new d
        raise pgTIM 5 5 (assignAxes d)

/-- SERIAL_FRAME: the frame started at the tick gives the position sampled at the tick (R174, R182, R387). -/
def serialSampled (c : Fin 8) (delay bits : Nat) (d : Dev) : Dev :=
  let was := d.count c
  let d := serialFrame c delay bits d
  if d.stage = 0 ∨ d.rd (pgFbu c) FBU.MODE ≠ 3 then d
  else
    let s := d.mot.fbu[c]
    let d := { d with mot := { d.mot with fbu := d.mot.fbu.set c { s with now := s.now + (d.count c - was) } } }
    d.eachAxis fun (n : Fin 256) (d : Dev) =>
      let d := if d.lfbChannel n = some c then
          d.mapAx n fun x => { x with loc := { x.loc with pos := d.rd (pgFbu c) FBU.COUNT, fberr := d.on (pgFbu c) FBU.FERR } }
        else d
      -- a latch of this channel is measured from the position of the tick (R279)
      if d.profPar n PRF.HSRC = 1 ∧ d.profPar n PRF.HLAT % 8 = c.val then
        d.mapAx n fun x => { x with latNow := x.latNow.map fun (v : Int) => v - (d.count c - was) }
      else d

end Sys2Proof.Machine
end

