-- ==== Sys2Proof/Machine/HostPath.lean ====
section
/-! DEFINITION. How an access of the host reaches a register (R562 to R568, R589 to R592, R600): the bus errors of an access,
the latches of 64-bit pairs, held writes, what a read returns and clears, and SPI frames. -/
namespace Sys2Proof.Machine

/-! ## The paths -/

/-- Can an access arrive over a path? PCI Express needs the CORE domain and PERST_N high; nothing arrives while PORST_N is low. -/
def Dev.pathUp (d : Dev) (p : Path) : Bool :=
  !d.keep.porst && (match p with
    | .spi => true
    | .pcie => d.stage != 0 && !d.keep.perst)

/-- While 64 writes are held, the endpoint takes nothing (R600). -/
def Dev.stalled (d : Dev) (p : Path) : Bool := p == .pcie && decide (64 ≤ d.host.held.length)

/-- Is an access served now? -/
def Dev.serves (d : Dev) (p : Path) : Bool := d.pathUp p && !d.stalled p

def Dev.latch (d : Dev) (p : Path) : PathLatch :=
  match p with
  | .pcie => d.host.pcie
  | .spi => d.host.spi

def Dev.setLatch (p : Path) (l : PathLatch) (d : Dev) : Dev :=
  match p with
  | .pcie => { d with host := { d.host with pcie := l } }
  | .spi => { d with host := { d.host with spi := l } }

def setHeld (p : Path) (h : Option (Nat × Nat × Word)) (d : Dev) : Dev := d.setLatch p { d.latch p with held := h, since := d.st }

/-- Page, view and offset of a BAR0 offset (R562). -/
def pageOfAddr (a : Nat) : Nat := a / 0x4000
def viewOfAddr (a : Nat) : Nat := a / 0x1000 % 4
def offOfAddr (a : Nat) : Nat := a % 0x1000
def addrOf (page view off : Nat) : Nat := page * 0x4000 + view * 0x1000 + off

/-- 0 outside 64-bit pairs, 1 a low word, 2 a high word. -/
def pairHalf (page off : Nat) : Nat :=
  match (clsOf page).bind fun c => regRow c off with
  | some r => r.pair
  | none => 0

/-- Is the shape of a request one of R564: one whole word, or both words of a pair in the page view? -/
def oneWord (addr len be : Nat) : Bool := len == 1 && be % 16 == 15 && addr % 4 == 0
def twoWords (addr len be : Nat) : Bool :=
  len == 2 && be == 255 && addr % 8 == 0 && viewOfAddr addr == 0 && pairHalf (pageOfAddr addr) (offOfAddr addr) == 1

/-! ## Writes -/

/-- The bus error a write request meets (*Bus error causes*). -/
def Dev.writeFault (d : Dev) (q : BusWrite) : Option Nat :=
  let page := pageOfAddr q.addr
  let off := offOfAddr q.addr
  let lo := q.data.toNat % 2 ^ 32
  if 2 ^ 24 ≤ q.addr then some 1
  else if !d.answers page then some 1
  else if oneWord q.addr q.len q.be.toNat then d.writeCause q.path page (d.selAhead page off) (viewOfAddr q.addr) off lo
  else if twoWords q.addr q.len q.be.toNat then
    match d.writeCause q.path page (d.selAhead page off) 0 off lo with
    | some c => some c
    | none => d.writeCause q.path page (d.selAhead page (off + 4)) 0 (off + 4) (q.data.toNat / 2 ^ 32)
  else some 2

/-- PUB as HIF holds it. -/
def pubWrite : HostWrite := ⟨pgTIM, 0, TIM.ACQ.off, 2, none⟩

/-- A write of PIXCTL (R56, R57, R61): ACQ acts at once; PUB is journalled, and held as a request on a STANDBY. -/
def takePixctl (v : Nat) (d : Dev) : Taken × Dev :=
  let acq := fun (d : Dev) => if bitOf v 0 then pixAcq d else d
  if !bitOf v 1 then (.done, acq d)
  else if d.role = roSTANDBY then (.done, disagree pubWrite (acq d))
  else if !d.journalRuns then (.done, pixPub (acq d))
  else if d.host.held = [] ∧ d.red.wait.length < 1024 then (.done, pushEntry .pub (acq d))
  else match holdWrite pubWrite d with
    | (.retry, d) => (.retry, d)
    | (.done, d) => (.done, acq d)

/-- A write whose words are complete: the watchdog kick, PIXCTL, or a register. -/
def deliver (p : Path) (w : HostWrite) (d : Dev) : Taken × Dev :=
  if w.page = pgSTG ∧ w.off = STG.KEY.off then (.done, watchdogKick p w.value.toNat d)
  else if w.page = pgTIM ∧ w.off = TIM.ACQ.off then takePixctl w.value.toNat d
  else submit w d

/-- A held low word lands alone (R565); it stays held while it cannot be taken. -/
def flushHeld (p : Path) (d : Dev) : Taken × Dev :=
  match (d.latch p).held with
  | none => (.done, d)
  | some (page, off, v) =>
    match submit ⟨page, 0, off, v, none⟩ d with
    | (.retry, _) => (.retry, d)
    | (.done, d) => (.done, setHeld p none d)

/-- Is the held low word of a path the pair that a write of `off` belongs to? -/
def Dev.ownPair (d : Dev) (p : Path) (page view off : Nat) : Bool :=
  match (d.latch p).held with
  | none => true
  | some (pg, o, _) => view == 0 && pg == page && (o == off || o + 4 == off)

/-- The write that a 32-bit write of the page view completes: with the held low word of its pair, or alone. -/
def Dev.completes (d : Dev) (p : Path) (page view off : Nat) (v : Word) : HostWrite :=
  match (d.latch p).held with
  | some (pg, o, lo) => if view = 0 ∧ pg = page ∧ o + 4 = off then ⟨page, 0, o, lo, some v⟩ else ⟨page, view, off, v, none⟩
  | none => ⟨page, view, off, v, none⟩

/-- A 32-bit write that no bus error stops (R565). -/
def writeWord (p : Path) (page view off : Nat) (v : Word) (d : Dev) : Taken × Dev :=
  match (if d.ownPair p page view off then (.done, d) else flushHeld p d) with
  | (.retry, d) => (.retry, d)
  | (.done, d) =>
    if view = 0 ∧ pairHalf page off = 1 then (.done, setHeld p (some (page, off, v)) d)
    else match deliver p (d.completes p page view off v) d with
      | (.retry, d) => (.retry, d)
      | (.done, d) => (.done, setHeld p none d)

/-- A write of both words of a pair. -/
def writePair (p : Path) (page off : Nat) (lo hi : Word) (d : Dev) : Taken × Dev :=
  match (if d.ownPair p page 0 off then (.done, d) else flushHeld p d) with
  | (.retry, d) => (.retry, d)
  | (.done, d) =>
    match submit ⟨page, 0, off, lo, some hi⟩ d with
    | (.retry, d) => (.retry, d)
    | (.done, d) => (.done, setHeld p none d)

/-- A write request: the SPI status code it ends with, and its effect. -/
def hostWrite (q : BusWrite) (d : Dev) : Nat × Dev :=
  match d.writeFault q with
  | some c => (1, busError q.path 0 q.addr true c d)
  | none =>
    let page := pageOfAddr q.addr
    let off := offOfAddr q.addr
    let r := if q.len = 2 then writePair q.path page off (q.data.setWidth 32) (BitVec.ofNat 32 (q.data.toNat / 2 ^ 32)) d
      else writeWord q.path page (viewOfAddr q.addr) off (q.data.setWidth 32) d
    match r with
    | (.done, d) => (0, d)
    | (.retry, d) => (3, d.inc pgSPM SPM.RETRY)

/-! ## What a read shows -/

/-- IRQ0_N or IRQ1_N is driven low (R596): `pin` is its routing bit. -/
def Dev.irqLow (d : Dev) (pin : Fld) : Bool :=
  (List.range 256).any fun n => d.on pgEVT (pin.nth 4 n) && bitOf (d.rd pgEVT (EVT.EPEND.nth 4 (n / 32))) (n % 32)

/-- The field `f` of a word shows `v`. -/
def showFld (f : Fld) (v : Nat) (w : Word) : Word := BitVec.ofNat 32 (putBits w.toNat f.lsb f.width v)

/-- PHASE (*TIM.TPHASE*), `t` after the tick. At an instant that two windows share, where the spec names no precedence, the later
window shows at the ends of the sample and the upstream window, the earlier one at the CWD (notes/assumptions/117.md). -/
def phaseAt (rate t : Nat) : Nat :=
  if t < upStart rate then 0
  else if t < upEnd rate then 1
  else if t ≤ mirrorEnd rate then 2
  else if t ≤ cwdTime rate then 3
  else if t ≤ cmdEnd rate then 4
  else if t < asyncStart rate then 5
  else if t ≤ asyncEnd rate then 6
  else if t < nitStart rate then 5
  else 7

def Dev.tphase (d : Dev) : Nat :=
  let t := d.st - d.tickSt
  phaseAt d.rate t + t / 16 * 2 ^ 8

/-- Do axis tasks run on a pair? What they issue is not the model's to count. -/
def Dev.axisTasks (d : Dev) (pair : Nat) : Bool := d.tsu.assign.any fun (a : Nat × Nat) => a.2 == pair

/-- The count of corrected errors that a register holds: errors are corrected with no command of the table, so a read finds the
count as it last stood and as many more as the model leaves free (R12, R346, notes/assumptions/111.md). -/
def Dev.corrections (d : Dev) (page off : Nat) : Option Fld :=
  match clsOf page with
  | some .cep => if off = CEP.CORR.off then some CEP.CORR else none
  | some .glb =>
    if d.stage = 0 then none
    else if off = GLB.DECC_CORR.off then some GLB.DECC_CORR
    else if off = GLB.SECC_CORR.off then some GLB.SECC_CORR
    else none
  | _ => none

/-- A count of corrected errors as a read finds it. -/
def Dev.corrected (d : Dev) (page : Nat) (f : Fld) (w : Word) : Word :=
  showFld f (min 0xFFFF (d.rd page f + d.openBits 16)) w

/-- Does a read of the register return a value the model leaves free? -/
def Dev.freeRead (d : Dev) (page off : Nat) : Bool :=
  (d.corrections page off).isSome || match clsOf page with
  | some .cep => off == CEP.WAIT.off || (off == CEP.ISS.off && d.axisTasks (page - 0x20))
  | some .tsu => decide (TSU.BUSY.off ≤ off) && decide (off < TSU.STORE_OCC.off)
  | some .glb => off == GLB.TJ.off && d.stage != 0
  | some .mfe => off == MFE.P5OK.off && d.mfe.fault
  | some .hif => off == HIF.SPEED.off && d.on pgHIF HIF.LUP
  | _ => false

/-- LSTAT of a link that is up: generation and width as trained, BME as the host has set it. -/
def Dev.linkWord (d : Dev) : Nat :=
  let o := d.openBits 8
  1 + o % 4 + 2 ^ (o / 4 % 4 % 3) * 2 ^ 3 + 2 ^ 6 + o / 16 % 2 * 2 ^ 7

/-- Is the unit streaming through a DMA engine (R480)? -/
def Dev.streams (d : Dev) (e u : Nat) : Bool := d.on (pgCapu u) CAPU.DRAIN && d.rd (pgCapu u) CAPU.DSEL == e

/-- Does the unit of an axis or device task use it (*TSU.TCTL*, TEN): a configured table, a path group with members, a capture
unit whose record a task post-processes? -/
def Dev.taskUsed (d : Dev) (task : Nat) : Bool :=
  if task < 256 then d.configured (axisNo task)
  else if h : task - 256 < 8 then d.rd (pgPgrp (task - 256)) PGRP.GSTATE != 0 || (d.mot.grp[task - 256]).segs != []
  else task < 280 && d.measList ⟨(task - 264) % 16, Nat.mod_lt _ (by decide)⟩ != []

/-- PLOAD of a pair (*TSU.PLOAD*): the clocks of the engine, 1 ns each, that it was busy in a cycle, and their percentage. -/
def Dev.loadWord (d : Dev) : Nat :=
  let all := d.period / 16
  let busy := d.openBits 32 % (all + 1)
  busy + busy * 100 / all * 2 ^ 18

def Dev.shownTsu (d : Dev) (sel off : Nat) (w : Word) : Word :=
  if off = TSU.FSTAT_OCC.off then
    let p := (d.tsu.ofFlow sel fun s => s == .pending).length
    showFld TSU.PEND p (showFld TSU.STALL (b2n (decide (0 < p))) (showFld TSU.FSTAT_OCC (d.tsu.occ sel) w))
  else if off = TSU.TEN.off ∧ sel < 288 then showFld TSU.TEN (b2n (d.taskUsed sel)) w
  else if TSU.DEPTH.off ≤ off ∧ off < TSU.BUSY.off then showFld TSU.DEPTH (min 4095 (d.readyAt ((off - TSU.DEPTH.off) / 4))) w
  else if off = TSU.STORE_OCC.off then showFld TSU.STORE_OCC (min 4095 d.tsu.occAll) w
  else if d.freeRead pgTSU off then BitVec.ofNat 32 d.loadWord
  else w

/-- Axis tables whose Season state is `s`. -/
def Dev.seaCount (d : Dev) (s : Nat) : Nat := ((List.range 256).filter fun n => d.rdS pgSEA n SEA.STAT_SSTATE == s).length

/-- CTAG of a compare unit shows the tag of its last output edge (R397). -/
def Dev.shownTag (d : Dev) (c : Fin 8) (off : Nat) (w : Word) : Word :=
  if off = FBU.CTAGLO.off then BitVec.ofNat 32 ((d.fbu c).cmp[(0 : Fin 2)]).tag
  else if off = FBU.CTAGLO.off + 4 then BitVec.ofNat 32 (((d.fbu c).cmp[(0 : Fin 2)]).tag / 2 ^ 32)
  else if off = FBU.CTAGLO.off + 0x20 then BitVec.ofNat 32 ((d.fbu c).cmp[(1 : Fin 2)]).tag
  else if off = FBU.CTAGLO.off + 0x24 then BitVec.ofNat 32 (((d.fbu c).cmp[(1 : Fin 2)]).tag / 2 ^ 32)
  else w

def Dev.shownHif (d : Dev) (off : Nat) (w : Word) : Word :=
  if off = HIF.SPEED.off then (if d.freeRead pgHIF off then BitVec.ofNat 32 d.linkWord else w)
  else if off = HIF.VID.off then showFld HIF.VID Config.vendorId.toNat w
  else if off = HIF.HELD.off then showFld HIF.HELD d.host.held.length w
  else if off = HIF.MSIXPBA.off then
    BitVec.ofNat 32 ((List.finRange 32).foldl (fun (acc : Nat) (v : Fin 32) => acc + b2n (d.evt.msgPending.get v) * 2 ^ v.val) 0)
  else w

/-- What a register shows: its stored value, with the fields that show the state of the unit. -/
def Dev.shown (d : Dev) (page sel off : Nat) : Word :=
  let w := d.reg page sel off
  match d.corrections page off with
  | some f => d.corrected page f w
  | none =>
  match clsOf page with
  | some .glb =>
    if d.stage = 0 ∧ GLB.PASSES.off ≤ off then 0
    else if d.freeRead page off then BitVec.ofNat 32 (d.openBits 12)
    else w
  | some .stg => if off = STG.WDLEFT.off then showFld STG.WDLEFT (min (2 ^ STG.WDLEFT.width - 1) d.wdLeft) w else w
  | some .tim =>
    if off = TIM.PHASE.off then BitVec.ofNat 32 d.tphase
    else if off = TIM.STLO.off then BitVec.ofNat 32 d.st
    else w
  | some .evt => if off = EVT.IRQ0.off then showFld EVT.IRQ1 (b2n (d.irqLow EVT.PIN1)) (showFld EVT.IRQ0 (b2n (d.irqLow EVT.PIN0)) w) else w
  | some .hif => d.shownHif off w
  | some .tsu => d.shownTsu sel off w
  | some .dmc =>
    if 0x040 ≤ off ∧ (off - 0x040) % 0x20 = 0x18 then
      BitVec.ofNat 32 ((List.range 16).foldl (fun (acc : Nat) u => acc + b2n (d.streams ((off - 0x040) / 0x20) u) * 2 ^ u) 0)
    else w
  | some .ring => if off = RING.STOPTX.off then showFld RING.STOPTX (b2n (d.on pgSAF SAF.HOLD)) w else w
  | some .cep =>
    if d.freeRead page off then BitVec.ofNat 32 (d.openBits 18)
    else if off = CEP.CWDATLO.off then BitVec.ofNat 32 (d.cwRead ⟨(page - 0x20) % 18, Nat.mod_lt _ (by decide)⟩)
    else if off = CEP.CWDATHI.off then BitVec.ofNat 32 (d.cwRead ⟨(page - 0x20) % 18, Nat.mod_lt _ (by decide)⟩ / 2 ^ 32)
    else w
  | some .cap => if off = CAP.THR.off then showFld CAP.THR (b2n d.capHeld) w else w
  | some .mfe => if d.freeRead page off then w ||| BitVec.ofNat 32 (d.openBits 5) else w
  | some .fbu => d.shownTag ⟨(page - 0x60) % 8, Nat.mod_lt _ (by decide)⟩ off w
  | some .sea =>
    if off = SEA.NLEARN.off then showFld SEA.NFREEZE (d.seaCount 2) (showFld SEA.NLEARN (d.seaCount 1) w)
    else if 0x800 ≤ off then
      BitVec.ofNat 32 ((d.reg page ((off - 0x800) / 4) SEA.STAT_SSTATE.off).toNat % 2 ^ 6)
    else w
  | some .axp => if off = AXP.LOCAL.off then showFld AXP.LOCAL (b2n (d.isLocal (page - 0x100))) w else w
  | _ => w

/-! ## Reads -/

/-- The bus error a read request meets. -/
def Dev.readFault (d : Dev) (q : BusRead) : Option Nat :=
  let page := pageOfAddr q.addr
  let off := offOfAddr q.addr
  if 2 ^ 24 ≤ q.addr then some 1
  else if !d.answers page then some 1
  else if !(oneWord q.addr q.len q.be.toNat || twoWords q.addr q.len q.be.toNat) then some 2
  else match (clsOf page).bind fun c => regRow c off with
    | none => some 1
    | some r =>
      if viewOfAddr q.addr ≠ 0 ∨ r.wo ≠ 0 then some 3
      else if clsOf page = some .cep ∧ CEP.CWDATLO.off ≤ off ∧ !d.cwOpen ⟨(page - 0x20) % 18, Nat.mod_lt _ (by decide)⟩ then some 5
      else none

/-- A read clears the RC bits it returned as 1, unless PEEK is set (R566). -/
def clearOnRead (page sel off : Nat) (v : Word) (d : Dev) : Dev :=
  match (clsOf page).bind fun c => regRow c off with
  | none => d
  | some r =>
    if r.rc = 0 ∨ d.on pgGLB GLB.PEEK then d
    else d.setReg page sel off (d.reg page sel off &&& ~~~(v &&& BitVec.ofNat 32 r.rc))

/-- A read of a register itself; `clears` where its RC bits clear. -/
def readReg (clears : Bool) (page off : Nat) (d : Dev) : Word × Dev :=
  let sel := d.selOf page off
  let v := d.shown page sel off
  let d := if (d.corrections page off).isSome then d.setReg page sel off v else d
  let d := if d.freeRead page off then d.openUsed else d
  let d := if page = pgTIM ∧ off = TIM.STLO.off then d.setReg pgTIM 0 TIM.STHI.off (BitVec.ofNat 32 (d.st / 2 ^ 32)) else d
  (v, if clears then clearOnRead page sel off v d else d)

/-- The latched high word that a read of `off` returns, if one stands (R565). -/
def Dev.latchedHigh (d : Dev) (p : Path) (page off : Nat) : Option Word :=
  match (d.latch p).high with
  | some (pg, o, v) => if pg = page ∧ o = off then some v else none
  | none => none

/-- A read of the low word of a pair ends what the path holds of another pair (R565). -/
def Dev.otherPair (d : Dev) (p : Path) (page off : Nat) : Dev :=
  if (d.latchedHigh p page (off + 4)).isSome then d else d.setLatch p { d.latch p with high := none }

/-- A 32-bit read over a path (R565). -/
def readWord (p : Path) (clears : Bool) (page off : Nat) (d : Dev) : Word × Dev :=
  match d.latchedHigh p page off with
  | some v => (v, d.setLatch p { d.latch p with high := none })
  | none =>
    let r := readReg clears page off d
    if pairHalf page off = 1 then
      let hi := r.2.shown page (r.2.selOf page (off + 4)) (off + 4)
      (r.1, r.2.setLatch p { r.2.latch p with high := some (page, off + 4, hi) })
    else r

/-- A read request that no bus error stops: the words it returns. -/
def readWords (clears : Bool) (q : BusRead) (d : Dev) : List Word × Dev :=
  let page := pageOfAddr q.addr
  let off := offOfAddr q.addr
  if q.len = 2 then
    let lo := readReg clears page off d
    let hi := readReg clears page (off + 4) lo.2
    ([lo.1, hi.1], hi.2.otherPair q.path page off)
  else
    let r := readWord q.path clears page off d
    ([r.1], r.2)

/-! ## SPI (R589 to R591) -/

/-- The STATUS byte. -/
def Dev.spiStatus (d : Dev) (code : Nat) : Byte :=
  BitVec.ofNat 8 (code + d.stage * 2 ^ 4 + b2n (d.stage != 0 && d.irqLow EVT.PIN1) * 2 ^ 6)

/-- A response of the port, after `lead` bytes of 0xFF, in a frame of `n` bytes; a frame that reaches its 14th byte is complete.
-/
def spiRespond (n lead : Nat) (code : Nat) (data : List Byte) (d : Dev) : Dev :=
  let r := d.spiStatus code :: data
  let all := List.replicate lead 0xFF ++ r ++ [BitVec.ofNat 8 (crc8 r)] ++ List.replicate (n - 14) 0xFF
  (if 14 ≤ n then d.incW pgSPM SPM.SCNT else d).emit (.miso (all.take n))

/-- A read over SPI: code, data, effect. -/
def spiReadCore (clears : Bool) (addr : Nat) (d : Dev) : Nat × Word × Dev :=
  let q : BusRead := ⟨.spi, addr, 1, 0xF⟩
  match d.readFault q with
  | some c => (1, 0, busError .spi 0 addr false c d)
  | none =>
    let r := readWords clears q d
    (0, r.1.headD 0, r.2)

/-- The access of a READ frame of `n` bytes, and its response. -/
def spiReadAt (n addr : Nat) (d : Dev) : Dev :=
  let r := spiReadCore (decide (14 ≤ n)) addr d
  spiRespond n 8 r.1 (bytesBE 4 r.2.1.toNat) r.2.2

/-- The access of a WRITE frame of `n` bytes, and its response. -/
def spiWriteAt (n addr : Nat) (v : Word) (d : Dev) : Dev :=
  let r := hostWrite ⟨.spi, addr, 1, 0xF, v.setWidth 64⟩ d
  spiRespond n 12 r.1 [] r.2

/-- Does SPI_CS_N rise before the last request byte (R591)? A frame with an unknown CMD is one of six request bytes. -/
def spiShort (mosi : List Byte) : Bool := decide (mosi.length < (if mosi.headD 0 = 2 then 10 else 6))

/-- A frame cut short has no effect but FRMERR (R591). -/
def spiAbort (d : Dev) : Dev := raise pgSPM 1 1 (d.inc pgSPM SPM.FRMERR)

/-- One SPI frame (R589). -/
def spiFrame (mosi : List Byte) (d : Dev) : Dev :=
  let n := mosi.length
  let addr := numBE ((mosi.drop 1).take 4)
  let crcBad := fun (m : Nat) => crc8 (mosi.take m) != (mosi.getD m 0).toNat
  let badCrc := fun (d : Dev) => raise pgSPM 0 0 (d.inc pgSPM SPM.CRCERR)
  if !d.pathUp .spi then d
  else if spiShort mosi then spiAbort d
  else match (mosi.headD 0).toNat with
    | 1 => if crcBad 5 then spiRespond n 8 2 (bytesBE 4 0) (badCrc d) else spiReadAt n addr d
    | 2 =>
      if crcBad 9 then spiRespond n 12 2 [] (badCrc d)
      else spiWriteAt n addr (BitVec.ofNat 32 (numBE ((mosi.drop 5).take 4))) d
    | _ => spiRespond n 8 4 (bytesBE 4 0) (d.inc pgSPM SPM.CMDERR)

/-! ## Accesses -/

/-- A write request (R564): over SPI it is a whole WRITE frame. -/
def writeAccess (q : BusWrite) (d : Dev) : Dev :=
  if !d.serves q.path then d
  else match q.path with
    | .pcie => if 2 ^ 24 ≤ q.addr then d else (hostWrite q d).2
    | .spi =>
      let r := hostWrite q d
      spiRespond 14 12 r.1 [] r.2

/-- A read request over PCI Express: completion with data, or a Completer Abort (R569). -/
def pcieRead (q : BusRead) (d : Dev) : Dev :=
  if q.len = 1 ∧ q.be.toNat % 16 = 0 then d.emit (.completion (some [0]))
  else match d.readFault q with
    | some c => (busError .pcie 0 q.addr false c d).emit (.completion none)
    | none =>
      let r := readWords true q d
      r.2.emit (.completion (some r.1))

/-- A read request (R564): over SPI it is a whole READ frame. -/
def readAccess (q : BusRead) (d : Dev) : Dev :=
  if !d.serves q.path then d
  else match q.path with
    | .pcie => if 2 ^ 24 ≤ q.addr then d else pcieRead q d
    | .spi => spiReadAt 14 q.addr d

/-- One 32-bit write of a register in a view. -/
def writeReg (p : Path) (page view off : Nat) (v : Word) : Dev → Dev :=
  writeAccess ⟨p, addrOf page view off, 1, 0xF, v.setWidth 64⟩

/-- One 32-bit read. -/
def readAt (p : Path) (addr : Nat) : Dev → Dev := readAccess ⟨p, addr, 1, 0xF⟩

/-- A command of a page: a write of its PCMD (R570). -/
def pageCommand (p : Path) (page code : Nat) (arg : BitVec 16) : Dev → Dev :=
  writeReg p page 0 HDR.PCMD_CODE.off (BitVec.ofNat 32 (code + arg.toNat * 2 ^ 16))

/-- A write through an alias view, at the register an offset of BAR0 names (R567). -/
def aliasWrite (p : Path) (view : Nat) (addr : BitVec 24) (v : Word) : Dev → Dev :=
  writeReg p (pageOfAddr addr.toNat) view (offOfAddr addr.toNat) v

/-- The held low word of a path lands alone 10 µs after it was written (R565). -/
def heldTimeout (p : Path) (d : Dev) : Dev :=
  if d.pathUp p && (d.latch p).held.isSome then (flushHeld p (d.at ((d.latch p).since + 160000))).2 else d

end Sys2Proof.Machine
end

