-- ==== Sys2Proof/Machine/HostBar.lean ====
section
/-! DEFINITION. BAR2 and BAR4 (R577 to R580), the DMA engines (R480, R586 to R588), the parity scrubber (R575), and the hold of
MSI-X vectors (R595). -/
namespace Sys2Proof.Machine

/-! ## The maps -/

/-- A part of a BAR: offsets `[lo, hi)` stand at model addresses from `base` on; the bus error cause of a write, if writes are
refused; whether a STANDBY or SILENT head discards writes, and a journalling one marks them (R497, R498); the end of the region of
the map it belongs to. -/
structure BarRegion where
  lo : Nat
  hi : Nat
  base : Nat
  write : Option Nat
  data : Bool
  last : Nat
deriving DecidableEq, Repr

/-- *BAR2 map*. The image region takes writes while LSTEP is WAITHOST or FAILED (R543). -/
def Dev.bar2 (d : Dev) : List BarRegion :=
  [⟨0x000_0000, 0x400_0000, dramSeason, some 1, false, 0x400_0000⟩,
   ⟨0x400_0000, 0xC00_0000, dramCapture, some 4, false, 0xC00_0000⟩,
   ⟨0xC00_0000, 0xD00_0000, dramCam, none, true, 0xD00_0000⟩,
   ⟨0xD00_0000, 0xE00_0000, dramImage, if d.lstep = 3 ∨ d.lstep = 7 then none else some 1, false, 0xE00_0000⟩,
   ⟨0xE00_0000, 0xF00_0000, dramStaging, some 4, false, 0xF00_0000⟩,
   ⟨0xF00_0000, 0xF40_0000, dramMailRx, some 4, false, 0xF80_0000⟩,
   ⟨0xF40_0000, 0xF80_0000, dramMailTx, none, false, 0xF80_0000⟩,
   ⟨0xF80_0000, 0xF80_4000, dramLog, some 4, false, 0xF80_4000⟩,
   ⟨0xF80_4000, 0x1000_0000, dramLog + 0x4000, none, false, 0x1000_0000⟩]

/-- Bytes of the output area (R580). -/
def Dev.outputSize (d : Dev) : Nat := min 0x8_0000 (d.rd pgTIM TIM.OSIZE * 64)

/-- *BAR4 map*. -/
def Dev.bar4 (d : Dev) : List BarRegion :=
  let o := d.outputSize
  [⟨0, o, bankBase (d.rd pgTIM TIM.PIXO_HOST), none, true, 0x8_0000⟩,
   ⟨o, 0x8_0000, bankBase (d.rd pgTIM TIM.PIXI_HOST) + o, some 4, false, 0x8_0000⟩,
   ⟨0x8_0000, 0x10_0000, bankBase 0, some 4, false, 0x10_0000⟩,
   ⟨0x10_0000, 0x18_0000, bankBase 1, some 4, false, 0x18_0000⟩,
   ⟨0x18_0000, 0x20_0000, bankBase 2, some 4, false, 0x20_0000⟩,
   ⟨0x20_0000, 0x20_4000, dramLog, some 4, false, 0x20_4000⟩,
   ⟨0x80_0000, 0xC0_0000, dramMailRx, some 4, false, 0xC0_0000⟩,
   ⟨0xC0_0000, 0x100_0000, dramMailTx, none, false, 0x100_0000⟩]

/-- The regions of a space: 1 BAR2, 2 BAR4. -/
def Dev.bar (d : Dev) (space : Nat) : List BarRegion := if space = 1 then d.bar2 else d.bar4

/-- The region an offset lies in. -/
def regionAt (l : List BarRegion) (off : Nat) : Option BarRegion := l.find? fun (r : BarRegion) => decide (r.lo ≤ off) && decide (off < r.hi)

/-- The cause for which a byte is refused. -/
def byteCause (l : List BarRegion) (off : Nat) : Option Nat :=
  match regionAt l off with
  | none => some 1
  | some r => r.write

/-- The bytes of a request that its byte enables select, with their offsets. -/
def enabledBytes (off : Nat) (bytes : List (Option Byte)) : List (Nat × Byte) :=
  ((List.range bytes.length).zip bytes).filterMap fun (x : Nat × Option Byte) => x.2.map fun b => (off + x.1, b)

/-- One byte lands. -/
def barByte (l : List BarRegion) (off : Nat) (b : Byte) (d : Dev) : Dev :=
  match regionAt l off with
  | none => d
  | some r =>
    let a := r.base + (off - r.lo)
    let d := d.setMem8 a b
    if r.data then markBlocks a 1 d else d

/-- Does the offset lie in data that a STANDBY or SILENT head discards? -/
def discarded (l : List BarRegion) (off : Nat) : Bool :=
  match regionAt l off with
  | none => false
  | some r => r.data

/-- Bytes that no map refuses land, or are discarded (R497, R498). -/
def barLand (space : Nat) (cells : List (Nat × Byte)) (d : Dev) : Dev :=
  let l := d.bar space
  if d.discardsData && cells.any fun (c : Nat × Byte) => discarded l c.1 then noteDiscard d
  else cells.foldl (fun (d : Dev) (c : Nat × Byte) => barByte l c.1 c.2 d) d

/-- A posted write to BAR2 or BAR4. -/
def barWrite (space off : Nat) (bytes : List (Option Byte)) (d : Dev) : Dev :=
  if !d.serves .pcie then d
  else
    let cells := enabledBytes off bytes
    match (cells.filterMap fun (c : Nat × Byte) => byteCause (d.bar space) c.1).head? with
    | some c => busError .pcie space off true c d
    | none => barLand space cells d

/-- What a host read of `len` bytes returns, part by part. -/
def barBytes (l : List BarRegion) (off len : Nat) (d : Dev) : List Byte :=
  l.flatMap fun (r : BarRegion) =>
    let a := max off r.lo
    d.memBytes (r.base + (a - r.lo)) (min (off + len) r.hi - a)

/-- Does a range of a BAR hold a byte with an uncorrectable error? -/
def barBad (l : List BarRegion) (off len : Nat) (d : Dev) : Bool :=
  l.any fun (r : BarRegion) =>
    let a := max off r.lo
    d.badIn (r.base + (a - r.lo)) (min (off + len) r.hi - a)

/-- Does a range of a BAR hold a byte that the map refuses to write? -/
def barRefused (l : List BarRegion) (off len : Nat) : Bool :=
  l.any fun (r : BarRegion) => r.write.isSome && decide (max off r.lo < min (off + len) r.hi)

/-- Data leave for host memory in transfers of up to 4 KB (R588); `fuel` covers the longest descriptor. -/
def dmaOut : Nat → Nat → List Byte → Dev → Dev
  | 0, _, _, d => d
  | fuel + 1, haddr, bs, d =>
    if bs = [] then d else dmaOut fuel (haddr + 4096) (bs.drop 4096) (d.emit (.dma haddr (bs.take 4096)))

/-! ## DMA descriptors (R586, R587) -/

def Dev.dmcRing (d : Dev) (e : Nat) : Nat := 2 ^ max 4 (min 12 (d.rd pgDMC (DMC.DLOG.nth 0x20 e)))

/-- DBASE, with bits [4:0] ignored. -/
def Dev.dmcBase (d : Dev) (e : Nat) : Nat := d.rd64 pgDMC 0 (DMC.DBASELO.off + 0x20 * e) / 32 * 32

/-- The error a descriptor meets: 0 for none. -/
def Dev.dmaError (d : Dev) (desc : List Byte) (hostErr : Bool) : Nat :=
  let addr := numLE ((desc.drop 8).take 4)
  let len := numLE ((desc.drop 12).take 3)
  let flags := (desc.getD 16 0).toNat
  let l := d.bar (if bitOf flags 1 then 2 else 1)
  if len = 0 ∨ 7 < flags then 3
  else match regionAt l addr with
    | none => 1
    | some r =>
      if bitOf flags 0 && barRefused l addr (min len (r.last - addr)) then 1
      else if r.last < addr + len then 4
      else if hostErr then 2
      else if !bitOf flags 0 && barBad l addr len d then 5
      else 0

/-- The transfer of a descriptor that meets no error. `data` is what the host memory at HADDR holds. -/
def dmaMove (desc data : List Byte) (d : Dev) : Dev :=
  let haddr := numLE (desc.take 8)
  let addr := numLE ((desc.drop 8).take 4)
  let len := numLE ((desc.drop 12).take 3)
  let flags := (desc.getD 16 0).toNat
  let space := if bitOf flags 1 then 2 else 1
  if bitOf flags 0 then barLand space ((List.range len).map fun i => (addr + i, data.getD i 0)) d
  else dmaOut 4096 haddr (barBytes (d.bar space) addr len d) d

/-- STATUS is written and DHEAD passes the descriptor. -/
def dmaStatus (e code : Nat) (d : Dev) : Dev :=
  let h := d.rd pgDMC (DMC.DHEAD.nth 0x20 e) % d.dmcRing e
  (d.emit (.dma (d.dmcBase e + 32 * h + 20) (bytesLE 4 (1 + 2 * code)))).wr pgDMC (DMC.DHEAD.nth 0x20 e) ((h + 1) % d.dmcRing e)

/-- May engine `e` process a descriptor now? -/
def Dev.dmaReady (d : Dev) (e : Nat) : Bool :=
  d.pathUp .pcie && d.on pgDMC (DMC.EN.nth 0x20 e) && !d.on pgDMC (DMC.HALT.nth 0x20 e) &&
  d.rd pgDMC (DMC.DHEAD.nth 0x20 e) % d.dmcRing e != d.rd pgDMC (DMC.DTAIL.nth 0x20 e) % d.dmcRing e

/-- DMA_DESCRIPTOR: engine `e` processes the descriptor at DHEAD. -/
def dmaDescriptor (e : Nat) (desc data : List Byte) (hostErr : Bool) (d : Dev) : Dev :=
  if !d.dmaReady e then d
  else
    let code := d.dmaError desc hostErr
    if code ≠ 0 then
      -- with an ECC error the data is copied as read (R587)
      let d := if code = 5 then dmaMove desc data d else d
      let d := (dmaStatus e code d).wr pgDMC (DMC.ERR.nth 0x20 e) code
      raise pgDMC (4 + e) (4 + e) (d.wr pgDMC (DMC.HALT.nth 0x20 e) 1)
    else
      let d := (dmaStatus e 0 (dmaMove desc data d)).incW pgDMC (DMC.DONE.nth 0x20 e)
      if bitOf (desc.getD 16 0).toNat 2 then raise pgDMC e e d else d

/-! ## Capture streaming (R480) -/

/-- Bytes of the unit's buffer at byte count `count`. -/
def Dev.capBytes (d : Dev) (u : Fin 16) (count n : Nat) : List Byte := (List.range n).map fun i => d.mem8 (d.capAddr u (count + i))

/-- Bytes at host ring count `w` go out, in two pieces where they wrap. -/
def ringOut (base size w : Nat) (bs : List Byte) (d : Dev) : Dev :=
  let o := w % size
  let d := d.emit (.dma (base + o) (bs.take (size - o)))
  if bs.length ≤ size - o then d else d.emit (.dma base (bs.drop (size - o)))

/-- Bytes one transfer moves: what is available, what the credit covers, 4 KB at most. -/
def Dev.streamBytes (d : Dev) (u : Fin 16) : Nat :=
  let pg := pgCapu u
  let ready := (d.rd pg CAPU.ACNT + 2 ^ 32 - d.rd pg CAPU.RCNT) % 2 ^ 32
  let used := (d.rd pg CAPU.HWCNT + 2 ^ 32 - d.rd pg CAPU.HREL) % 2 ^ 32
  min 4096 (min ready (2 ^ d.rd pg CAPU.HLOG - used))

/-- Records whose last byte the transfer has copied raise REC (R486). -/
def streamRecords (u : Fin 16) (before n : Nat) (d : Dev) : Dev :=
  let done := fun (x : Nat × Nat) => decide ((x.1 + 2 ^ 32 - before) % 2 ^ 32 ≤ n)
  let l := (d.capUnit u).toCopy
  let d := d.setCapUnit u { d.capUnit u with toCopy := l.filter fun (x : Nat × Nat) => !done x }
  (l.filter done).foldl (fun (d : Dev) (x : Nat × Nat) => raise (pgCapu u) 1 (x.2 % 2 ^ 16) d) d

/-- CECC for every record of which the transfer reads a byte with an uncorrectable error (R481). -/
def streamEcc (u : Fin 16) (before n : Nat) (d : Dev) : Dev :=
  let hits := (List.range n).filter fun i => d.badIn (d.capAddr u (before + i)) 1
  let owner := fun (i : Nat) => (d.capUnit u).toCopy.find? fun (x : Nat × Nat) => decide (i < (x.1 + 2 ^ 32 - before) % 2 ^ 32)
  let seqs := (hits.filterMap owner).map Prod.snd
  seqs.eraseDups.foldl (fun (d : Dev) (s : Nat) => raise (pgCapu u) 5 (s % 2 ^ 16) d) d

/-- The host ring of a unit: HBASE, whose bits [11:0] are ignored. -/
def Dev.hostRing (d : Dev) (u : Fin 16) : Nat := d.rd64 (pgCapu u) 0 CAPU.HBASELO.off / 4096 * 4096

/-- DMA_TRANSFER: engine `e` moves bytes of a unit that streams through it. -/
def dmaTransfer (e : Nat) (u : Fin 16) (d : Dev) : Dev :=
  let pg := pgCapu u
  let n := d.streamBytes u
  if !d.pathUp .pcie ∨ !d.streams e u ∨ n = 0 then d
  else
    let r := d.rd pg CAPU.RCNT
    let w := d.rd pg CAPU.HWCNT
    let d := ringOut (d.hostRing u) (2 ^ d.rd pg CAPU.HLOG) w (d.capBytes u r n) d
    streamRecords u r n (((streamEcc u r n d).wr pg CAPU.HWCNT (w + n)).wr pg CAPU.RCNT (r + n))

/-! ## The parity scrubber (R575) -/

/-- Every table that `p` names is moored with PAGE_PARITY. -/
def moorWhere (p : Dev → Fin 256 → Bool) (d : Dev) : Dev :=
  let l := (List.finRange 256).filter fun (n : Fin 256) => d.configured n && p d n
  l.foldl (fun (d : Dev) (n : Fin 256) => moorFault n 0x05 d) d

/-- A slave on a master of kind `kind` whose index `p` admits. -/
def Dev.slaveOf (d : Dev) (n kind : Nat) (p : Nat → Bool) : Bool :=
  decide (2 ≤ d.par n AXP.SPSRC) && d.par n AXP.MKIND == kind && p (d.par n AXP.MIDX)

/-- The pulse input whose registers an SGU offset holds. -/
def sguPulse (off : Nat) : Option Nat := if 0x040 ≤ off ∧ off < 0x080 then some ((off - 0x040) / 0x10) else none

/-- *Parity reactions*. -/
def parityReaction (r : RegRef) (d : Dev) : Dev :=
  match clsOf r.page with
  | some .axp => moorWhere (fun _ n => n.val == r.page - 0x100) d
  | some .prf => moorWhere (fun _ n => n.val == r.sel) d
  | some .sea => moorWhere (fun _ n => n.val == r.sel) d
  | some .pgrp =>
    let g : Fin 8 := ⟨(r.page - 0xC0) % 8, Nat.mod_lt _ (by decide)⟩
    let m := (d.grp g).mem
    moorWhere (fun _ n => m.contains n.val) d
  | some .cep =>
    let a := d.tsu.assign
    moorWhere (fun _ n => a.contains (n.val, r.page - 0x20)) d
  | some .fbu =>
    let c := r.page - 0x60
    moorWhere (fun d n => (d.par n AXP.LFB == 1 && d.par n AXP.LFBCH == c) || d.slaveOf n 0 (· == c)) d
  | some .sgu =>
    match sguPulse r.off with
    | some i => moorWhere (fun d n => d.slaveOf n 1 (· == i)) d
    | none => if 0x0A0 ≤ r.off then moorWhere (fun d n => n.val == d.rdS pgSGU r.sel SGU.RAX) d else d
  | some .sgc => moorWhere (fun d n => n.val == d.rd r.page SGC.SAX) d
  | some .mfc =>
    let c := r.page - 0x41
    moorWhere (fun d n => d.slaveOf n 2 (fun i => i / 8 == c)) d
  | some .glb | some .tim | some .ring | some .sys | some .red | some .tsu => if d.stage = 0 then d else dropLantern 9 d
  | some .saf => safTrip 6 SAF.TRIPC 0 d
  | _ => d

/-- Does the scrubber report a register: an RW register of a page that answers, not yet reported? -/
def Dev.reports (d : Dev) (r : RegRef) : Bool :=
  d.answers r.page && !d.host.reported.contains r &&
  (match (clsOf r.page).bind fun c => regRow c r.off with
    | some x => x.rw != 0
    | none => false)

/-- A register found with a parity mismatch. -/
def parityFound (d : Dev) (r : RegRef) : Dev :=
  if !d.reports r then d
  else
    let d := { d with host := { d.host with reported := r :: d.host.reported } }
    let d := if d.on r.page HDR.V then d else (d.wr r.page HDR.OFS r.off).wr r.page HDR.V 1
    let d := ((d.wr pgGLB GLB.PAGE r.page).wr pgGLB GLB.WOFS (r.off / 4)).wr pgGLB GLB.WSEL r.sel
    parityReaction r (raise pgGLB 0 r.page (d.inc pgGLB GLB.PCNT))

/-- PARITY_SCRUB: a pass of the scrubber, with the registers whose parity it finds wrong. -/
def parityScrub (bad : List RegRef) (d : Dev) : Dev :=
  if d.keep.porst then d else bad.foldl parityFound (d.incW pgGLB GLB.PASSES)

/-! ## MSI-X (R595) -/

/-- MSIX_HOLD_EXPIRE: HOLD has passed for a vector with a request pending. -/
def msixHoldExpire (v : Fin 32) (d : Dev) : Dev :=
  match d.evt.lastMsg.get v with
  | none => d
  | some t =>
    if d.stage = 0 ∨ d.evt.msgPending.get v = false then d
    else msixRequest v (d.at (t + d.msixHold v))

/-! ## Effects of commands -/

/-- A command with the effect `f` on the device; the fuses stay as they are. -/
def State.act (s : State) (f : Dev → Dev) : Host.Outcome State Fault Refusal := .next { s with dev := f s.dev }

/-- CWDAT_ACCESS (R347): a read or a write of a word of CWDAT. -/
def cwdatAccess (p : Path) (pair : Fin 18) (hi : Bool) (write : Option Word) : Dev → Dev :=
  let off := if hi then CEP.CWDATHI.off else CEP.CWDATLO.off
  match write with
  | none => readAt p (addrOf (pgCep pair) 0 off)
  | some v => writeReg p (pgCep pair) 0 off v

/-- SPI_FRAME_ABORT (R591): SPI_CS_N rises before the last request byte of the frame. -/
def spiCut (mosi : List Byte) (d : Dev) : Dev := if spiShort mosi then spiFrame mosi d else d

end Sys2Proof.Machine
end

