-- ==== Sys2Proof/Machine/AxisCmd.lean ====
section
/-! DEFINITION. The meanings of commands: axis tables, Season unit, profiles, path groups. Each is the effect of one row of the
opcode table on the state. -/
namespace Sys2Proof.Machine

/-- AXIS_TASK_RUN (R165). -/
def execAxisTaskRun (n : AxisId) (t : Nat) (s : State) : Host.Outcome State Fault Refusal :=
  s.act (axisTaskRun n t)

/-- MSIX_HOLD_EXPIRE (R595). -/
def execMsixHoldExpire (v : Fin 32) (s : State) : Host.Outcome State Fault Refusal :=
  s.act (msixHoldExpire v)

/-- ENABLE (R228). -/
def execEnable (p : Path) (n : AxisId) (arg : BitVec 16) (s : State) : Host.Outcome State Fault Refusal :=
  s.act (pageCommand p (pgAxp n) 0x01 arg)

/-- DISABLE (R228). -/
def execDisable (p : Path) (n : AxisId) (arg : BitVec 16) (s : State) : Host.Outcome State Fault Refusal :=
  s.act (pageCommand p (pgAxp n) 0x02 arg)

/-- AXP_HALT (R228). -/
def execAxpHalt (p : Path) (n : AxisId) (arg : BitVec 16) (s : State) : Host.Outcome State Fault Refusal :=
  s.act (pageCommand p (pgAxp n) 0x03 arg)

/-- START (R228). -/
def execStart (p : Path) (n : AxisId) (arg : BitVec 16) (s : State) : Host.Outcome State Fault Refusal :=
  s.act (pageCommand p (pgAxp n) 0x04 arg)

/-- SWAP (R208). -/
def execSwap (p : Path) (n : AxisId) (arg : BitVec 16) (s : State) : Host.Outcome State Fault Refusal :=
  s.act (pageCommand p (pgAxp n) 0x05 arg)

/-- CLEAR (R225). -/
def execClear (p : Path) (n : AxisId) (arg : BitVec 16) (s : State) : Host.Outcome State Fault Refusal :=
  s.act (pageCommand p (pgAxp n) 0x06 arg)

/-- MOOR (R228). -/
def execMoor (p : Path) (n : AxisId) (arg : BitVec 16) (s : State) : Host.Outcome State Fault Refusal :=
  s.act (pageCommand p (pgAxp n) 0x07 arg)

/-- AXP_CLRCNT (R228). -/
def execAxpClrcnt (p : Path) (n : AxisId) (arg : BitVec 16) (s : State) : Host.Outcome State Fault Refusal :=
  s.act (pageCommand p (pgAxp n) 0x08 arg)

/-- DEFERRED_EVALUATION (R212). -/
def execDeferredEvaluation (n : AxisId) (s : State) : Host.Outcome State Fault Refusal :=
  s.act (deferredEvaluation n)

/-- AXP_WRITE (R206). -/
def execAxpWrite (p : Path) (n : AxisId) (off : Nat) (value : Word) (s : State) : Host.Outcome State Fault Refusal :=
  s.act (writeReg p (pgAxp n) 0 (off % 0x1000) value)

/-- LEARN (R248). -/
def execLearn (p : Path) (arg : BitVec 16) (s : State) : Host.Outcome State Fault Refusal :=
  s.act (pageCommand p pgSEA 0x01 arg)

/-- FREEZE (R248). -/
def execFreeze (p : Path) (arg : BitVec 16) (s : State) : Host.Outcome State Fault Refusal :=
  s.act (pageCommand p pgSEA 0x02 arg)

/-- SEA_OFF (R248). -/
def execSeaOff (p : Path) (arg : BitVec 16) (s : State) : Host.Outcome State Fault Refusal :=
  s.act (pageCommand p pgSEA 0x03 arg)

/-- SEA_RESET (R248). -/
def execSeaReset (p : Path) (arg : BitVec 16) (s : State) : Host.Outcome State Fault Refusal :=
  s.act (pageCommand p pgSEA 0x04 arg)

/-- COPY (R248). -/
def execCopy (p : Path) (arg : BitVec 16) (s : State) : Host.Outcome State Fault Refusal :=
  s.act (pageCommand p pgSEA 0x05 arg)

/-- SEA_CLRCNT (R248). -/
def execSeaClrcnt (p : Path) (arg : BitVec 16) (s : State) : Host.Outcome State Fault Refusal :=
  s.act (pageCommand p pgSEA 0x06 arg)

/-- SEA_DONE (R250). -/
def execSeaDone (n : AxisId) (s : State) : Host.Outcome State Fault Refusal :=
  s.act (seaDone n)

/-- MOVE (R267). -/
def execMove (p : Path) (arg : BitVec 16) (s : State) : Host.Outcome State Fault Refusal :=
  s.act (pageCommand p pgPRF 0x01 arg)

/-- QUEUE (R267). -/
def execQueue (p : Path) (arg : BitVec 16) (s : State) : Host.Outcome State Fault Refusal :=
  s.act (pageCommand p pgPRF 0x02 arg)

/-- FLUSH (R267). -/
def execFlush (p : Path) (arg : BitVec 16) (s : State) : Host.Outcome State Fault Refusal :=
  s.act (pageCommand p pgPRF 0x03 arg)

/-- HOME (R278). -/
def execHome (p : Path) (arg : BitVec 16) (s : State) : Host.Outcome State Fault Refusal :=
  s.act (pageCommand p pgPRF 0x04 arg)

/-- PRF_CLRCNT (R267). -/
def execPrfClrcnt (p : Path) (arg : BitVec 16) (s : State) : Host.Outcome State Fault Refusal :=
  s.act (pageCommand p pgPRF 0x05 arg)

/-- GSTART (R290). -/
def execGstart (p : Path) (g : GroupId) (arg : BitVec 16) (s : State) : Host.Outcome State Fault Refusal :=
  s.act (pageCommand p (pgPgrp g) 0x01 arg)

/-- GHOLD (R291). -/
def execGhold (p : Path) (g : GroupId) (arg : BitVec 16) (s : State) : Host.Outcome State Fault Refusal :=
  s.act (pageCommand p (pgPgrp g) 0x02 arg)

/-- GRESUME (R291). -/
def execGresume (p : Path) (g : GroupId) (arg : BitVec 16) (s : State) : Host.Outcome State Fault Refusal :=
  s.act (pageCommand p (pgPgrp g) 0x03 arg)

/-- GABORT (R291). -/
def execGabort (p : Path) (g : GroupId) (arg : BitVec 16) (s : State) : Host.Outcome State Fault Refusal :=
  s.act (pageCommand p (pgPgrp g) 0x04 arg)

/-- PGRP_CLRCNT (R302). -/
def execPgrpClrcnt (p : Path) (g : GroupId) (arg : BitVec 16) (s : State) : Host.Outcome State Fault Refusal :=
  s.act (pageCommand p (pgPgrp g) 0x05 arg)

end Sys2Proof.Machine
end

