-- ==== Sys2Proof/Machine/CaptureCmd.lean ====
section
/-! DEFINITION. The meanings of commands: capture engine. Each is the effect of one row of the opcode table on the state. -/
namespace Sys2Proof.Machine

/-- EDGE_PROBE_EDGE (R457). -/
def execEdgeProbeEdge (e : BitVec 6) (rising : Bool) (t : Nat) (s : State) : Host.Outcome State Fault Refusal :=
  s.act (edgeProbeEdge e rising t)

/-- AUTO_TIMEOUT (R468). -/
def execAutoTimeout (u : CapId) (t : Nat) (s : State) : Host.Outcome State Fault Refusal :=
  s.act (autoTimeout u t)

/-- REARM_DONE (R466). -/
def execRearmDone (u : CapId) (t : Nat) (s : State) : Host.Outcome State Fault Refusal :=
  s.act (rearmDone u t)

/-- ARM (R464). -/
def execArm (p : Path) (u : CapId) (arg : BitVec 16) (s : State) : Host.Outcome State Fault Refusal :=
  s.act (pageCommand p (pgCapu u) 0x01 arg)

/-- CAPU_STOP (R470). -/
def execCapuStop (p : Path) (u : CapId) (arg : BitVec 16) (s : State) : Host.Outcome State Fault Refusal :=
  s.act (pageCommand p (pgCapu u) 0x02 arg)

/-- FORCE (R470). -/
def execForce (p : Path) (u : CapId) (arg : BitVec 16) (s : State) : Host.Outcome State Fault Refusal :=
  s.act (pageCommand p (pgCapu u) 0x03 arg)

/-- CAPU_RESET (R485). -/
def execCapuReset (p : Path) (u : CapId) (arg : BitVec 16) (s : State) : Host.Outcome State Fault Refusal :=
  s.act (pageCommand p (pgCapu u) 0x04 arg)

/-- CAPU_CLRCNT (R485). -/
def execCapuClrcnt (p : Path) (u : CapId) (arg : BitVec 16) (s : State) : Host.Outcome State Fault Refusal :=
  s.act (pageCommand p (pgCapu u) 0x05 arg)

/-- CAP_CLRCNT (R483). -/
def execCapClrcnt (p : Path) (arg : BitVec 16) (s : State) : Host.Outcome State Fault Refusal :=
  s.act (pageCommand p pgCAP 0x01 arg)

/-- RCNT_WRITE (R479). -/
def execRcntWrite (p : Path) (u : CapId) (value : Word) (s : State) : Host.Outcome State Fault Refusal :=
  s.act (writeReg p (pgCapu u) 0 CAPU.RCNT.off value)

/-- HREL_WRITE (R480). -/
def execHrelWrite (p : Path) (u : CapId) (value : Word) (s : State) : Host.Outcome State Fault Refusal :=
  s.act (writeReg p (pgCapu u) 0 CAPU.HREL.off value)

/-- THROTTLE (R483). -/
def execThrottle (s : State) : Host.Outcome State Fault Refusal :=
  s.act throttle

end Sys2Proof.Machine
end

