-- ==== Sys2Proof/Machine/CycleCmd.lean ====
section
/-! DEFINITION. The meanings of commands: the control cycle and the process image. Each is the effect of one row of the opcode
table on the state. -/
namespace Sys2Proof.Machine

/-- TICK (R31). -/
def execTick (gpio : Word) (s : State) : Host.Outcome State Fault Refusal :=
  s.act (tickDevice gpio)

/-- END_OF_UPSTREAM_WINDOW (R40). -/
def execEndOfUpstreamWindow (s : State) : Host.Outcome State Fault Refusal :=
  s.act upstreamEnds

/-- BEACON_MISS_LIMIT (R133). -/
def execBeaconMissLimit (s : State) : Host.Outcome State Fault Refusal :=
  s.act beaconMissLimit

/-- RING_POOL_DISAGREE (R136). -/
def execRingPoolDisagree (r : RingId) (s : State) : Host.Outcome State Fault Refusal :=
  s.act (ringPoolDisagree r)

/-- SLOT_MUTE (R157). -/
def execSlotMute (r : RingId) (slot : Byte) (s : State) : Host.Outcome State Fault Refusal :=
  s.act (slotMute r slot.toNat)

/-- OWN_SLOT_VIOLATED (R161). -/
def execOwnSlotViolated (r : RingId) (s : State) : Host.Outcome State Fault Refusal :=
  s.act (ownSlotViolated r)

/-- CWD (R41). -/
def execCwd (s : State) : Host.Outcome State Fault Refusal :=
  s.act cwdDevice

/-- HELD_REQUEST_EXPIRE (R519). -/
def execHeldRequestExpire (s : State) : Host.Outcome State Fault Refusal :=
  s.act heldRequestExpire

/-- NIT_START (R129). -/
def execNitStart (s : State) : Host.Outcome State Fault Refusal :=
  s.act startNit

/-- ASYNC_WINDOW_START (R111). -/
def execAsyncWindowStart (s : State) : Host.Outcome State Fault Refusal :=
  s.act asyncWindowStart

/-- SETRATE (R52). -/
def execSetrate (p : Path) (arg : BitVec 16) (s : State) : Host.Outcome State Fault Refusal :=
  s.act (pageCommand p pgTIM 0x01 arg)

/-- RATE_SWITCH (R53). -/
def execRateSwitch (s : State) : Host.Outcome State Fault Refusal :=
  s.act rateSwitch

/-- TIM_CLRCNT (R63). -/
def execTimClrcnt (p : Path) (arg : BitVec 16) (s : State) : Host.Outcome State Fault Refusal :=
  s.act (pageCommand p pgTIM 0x02 arg)

/-- PIXCTL_ACQ (R56). -/
def execPixctlAcq (p : Path) (s : State) : Host.Outcome State Fault Refusal :=
  s.act (writeReg p pgTIM 0 TIM.ACQ.off 1)

/-- PIXCTL_PUB (R57). -/
def execPixctlPub (p : Path) (s : State) : Host.Outcome State Fault Refusal :=
  s.act (writeReg p pgTIM 0 TIM.ACQ.off 2)

end Sys2Proof.Machine
end

