-- ==== Sys2Proof/Machine/EngineCmd.lean ====
section
/-! DEFINITION. The meanings of commands: engine pairs and the task scheduler. Each is the effect of one row of the opcode table
on the state. -/
namespace Sys2Proof.Machine

/-- NOP (R321). -/
def execNop (pair : PairId) (w : FmtP) (s : State) : Host.Outcome State Fault Refusal :=
  s.act (pairIssue pair (insNop w))

/-- MAC (R316). -/
def execMac (pair : PairId) (w : FmtP) (s : State) : Host.Outcome State Fault Refusal :=
  s.act (pairIssue pair (insMac w))

/-- MSU (R316). -/
def execMsu (pair : PairId) (w : FmtP) (s : State) : Host.Outcome State Fault Refusal :=
  s.act (pairIssue pair (insMsu w))

/-- MPY (R316). -/
def execMpy (pair : PairId) (w : FmtP) (s : State) : Host.Outcome State Fault Refusal :=
  s.act (pairIssue pair (insMpy w))

/-- FTAP (R322). -/
def execFtap (pair : PairId) (w : FmtP) (s : State) : Host.Outcome State Fault Refusal :=
  s.act (pairIssue pair (insFtap w))

/-- ADDA (R321). -/
def execAdda (pair : PairId) (w : FmtP) (s : State) : Host.Outcome State Fault Refusal :=
  s.act (pairIssue pair (insAdda w))

/-- SUBA (R321). -/
def execSuba (pair : PairId) (w : FmtP) (s : State) : Host.Outcome State Fault Refusal :=
  s.act (pairIssue pair (insSuba w))

/-- CLRA (R321). -/
def execClra (pair : PairId) (w : FmtP) (s : State) : Host.Outcome State Fault Refusal :=
  s.act (pairIssue pair (insClra w))

/-- ADD (R321). -/
def execAdd (pair : PairId) (w : FmtR) (s : State) : Host.Outcome State Fault Refusal :=
  s.act (pairIssue pair (insAdd w))

/-- SUB (R321). -/
def execSub (pair : PairId) (w : FmtR) (s : State) : Host.Outcome State Fault Refusal :=
  s.act (pairIssue pair (insSub w))

/-- AND (R321). -/
def execAnd (pair : PairId) (w : FmtR) (s : State) : Host.Outcome State Fault Refusal :=
  s.act (pairIssue pair (insAnd w))

/-- OR (R321). -/
def execOr (pair : PairId) (w : FmtR) (s : State) : Host.Outcome State Fault Refusal :=
  s.act (pairIssue pair (insOr w))

/-- XOR (R321). -/
def execXor (pair : PairId) (w : FmtR) (s : State) : Host.Outcome State Fault Refusal :=
  s.act (pairIssue pair (insXor w))

/-- ASH (R321). -/
def execAsh (pair : PairId) (w : FmtR) (s : State) : Host.Outcome State Fault Refusal :=
  s.act (pairIssue pair (insAsh w))

/-- LSH (R321). -/
def execLsh (pair : PairId) (w : FmtR) (s : State) : Host.Outcome State Fault Refusal :=
  s.act (pairIssue pair (insLsh w))

/-- MOV (R321). -/
def execMov (pair : PairId) (w : FmtR) (s : State) : Host.Outcome State Fault Refusal :=
  s.act (pairIssue pair (insMov w))

/-- CMP (R321). -/
def execCmp (pair : PairId) (w : FmtR) (s : State) : Host.Outcome State Fault Refusal :=
  s.act (pairIssue pair (insCmp w))

/-- MIN (R321). -/
def execMin (pair : PairId) (w : FmtR) (s : State) : Host.Outcome State Fault Refusal :=
  s.act (pairIssue pair (insMin w))

/-- MAX (R321). -/
def execMax (pair : PairId) (w : FmtR) (s : State) : Host.Outcome State Fault Refusal :=
  s.act (pairIssue pair (insMax w))

/-- ABS (R321). -/
def execAbs (pair : PairId) (w : FmtR) (s : State) : Host.Outcome State Fault Refusal :=
  s.act (pairIssue pair (insAbs w))

/-- SAT (R321). -/
def execSat (pair : PairId) (w : FmtR) (s : State) : Host.Outcome State Fault Refusal :=
  s.act (pairIssue pair (insSat w))

/-- LDA (R321). -/
def execLda (pair : PairId) (w : FmtR) (s : State) : Host.Outcome State Fault Refusal :=
  s.act (pairIssue pair (insLda w))

/-- STA (R318). -/
def execSta (pair : PairId) (w : FmtR) (s : State) : Host.Outcome State Fault Refusal :=
  s.act (pairIssue pair (insSta w))

/-- SHA (R321). -/
def execSha (pair : PairId) (w : FmtR) (s : State) : Host.Outcome State Fault Refusal :=
  s.act (pairIssue pair (insSha w))

/-- EXPA (R321). -/
def execExpa (pair : PairId) (w : FmtR) (s : State) : Host.Outcome State Fault Refusal :=
  s.act (pairIssue pair (insExpa w))

/-- RNDA (R321). -/
def execRnda (pair : PairId) (w : FmtR) (s : State) : Host.Outcome State Fault Refusal :=
  s.act (pairIssue pair (insRnda w))

/-- SATA (R321). -/
def execSata (pair : PairId) (w : FmtR) (s : State) : Host.Outcome State Fault Refusal :=
  s.act (pairIssue pair (insSata w))

/-- LDAW (R321). -/
def execLdaw (pair : PairId) (w : FmtR) (s : State) : Host.Outcome State Fault Refusal :=
  s.act (pairIssue pair (insLdaw w))

/-- STAW (R318). -/
def execStaw (pair : PairId) (w : FmtR) (s : State) : Host.Outcome State Fault Refusal :=
  s.act (pairIssue pair (insStaw w))

/-- SINCOS (R323). -/
def execSincos (pair : PairId) (w : FmtR) (s : State) : Host.Outcome State Fault Refusal :=
  s.act (pairIssue pair (insSincos w))

/-- DIVI (R324). -/
def execDivi (pair : PairId) (w : FmtR) (s : State) : Host.Outcome State Fault Refusal :=
  s.act (pairIssue pair (insDivi w))

/-- DIVS (R324). -/
def execDivs (pair : PairId) (w : FmtR) (s : State) : Host.Outcome State Fault Refusal :=
  s.act (pairIssue pair (insDivs w))

/-- DIVF (R324). -/
def execDivf (pair : PairId) (w : FmtR) (s : State) : Host.Outcome State Fault Refusal :=
  s.act (pairIssue pair (insDivf w))

/-- DREM (R324). -/
def execDrem (pair : PairId) (w : FmtR) (s : State) : Host.Outcome State Fault Refusal :=
  s.act (pairIssue pair (insDrem w))

/-- MOVA (R328). -/
def execMova (pair : PairId) (w : FmtR) (s : State) : Host.Outcome State Fault Refusal :=
  s.act (pairIssue pair (insMova w))

/-- MOVS (R309). -/
def execMovs (pair : PairId) (w : FmtR) (s : State) : Host.Outcome State Fault Refusal :=
  s.act (pairIssue pair (insMovs w))

/-- RDT (R338). -/
def execRdt (pair : PairId) (w : FmtR) (s : State) : Host.Outcome State Fault Refusal :=
  s.act (pairIssue pair (insRdt w))

/-- JMP (R312). -/
def execJmp (pair : PairId) (w : FmtC) (s : State) : Host.Outcome State Fault Refusal :=
  s.act (pairIssue pair (insJmp w))

/-- CALL (R312). -/
def execCall (pair : PairId) (w : FmtC) (s : State) : Host.Outcome State Fault Refusal :=
  s.act (pairIssue pair (insCall w))

/-- RET (R312). -/
def execRet (pair : PairId) (w : FmtC) (s : State) : Host.Outcome State Fault Refusal :=
  s.act (pairIssue pair (insRet w))

/-- REP (R325). -/
def execRep (pair : PairId) (w : FmtC) (s : State) : Host.Outcome State Fault Refusal :=
  s.act (pairIssue pair (insRep w))

/-- BRKL (R327). -/
def execBrkl (pair : PairId) (w : FmtC) (s : State) : Host.Outcome State Fault Refusal :=
  s.act (pairIssue pair (insBrkl w))

/-- YIELD (R331). -/
def execYield (pair : PairId) (w : FmtC) (s : State) : Host.Outcome State Fault Refusal :=
  s.act (pairIssue pair (insYield w))

/-- DONE (R332). -/
def execDone (pair : PairId) (w : FmtC) (s : State) : Host.Outcome State Fault Refusal :=
  s.act (pairIssue pair (insDone w))

/-- POST (R333). -/
def execPost (pair : PairId) (w : FmtC) (s : State) : Host.Outcome State Fault Refusal :=
  s.act (pairIssue pair (insPost w))

/-- BKPT (R343). -/
def execBkpt (pair : PairId) (w : FmtC) (s : State) : Host.Outcome State Fault Refusal :=
  s.act (pairIssue pair (insBkpt w))

/-- LD (R321). -/
def execLd (pair : PairId) (w : FmtM) (s : State) : Host.Outcome State Fault Refusal :=
  s.act (pairIssue pair (insLd w))

/-- ST (R321). -/
def execSt (pair : PairId) (w : FmtM) (s : State) : Host.Outcome State Fault Refusal :=
  s.act (pairIssue pair (insSt w))

/-- PAIR_FAULT (R345). -/
def execPairFault (pair : PairId) (cause : PairCause) (s : State) : Host.Outcome State Fault Refusal :=
  s.act (faultPair pair (causeCode cause))

/-- UNCORRECTABLE_ECC (R13). -/
def execUncorrectableEcc (site : EccSite) (s : State) : Host.Outcome State Fault Refusal :=
  s.act (uncorrectable site)

/-- CEP_HALT (R348). -/
def execCepHalt (p : Path) (pair : PairId) (arg : BitVec 16) (s : State) : Host.Outcome State Fault Refusal :=
  s.act (pageCommand p (pgCep pair) 0x01 arg)

/-- STEP (R348). -/
def execStep (p : Path) (pair : PairId) (arg : BitVec 16) (s : State) : Host.Outcome State Fault Refusal :=
  s.act (pageCommand p (pgCep pair) 0x02 arg)

/-- CEP_RESUME (R348). -/
def execCepResume (p : Path) (pair : PairId) (arg : BitVec 16) (s : State) : Host.Outcome State Fault Refusal :=
  s.act (pageCommand p (pgCep pair) 0x03 arg)

/-- BIST (R348). -/
def execBist (p : Path) (pair : PairId) (arg : BitVec 16) (s : State) : Host.Outcome State Fault Refusal :=
  s.act (pageCommand p (pgCep pair) 0x04 arg)

/-- INJECT (R348). -/
def execInject (p : Path) (pair : PairId) (arg : BitVec 16) (s : State) : Host.Outcome State Fault Refusal :=
  s.act (pageCommand p (pgCep pair) 0x05 arg)

/-- REVIVE (R346). -/
def execRevive (p : Path) (pair : PairId) (arg : BitVec 16) (s : State) : Host.Outcome State Fault Refusal :=
  s.act (pageCommand p (pgCep pair) 0x06 arg)

/-- CEP_CLRCNT (R348). -/
def execCepClrcnt (p : Path) (pair : PairId) (arg : BitVec 16) (s : State) : Host.Outcome State Fault Refusal :=
  s.act (pageCommand p (pgCep pair) 0x07 arg)

/-- BIST_COMPLETE (R346). -/
def execBistComplete (pair : PairId) (pass : Bool) (s : State) : Host.Outcome State Fault Refusal :=
  s.act (bistComplete pair pass)

/-- CWDAT_ACCESS (R347). -/
def execCwdatAccess (p : Path) (pair : PairId) (hi : Bool) (write : Option Word) (s : State) : Host.Outcome State Fault Refusal :=
  s.act (cwdatAccess p pair hi write)

/-- TASK_DISPATCH (R361). -/
def execTaskDispatch (task : TaskId) (t : Nat) (s : State) : Host.Outcome State Fault Refusal :=
  s.act (taskDispatch task t)

/-- TASK_RESUME (R362). -/
def execTaskResume (task : TaskId) (s : State) : Host.Outcome State Fault Refusal :=
  s.act (taskResume task)

/-- REPLAY_TASK (R509). -/
def execReplayTask (n : AxisId) (s : State) : Host.Outcome State Fault Refusal :=
  s.act (replayTask n)

/-- TRIGGER (R380). -/
def execTrigger (p : Path) (arg : BitVec 16) (s : State) : Host.Outcome State Fault Refusal :=
  s.act (pageCommand p pgTSU 0x01 arg)

/-- CANCEL (R380). -/
def execCancel (p : Path) (arg : BitVec 16) (s : State) : Host.Outcome State Fault Refusal :=
  s.act (pageCommand p pgTSU 0x02 arg)

/-- TSU_CLRCNT (R380). -/
def execTsuClrcnt (p : Path) (arg : BitVec 16) (s : State) : Host.Outcome State Fault Refusal :=
  s.act (pageCommand p pgTSU 0x03 arg)

/-- TSU_WRITE_ADOPT (R378). -/
def execTsuWriteAdopt (task : TaskId) (s : State) : Host.Outcome State Fault Refusal :=
  s.act (tsuWriteAdopt task)

end Sys2Proof.Machine
end

