-- ==== Sys2Proof/Machine/HostCmd.lean ====
section
/-! DEFINITION. The meanings of commands: host interface, and the events listed last in the table. Each is the effect of one row
of the opcode table on the state. -/
namespace Sys2Proof.Machine

/-- REGISTER_WRITE (R564). -/
def execRegisterWrite (q : BusWrite) (s : State) : Host.Outcome State Fault Refusal :=
  s.act (writeAccess q)

/-- RC_READ (R566). -/
def execRcRead (p : Path) (addr : BitVec 24) (s : State) : Host.Outcome State Fault Refusal :=
  s.act (readAt p addr.toNat)

/-- PAIR_LOW_READ (R565). -/
def execPairLowRead (p : Path) (addr : BitVec 24) (s : State) : Host.Outcome State Fault Refusal :=
  s.act (readAt p addr.toNat)

/-- PAIR_LOW_WRITE (R565). -/
def execPairLowWrite (p : Path) (addr : BitVec 24) (value : Word) (s : State) : Host.Outcome State Fault Refusal :=
  s.act (writeAccess ⟨p, addr.toNat, 1, 0xF, value.setWidth 64⟩)

/-- HELD_LOW_WORD_TIMEOUT (R565). -/
def execHeldLowWordTimeout (p : Path) (s : State) : Host.Outcome State Fault Refusal :=
  s.act (heldTimeout p)

/-- ALIAS_SET (R567). -/
def execAliasSet (p : Path) (addr : BitVec 24) (value : Word) (s : State) : Host.Outcome State Fault Refusal :=
  s.act (aliasWrite p 1 addr value)

/-- ALIAS_CLR (R567). -/
def execAliasClr (p : Path) (addr : BitVec 24) (value : Word) (s : State) : Host.Outcome State Fault Refusal :=
  s.act (aliasWrite p 2 addr value)

/-- ALIAS_TOG (R567). -/
def execAliasTog (p : Path) (addr : BitVec 24) (value : Word) (s : State) : Host.Outcome State Fault Refusal :=
  s.act (aliasWrite p 3 addr value)

/-- PARITY_SCRUB (R575). -/
def execParityScrub (bad : List RegRef) (s : State) : Host.Outcome State Fault Refusal :=
  s.act (parityScrub bad)

/-- BAR2_WRITE (R577). -/
def execBar2Write (off : BitVec 28) (bytes : List (Option Byte)) (s : State) : Host.Outcome State Fault Refusal :=
  s.act (barWrite 1 off.toNat bytes)

/-- BAR4_WRITE (R580). -/
def execBar4Write (off : BitVec 24) (bytes : List (Option Byte)) (s : State) : Host.Outcome State Fault Refusal :=
  s.act (barWrite 2 off.toNat bytes)

/-- DMA_DESCRIPTOR (R586). -/
def execDmaDescriptor (e : DmaId) (desc : List Byte) (data : List Byte) (hostErr : Bool) (s : State) : Host.Outcome State Fault Refusal :=
  s.act (dmaDescriptor e desc data hostErr)

/-- DMA_TRANSFER (R588). -/
def execDmaTransfer (e : DmaId) (u : CapId) (s : State) : Host.Outcome State Fault Refusal :=
  s.act (dmaTransfer e u)

/-- DMC_RESUME (R610). -/
def execDmcResume (p : Path) (arg : BitVec 16) (s : State) : Host.Outcome State Fault Refusal :=
  s.act (pageCommand p pgDMC 0x01 arg)

/-- DMC_CLRCNT (R610). -/
def execDmcClrcnt (p : Path) (arg : BitVec 16) (s : State) : Host.Outcome State Fault Refusal :=
  s.act (pageCommand p pgDMC 0x02 arg)

/-- MAILBOX_TIMEOUT (R582). -/
def execMailboxTimeout (key : MailKey) (s : State) : Host.Outcome State Fault Refusal :=
  s.act (mailboxTimeout key)

/-- RXR_WRITE (R585). -/
def execRxrWrite (p : Path) (value : Word) (s : State) : Host.Outcome State Fault Refusal :=
  s.act (writeReg p pgHIF 0 HIF.RXR.off value)

/-- TXW_WRITE (R585). -/
def execTxwWrite (p : Path) (value : Word) (s : State) : Host.Outcome State Fault Refusal :=
  s.act (writeReg p pgHIF 0 HIF.TXW.off value)

/-- HIF_CLRCNT (R606). -/
def execHifClrcnt (p : Path) (arg : BitVec 16) (s : State) : Host.Outcome State Fault Refusal :=
  s.act (pageCommand p pgHIF 0x01 arg)

/-- MBRESET (R606). -/
def execMbreset (p : Path) (arg : BitVec 16) (s : State) : Host.Outcome State Fault Refusal :=
  s.act (pageCommand p pgHIF 0x02 arg)

/-- SPI_READ (R589). -/
def execSpiRead (mosi : List Byte) (s : State) : Host.Outcome State Fault Refusal :=
  s.act (spiFrame mosi)

/-- SPI_WRITE (R589). -/
def execSpiWrite (mosi : List Byte) (s : State) : Host.Outcome State Fault Refusal :=
  s.act (spiFrame mosi)

/-- SPI_FRAME_ABORT (R591). -/
def execSpiFrameAbort (mosi : List Byte) (s : State) : Host.Outcome State Fault Refusal :=
  s.act (spiCut mosi)

/-- SAFOWN_WRITE (R592). -/
def execSafownWrite (p : Path) (value : Word) (s : State) : Host.Outcome State Fault Refusal :=
  s.act (writeReg p pgSPM 0 SPM.SAFOWN.off value)

/-- LOGR_WRITE (R603). -/
def execLogrWrite (p : Path) (value : Word) (s : State) : Host.Outcome State Fault Refusal :=
  s.act (writeReg p pgEVT 0 EVT.LOGR.off value)

/-- EVT_CLRCNT (R604). -/
def execEvtClrcnt (p : Path) (arg : BitVec 16) (s : State) : Host.Outcome State Fault Refusal :=
  s.act (pageCommand p pgEVT 0x01 arg)

/-- LOGRESET (R604). -/
def execLogreset (p : Path) (arg : BitVec 16) (s : State) : Host.Outcome State Fault Refusal :=
  s.act (pageCommand p pgEVT 0x02 arg)

/-- GLB_CLRCNT (R602). -/
def execGlbClrcnt (p : Path) (arg : BitVec 16) (s : State) : Host.Outcome State Fault Refusal :=
  s.act (pageCommand p pgGLB 0x01 arg)

/-- SPM_CLRCNT (R608). -/
def execSpmClrcnt (p : Path) (arg : BitVec 16) (s : State) : Host.Outcome State Fault Refusal :=
  s.act (pageCommand p pgSPM 0x01 arg)

/-- IMAGE_READ_START (R530). -/
def execImageReadStart (s : State) : Host.Outcome State Fault Refusal :=
  s.act imageReadStart

/-- SAFE_INPUT_OK (R410). -/
def execSafeInputOk (n : Fin 4) (a b : Bool) (s : State) : Host.Outcome State Fault Refusal :=
  s.act (safeInputOk n a b)

/-- STO_FB_MATCH (R411). -/
def execStoFbMatch (n : Fin 4) (s : State) : Host.Outcome State Fault Refusal :=
  s.act (stoFbMatch n)

/-- LINE_FAULT_END (R385). -/
def execLineFaultEnd (c : FbuId) (lines : Fin 3) (s : State) : Host.Outcome State Fault Refusal :=
  s.act (lineFaultEnd c lines)

/-- PRESENT_N_CHANGE (R552). -/
def execPresentNChange (level : Bool) (s : State) : Host.Outcome State Fault Refusal :=
  s.act (presentChange level)

/-- PERST_RELEASE (R538). -/
def execPerstRelease (s : State) : Host.Outcome State Fault Refusal :=
  s.act perstRelease

/-- COMPARE_FIRING_IN_TURN (R399). -/
def execCompareFiringInTurn (c : FbuId) (u : Fin 2) (t : Nat) (s : State) : Host.Outcome State Fault Refusal :=
  s.act (compareInTurn c u t)

/-- REGISTER_READ (R569). -/
def execRegisterRead (q : BusRead) (s : State) : Host.Outcome State Fault Refusal :=
  s.act (readAccess q)

end Sys2Proof.Machine
end

