-- ==== Sys2Proof/Machine/LocalCmd.lean ====
section
/-! DEFINITION. The meanings of commands: local feedback, signal generation, safe chain. Each is the effect of one row of the
opcode table on the state. -/
namespace Sys2Proof.Machine

/-- FBU_COUNT_STEP (R383). -/
def execFbuCountStep (c : FbuId) (a b z : Bool) (t : Nat) (s : State) : Host.Outcome State Fault Refusal :=
  s.act (fbuEdge c a b z t)

/-- COMPARE_PULSE_END (R397). -/
def execComparePulseEnd (c : FbuId) (u : Fin 2) (t : Nat) (s : State) : Host.Outcome State Fault Refusal :=
  s.act (comparePulseEnd c u t)

/-- LINE_FAULT (R385). -/
def execLineFault (c : FbuId) (lines : Fin 3) (s : State) : Host.Outcome State Fault Refusal :=
  s.act (lineFault c lines)

/-- SERIAL_FRAME (R387). -/
def execSerialFrame (c : FbuId) (delay : Nat) (bits : BitVec 64) (s : State) : Host.Outcome State Fault Refusal :=
  s.act (serialSampled c delay bits.toNat)

/-- INDEX_EDGE (R391). -/
def execIndexEdge (c : FbuId) (t : Nat) (s : State) : Host.Outcome State Fault Refusal :=
  s.act (indexEdge c t)

/-- LATCH_EDGE (R393). -/
def execLatchEdge (c : FbuId) (rising : Bool) (t : Nat) (s : State) : Host.Outcome State Fault Refusal :=
  s.act (latchEdge c rising t)

/-- LATCH_LEVEL_DEBOUNCE (R395). -/
def execLatchLevelDebounce (pin : FbuId) (level : Bool) (s : State) : Host.Outcome State Fault Refusal :=
  s.act (latchLevel pin level)

/-- CVAL_WRITE (R398). -/
def execCvalWrite (p : Path) (c : FbuId) (u : Fin 2) (value : Word) (s : State) : Host.Outcome State Fault Refusal :=
  s.act (writeReg p (pgFbu c) 0 (FBU.CVAL.nth 0x20 u).off value)

/-- FBU_CONFIG_WRITE (R389). -/
def execFbuConfigWrite (p : Path) (c : FbuId) (serial : Bool) (value : Word) (s : State) : Host.Outcome State Fault Refusal :=
  s.act (writeReg p (pgFbu c) 0 (if serial then FBU.NBITS.off else FBU.MODE.off) value)

/-- LARM (R417). -/
def execLarm (p : Path) (c : FbuId) (arg : BitVec 16) (s : State) : Host.Outcome State Fault Refusal :=
  s.act (pageCommand p (pgFbu c) 0x01 arg)

/-- LDISARM (R417). -/
def execLdisarm (p : Path) (c : FbuId) (arg : BitVec 16) (s : State) : Host.Outcome State Fault Refusal :=
  s.act (pageCommand p (pgFbu c) 0x02 arg)

/-- CDISARM (R417). -/
def execCdisarm (p : Path) (c : FbuId) (arg : BitVec 16) (s : State) : Host.Outcome State Fault Refusal :=
  s.act (pageCommand p (pgFbu c) 0x03 arg)

/-- CLRERR (R417). -/
def execClrerr (p : Path) (c : FbuId) (arg : BitVec 16) (s : State) : Host.Outcome State Fault Refusal :=
  s.act (pageCommand p (pgFbu c) 0x04 arg)

/-- FBU_CLRCNT (R417). -/
def execFbuClrcnt (p : Path) (c : FbuId) (arg : BitVec 16) (s : State) : Host.Outcome State Fault Refusal :=
  s.act (pageCommand p (pgFbu c) 0x05 arg)

/-- RING_COMPARE_WRITE (R401). -/
def execRingCompareWrite (p : Path) (off : Nat) (value : Word) (s : State) : Host.Outcome State Fault Refusal :=
  s.act (writeReg p pgSGU 0 (off % 0x1000) value)

/-- RDISARM (R419). -/
def execRdisarm (p : Path) (arg : BitVec 16) (s : State) : Host.Outcome State Fault Refusal :=
  s.act (pageCommand p pgSGU 0x01 arg)

/-- SGU_CLRCNT (R419). -/
def execSguClrcnt (p : Path) (arg : BitVec 16) (s : State) : Host.Outcome State Fault Refusal :=
  s.act (pageCommand p pgSGU 0x02 arg)

/-- STEP_PULSE (R406). -/
def execStepPulse (n : StepId) (t : Nat) (s : State) : Host.Outcome State Fault Refusal :=
  s.act (stepPulse n t)

/-- SGC_CLRCNT (R420). -/
def execSgcClrcnt (p : Path) (n : StepId) (arg : BitVec 16) (s : State) : Host.Outcome State Fault Refusal :=
  s.act (pageCommand p (pgSgc n) 0x01 arg)

/-- PULSE_INPUT_EDGE (R408). -/
def execPulseInputEdge (i : Fin 4) (a b : Bool) (t : Nat) (s : State) : Host.Outcome State Fault Refusal :=
  s.act (pulseEdge i a b t)

/-- SAFE_INPUT_DEMAND (R410). -/
def execSafeInputDemand (n : Fin 4) (a b : Bool) (s : State) : Host.Outcome State Fault Refusal :=
  s.act (safeInputDemand n a b)

/-- SAFE_DISCREPANCY (R410). -/
def execSafeDiscrepancy (n : Fin 4) (s : State) : Host.Outcome State Fault Refusal :=
  s.act (safeDiscrepancy n)

/-- STO_FB_MISMATCH (R411). -/
def execStoFbMismatch (n : Fin 4) (s : State) : Host.Outcome State Fault Refusal :=
  s.act (stoFbMismatch n)

/-- STO_DELAY_EXPIRE (R412). -/
def execStoDelayExpire (n : Fin 4) (s : State) : Host.Outcome State Fault Refusal :=
  s.act (stoDelayExpire n)

/-- TRIP (R414). -/
def execTrip (p : Path) (arg : BitVec 16) (s : State) : Host.Outcome State Fault Refusal :=
  s.act (pageCommand p pgSAF 0x01 arg)

/-- RELEASE (R413). -/
def execRelease (p : Path) (arg : BitVec 16) (s : State) : Host.Outcome State Fault Refusal :=
  s.act (pageCommand p pgSAF 0x02 arg)

/-- SAF_CLRCNT (R422). -/
def execSafClrcnt (p : Path) (arg : BitVec 16) (s : State) : Host.Outcome State Fault Refusal :=
  s.act (pageCommand p pgSAF 0x03 arg)

end Sys2Proof.Machine
end

