-- ==== Sys2Proof/Machine/MfeCmd.lean ====
section
/-! DEFINITION. The meanings of commands: measurement front end. Each is the effect of one row of the opcode table on the state.
-/
namespace Sys2Proof.Machine

/-- MFC_TRIGGER (R431). -/
def execMfcTrigger (c : CoreId) (t : Nat) (s : State) : Host.Outcome State Fault Refusal :=
  s.act (mfcTrigger c t)

/-- SCAN_START (R431). -/
def execScanStart (c : CoreId) (t : Nat) (s : State) : Host.Outcome State Fault Refusal :=
  s.act (scanStart c t)

/-- SETTLE_END (R433). -/
def execSettleEnd (c : CoreId) (t : Nat) (s : State) : Host.Outcome State Fault Refusal :=
  s.act (settleEnd c t)

/-- APERTURE_END (R433). -/
def execApertureEnd (c : CoreId) (t : Nat) (s : State) : Host.Outcome State Fault Refusal :=
  s.act (apertureEnd c t)

/-- RUNDOWN_COMPLETE (R435). -/
def execRundownComplete (c : CoreId) (code : BitVec 25) (t : Nat) (s : State) : Host.Outcome State Fault Refusal :=
  s.act (rundownComplete c code t)

/-- BURNOUT_TEST_COMPLETE (R444). -/
def execBurnoutTestComplete (c : CoreId) (high : Bool) (t : Nat) (s : State) : Host.Outcome State Fault Refusal :=
  s.act (burnoutTestComplete c high t)

/-- OVERLOAD_TRIP (R440). -/
def execOverloadTrip (c : CoreId) (positive : Bool) (t : Nat) (s : State) : Host.Outcome State Fault Refusal :=
  s.act (overloadTrip c positive t)

/-- DUMP_COMPLETE (R441). -/
def execDumpComplete (c : CoreId) (t : Nat) (s : State) : Host.Outcome State Fault Refusal :=
  s.act (dumpComplete c t)

/-- WAKE_START (R439). -/
def execWakeStart (c : CoreId) (t : Nat) (s : State) : Host.Outcome State Fault Refusal :=
  s.act (wakeStart c t)

/-- WAKE_COMPLETE (R439). -/
def execWakeComplete (c : CoreId) (t : Nat) (s : State) : Host.Outcome State Fault Refusal :=
  s.act (wakeComplete c t)

/-- LINE_CROSSING (R428). -/
def execLineCrossing (t : Nat) (s : State) : Host.Outcome State Fault Refusal :=
  s.act (lineCrossing t)

/-- LINE_LOST (R429). -/
def execLineLost (t : Nat) (s : State) : Host.Outcome State Fault Refusal :=
  s.act (lineLost t)

/-- MFE_DIE_FAULT (R446). -/
def execMfeDieFault (bits : BitVec 5) (s : State) : Host.Outcome State Fault Refusal :=
  s.act (mfeDieFault bits.toNat)

/-- MFE_FAULT_RECOVERY (R446). -/
def execMfeFaultRecovery (s : State) : Host.Outcome State Fault Refusal :=
  s.act mfeFaultRecovery

/-- CONV (R451). -/
def execConv (p : Path) (c : CoreId) (arg : BitVec 16) (s : State) : Host.Outcome State Fault Refusal :=
  s.act (pageCommand p (pgMfc c) 0x01 arg)

/-- MFC_ABORT (R451). -/
def execMfcAbort (p : Path) (c : CoreId) (arg : BitVec 16) (s : State) : Host.Outcome State Fault Refusal :=
  s.act (pageCommand p (pgMfc c) 0x02 arg)

/-- MFC_CLRCNT (R451). -/
def execMfcClrcnt (p : Path) (c : CoreId) (arg : BitVec 16) (s : State) : Host.Outcome State Fault Refusal :=
  s.act (pageCommand p (pgMfc c) 0x03 arg)

/-- MFE_CLRCNT (R449). -/
def execMfeClrcnt (p : Path) (arg : BitVec 16) (s : State) : Host.Outcome State Fault Refusal :=
  s.act (pageCommand p pgMFE 0x01 arg)

end Sys2Proof.Machine
end

