-- ==== Sys2Proof/Machine/PairCmd.lean ====
section
/-! DEFINITION. The meanings of commands: the head pair. Each is the effect of one row of the opcode table on the state. -/
namespace Sys2Proof.Machine

/-- JOURNALLED_WRITE (R496). -/
def execJournalledWrite (p : Path) (addr : BitVec 24) (value : Word) (s : State) : Host.Outcome State Fault Refusal :=
  s.act (writeAccess ⟨p, addr.toNat, 1, 0xF, value.setWidth 64⟩)

/-- REPAIR_INSTALL (R507) of the block that the repair items brought. -/
def execRepairInstall (n : AxisId) (blk : List (BitVec 64)) (s : State) : Host.Outcome State Fault Refusal :=
  s.act (repairInstall n blk)

/-- REPAIR_TIMEOUT (R507). -/
def execRepairTimeout (n : AxisId) (s : State) : Host.Outcome State Fault Refusal :=
  s.act (repairTimeout n)

/-- HANDOVER (R525). -/
def execHandover (p : Path) (arg : BitVec 16) (s : State) : Host.Outcome State Fault Refusal :=
  s.act (pageCommand p pgRED 0x01 arg)

/-- SILENCE (R525). -/
def execSilence (p : Path) (arg : BitVec 16) (s : State) : Host.Outcome State Fault Refusal :=
  s.act (pageCommand p pgRED 0x02 arg)

/-- RESYNC (R525). -/
def execResync (p : Path) (arg : BitVec 16) (s : State) : Host.Outcome State Fault Refusal :=
  s.act (pageCommand p pgRED 0x03 arg)

/-- MANDATE (R525). -/
def execMandate (p : Path) (arg : BitVec 16) (s : State) : Host.Outcome State Fault Refusal :=
  s.act (pageCommand p pgRED 0x04 arg)

/-- CLRREQ (R525). -/
def execClrreq (p : Path) (arg : BitVec 16) (s : State) : Host.Outcome State Fault Refusal :=
  s.act (pageCommand p pgRED 0x05 arg)

/-- RED_CLRCNT (R525). -/
def execRedClrcnt (p : Path) (arg : BitVec 16) (s : State) : Host.Outcome State Fault Refusal :=
  s.act (pageCommand p pgRED 0x06 arg)

/-- MGMT_HINT_WRITE (R518). -/
def execMgmtHintWrite (p : Path) (value : Word) (s : State) : Host.Outcome State Fault Refusal :=
  s.act (writeReg p pgRED 0 RED.HINT.off value)

/-- JOIN_COMPLETE (R520). -/
def execJoinComplete (equal : Bool) (s : State) : Host.Outcome State Fault Refusal :=
  s.act (joinComplete equal)

/-- BULK_PASS_END (R520). -/
def execBulkPassEnd (s : State) : Host.Outcome State Fault Refusal :=
  s.act bulkPassEnd

/-- SNAPSHOT_COMPLETE (R520). -/
def execSnapshotComplete (s : State) : Host.Outcome State Fault Refusal :=
  s.act snapshotComplete

/-- REPLAY_CATCH_UP (R520). -/
def execReplayCatchUp (s : State) : Host.Outcome State Fault Refusal :=
  s.act replayCatchUp

/-- CHECK_COMPLETE (R520). -/
def execCheckComplete (s : State) : Host.Outcome State Fault Refusal :=
  s.act checkComplete

/-- RESYNC_TIMEOUT (R521). -/
def execResyncTimeout (s : State) : Host.Outcome State Fault Refusal :=
  s.act resyncTimeout

end Sys2Proof.Machine
end

