-- ==== Sys2Proof/Machine/RingCmd.lean ====
section
/-! DEFINITION. The meanings of commands: rings, time base and system link. Each is the effect of one row of the opcode table on
the state. -/
namespace Sys2Proof.Machine

/-- BLOCK_LOCK_ACQUIRE (R68). -/
def execBlockLockAcquire (lane : Lane) (s : State) : Host.Outcome State Fault Refusal :=
  s.act (blockLockAcquire lane)

/-- BLOCK_LOCK_LOSS (R68). -/
def execBlockLockLoss (lane : Lane) (s : State) : Host.Outcome State Fault Refusal :=
  s.act (blockLockLoss lane)

/-- BREAK_DETECT (R100). -/
def execBreakDetect (r : RingId) (port : Port) (s : State) : Host.Outcome State Fault Refusal :=
  s.act (breakDetect r port)

/-- HEAL_SEND (R102). -/
def execHealSend (r : RingId) (port : Port) (s : State) : Host.Outcome State Fault Refusal :=
  s.act (healSend r port)

/-- AXIS_FRAME_RECEIVE (R15). -/
def execAxisFrameReceive (r : RingId) (f : RawFrame) (s : State) : Host.Outcome State Fault Refusal :=
  s.act (axisFrameReceive r f)

/-- IO_FRAME_RECEIVE (R87). -/
def execIoFrameReceive (r : RingId) (f : RawFrame) (s : State) : Host.Outcome State Fault Refusal :=
  s.act (ioFrameReceive r f)

/-- SYNC_FRAME_RECEIVE (R126). -/
def execSyncFrameReceive (r : RingId) (f : RawFrame) (s : State) : Host.Outcome State Fault Refusal :=
  s.act (syncFrameReceive r f)

/-- COMMAND_FRAME_RECEIVE (R512). -/
def execCommandFrameReceive (r : RingId) (f : RawFrame) (s : State) : Host.Outcome State Fault Refusal :=
  s.act (commandFrameReceive r f)

/-- COLDSTART_FRAME_RECEIVE (R147). -/
def execColdstartFrameReceive (r : RingId) (f : RawFrame) (s : State) : Host.Outcome State Fault Refusal :=
  s.act (coldstartFrameReceive r f)

/-- MIRROR_FRAME_RECEIVE (R491). -/
def execMirrorFrameReceive (r : RingId) (f : RawFrame) (s : State) : Host.Outcome State Fault Refusal :=
  s.act (mirrorFrameReceive r f)

/-- MIRROR_SLOT_END (R495). -/
def execMirrorSlotEnd (s : State) : Host.Outcome State Fault Refusal :=
  s.act mirrorSlotEnd

/-- ASYNC_FRAME_RECEIVE (R89). -/
def execAsyncFrameReceive (r : RingId) (f : RawFrame) (s : State) : Host.Outcome State Fault Refusal :=
  s.act (asyncFrameReceive r f)

/-- REJOIN (R159). -/
def execRejoin (r : RingId) (sta : BitVec 6) (s : State) : Host.Outcome State Fault Refusal :=
  s.act (rejoin r sta.toNat)

/-- RANGING_REPLY_RECEIVE (R97). -/
def execRangingReplyReceive (r : RingId) (f : RawFrame) (s : State) : Host.Outcome State Fault Refusal :=
  s.act (rangingReplyReceive r f)

/-- STOP_OS_RECEIVE (R79). -/
def execStopOsReceive (lane : Lane) (arg : BitVec 48) (s : State) : Host.Outcome State Fault Refusal :=
  s.act (stopOsReceive lane arg)

/-- BREAK_OS_RECEIVE (R101). -/
def execBreakOsReceive (lane : Lane) (arg : BitVec 48) (s : State) : Host.Outcome State Fault Refusal :=
  s.act (breakOsReceive lane arg)

/-- HEAL_OS_RECEIVE (R102). -/
def execHealOsReceive (lane : Lane) (arg : BitVec 48) (s : State) : Host.Outcome State Fault Refusal :=
  s.act (healOsReceive lane arg)

/-- UNKNOWN_OS_RECEIVE (R75). -/
def execUnknownOsReceive (lane : Lane) (code : Byte) (arg : BitVec 48) (s : State) : Host.Outcome State Fault Refusal :=
  s.act (unknownOsReceive lane code arg)

/-- FRAME_TRANSMIT (R71). -/
def execFrameTransmit (r : RingId) (slot : Byte) (busyE busyW : Bool) (s : State) : Host.Outcome State Fault Refusal :=
  s.act (frameTransmit r slot.toNat busyE busyW)

/-- RANGE (R119). -/
def execRange (p : Path) (r : RingId) (arg : BitVec 16) (s : State) : Host.Outcome State Fault Refusal :=
  s.act (pageCommand p (pgRing r) 0x01 arg)

/-- RANGING_COMPLETE (R93). -/
def execRangingComplete (r : RingId) (s : State) : Host.Outcome State Fault Refusal :=
  s.act (rangingComplete r)

/-- GEO_ACT (R107). -/
def execGeoAct (r : RingId) (s : State) : Host.Outcome State Fault Refusal :=
  s.act (geoAct r)

/-- RESETTLE_TIMEOUT (R107). -/
def execResettleTimeout (r : RingId) (s : State) : Host.Outcome State Fault Refusal :=
  s.act (resettleTimeout r)

/-- GRANT (R108). -/
def execGrant (p : Path) (r : RingId) (arg : BitVec 16) (s : State) : Host.Outcome State Fault Refusal :=
  s.act (pageCommand p (pgRing r) 0x02 arg)

/-- WITHDRAW (R108). -/
def execWithdraw (p : Path) (r : RingId) (arg : BitVec 16) (s : State) : Host.Outcome State Fault Refusal :=
  s.act (pageCommand p (pgRing r) 0x03 arg)

/-- RING_CLRCNT (R119). -/
def execRingClrcnt (p : Path) (r : RingId) (arg : BitVec 16) (s : State) : Host.Outcome State Fault Refusal :=
  s.act (pageCommand p (pgRing r) 0x04 arg)

/-- INSERT_BY_GRANT (R105). -/
def execInsertByGrant (r : RingId) (s : State) : Host.Outcome State Fault Refusal :=
  s.act (insertByGrant r)

/-- INSERT_LOWER_BY_WITHDRAW (R106). -/
def execInsertLowerByWithdraw (r : RingId) (s : State) : Host.Outcome State Fault Refusal :=
  s.act (insertLower r)

/-- SYS_SYNC_FRAME_RECEIVE (R111). -/
def execSysSyncFrameReceive (port : Port) (f : RawFrame) (s : State) : Host.Outcome State Fault Refusal :=
  s.act (sysSyncFrameReceive port f)

/-- SYS_ASYNC_FRAME_RECEIVE (R110). -/
def execSysAsyncFrameReceive (port : Port) (f : RawFrame) (s : State) : Host.Outcome State Fault Refusal :=
  s.act (sysAsyncFrameReceive port f)

/-- PDX_RECEIVE (R138). -/
def execPdxReceive (port : Port) (m : PdxMsg) (s : State) : Host.Outcome State Fault Refusal :=
  s.act (pdxReceive port m)

/-- SYS_SYNC_ACQUIRE (R140). -/
def execSysSyncAcquire (s : State) : Host.Outcome State Fault Refusal :=
  s.act sysSyncAcquire

/-- SYS_SYNC_LOSS (R140). -/
def execSysSyncLoss (cause : SysLoss) (s : State) : Host.Outcome State Fault Refusal :=
  s.act (sysSyncLoss cause)

/-- SYS_CLRCNT (R122). -/
def execSysClrcnt (p : Path) (arg : BitVec 16) (s : State) : Host.Outcome State Fault Refusal :=
  s.act (pageCommand p pgSYS 0x01 arg)

/-- LISTEN_TIMEOUT (R144). -/
def execListenTimeout (r : RingId) (s : State) : Host.Outcome State Fault Refusal :=
  s.act (listenTimeout r)

/-- COLDSTART_COMPLETE (R146). -/
def execColdstartComplete (r : RingId) (s : State) : Host.Outcome State Fault Refusal :=
  s.act (coldstartComplete r)

/-- INTEGRATE_TO_SYNC (R153). -/
def execIntegrateToSync (r : RingId) (s : State) : Host.Outcome State Fault Refusal :=
  s.act (integrateToSync r)

/-- HEAD_RING_TAKEOVER (R151). -/
def execHeadRingTakeover (r : RingId) (s : State) : Host.Outcome State Fault Refusal :=
  s.act (headRingTakeover r)

end Sys2Proof.Machine
end

