-- ==== Sys2Proof/Machine/StageCmd.lean ====
section
/-! DEFINITION. The meanings of commands: stages, image load, watchdog, calibration, OTP. Each is the effect of one row of the
opcode table on the state. -/
namespace Sys2Proof.Machine

/-- PORST_ASSERT (R538). -/
def execPorstAssert (s : State) : Host.Outcome State Fault Refusal :=
  s.act porstAssert

/-- PORST_RELEASE (R529). -/
def execPorstRelease (headSel bootHost presentLow : Bool) (s : State) : Host.Outcome State Fault Refusal :=
  s.act (porstRelease headSel bootHost presentLow)

/-- VKEEP_LOSS (R613). -/
def execVkeepLoss (s : State) : Host.Outcome State Fault Refusal :=
  s.act porstAssert

/-- PERST_ASSERT (R538). -/
def execPerstAssert (s : State) : Host.Outcome State Fault Refusal :=
  s.act perstAssert

/-- TRST_ASSERT (R538). -/
def execTrstAssert (s : State) : Host.Outcome State Fault Refusal :=
  s.act id

/-- SUPPLY_OUT_OF_RANGE (R533). -/
def execSupplyOutOfRange (s : State) : Host.Outcome State Fault Refusal :=
  s.act supplyOut

/-- PLL_LOSS_OF_LOCK (R533). -/
def execPllLossOfLock (s : State) : Host.Outcome State Fault Refusal :=
  s.act pllLoss

/-- PRESENCE_DEBOUNCED (R552). -/
def execPresenceDebounced (s : State) : Host.Outcome State Fault Refusal :=
  s.act presenceDebounced

/-- PRESENCE_LOST (R553). -/
def execPresenceLost (s : State) : Host.Outcome State Fault Refusal :=
  s.act presenceLost

/-- KEEPER_EXIT (R529). -/
def execKeeperExit (s : State) : Host.Outcome State Fault Refusal :=
  s.act keeperExit

/-- LANTERN_POWERUP_DONE (R530). -/
def execLanternPowerupDone (s : State) : Host.Outcome State Fault Refusal :=
  .next { s with dev := powerupDone s.fuse s.dev }

/-- SELF_TEST_COMPLETE (R546). -/
def execSelfTestComplete (sramOk dramOk : Bool) (bist : BitVec 18) (s : State) : Host.Outcome State Fault Refusal :=
  s.act (selfTestComplete sramOk dramOk bist.toNat)

/-- IMAGE_READ_COMPLETE (R542). -/
def execImageReadComplete (img : Option (List Byte)) (s : State) : Host.Outcome State Fault Refusal :=
  s.act (imageReadComplete img)

/-- IMAGE_READ_TIMEOUT (R555). -/
def execImageReadTimeout (s : State) : Host.Outcome State Fault Refusal :=
  s.act imageReadTimeout

/-- IMAGE_AUTH_COMPLETE (R541). -/
def execImageAuthComplete (cfg : ImageCfg) (s : State) : Host.Outcome State Fault Refusal :=
  s.act (imageAuthComplete cfg)

/-- PROGRAM_COMPLETE (R530). -/
def execProgramComplete (s : State) : Host.Outcome State Fault Refusal :=
  s.act programComplete

/-- CAL_VALIDATION_DONE (R551). -/
def execCalValidationDone (codes : List (List (BitVec 24))) (s : State) : Host.Outcome State Fault Refusal :=
  s.act (calValidationDone codes)

/-- GO_FULL (R531). -/
def execGoFull (p : Path) (arg : BitVec 16) (s : State) : Host.Outcome State Fault Refusal :=
  s.act (pageCommand p pgSTG 0x01 arg)

/-- FULL_ENTRY (R531). -/
def execFullEntry (s : State) : Host.Outcome State Fault Refusal :=
  s.act fullEntry

/-- GO_LANTERN (R556). -/
def execGoLantern (p : Path) (arg : BitVec 16) (s : State) : Host.Outcome State Fault Refusal :=
  s.act (pageCommand p pgSTG 0x02 arg)

/-- LOAD (R544). -/
def execLoad (p : Path) (arg : BitVec 16) (s : State) : Host.Outcome State Fault Refusal :=
  s.act (pageCommand p pgSTG 0x03 arg)

/-- UNLOAD (R545). -/
def execUnload (p : Path) (arg : BitVec 16) (s : State) : Host.Outcome State Fault Refusal :=
  s.act (pageCommand p pgSTG 0x04 arg)

/-- STG_LANTERN (R556). -/
def execStgLantern (p : Path) (arg : BitVec 16) (s : State) : Host.Outcome State Fault Refusal :=
  s.act (pageCommand p pgSTG 0x05 arg)

/-- PARK (R554). -/
def execPark (p : Path) (arg : BitVec 16) (s : State) : Host.Outcome State Fault Refusal :=
  s.act (pageCommand p pgSTG 0x06 arg)

/-- SRST (R556). -/
def execSrst (p : Path) (arg : BitVec 16) (s : State) : Host.Outcome State Fault Refusal :=
  s.act (pageCommand p pgSTG 0x07 arg)

/-- STG_CLRCNT (R556). -/
def execStgClrcnt (p : Path) (arg : BitVec 16) (s : State) : Host.Outcome State Fault Refusal :=
  s.act (pageCommand p pgSTG 0x08 arg)

/-- WATCHDOG_KICK (R535). -/
def execWatchdogKick (p : Path) (value : Word) (s : State) : Host.Outcome State Fault Refusal :=
  s.act (writeReg p pgSTG 0 STG.KEY.off value)

/-- WATCHDOG_WARN (R535). -/
def execWatchdogWarn (s : State) : Host.Outcome State Fault Refusal :=
  s.act watchdogWarn

/-- WATCHDOG_EXPIRE (R535). -/
def execWatchdogExpire (s : State) : Host.Outcome State Fault Refusal :=
  s.act watchdogExpire

/-- WATCHDOG_RESTART (R537). -/
def execWatchdogRestart (s : State) : Host.Outcome State Fault Refusal :=
  s.act watchdogRestart

/-- WDRUN_CLEAR (R537). -/
def execWdrunClear (s : State) : Host.Outcome State Fault Refusal :=
  s.act wdrunClear

/-- RESTORE_FACTORY (R549). -/
def execRestoreFactory (p : Path) (arg : BitVec 16) (s : State) : Host.Outcome State Fault Refusal :=
  s.act (pageCommand p pgCAL 0x01 arg)

/-- VALIDATE (R559). -/
def execValidate (p : Path) (arg : BitVec 16) (s : State) : Host.Outcome State Fault Refusal :=
  s.act (pageCommand p pgCAL 0x02 arg)

/-- CAL_SET_WRITE (R548). -/
def execCalSetWrite (p : Path) (off : Nat) (value : Word) (s : State) : Host.Outcome State Fault Refusal :=
  s.act (writeReg p pgCAL 0 (off % 0x1000) value)

/-- PROGKEY (R561). -/
def execProgkey (p : Path) (arg : BitVec 16) (s : State) : Host.Outcome State Fault Refusal :=
  s.act (pageCommand p pgOTP 0x01 arg)

/-- BUMPVER (R561). -/
def execBumpver (p : Path) (arg : BitVec 16) (s : State) : Host.Outcome State Fault Refusal :=
  s.act (pageCommand p pgOTP 0x02 arg)

/-- OTP_PROGRAM_DONE (R561). -/
def execOtpProgramDone (ok : Bool) (s : State) : Host.Outcome State Fault Refusal :=
  let r := otpProgramDone ok s.fuse s.dev
  .next { s with fuse := r.1, dev := r.2 }

end Sys2Proof.Machine
end

