-- ==== Sys2Proof/Machine/Dispatch.lean ====
section
/-! DEFINITION. One arm per command: a direct call of its meaning. -/
namespace Sys2Proof.Machine

/-- The effect of a command on everything but the queue. -/
def exec (i : Instr) (s : State) : Host.Outcome State Fault Refusal :=
  match i with
  -- Reset, supplies, stages (spec/14)
  | .porstAssert => Sys2Proof.Machine.execPorstAssert s
  | .porstRelease headSel bootHost presentLow => Sys2Proof.Machine.execPorstRelease headSel bootHost presentLow s
  | .vkeepLoss => Sys2Proof.Machine.execVkeepLoss s
  | .perstAssert => Sys2Proof.Machine.execPerstAssert s
  | .trstAssert => Sys2Proof.Machine.execTrstAssert s
  | .supplyOutOfRange => Sys2Proof.Machine.execSupplyOutOfRange s
  | .pllLossOfLock => Sys2Proof.Machine.execPllLossOfLock s
  | .presenceDebounced => Sys2Proof.Machine.execPresenceDebounced s
  | .presenceLost => Sys2Proof.Machine.execPresenceLost s
  | .keeperExit => Sys2Proof.Machine.execKeeperExit s
  | .lanternPowerupDone => Sys2Proof.Machine.execLanternPowerupDone s
  | .selfTestComplete sramOk dramOk bist => Sys2Proof.Machine.execSelfTestComplete sramOk dramOk bist s
  | .imageReadComplete img => Sys2Proof.Machine.execImageReadComplete img s
  | .imageReadTimeout => Sys2Proof.Machine.execImageReadTimeout s
  | .imageAuthComplete cfg => Sys2Proof.Machine.execImageAuthComplete cfg s
  | .programComplete => Sys2Proof.Machine.execProgramComplete s
  | .calValidationDone codes => Sys2Proof.Machine.execCalValidationDone codes s
  | .goFull p arg => Sys2Proof.Machine.execGoFull p arg s
  | .fullEntry => Sys2Proof.Machine.execFullEntry s
  | .goLantern p arg => Sys2Proof.Machine.execGoLantern p arg s
  | .load p arg => Sys2Proof.Machine.execLoad p arg s
  | .unload p arg => Sys2Proof.Machine.execUnload p arg s
  | .stgLantern p arg => Sys2Proof.Machine.execStgLantern p arg s
  | .park p arg => Sys2Proof.Machine.execPark p arg s
  | .srst p arg => Sys2Proof.Machine.execSrst p arg s
  | .stgClrcnt p arg => Sys2Proof.Machine.execStgClrcnt p arg s
  | .watchdogKick p value => Sys2Proof.Machine.execWatchdogKick p value s
  | .watchdogWarn => Sys2Proof.Machine.execWatchdogWarn s
  | .watchdogExpire => Sys2Proof.Machine.execWatchdogExpire s
  | .watchdogRestart => Sys2Proof.Machine.execWatchdogRestart s
  | .wdrunClear => Sys2Proof.Machine.execWdrunClear s
  | .restoreFactory p arg => Sys2Proof.Machine.execRestoreFactory p arg s
  | .validate p arg => Sys2Proof.Machine.execValidate p arg s
  | .calSetWrite p off value => Sys2Proof.Machine.execCalSetWrite p off value s
  | .progkey p arg => Sys2Proof.Machine.execProgkey p arg s
  | .bumpver p arg => Sys2Proof.Machine.execBumpver p arg s
  | .otpProgramDone ok => Sys2Proof.Machine.execOtpProgramDone ok s
  -- Control cycle and ring time base (spec/02, spec/04)
  | .tick gpio => Sys2Proof.Machine.execTick gpio s
  | .endOfUpstreamWindow => Sys2Proof.Machine.execEndOfUpstreamWindow s
  | .beaconMissLimit => Sys2Proof.Machine.execBeaconMissLimit s
  | .ringPoolDisagree r => Sys2Proof.Machine.execRingPoolDisagree r s
  | .slotMute r slot => Sys2Proof.Machine.execSlotMute r slot s
  | .ownSlotViolated r => Sys2Proof.Machine.execOwnSlotViolated r s
  | .cwd => Sys2Proof.Machine.execCwd s
  | .heldRequestExpire => Sys2Proof.Machine.execHeldRequestExpire s
  | .nitStart => Sys2Proof.Machine.execNitStart s
  | .asyncWindowStart => Sys2Proof.Machine.execAsyncWindowStart s
  | .setrate p arg => Sys2Proof.Machine.execSetrate p arg s
  | .rateSwitch => Sys2Proof.Machine.execRateSwitch s
  | .timClrcnt p arg => Sys2Proof.Machine.execTimClrcnt p arg s
  | .pixctlAcq p => Sys2Proof.Machine.execPixctlAcq p s
  | .pixctlPub p => Sys2Proof.Machine.execPixctlPub p s
  -- Ring link, frames, slots and the system link (spec/03, spec/04)
  | .blockLockAcquire lane => Sys2Proof.Machine.execBlockLockAcquire lane s
  | .blockLockLoss lane => Sys2Proof.Machine.execBlockLockLoss lane s
  | .breakDetect r port => Sys2Proof.Machine.execBreakDetect r port s
  | .healSend r port => Sys2Proof.Machine.execHealSend r port s
  | .axisFrameReceive r f => Sys2Proof.Machine.execAxisFrameReceive r f s
  | .ioFrameReceive r f => Sys2Proof.Machine.execIoFrameReceive r f s
  | .syncFrameReceive r f => Sys2Proof.Machine.execSyncFrameReceive r f s
  | .commandFrameReceive r f => Sys2Proof.Machine.execCommandFrameReceive r f s
  | .coldstartFrameReceive r f => Sys2Proof.Machine.execColdstartFrameReceive r f s
  | .mirrorFrameReceive r f => Sys2Proof.Machine.execMirrorFrameReceive r f s
  | .mirrorSlotEnd => Sys2Proof.Machine.execMirrorSlotEnd s
  | .asyncFrameReceive r f => Sys2Proof.Machine.execAsyncFrameReceive r f s
  | .rejoin r sta => Sys2Proof.Machine.execRejoin r sta s
  | .rangingReplyReceive r f => Sys2Proof.Machine.execRangingReplyReceive r f s
  | .stopOsReceive lane arg => Sys2Proof.Machine.execStopOsReceive lane arg s
  | .breakOsReceive lane arg => Sys2Proof.Machine.execBreakOsReceive lane arg s
  | .healOsReceive lane arg => Sys2Proof.Machine.execHealOsReceive lane arg s
  | .unknownOsReceive lane code arg => Sys2Proof.Machine.execUnknownOsReceive lane code arg s
  | .frameTransmit r slot busyE busyW => Sys2Proof.Machine.execFrameTransmit r slot busyE busyW s
  | .range p r arg => Sys2Proof.Machine.execRange p r arg s
  | .rangingComplete r => Sys2Proof.Machine.execRangingComplete r s
  | .geoAct r => Sys2Proof.Machine.execGeoAct r s
  | .resettleTimeout r => Sys2Proof.Machine.execResettleTimeout r s
  | .grant p r arg => Sys2Proof.Machine.execGrant p r arg s
  | .withdraw p r arg => Sys2Proof.Machine.execWithdraw p r arg s
  | .ringClrcnt p r arg => Sys2Proof.Machine.execRingClrcnt p r arg s
  | .insertByGrant r => Sys2Proof.Machine.execInsertByGrant r s
  | .insertLowerByWithdraw r => Sys2Proof.Machine.execInsertLowerByWithdraw r s
  | .sysSyncFrameReceive port f => Sys2Proof.Machine.execSysSyncFrameReceive port f s
  | .sysAsyncFrameReceive port f => Sys2Proof.Machine.execSysAsyncFrameReceive port f s
  | .pdxReceive port m => Sys2Proof.Machine.execPdxReceive port m s
  | .sysSyncAcquire => Sys2Proof.Machine.execSysSyncAcquire s
  | .sysSyncLoss cause => Sys2Proof.Machine.execSysSyncLoss cause s
  | .sysClrcnt p arg => Sys2Proof.Machine.execSysClrcnt p arg s
  | .listenTimeout r => Sys2Proof.Machine.execListenTimeout r s
  | .coldstartComplete r => Sys2Proof.Machine.execColdstartComplete r s
  | .integrateToSync r => Sys2Proof.Machine.execIntegrateToSync r s
  | .headRingTakeover r => Sys2Proof.Machine.execHeadRingTakeover r s
  -- Axis control, Season unit, profiles (spec/05, spec/06, spec/07)
  | .axisTaskRun n t => Sys2Proof.Machine.execAxisTaskRun n t s
  | .msixHoldExpire v => Sys2Proof.Machine.execMsixHoldExpire v s
  | .enable p n arg => Sys2Proof.Machine.execEnable p n arg s
  | .disable p n arg => Sys2Proof.Machine.execDisable p n arg s
  | .axpHalt p n arg => Sys2Proof.Machine.execAxpHalt p n arg s
  | .start p n arg => Sys2Proof.Machine.execStart p n arg s
  | .swap p n arg => Sys2Proof.Machine.execSwap p n arg s
  | .clear p n arg => Sys2Proof.Machine.execClear p n arg s
  | .moor p n arg => Sys2Proof.Machine.execMoor p n arg s
  | .axpClrcnt p n arg => Sys2Proof.Machine.execAxpClrcnt p n arg s
  | .deferredEvaluation n => Sys2Proof.Machine.execDeferredEvaluation n s
  | .axpWrite p n off value => Sys2Proof.Machine.execAxpWrite p n off value s
  | .learn p arg => Sys2Proof.Machine.execLearn p arg s
  | .freeze p arg => Sys2Proof.Machine.execFreeze p arg s
  | .seaOff p arg => Sys2Proof.Machine.execSeaOff p arg s
  | .seaReset p arg => Sys2Proof.Machine.execSeaReset p arg s
  | .copy p arg => Sys2Proof.Machine.execCopy p arg s
  | .seaClrcnt p arg => Sys2Proof.Machine.execSeaClrcnt p arg s
  | .seaDone n => Sys2Proof.Machine.execSeaDone n s
  | .move p arg => Sys2Proof.Machine.execMove p arg s
  | .queue p arg => Sys2Proof.Machine.execQueue p arg s
  | .flush p arg => Sys2Proof.Machine.execFlush p arg s
  | .home p arg => Sys2Proof.Machine.execHome p arg s
  | .prfClrcnt p arg => Sys2Proof.Machine.execPrfClrcnt p arg s
  | .gstart p g arg => Sys2Proof.Machine.execGstart p g arg s
  | .ghold p g arg => Sys2Proof.Machine.execGhold p g arg s
  | .gresume p g arg => Sys2Proof.Machine.execGresume p g arg s
  | .gabort p g arg => Sys2Proof.Machine.execGabort p g arg s
  | .pgrpClrcnt p g arg => Sys2Proof.Machine.execPgrpClrcnt p g arg s
  -- Control engine instructions (spec/08)
  | .nop pair w => Sys2Proof.Machine.execNop pair w s
  | .mac pair w => Sys2Proof.Machine.execMac pair w s
  | .msu pair w => Sys2Proof.Machine.execMsu pair w s
  | .mpy pair w => Sys2Proof.Machine.execMpy pair w s
  | .ftap pair w => Sys2Proof.Machine.execFtap pair w s
  | .adda pair w => Sys2Proof.Machine.execAdda pair w s
  | .suba pair w => Sys2Proof.Machine.execSuba pair w s
  | .clra pair w => Sys2Proof.Machine.execClra pair w s
  | .add pair w => Sys2Proof.Machine.execAdd pair w s
  | .sub pair w => Sys2Proof.Machine.execSub pair w s
  | .and pair w => Sys2Proof.Machine.execAnd pair w s
  | .or pair w => Sys2Proof.Machine.execOr pair w s
  | .xor pair w => Sys2Proof.Machine.execXor pair w s
  | .ash pair w => Sys2Proof.Machine.execAsh pair w s
  | .lsh pair w => Sys2Proof.Machine.execLsh pair w s
  | .mov pair w => Sys2Proof.Machine.execMov pair w s
  | .cmp pair w => Sys2Proof.Machine.execCmp pair w s
  | .min pair w => Sys2Proof.Machine.execMin pair w s
  | .max pair w => Sys2Proof.Machine.execMax pair w s
  | .abs pair w => Sys2Proof.Machine.execAbs pair w s
  | .sat pair w => Sys2Proof.Machine.execSat pair w s
  | .lda pair w => Sys2Proof.Machine.execLda pair w s
  | .sta pair w => Sys2Proof.Machine.execSta pair w s
  | .sha pair w => Sys2Proof.Machine.execSha pair w s
  | .expa pair w => Sys2Proof.Machine.execExpa pair w s
  | .rnda pair w => Sys2Proof.Machine.execRnda pair w s
  | .sata pair w => Sys2Proof.Machine.execSata pair w s
  | .ldaw pair w => Sys2Proof.Machine.execLdaw pair w s
  | .staw pair w => Sys2Proof.Machine.execStaw pair w s
  | .sincos pair w => Sys2Proof.Machine.execSincos pair w s
  | .divi pair w => Sys2Proof.Machine.execDivi pair w s
  | .divs pair w => Sys2Proof.Machine.execDivs pair w s
  | .divf pair w => Sys2Proof.Machine.execDivf pair w s
  | .drem pair w => Sys2Proof.Machine.execDrem pair w s
  | .mova pair w => Sys2Proof.Machine.execMova pair w s
  | .movs pair w => Sys2Proof.Machine.execMovs pair w s
  | .rdt pair w => Sys2Proof.Machine.execRdt pair w s
  | .jmp pair w => Sys2Proof.Machine.execJmp pair w s
  | .call pair w => Sys2Proof.Machine.execCall pair w s
  | .ret pair w => Sys2Proof.Machine.execRet pair w s
  | .rep pair w => Sys2Proof.Machine.execRep pair w s
  | .brkl pair w => Sys2Proof.Machine.execBrkl pair w s
  | .yield pair w => Sys2Proof.Machine.execYield pair w s
  | .done pair w => Sys2Proof.Machine.execDone pair w s
  | .post pair w => Sys2Proof.Machine.execPost pair w s
  | .bkpt pair w => Sys2Proof.Machine.execBkpt pair w s
  | .ld pair w => Sys2Proof.Machine.execLd pair w s
  | .st pair w => Sys2Proof.Machine.execSt pair w s
  -- Engine pairs and task scheduler (spec/08, spec/09)
  | .pairFault pair cause => Sys2Proof.Machine.execPairFault pair cause s
  | .uncorrectableEcc site => Sys2Proof.Machine.execUncorrectableEcc site s
  | .cepHalt p pair arg => Sys2Proof.Machine.execCepHalt p pair arg s
  | .step p pair arg => Sys2Proof.Machine.execStep p pair arg s
  | .cepResume p pair arg => Sys2Proof.Machine.execCepResume p pair arg s
  | .bist p pair arg => Sys2Proof.Machine.execBist p pair arg s
  | .inject p pair arg => Sys2Proof.Machine.execInject p pair arg s
  | .revive p pair arg => Sys2Proof.Machine.execRevive p pair arg s
  | .cepClrcnt p pair arg => Sys2Proof.Machine.execCepClrcnt p pair arg s
  | .bistComplete pair pass => Sys2Proof.Machine.execBistComplete pair pass s
  | .cwdatAccess p pair hi write => Sys2Proof.Machine.execCwdatAccess p pair hi write s
  | .taskDispatch task t => Sys2Proof.Machine.execTaskDispatch task t s
  | .taskResume task => Sys2Proof.Machine.execTaskResume task s
  | .replayTask n => Sys2Proof.Machine.execReplayTask n s
  | .trigger p arg => Sys2Proof.Machine.execTrigger p arg s
  | .cancel p arg => Sys2Proof.Machine.execCancel p arg s
  | .tsuClrcnt p arg => Sys2Proof.Machine.execTsuClrcnt p arg s
  | .tsuWriteAdopt task => Sys2Proof.Machine.execTsuWriteAdopt task s
  -- Local feedback, compare, latch, step, safe chain (spec/10)
  | .fbuCountStep c a b z t => Sys2Proof.Machine.execFbuCountStep c a b z t s
  | .comparePulseEnd c u t => Sys2Proof.Machine.execComparePulseEnd c u t s
  | .lineFault c lines => Sys2Proof.Machine.execLineFault c lines s
  | .serialFrame c delay bits => Sys2Proof.Machine.execSerialFrame c delay bits s
  | .indexEdge c t => Sys2Proof.Machine.execIndexEdge c t s
  | .latchEdge c rising t => Sys2Proof.Machine.execLatchEdge c rising t s
  | .latchLevelDebounce pin level => Sys2Proof.Machine.execLatchLevelDebounce pin level s
  | .cvalWrite p c u value => Sys2Proof.Machine.execCvalWrite p c u value s
  | .fbuConfigWrite p c serial value => Sys2Proof.Machine.execFbuConfigWrite p c serial value s
  | .larm p c arg => Sys2Proof.Machine.execLarm p c arg s
  | .ldisarm p c arg => Sys2Proof.Machine.execLdisarm p c arg s
  | .cdisarm p c arg => Sys2Proof.Machine.execCdisarm p c arg s
  | .clrerr p c arg => Sys2Proof.Machine.execClrerr p c arg s
  | .fbuClrcnt p c arg => Sys2Proof.Machine.execFbuClrcnt p c arg s
  | .ringCompareWrite p off value => Sys2Proof.Machine.execRingCompareWrite p off value s
  | .rdisarm p arg => Sys2Proof.Machine.execRdisarm p arg s
  | .sguClrcnt p arg => Sys2Proof.Machine.execSguClrcnt p arg s
  | .stepPulse n t => Sys2Proof.Machine.execStepPulse n t s
  | .sgcClrcnt p n arg => Sys2Proof.Machine.execSgcClrcnt p n arg s
  | .pulseInputEdge k a b t => Sys2Proof.Machine.execPulseInputEdge k a b t s
  | .safeInputDemand n a b => Sys2Proof.Machine.execSafeInputDemand n a b s
  | .safeDiscrepancy n => Sys2Proof.Machine.execSafeDiscrepancy n s
  | .stoFbMismatch n => Sys2Proof.Machine.execStoFbMismatch n s
  | .stoDelayExpire n => Sys2Proof.Machine.execStoDelayExpire n s
  | .trip p arg => Sys2Proof.Machine.execTrip p arg s
  | .release p arg => Sys2Proof.Machine.execRelease p arg s
  | .safClrcnt p arg => Sys2Proof.Machine.execSafClrcnt p arg s
  -- Measurement front end (spec/11)
  | .mfcTrigger c t => Sys2Proof.Machine.execMfcTrigger c t s
  | .scanStart c t => Sys2Proof.Machine.execScanStart c t s
  | .settleEnd c t => Sys2Proof.Machine.execSettleEnd c t s
  | .apertureEnd c t => Sys2Proof.Machine.execApertureEnd c t s
  | .rundownComplete c code t => Sys2Proof.Machine.execRundownComplete c code t s
  | .burnoutTestComplete c high t => Sys2Proof.Machine.execBurnoutTestComplete c high t s
  | .overloadTrip c positive t => Sys2Proof.Machine.execOverloadTrip c positive t s
  | .dumpComplete c t => Sys2Proof.Machine.execDumpComplete c t s
  | .wakeStart c t => Sys2Proof.Machine.execWakeStart c t s
  | .wakeComplete c t => Sys2Proof.Machine.execWakeComplete c t s
  | .lineCrossing t => Sys2Proof.Machine.execLineCrossing t s
  | .lineLost t => Sys2Proof.Machine.execLineLost t s
  | .mfeDieFault bits => Sys2Proof.Machine.execMfeDieFault bits s
  | .mfeFaultRecovery => Sys2Proof.Machine.execMfeFaultRecovery s
  | .conv p c arg => Sys2Proof.Machine.execConv p c arg s
  | .mfcAbort p c arg => Sys2Proof.Machine.execMfcAbort p c arg s
  | .mfcClrcnt p c arg => Sys2Proof.Machine.execMfcClrcnt p c arg s
  | .mfeClrcnt p arg => Sys2Proof.Machine.execMfeClrcnt p arg s
  -- Capture engine (spec/12)
  | .edgeProbeEdge e rising t => Sys2Proof.Machine.execEdgeProbeEdge e rising t s
  | .autoTimeout u t => Sys2Proof.Machine.execAutoTimeout u t s
  | .rearmDone u t => Sys2Proof.Machine.execRearmDone u t s
  | .arm p u arg => Sys2Proof.Machine.execArm p u arg s
  | .capuStop p u arg => Sys2Proof.Machine.execCapuStop p u arg s
  | .force p u arg => Sys2Proof.Machine.execForce p u arg s
  | .capuReset p u arg => Sys2Proof.Machine.execCapuReset p u arg s
  | .capuClrcnt p u arg => Sys2Proof.Machine.execCapuClrcnt p u arg s
  | .capClrcnt p arg => Sys2Proof.Machine.execCapClrcnt p arg s
  | .rcntWrite p u value => Sys2Proof.Machine.execRcntWrite p u value s
  | .hrelWrite p u value => Sys2Proof.Machine.execHrelWrite p u value s
  | .throttle => Sys2Proof.Machine.execThrottle s
  -- Head pair redundancy (spec/13)
  | .journalledWrite p addr value => Sys2Proof.Machine.execJournalledWrite p addr value s
  | .repairInstall n blk => Sys2Proof.Machine.execRepairInstall n blk s
  | .repairTimeout n => Sys2Proof.Machine.execRepairTimeout n s
  | .handover p arg => Sys2Proof.Machine.execHandover p arg s
  | .silence p arg => Sys2Proof.Machine.execSilence p arg s
  | .resync p arg => Sys2Proof.Machine.execResync p arg s
  | .mandate p arg => Sys2Proof.Machine.execMandate p arg s
  | .clrreq p arg => Sys2Proof.Machine.execClrreq p arg s
  | .redClrcnt p arg => Sys2Proof.Machine.execRedClrcnt p arg s
  | .mgmtHintWrite p value => Sys2Proof.Machine.execMgmtHintWrite p value s
  | .joinComplete equal => Sys2Proof.Machine.execJoinComplete equal s
  | .bulkPassEnd => Sys2Proof.Machine.execBulkPassEnd s
  | .snapshotComplete => Sys2Proof.Machine.execSnapshotComplete s
  | .replayCatchUp => Sys2Proof.Machine.execReplayCatchUp s
  | .checkComplete => Sys2Proof.Machine.execCheckComplete s
  | .resyncTimeout => Sys2Proof.Machine.execResyncTimeout s
  -- Host interface (spec/15)
  | .registerWrite q => Sys2Proof.Machine.execRegisterWrite q s
  | .rcRead p addr => Sys2Proof.Machine.execRcRead p addr s
  | .pairLowRead p addr => Sys2Proof.Machine.execPairLowRead p addr s
  | .pairLowWrite p addr value => Sys2Proof.Machine.execPairLowWrite p addr value s
  | .heldLowWordTimeout p => Sys2Proof.Machine.execHeldLowWordTimeout p s
  | .aliasSet p addr value => Sys2Proof.Machine.execAliasSet p addr value s
  | .aliasClr p addr value => Sys2Proof.Machine.execAliasClr p addr value s
  | .aliasTog p addr value => Sys2Proof.Machine.execAliasTog p addr value s
  | .parityScrub bad => Sys2Proof.Machine.execParityScrub bad s
  | .bar2Write off bytes => Sys2Proof.Machine.execBar2Write off bytes s
  | .bar4Write off bytes => Sys2Proof.Machine.execBar4Write off bytes s
  | .dmaDescriptor e desc data hostErr => Sys2Proof.Machine.execDmaDescriptor e desc data hostErr s
  | .dmaTransfer e u => Sys2Proof.Machine.execDmaTransfer e u s
  | .dmcResume p arg => Sys2Proof.Machine.execDmcResume p arg s
  | .dmcClrcnt p arg => Sys2Proof.Machine.execDmcClrcnt p arg s
  | .mailboxTimeout key => Sys2Proof.Machine.execMailboxTimeout key s
  | .rxrWrite p value => Sys2Proof.Machine.execRxrWrite p value s
  | .txwWrite p value => Sys2Proof.Machine.execTxwWrite p value s
  | .hifClrcnt p arg => Sys2Proof.Machine.execHifClrcnt p arg s
  | .mbreset p arg => Sys2Proof.Machine.execMbreset p arg s
  | .spiRead mosi => Sys2Proof.Machine.execSpiRead mosi s
  | .spiWrite mosi => Sys2Proof.Machine.execSpiWrite mosi s
  | .spiFrameAbort mosi => Sys2Proof.Machine.execSpiFrameAbort mosi s
  | .safownWrite p value => Sys2Proof.Machine.execSafownWrite p value s
  | .logrWrite p value => Sys2Proof.Machine.execLogrWrite p value s
  | .evtClrcnt p arg => Sys2Proof.Machine.execEvtClrcnt p arg s
  | .logreset p arg => Sys2Proof.Machine.execLogreset p arg s
  | .glbClrcnt p arg => Sys2Proof.Machine.execGlbClrcnt p arg s
  | .spmClrcnt p arg => Sys2Proof.Machine.execSpmClrcnt p arg s
  | .imageReadStart => Sys2Proof.Machine.execImageReadStart s
  | .safeInputOk n a b => Sys2Proof.Machine.execSafeInputOk n a b s
  | .stoFbMatch n => Sys2Proof.Machine.execStoFbMatch n s
  | .lineFaultEnd c lines => Sys2Proof.Machine.execLineFaultEnd c lines s
  | .presentNChange level => Sys2Proof.Machine.execPresentNChange level s
  | .perstRelease => Sys2Proof.Machine.execPerstRelease s
  | .compareFiringInTurn c u t => Sys2Proof.Machine.execCompareFiringInTurn c u t s
  | .registerRead q => Sys2Proof.Machine.execRegisterRead q s

end Sys2Proof.Machine
end

