-- ==== Sys2Proof/Safety.lean ====
section
/-! DEFINITION. The conditions and the shared outcomes in which statements about the block are put: when a command of the host
reaches a page, what a served access leaves on its path, and which fuse contents follow from which. -/
namespace Sys2Proof.Machine

/-- A write of a register or of PCMD over path `p` reaches `page` without a bus error of the path or the page (R564, R568, R569,
R592): the path serves, the page answers, no low word of a pair is held, and SAF is not reserved to SPI. -/
abbrev Dev.reaches (d : Dev) (p : Path) (page : Nat) : Prop :=
  d.serves p = true ∧ d.answers page = true ∧ (d.latch p).held = none ∧
  (page = pgSAF → p = .pcie → d.on pgSPM SPM.SAFOWN = false)

/-- What a host writes lands on arrival (R495, R496, R573): no journal runs and this head is no STANDBY. -/
abbrev Dev.landsNow (d : Dev) : Prop := d.role ≠ roSTANDBY ∧ d.journalRuns = false

/-- A command of the host reaches a page that has none waiting (R571). -/
abbrev Dev.takes (d : Dev) (p : Path) (page : Nat) : Prop := d.reaches p page ∧ d.on page HDR.BUSY = false

/-- A command of the host reaches a journalled page that has none waiting, and lands at once. -/
abbrev Dev.takesJ (d : Dev) (p : Path) (page : Nat) : Prop := d.takes p page ∧ d.landsNow

/-- The answer to a write that was taken: a posted write has none; over SPI it is the response of the WRITE frame (R590). -/
def thanks (p : Path) (d : Dev) : Dev :=
  match p with
  | .pcie => d
  | .spi => spiRespond 14 12 0 [] d

/-- What a write that was taken leaves on its path: no held low word, and the answer. -/
def answered (p : Path) (d : Dev) : Dev := thanks p (setHeld p none d)

/-- PCST of a command that was carried out (R570). -/
def recorded (page code : Nat) (arg : BitVec 16) (d : Dev) : Dev := recordCmd page code arg.toNat rOK false d

/-- PCST of a command that was refused with a result (R570). -/
def refusedWith (res page code : Nat) (arg : BitVec 16) (d : Dev) : Dev := recordCmd page code arg.toNat res false d

/-- PCST of a command that waits for its evaluation (R571). -/
def waiting (page code : Nat) (arg : BitVec 16) (d : Dev) : Dev := recordCmd page code arg.toNat rOK true d

/-- What a page keeps of a command it evaluates in cycle k + 2 (R212, R249, R268, R380): PCST with BUSY, and the command. -/
def queued (page code : Nat) (arg : BitVec 16) (desc : MoveDesc) (d : Dev) : Dev :=
  { waiting page code arg d with
    mot := { d.mot with cmds := d.mot.cmds ++ [⟨page, code, arg.toNat, d.cyc + 2, desc⟩] } }

/-- `s` with its device changed; the queue and the fuses stand. -/
def State.withDev (s : State) (d : Dev) : State := { s with dev := d }

/-- The fuses `f` can have come from `f0` (R560, R561): what the factory programmed stands, a key hash once programmed stands, and
the lowest version accepted has not fallen. -/
def Fuse.follows (f f0 : Fuse) : Prop :=
  f.dieId = f0.dieId ∧ f.fcal = f0.fcal ∧ f.fcrc = f0.fcrc ∧
  (f0.kset = true → f.kset = true ∧ f.khash = f0.khash) ∧ f0.minver.toNat ≤ f.minver.toNat

/-! ## Engine pairs -/

/-- The pair is in RUN and runs an instance of a user task (*Task numbers*). -/
abbrev State.runs (s : State) (p : PairId) (task seq : Nat) : Prop :=
  s.dev.pstate p = 2 ∧ (s.dev.pair p).running = .task task seq ∧ 288 ≤ task

/-- The engine of a pair as the arithmetic of its next instruction sees it: a MOVA that is still to come into effect aside
(R328). -/
def Dev.eng (d : Dev) (p : PairId) : Eng := { (d.pair p).eng with mova := none }

/-- The engine after an instruction: a MOVA of the instruction before comes into effect, ICNT counts, and control goes to `jump`,
or on by the loop levels (R325 to R328). -/
def Eng.after (old new : Eng) (jump : Option (BitVec 16)) : Eng :=
  let e := applyMova old.mova new
  match jump with
  | some a => { e with pc := a, ICNT := old.ICNT + 1 }
  | none =>
    { e with
      loops := (loopNext old.pc e.calls.length e.loops).1, pc := (loopNext old.pc e.calls.length e.loops).2, ICNT := old.ICNT + 1 }

/-- The pair has issued an instruction that leaves the engine `new`: CISS counts it, CPC shows it, NUMERIC is raised where the
arithmetic asks for it (R317). -/
def issued (p : PairId) (new : Eng) (jump : Option (BitVec 16)) (numeric : Bool) (d : Dev) : Dev :=
  let x := d.pair p
  let d := (d.setPair p { x with eng := x.eng.after new jump, issued := x.issued + 1 }).wr (pgCep p) CEP.PC (pcShown x.eng.pc)
  if numeric then raise (pgCep p) 2 p d else d

/-- `e'` is `e` but for SR: the bits listed take the values given, every other bit stands. -/
def Eng.flagged (e e' : Eng) (fl : List (Nat × Bool)) : Prop :=
  e' = { e with SR := e'.SR } ∧ ∀ i, i < 32 → e'.SR.getLsbD i = (fl.lookup i).getD (e.SR.getLsbD i)

/-- Is a number outside the accumulator's range? -/
def outsideAcc (x : Int) : Bool := decide (x < -(2 ^ 71)) || decide (2 ^ 71 - 1 < x)

/-- The exact accumulator result `x` goes into accumulator `ac` (R316, R317): outside the range it saturates with ASAT and wraps
without, AOV is set, and NUMERIC is due where AOVE asks for it; AZ, AN and AG describe what is stored. -/
def Eng.accGets (e e' : Eng) (numeric : Bool) (ac : BitVec 2) (x : Int) : Prop :=
  ∃ v : BitVec 72,
    v = BitVec.ofInt 72 (if e.SR.getLsbD srASAT then max (-(2 ^ 71)) (min (2 ^ 71 - 1) x) else x) ∧
    (e.setAcc ac v).flagged e' [(srAZ, v == 0), (srAN, v.msb),
      (srAG, !(v.extractLsb' 63 9 == 0 || v.extractLsb' 63 9 == 511)), (srAOV, e.SR.getLsbD srAOV || outsideAcc x)] ∧
    numeric = (outsideAcc x && !e.SR.getLsbD srASAT && e.SR.getLsbD srAOVE)

/-- A format P instruction is legal and its moves meet no trap (R305 to R307, R314). -/
abbrev Eng.movesRun (e : Eng) (env : Env) (w : FmtP) : Prop :=
  w.rsvd = 0 ∧ moveLegal w.xmv = true ∧ moveLegal w.ymv = true ∧ moveClash w.xmv w.ymv = false ∧
  moveTrap env e false w.xmv = none ∧ moveTrap env e true w.ymv = none

/-- The engine after the two moves of an instruction whose arithmetic left `new`; both move by what stood before (R315). -/
def Dev.moved (d : Dev) (env : Env) (w : FmtP) (e new : Eng) : Eng :=
  moveRegs e (moveRead env d e w.ymv) w.ymv (moveRegs e (moveRead env d e w.xmv) w.xmv new)

/-- The store of a move. -/
def storeOf (env : Env) (e : Eng) (m : MoveField) (d : Dev) : Dev :=
  match moveStore e m with
  | some (a, n, v) => d.engWrite env.pair a n v
  | none => d

/-- Commands carried out one after another. -/
def execAll : List Instr → State → Host.Outcome State Fault Refusal
  | [], s => .next s
  | i :: l, s => match exec i s with
    | .next t => execAll l t
    | o => o

/-! ## Frames -/

/-- A frame of type `t` from another station has come in with a good header and a good payload on a port that has block lock (R69,
R73, R82). -/
abbrev Dev.getsFrame (d : Dev) (r : RingId) (f : RawFrame) (t : Nat) : Prop :=
  d.hears (.ring r f.port) = true ∧ hcrcOk f.sof = true ∧ (hdrOf f.sof).type = t ∧ (hdrOf f.sof).src ≠ d.myst ∧ payloadOk f = true

/-- What every such frame leaves: time follows its tag, it restarts the listen timer, it is forwarded unless R72 removes it, its
epoch is noted (R69, R144, R515). -/
def Dev.passed (r : RingId) (f : RawFrame) (d : Dev) : Dev :=
  noteEpoch (hdrOf f.sof).epoch (forwardFrame r f ((d.at f.tag).mapRg r fun g => { g with listen := (d.at f.tag).st }))

/-- The frame is the first copy in the window of slot `n` of a ring that follows the time, of a station that is not muted (R73,
R94, R157). -/
abbrev Dev.accepts (d : Dev) (r : RingId) (f : RawFrame) (n : Nat) : Prop :=
  (d.passed r f).ringFollows r = true ∧
  (d.passed r f).slotFor r (hdrOf f.sof).type (hdrOf f.sof).src f.port f.tag = some n ∧
  ((d.passed r f).rg r).muted.contains (hdrOf f.sof).src = false ∧ ((d.passed r f).rg r).accepted.contains n = false

/-- What the first copy of a beacon leaves at a ring that is not synchronised: its slot, if the table has one for it in this
cycle, is noted as accepted; `none` for a second copy (R73). -/
def Dev.firstOf (d : Dev) (r : RingId) (f : RawFrame) : Option Dev :=
  match d.slotOf r (hdrOf f.sof).type (hdrOf f.sof).src with
  | none => some d
  | some n =>
    if n ∈ (d.rg r).accepted then none
    else some (d.mapRg r fun g => { g with accepted := n :: g.accepted })

/-- The copy is noted for its slot and its station, the tag of a station's first AXIS or IO frame with it. -/
def Dev.noted (r : RingId) (f : RawFrame) (n : Nat) (d : Dev) : Dev :=
  (d.passed r f).mapRg r fun g => { g with
    accepted := n :: g.accepted,
    heard := if g.heard.contains (hdrOf f.sof).src then g.heard else (hdrOf f.sof).src :: g.heard,
    first := if ((hdrOf f.sof).type == ftAXIS || (hdrOf f.sof).type == ftIO) &&
        !g.first.any fun (x : Nat × Nat) => x.1 == (hdrOf f.sof).src then
      ((hdrOf f.sof).src, f.tag) :: g.first else g.first }

/-! ## Ports of a ring -/

/-- A port has lost block lock and its loss is not yet a break; a port's loss is a break (R100). -/
def RingDyn.lostAt (g : RingDyn) : Port → Bool
  | .e => g.lostE
  | .w => g.lostW
def RingDyn.brokenAt (g : RingDyn) : Port → Bool
  | .e => g.brokenE
  | .w => g.brokenW
def RingDyn.withLost (p : Port) (v : Bool) (g : RingDyn) : RingDyn :=
  match p with
  | .e => { g with lostE := v }
  | .w => { g with lostW := v }
def RingDyn.withBroken (p : Port) (v : Bool) (g : RingDyn) : RingDyn :=
  match p with
  | .e => { g with brokenE := v }
  | .w => { g with brokenW := v }

end Sys2Proof.Machine
end

