-- ==== Sys2Proof/Certificates/Slice0/Obligations.lean ====
section
/-! DEFINITION. The statements for the provers. Each `Obligations.<Name>` is one proposition about the block; its docstring names
the sections of spec/ it rests on. Shared conditions stand in Sys2Proof/Safety.lean. -/
open Sys2Proof Sys2Proof.Machine

/-- With command c at the front of the queue, step is exec of c on the state whose queue is the rest; nothing else is
added. (opcode_table.json, spec/15_host_interface_registers.md.) -/
def Obligations.StepRunsFront : Prop :=
  ∀ (s : State) (c : Instr) (rest : List Instr), s.pending = c :: rest → step s = exec c { s with pending := rest }

/-- With no command waiting, step answers the same state: the choice of the model, log entry 2. (opcode_table.json,
spec/15_host_interface_registers.md.) -/
def Obligations.StepIdles : Prop :=
  ∀ s : State, s.pending = [] → step s = .next s

/-- exec answers a next state for every command; it leaves the queue of waiting commands alone, and no command but
OTP_PROGRAM_DONE writes a fuse. (opcode_table.json, spec/14_stages_reset_hotplug_calibration.md.) -/
def Obligations.CommandsKeepQueueAndFuses : Prop :=
  ∀ (c : Instr) (s : State), ∃ t, exec c s = .next t ∧ t.pending = s.pending ∧
    ((∀ ok, c ≠ .otpProgramDone ok) → t.fuse = s.fuse)

/-- In the state after reset every register of every page and window reads the reset value of its table, no byte of
memory is listed, no command waits, the stage is KEEPER, the safe chain holds with cause 1, and PORST_N is low.
(spec/15_host_interface_registers.md, spec/14_stages_reset_hotplug_calibration.md.) -/
def Obligations.ResetRegistersReadResetValues : Prop :=
  State.reset.pending = [] ∧ State.reset.dev.mem = [] ∧ State.reset.dev.st = 0 ∧
  (∀ page sel off, State.reset.dev.reg page sel off = resetWord 0 page off) ∧
  State.reset.dev.stage = 0 ∧ State.reset.dev.on pgSAF SAF.HOLD = true ∧ State.reset.dev.rd pgSAF SAF.CAUSE = 1 ∧
  State.reset.dev.keep.porst = true ∧ (∀ p : Path, State.reset.dev.pathUp p = false)

/-- Whatever fuses f0 the fuses of a state have come from, a step keeps that: die identity and factory set stand, a
key hash once programmed stands for ever, and the lowest version accepted never falls.
(spec/14_stages_reset_hotplug_calibration.md.) -/
def Obligations.FusesOnlyForward : Prop :=
  ∀ (f0 : Fuse) (s s' : State), s.fuse.follows f0 → step s = .next s' → s'.fuse.follows f0

/-- State.reset has the fuses the model ships a part with (the values of the factory set and die identity are the
choice of the model, log entry 7), so they follow those. (spec/14_stages_reset_hotplug_calibration.md.) -/
def Obligations.FusesFollowAtReset : Prop :=
  State.reset.fuse.follows Fuse.reset ∧ State.reset.fuse.kset = false

/-- A command of STG that reaches its page with BUSY = 0 and meets its conditions is recorded with OK and has exactly
its effect: GO_FULL waits with BUSY, GO_LANTERN drops to LANTERN with cause 7, LOAD starts the load from its source
with LFAIL 0, UNLOAD undoes the image, LANTERN ends what holds KEEPER, PARK and SRST drop to KEEPER with causes 6 and
5, CLRCNT clears RCNT. (spec/14_stages_reset_hotplug_calibration.md.) -/
def Obligations.StageCommandsCarriedOut : Prop :=
  ∀ (s : State) (p : Path) (arg : BitVec 16), s.dev.takes p pgSTG →
    (s.dev.fullOk = true → exec (.goFull p arg) s = .next (s.withDev (answered p
      { waiting pgSTG 0x01 arg s.dev with load := { s.dev.load with goFull := true } }))) ∧
    (s.dev.stage = 2 → exec (.goLantern p arg) s =
      .next (s.withDev (answered p (dropLantern 7 (recorded pgSTG 0x02 arg s.dev))))) ∧
    (s.dev.stage = 1 → (s.dev.lstep = 3 ∨ s.dev.lstep = 7) → s.dev.insertsLow = true → s.dev.on pgSYS SYS.INS = false →
      arg.toNat ≤ 2 → exec (.load p arg) s = .next (s.withDev (answered p ((({ recorded pgSTG 0x03 arg s.dev with
        load := { s.dev.load with source := arg.toNat + 1, byCmd := true, cfg := none } }).wr pgSTG STG.LFAIL 0).wr pgSTG
          STG.LSTEP (if arg.toNat = 2 then 4 else 2))))) ∧
    (s.dev.stage = 1 → s.dev.lstep = 6 → (s.dev.role = roNONE ∨ s.dev.role = roSILENT) → s.dev.insertsLow = true →
      s.dev.on pgSYS SYS.INS = false → exec (.unload p arg) s = .next (s.withDev (answered p (unloadImage (recorded pgSTG 0x04 arg s.dev))))) ∧
    (s.dev.stage = 0 → exec (.stgLantern p arg) s = .next (s.withDev (answered p
      (({ recorded pgSTG 0x05 arg s.dev with keep := { s.dev.keep with wdWait := false } }.wr pgSTG
        STG.KHOLD 0).wr pgSTG STG.WDRUN 0)))) ∧
    (s.dev.stage = 1 → (s.dev.role = roNONE ∨ s.dev.role = roSILENT) → s.dev.insertsLow = true →
      exec (.park p arg) s = .next (s.withDev (answered p (dropKeeper 6 (recorded pgSTG 0x06 arg s.dev))))) ∧
    (s.dev.insertsLow = true → exec (.srst p arg) s =
      .next (s.withDev (answered p (dropKeeper 5 (recorded pgSTG 0x07 arg s.dev))))) ∧
    exec (.stgClrcnt p arg) s =
      .next (s.withDev (answered p ((recorded pgSTG 0x08 arg s.dev).setReg pgSTG 0 STG.WDCNT.off 0)))

/-- A command of STG that reaches its page with BUSY = 0 and whose condition of state is not met is recorded in PCST
with E_STATE and changes nothing else; LOAD with a source above 2 and its condition met is recorded with E_PARAM.
(spec/14_stages_reset_hotplug_calibration.md, spec/15_host_interface_registers.md.) -/
def Obligations.StageCommandsRefused : Prop :=
  ∀ (s : State) (p : Path) (arg : BitVec 16), s.dev.takes p pgSTG →
    (s.dev.fullOk = false → exec (.goFull p arg) s = .next (s.withDev (answered p (refusedWith rSTATE pgSTG 0x01 arg s.dev)))) ∧
    (s.dev.stage ≠ 2 → exec (.goLantern p arg) s = .next (s.withDev (answered p (refusedWith rSTATE pgSTG 0x02 arg s.dev)))) ∧
    ((s.dev.stage ≠ 1 ∨ (s.dev.lstep ≠ 3 ∧ s.dev.lstep ≠ 7) ∨ s.dev.insertsLow = false ∨
      s.dev.on pgSYS SYS.INS = true) → exec (.load p arg) s = .next (s.withDev (answered p (refusedWith rSTATE pgSTG 0x03 arg s.dev)))) ∧
    (s.dev.stage = 1 → (s.dev.lstep = 3 ∨ s.dev.lstep = 7) → s.dev.insertsLow = true →
      s.dev.on pgSYS SYS.INS = false → 2 < arg.toNat → exec (.load p arg) s = .next (s.withDev (answered p (refusedWith rPARAM pgSTG 0x03 arg s.dev)))) ∧
    ((s.dev.stage ≠ 1 ∨ s.dev.lstep ≠ 6 ∨ (s.dev.role ≠ roNONE ∧ s.dev.role ≠ roSILENT) ∨ s.dev.insertsLow = false ∨
      s.dev.on pgSYS SYS.INS = true) → exec (.unload p arg) s = .next (s.withDev (answered p (refusedWith rSTATE pgSTG 0x04 arg s.dev)))) ∧
    (s.dev.stage ≠ 0 → exec (.stgLantern p arg) s = .next (s.withDev (answered p (refusedWith rSTATE pgSTG 0x05 arg s.dev)))) ∧
    ((s.dev.stage ≠ 1 ∨ (s.dev.role ≠ roNONE ∧ s.dev.role ≠ roSILENT) ∨ s.dev.insertsLow = false) →
      exec (.park p arg) s = .next (s.withDev (answered p (refusedWith rSTATE pgSTG 0x06 arg s.dev)))) ∧
    (s.dev.insertsLow = false →
      exec (.srst p arg) s = .next (s.withDev (answered p (refusedWith rSTATE pgSTG 0x07 arg s.dev))))

/-- RESTORE_FACTORY takes the factory set and validates anew, VALIDATE validates anew, a write of a word of the active
set in LANTERN is followed by CCRC, SRC = 3 and a new validation; PROGKEY and BUMPVER wait with BUSY, and
OTP_PROGRAM_DONE ends the one that waits, programming the fuses only when it succeeded; a command whose condition is
not met is recorded with E_STATE. (spec/14_stages_reset_hotplug_calibration.md.) -/
def Obligations.CalibrationAndFuseCommands : Prop :=
  (∀ (s : State) (p : Path) (arg : BitVec 16), s.dev.takes p pgCAL →
    (s.dev.stage = 1 → (∀ n ∈ s.dev.activeAxes, s.dev.axState n = axMOORED) → s.dev.on pgOTP OTP.FCRCOK = true →
      exec (.restoreFactory p arg) s = .next (s.withDev (answered p (startValidation (calSource 1 false
        (putCal (recorded pgCAL 0x01 arg s.dev).factorySet (recorded pgCAL 0x01 arg s.dev))))))) ∧
    ((s.dev.stage ≠ 1 ∨ s.dev.on pgOTP OTP.FCRCOK = false) → exec (.restoreFactory p arg) s =
      .next (s.withDev (answered p (refusedWith rSTATE pgCAL 0x01 arg s.dev)))) ∧
    (s.dev.stage = 1 → exec (.validate p arg) s =
      .next (s.withDev (answered p (startValidation (recorded pgCAL 0x02 arg s.dev))))) ∧
    (s.dev.stage ≠ 1 → exec (.validate p arg) s =
      .next (s.withDev (answered p (refusedWith rSTATE pgCAL 0x02 arg s.dev))))) ∧
  (∀ (s : State) (p : Path) (i : Fin 33) (v : Word), s.dev.reaches p pgCAL → s.dev.stage = 1 →
    s.dev.on pgCAL HDR.LOCK = false →
    exec (.calSetWrite p (CAL.GAIN0.off + 4 * i.val) v) s =
      .next (s.withDev (answered p (calWritten (putReg pgCAL 0 0 (CAL.GAIN0.off + 4 * i.val) v.toNat s.dev))))) ∧
  (∀ (s : State) (p : Path) (arg : BitVec 16), s.dev.takes p pgOTP →
    (s.dev.stage = 1 → (s.dev.lstep = 3 ∨ s.dev.lstep = 7) → s.dev.on pgOTP OTP.KSET = false →
      (∃ i, i < 8 ∧ s.dev.reg pgOTP 0 (OTP.KSTG.off + 4 * i) ≠ 0) →
      exec (.progkey p arg) s = .next (s.withDev (answered p ((waiting pgOTP 0x01 arg s.dev).wr pgOTP OTP.BUSY 1)))) ∧
    (s.dev.stage ≠ 0 → s.dev.lstep = 6 → s.dev.rd pgOTP OTP.MINVER < s.dev.rd pgSTG STG.VERSION →
      exec (.bumpver p arg) s = .next (s.withDev (answered p ((waiting pgOTP 0x02 arg s.dev).wr pgOTP OTP.BUSY 1)))) ∧
    (s.dev.on pgOTP OTP.KSET = true → exec (.progkey p arg) s =
      .next (s.withDev (answered p (refusedWith rSTATE pgOTP 0x01 arg s.dev)))) ∧
    (s.dev.rd pgSTG STG.VERSION ≤ s.dev.rd pgOTP OTP.MINVER → exec (.bumpver p arg) s =
      .next (s.withDev (answered p (refusedWith rSTATE pgOTP 0x02 arg s.dev))))) ∧
  (∀ (s : State), s.dev.on pgOTP OTP.BUSY = true →
    (∃ t, exec (.otpProgramDone true) s = .next t ∧ t.pending = s.pending ∧
      t.fuse = programFuse (s.dev.rd pgOTP HDR.PCST_CODE) s.dev s.fuse) ∧
    exec (.otpProgramDone false) s = .next (s.withDev (raise pgOTP 1 (s.dev.rd pgOTP HDR.PCST_CODE)
      (settleCmd pgOTP rOK (s.dev.wr pgOTP OTP.BUSY 0)))))

/-- PORST_N low, or VKEEP lost, puts every register back to its reset value and clears every memory, page and unit, in
KEEPER; PERST_N low puts the HIF and DMC pages back to reset and leaves every other register, all memory and the stage
as they are but for its count in RCNT; TRST_N low changes nothing of the block.
(spec/14_stages_reset_hotplug_calibration.md.) -/
def Obligations.ResetPins : Prop :=
  (∀ s : State, ∃ t, exec .porstAssert s = .next t ∧ exec .vkeepLoss s = .next t ∧ t.fuse = s.fuse ∧
    (∀ page sel off, t.dev.reg page sel off = resetWord s.dev.conf page off) ∧ t.dev.stage = 0 ∧ t.dev.mem = [] ∧
    t.dev.pairs = Vector.replicate 18 Pair.off ∧ t.dev.mot = Motor.reset ∧ t.dev.tsu = Tsu.reset ∧ t.dev.cap = Cap.reset ∧
    t.dev.evt = EvtUnit.reset ∧ t.dev.load = Load.reset ∧ t.dev.io = LocalIo.reset ∧ t.dev.mfe = Mfe.reset ∧
    t.dev.ring = Vector.replicate 4 RingDyn.reset ∧ t.dev.time = TimeBase.reset ∧ t.dev.red = Red.reset ∧
    t.dev.host = HostIf.reset ∧ t.dev.keep.porst = true) ∧
  (∀ s : State, s.dev.keep.perst = false → ∃ t, exec .perstAssert s = .next t ∧
    t.dev.keep.perst = true ∧ t.dev.mem = s.dev.mem ∧ t.dev.pairs = s.dev.pairs ∧ t.dev.mot = s.dev.mot ∧
    t.dev.tsu = s.dev.tsu ∧ t.dev.cap = s.dev.cap ∧ t.dev.load = s.dev.load ∧ t.dev.safe = s.dev.safe ∧
    t.dev.io = s.dev.io ∧ t.dev.mfe = s.dev.mfe ∧ t.dev.ring = s.dev.ring ∧ t.dev.time = s.dev.time ∧ t.dev.red = s.dev.red ∧
    t.dev.host.spi = s.dev.host.spi ∧ t.dev.host.held = [] ∧ t.dev.host.mail = [] ∧
    (∀ page sel off, page < 1024 → off < 4096 → (page = pgHIF ∨ page = pgDMC) →
      t.dev.reg page sel off = resetWord s.dev.conf page off) ∧
    (∀ page sel off, page < 1024 → off < 4096 → page ≠ pgHIF → page ≠ pgDMC → (page, sel, off) ≠ (pgSTG, 0, STG.PERSTCNT.off) →
      t.dev.reg page sel off = s.dev.reg page sel off) ∧
    t.dev.rd pgSTG STG.PERSTCNT = min (s.dev.rd pgSTG STG.PERSTCNT + 1) 255) ∧
  (∀ s : State, exec .trstAssert s = .next s) ∧
  (∀ s : State, s.dev.stage ≠ 0 → exec .perstRelease s =
    .next (s.withDev ({ s.dev with keep := { s.dev.keep with perst := false } }.wr pgHIF HIF.LUP 1)))

/-- In LANTERN or FULL a supply out of range drops to KEEPER with cause 2, loss of PLL lock with 3, loss of presence
with 4, and the watchdog with 1, counting WDCNT and WDRUN; a drop leaves the stage KEEPER with its cause in DCAUSE,
KEEPER held where the watchdog caused it, the safe chain holding, every page outside the KEEP domain at reset, memory
and the units of the CORE and MFE domains cleared. (spec/14_stages_reset_hotplug_calibration.md,
spec/10_local_feedback_io.md.) -/
def Obligations.DropsToKeeper : Prop :=
  (∀ s : State, s.dev.stage ≠ 0 →
    exec .supplyOutOfRange s = .next (s.withDev (dropKeeper 2 s.dev)) ∧
    exec .pllLossOfLock s = .next (s.withDev (dropKeeper 3 s.dev)) ∧
    exec .presenceLost s = .next (s.withDev (dropKeeper 4 { s.dev with keep := { s.dev.keep with present := false } })) ∧
    (s.dev.on pgSTG STG.WDEN = true → exec .watchdogExpire s = .next (s.withDev (dropKeeper 1
      (((s.dev.at (s.dev.keep.kicked + s.dev.wdPeriod)).inc pgSTG STG.WDCNT).wr pgSTG STG.WDRUN
        (min 3 (s.dev.rd pgSTG STG.WDRUN + 1))))))) ∧
  (∀ (d : Dev) (cause : Nat), d.stage ≠ 0 → cause ≤ 6 →
    (dropKeeper cause d).stage = 0 ∧ (dropKeeper cause d).rd pgSTG STG.DCAUSE = cause ∧
    ((dropKeeper cause d).keep.wdWait = true ↔ cause = 1) ∧
    (dropKeeper cause d).on pgSAF SAF.HOLD = true ∧ (dropKeeper cause d).mem = [] ∧
    (dropKeeper cause d).pairs = Vector.replicate 18 Pair.off ∧ (dropKeeper cause d).mot = Motor.reset ∧
    (dropKeeper cause d).tsu = Tsu.reset ∧ (dropKeeper cause d).cap = Cap.reset ∧ (dropKeeper cause d).mfe = Mfe.reset ∧
    (dropKeeper cause d).ring = Vector.replicate 4 RingDyn.reset ∧ (dropKeeper cause d).red = Red.reset ∧
    (∀ page sel off, page < 1024 → off < 4096 → isKept page = false →
      (dropKeeper cause d).reg page sel off = resetWord d.conf page off))

/-- A drop to LANTERN, from FULL or in LANTERN, leaves the stage LANTERN with its cause in DCAUSE, counts it in
FLTCNT, ends the assignment of axis tables to pairs, keeps the configuration of the loaded image, and with cause 8
leaves LSTEP = FAILED with LFAIL = 3. (spec/14_stages_reset_hotplug_calibration.md.) -/
def Obligations.DropsToLantern : Prop :=
  ∀ (d : Dev) (cause : Nat), (d.stage = 1 ∨ d.stage = 2) → 7 ≤ cause → cause ≤ 10 →
    (dropLantern cause d).stage = 1 ∧ (dropLantern cause d).rd pgSTG STG.DCAUSE = cause ∧
    (dropLantern cause d).rd pgSTG STG.FLTCNT = min (d.rd pgSTG STG.FLTCNT + 1) 255 ∧
    (dropLantern cause d).tsu.assign = [] ∧ (dropLantern cause d).load.cfg = d.load.cfg ∧
    (dropLantern cause d).conf = d.conf ∧ (cause = 8 → (dropLantern cause d).lstep = 7 ∧ (dropLantern cause d).rd pgSTG STG.LFAIL = 3)

/-- PORST_RELEASE takes the head number, boot source and presence from the pins; a debounced presence sets PRES, a
level that rises in KEEPER clears it; KEEPER_EXIT, with every condition of the device met, posts what the KEEP domain
holds, starts the watchdog period, guards WDEN where it is 1, and raises STAGE_CHANGE in LANTERN with LSTEP 0, and
otherwise changes nothing; a restart ends the wait of the watchdog when WDAUTO is 1; ten seconds in FULL clear WDRUN.
(spec/14_stages_reset_hotplug_calibration.md.) -/
def Obligations.PresenceAndKeeperExit : Prop :=
  (∀ (s : State) (h b : Bool) (q : Bool), s.dev.keep.porst = true → exec (.porstRelease h b q) s =
    .next (s.withDev (showSafe (showStg
      (({ s.dev with keep := { s.dev.keep with porst := false, head := h, present := q } }.wr pgSTG STG.BSRC (b2n b)).wr pgSTG
        STG.PRES (b2n q)))))) ∧
  (∀ s : State, s.dev.keep.present = true → s.dev.keep.porst = false →
    exec .presenceDebounced s = .next (s.withDev (showStg (s.dev.wr pgSTG STG.PRES 1)))) ∧
  (∀ s : State, s.dev.stage = 0 → exec (.presentNChange true) s =
    .next (s.withDev (showStg ({ s.dev with keep := { s.dev.keep with present := false } }.wr pgSTG STG.PRES 0)))) ∧
  (∀ s : State, exec (.presentNChange false) s =
    .next (s.withDev { s.dev with keep := { s.dev.keep with present := true } })) ∧
  (∀ s : State, s.dev.mayLeave = true → ∃ d, d = flushKept ((s.dev.wr pgSTG STG.STAGE 1).wr pgSTG STG.LSTEP 0) ∧
    exec .keeperExit s = .next (s.withDev (raise pgSTG 0 (d.stage + 16 * d.rd pgSTG STG.DCAUSE)
      { d with keep := { d.keep with kicked := d.st, wdLock := d.on pgSTG STG.WDEN } }))) ∧
  (∀ s : State, s.dev.mayLeave = false → exec .keeperExit s = .next s) ∧
  (∀ s : State, s.dev.stage = 0 → s.dev.keep.wdWait = true → s.dev.on pgSTG STG.WDAUTO = true →
    exec .watchdogRestart s = .next (s.withDev { s.dev with keep := { s.dev.keep with wdWait := false } })) ∧
  (∀ s : State, s.dev.stage = 2 → exec .wdrunClear s =
    .next (s.withDev ((s.dev.at (s.dev.keep.full + 160000000000)).wr pgSTG STG.WDRUN 0)))

/-- A write of 0xA5 to KEY over a path that WDSRC allows begins the period anew, and any other value changes nothing;
when half the period has passed, a running watchdog raises WD_WARN with argument 3.
(spec/14_stages_reset_hotplug_calibration.md.) -/
def Obligations.StageWatchdog : Prop :=
  (∀ (s : State) (p : Path) (v : Word), s.dev.reaches p pgSTG →
    (v.toNat % 256 = 0xA5 → (s.dev.rd pgSTG STG.WDSRC = 0 ∨ s.dev.rd pgSTG STG.WDSRC = 3) → exec (.watchdogKick p v) s =
      .next (s.withDev (answered p { s.dev with keep := { s.dev.keep with kicked := s.dev.st } }))) ∧
    (s.dev.rd pgSTG STG.WDSRC = 1 → p = .spi → exec (.watchdogKick p v) s = .next (s.withDev (answered p s.dev))) ∧
    (s.dev.rd pgSTG STG.WDSRC = 2 → p = .pcie → exec (.watchdogKick p v) s = .next (s.withDev (answered p s.dev))) ∧
    (v.toNat % 256 ≠ 0xA5 → exec (.watchdogKick p v) s = .next (s.withDev (answered p s.dev)))) ∧
  (∀ s : State, s.dev.wdRuns = true → exec .watchdogWarn s =
    .next (s.withDev (raise pgSTG 3 3 (s.dev.at (s.dev.keep.kicked + s.dev.wdPeriod / 2)))))

/-- Power-up in LANTERN shows the fuses in OTP and the head number as station and goes to step TEST with every fitted
pair in PSTATE TEST; the self test shows the memories and, with DRAM failed, ends in FAILED with LFAIL 10; the read of
the primary image starts at step 2, its bytes stand in DRAM at step 4, a read error or timeout from the alternate
image or the host ends in FAILED with LFAIL 11 or 12; an image that passes every check goes to PROGRAM, one that does
not ends in FAILED with the number of the check; PROGRAM_COMPLETE reaches READY, raises LOAD_DONE with the source of
the image, and starts a validation. (spec/14_stages_reset_hotplug_calibration.md.) -/
def Obligations.LanternSteps : Prop :=
  (∀ s : State, s.dev.stage = 1 → s.dev.lstep = 0 → ∃ t, exec .lanternPowerupDone s = .next t ∧ t.fuse = s.fuse ∧
    t.dev.lstep = 1 ∧ t.dev.mem = s.dev.mem ∧ t.dev.rd pgSYS SYS.HEAD = b2n s.dev.keep.head ∧
    (∀ r : RingId, t.dev.rd (pgRing r) RING.MYST = b2n s.dev.keep.head) ∧
    t.dev.rd pgOTP OTP.KSET = b2n s.fuse.kset ∧ t.dev.rd pgOTP OTP.MINVER = s.fuse.minver.toNat ∧
    (∀ p ∈ fittedPairs s.dev.conf, t.dev.rd (pgCep p) CEP.PSTATE = 5)) ∧
  (∀ (s : State) (sram dram : Bool) (bist : BitVec 18), s.dev.stage = 1 → s.dev.lstep ≠ 0 → s.dev.load.tested = false →
    ∃ t, exec (.selfTestComplete sram dram bist) s = .next t ∧ t.dev.load.tested = true ∧
      t.dev.rd pgSTG STG.SRAMOK = b2n sram ∧ t.dev.rd pgSTG STG.DRAMOK = b2n dram ∧
      (dram = false → t.dev.lstep = 7 ∧ t.dev.rd pgSTG STG.LFAIL = 10)) ∧
  (∀ s : State, s.dev.stage = 1 → s.dev.lstep = 1 → s.dev.on pgSTG STG.BSRC = false → exec .imageReadStart s =
    .next (s.withDev ({ s.dev with load := { s.dev.load with source := 1, byCmd := false } }.wr pgSTG STG.LSTEP 2))) ∧
  (∀ (s : State) (bs : List Byte), s.dev.stage = 1 → s.dev.lstep = 2 →
    exec (.imageReadComplete (some bs)) s =
      .next (s.withDev ((s.dev.setMemBytes dramImage (bs.take 0x100_0000)).wr pgSTG STG.LSTEP 4)) ∧
    (s.dev.load.source ≠ 1 ∨ s.dev.load.byCmd = true →
      exec (.imageReadComplete none) s = .next (s.withDev (raise pgSTG 2 11
        (({ s.dev with load := { s.dev.load with cfg := none } }.wr pgSTG STG.LSTEP 7).wr pgSTG STG.LFAIL 11))) ∧
      exec .imageReadTimeout s = .next (s.withDev (raise pgSTG 2 12
        (({ s.dev with load := { s.dev.load with cfg := none } }.wr pgSTG STG.LSTEP 7).wr pgSTG STG.LFAIL 12)))) ∧
    (s.dev.load.source = 1 → s.dev.load.byCmd = false → exec .imageReadTimeout s = .next (s.withDev
      ({ s.dev with load := { s.dev.load with cfg := none, source := 2 } }.wr pgSTG STG.LSTEP 2)))) ∧
  (∀ (s : State) (cfg : ImageCfg), s.dev.stage = 1 → s.dev.lstep = 4 →
    (imageCheck cfg s.dev = 0 → exec (.imageAuthComplete cfg) s =
      .next (s.withDev ({ s.dev with load := { s.dev.load with cfg := some cfg } }.wr pgSTG STG.LSTEP 5))) ∧
    (imageCheck cfg s.dev ≠ 0 → (s.dev.load.source ≠ 1 ∨ s.dev.load.byCmd = true) → exec (.imageAuthComplete cfg) s =
      .next (s.withDev (raise pgSTG 2 (imageCheck cfg s.dev)
        (({ s.dev with load := { s.dev.load with cfg := none } }.wr pgSTG STG.LSTEP 7).wr pgSTG
          STG.LFAIL (imageCheck cfg s.dev)))))) ∧
  (∀ (s : State) (cfg : ImageCfg), s.dev.load.cfg = some cfg → s.dev.stage = 1 → s.dev.lstep = 5 → s.dev.load.tested = true →
    ∃ d t, exec .programComplete s = .next t ∧ t.dev.lstep = 6 ∧ t = s.withDev (startValidation
      (((raise pgSTG 1 s.dev.load.source d).wr pgSTG STG.LTIME ((raise pgSTG 1 s.dev.load.source d).openBits 16)).openUsed)))

/-- CAL_VALIDATION_DONE ends a validation in progress: VBUSY 0, VRES the cores that failed; without one it changes
nothing. FULL_ENTRY with GO_FULL waiting re-verifies: with the image and every pair as found at load the stage becomes
FULL and the command is recorded with OK, otherwise it ends with E_STATE and nothing else changes.
(spec/14_stages_reset_hotplug_calibration.md.) -/
def Obligations.ValidationAndFullEntry : Prop :=
  (∀ (s : State) (codes : List (List (BitVec 24))),
    (s.dev.on pgCAL CAL.VBUSY = false → exec (.calValidationDone codes) s = .next s) ∧
    (s.dev.on pgCAL CAL.VBUSY = true → ∃ t, exec (.calValidationDone codes) s = .next t ∧
      t.dev.rd pgCAL CAL.VBUSY = 0 ∧ ∀ n, n < 4 →
        (bitOf (t.dev.rd pgCAL CAL.VRES) n = true ↔ s.dev.corePasses n (codes.getD n []) = false))) ∧
  (∀ s : State, s.dev.load.goFull = true →
    (s.dev.imageStands = true → ∃ t, exec .fullEntry s = .next t ∧ t.dev.stage = 2 ∧
      t.dev.rd pgSTG HDR.BUSY = 0 ∧ t.dev.rd pgSTG HDR.RESULT = rOK ∧ t.dev.load.goFull = false) ∧
    (s.dev.imageStands = false → exec .fullEntry s = .next (s.withDev
      (settleCmd pgSTG rSTATE { s.dev with load := { s.dev.load with goFull := false } }))))

/-- CLRCNT of TIM, RING, SYS, CEP, FBU, SGU, SGC, SAF, MFC, MFE, CAPU, CAP, DMC, HIF, EVT, GLB, SPM and RED, reaching
its page with BUSY = 0, is recorded with OK and sets exactly the counters of its page to 0. (spec/02_control_cycle.md,
spec/03_ring_link_and_frames.md, spec/08_engine_programming.md, spec/10_local_feedback_io.md,
spec/11_measurement_front_end.md, spec/12_capture_engine.md, spec/13_head_pair_redundancy.md,
spec/15_host_interface_registers.md.) -/
def Obligations.CountersCleared : Prop :=
  ∀ (s : State) (p : Path) (arg : BitVec 16),
    (s.dev.takes p pgTIM → exec (.timClrcnt p arg) s = .next (s.withDev (answered p
      (((recorded pgTIM 0x02 arg s.dev).setReg pgTIM 0 TIM.MISS.off 0).setReg pgTIM 0 TIM.ABORT.off 0)))) ∧
    (∀ r : RingId, s.dev.takes p (pgRing r) → exec (.ringClrcnt p r arg) s = .next (s.withDev (answered p
      ((((((recorded (pgRing r) 0x04 arg s.dev).wr (pgRing r) RING.CNTDUP 0).setReg (pgRing r) 0 RING.HCRC.off 0).setReg
        (pgRing r) 0 RING.COPYW.off 0).setReg (pgRing r) 0 RING.TXCOLL.off 0).wr (pgRing r) RING.BCNT 0)))) ∧
    (s.dev.takes p pgSYS → exec (.sysClrcnt p arg) s = .next (s.withDev (answered p
      ((recorded pgSYS 0x01 arg s.dev).setReg pgSYS 0 SYS.RTFAIL.off 0)))) ∧
    (∀ c : PairId, s.dev.takes p (pgCep c) → exec (.cepClrcnt p c arg) s = .next (s.withDev (answered p
      (((((recorded (pgCep c) 0x07 arg s.dev).wr (pgCep c) CEP.FCNT 0).wr (pgCep c) CEP.CORR 0).setReg (pgCep c) 0
        CEP.TCODE.off 0).setReg (pgCep c) 0 CEP.TTID.off 0)))) ∧
    (∀ c : FbuId, s.dev.takes p (pgFbu c) → exec (.fbuClrcnt p c arg) s = .next (s.withDev (answered p
      ((((((recorded (pgFbu c) 0x05 arg s.dev).setReg (pgFbu c) 0 FBU.QERR.off 0).wr (pgFbu c) FBU.IDEVC 0).wr (pgFbu c)
        FBU.LMISS 0).wr (pgFbu c) FBU.BEHIND 0).wr (pgFbu c) (FBU.BEHIND.nth 0x20 1) 0)))) ∧
    (s.dev.takesJ p pgSGU → exec (.sguClrcnt p arg) s = .next (s.withDev (answered p
      ((recorded pgSGU 0x02 arg s.dev).each (List.range 16) fun r d => (d.wrS pgSGU r SGU.RMISS 0).wrS pgSGU r SGU.BEHIND 0)))) ∧
    (∀ n : StepId, s.dev.takes p (pgSgc n) → exec (.sgcClrcnt p n arg) s = .next (s.withDev (answered p
      ((recorded (pgSgc n) 0x01 arg s.dev).wr (pgSgc n) SGC.LAGF 0)))) ∧
    (s.dev.takes p pgSAF → exec (.safClrcnt p arg) s = .next (s.withDev (answered p
      ((recorded pgSAF 0x03 arg s.dev).setReg pgSAF 0 SAF.TRIPS.off 0)))) ∧
    (∀ c : CoreId, s.dev.takes p (pgMfc c) → exec (.mfcClrcnt p c arg) s = .next (s.withDev (answered p
      ((((recorded (pgMfc c) 0x03 arg s.dev).setReg (pgMfc c) 0 MFC.TRGLOST.off 0).wr (pgMfc c) MFC.CHKFC 0).wr (pgMfc c)
        MFC.ERRC 0)))) ∧
    (s.dev.takes p pgMFE → exec (.mfeClrcnt p arg) s = .next (s.withDev (answered p
      ((recorded pgMFE 0x01 arg s.dev).setReg pgMFE 0 MFE.LCRC.off 0)))) ∧
    (∀ u : CapId, s.dev.takes p (pgCapu u) → exec (.capuClrcnt p u arg) s = .next (s.withDev (answered p
      ((recorded (pgCapu u) 0x05 arg s.dev).wr (pgCapu u) CAPU.TRGIGN 0)))) ∧
    (s.dev.takes p pgCAP → exec (.capClrcnt p arg) s = .next (s.withDev (answered p
      ((recorded pgCAP 0x01 arg s.dev).wr pgCAP CAP.EMISS 0)))) ∧
    (s.dev.takes p pgDMC → exec (.dmcClrcnt p arg) s = .next (s.withDev (answered p
      ((recorded pgDMC 0x02 arg s.dev).each (List.range 4) fun e d => d.wr pgDMC (DMC.DONE.nth 0x20 e) 0)))) ∧
    (s.dev.takes p pgHIF → exec (.hifClrcnt p arg) s = .next (s.withDev (answered p
      ((((recorded pgHIF 0x01 arg s.dev).wr pgHIF HIF.BECNT 0).wr pgHIF HIF.HCNT 0).setReg pgHIF 0 HIF.RXDROP.off 0)))) ∧
    (s.dev.takes p pgEVT → exec (.evtClrcnt p arg) s = .next (s.withDev (answered p
      ((recorded pgEVT 0x01 arg s.dev).wr pgEVT EVT.LOST 0)))) ∧
    (s.dev.takes p pgGLB → exec (.glbClrcnt p arg) s = .next (s.withDev (answered p
      ((((recorded pgGLB 0x01 arg s.dev).wr pgGLB GLB.PCNT 0).setReg pgGLB 0 GLB.DECC_CORR.off 0).setReg pgGLB 0
        GLB.SECC_CORR.off 0)))) ∧
    (s.dev.takes p pgSPM → exec (.spmClrcnt p arg) s = .next (s.withDev (answered p
      ((recorded pgSPM 0x01 arg s.dev).setReg pgSPM 0 SPM.CRCERR.off 0)))) ∧
    (s.dev.takes p pgRED → exec (.redClrcnt p arg) s = .next (s.withDev (answered p
      (((((recorded pgRED 0x06 arg s.dev).wr pgRED RED.JRETX 0).setReg pgRED 0 RED.DIGMIS.off 0).setReg pgRED 0
        RED.REPAIRS.off 0).wr pgRED RED.RFAIL 0))))

/-- LOGRESET empties the log and starts its sequence numbers anew; MBRESET, with both mailbox directions off, makes
every pointer meet its partner, and is refused with E_STATE otherwise; RESUME clears HALT of a halted engine and is
refused otherwise; SETRATE in LANTERN with every axis MOORED and a rate that fits sets NRATE and RPEND for the second
super-cycle boundary to come, a rate above 3 is refused with E_PARAM, and outside LANTERN it is refused with E_STATE.
(spec/02_control_cycle.md, spec/15_host_interface_registers.md.) -/
def Obligations.LogMailboxDmaRateCommands : Prop :=
  ∀ (s : State) (p : Path) (arg : BitVec 16),
    (s.dev.takes p pgEVT → exec (.logreset p arg) s = .next (s.withDev (answered p
      (showLog 0 ({ recorded pgEVT 0x02 arg s.dev with evt := { s.dev.evt with lseq := 0 } }.wr pgEVT EVT.LOGR
        (s.dev.rd pgEVT EVT.LOGW)))))) ∧
    (s.dev.takes p pgHIF → s.dev.on pgHIF HIF.RXEN = false → s.dev.on pgHIF HIF.TXEN = false → exec (.mbreset p arg) s =
      .next (s.withDev (answered p (({ recorded pgHIF 0x02 arg s.dev with host := { s.dev.host with txSent := 0 } }.wr pgHIF
        HIF.RXR (s.dev.rd pgHIF HIF.RXW)).wr pgHIF HIF.TXW (s.dev.rd pgHIF HIF.TXR))))) ∧
    (s.dev.takes p pgHIF → (s.dev.on pgHIF HIF.RXEN = true ∨ s.dev.on pgHIF HIF.TXEN = true) → exec (.mbreset p arg) s =
      .next (s.withDev (answered p (refusedWith rSTATE pgHIF 0x02 arg s.dev)))) ∧
    (s.dev.takes p pgDMC → s.dev.on pgDMC (DMC.HALT.nth 0x20 (arg.toNat % 4)) = true → exec (.dmcResume p arg) s =
      .next (s.withDev (answered p ((recorded pgDMC 0x01 arg s.dev).wr pgDMC (DMC.HALT.nth 0x20 (arg.toNat % 4)) 0)))) ∧
    (s.dev.takes p pgDMC → s.dev.on pgDMC (DMC.HALT.nth 0x20 (arg.toNat % 4)) = false → exec (.dmcResume p arg) s =
      .next (s.withDev (answered p (refusedWith rSTATE pgDMC 0x01 arg s.dev)))) ∧
    (s.dev.takes p pgTIM → s.dev.stage = 1 → (∀ n ∈ s.dev.activeAxes, s.dev.axState n = axMOORED) → arg.toNat ≤ 3 →
      s.dev.rateFits arg.toNat = true → exec (.setrate p arg) s = .next (s.withDev (answered p
        ((((recorded pgTIM 0x01 arg s.dev).wr pgTIM TIM.NRATE arg.toNat).wr pgTIM TIM.RPEND 1).timeMap fun t =>
          { t with rateAt := some (s.dev.st / 128000000 + 2) })))) ∧
    (s.dev.takes p pgTIM → s.dev.stage = 1 → (∀ n ∈ s.dev.activeAxes, s.dev.axState n = axMOORED) → 3 < arg.toNat →
      exec (.setrate p arg) s = .next (s.withDev (answered p (refusedWith rPARAM pgTIM 0x01 arg s.dev)))) ∧
    (s.dev.takes p pgTIM → s.dev.stage ≠ 1 →
      exec (.setrate p arg) s = .next (s.withDev (answered p (refusedWith rSTATE pgTIM 0x01 arg s.dev))))

/-- On a commanding head whose ring is in SYNC, RANGE asks for the next ranging slot; GRANT and WITHDRAW of another
station of a ring that is not broken, with HOTINS set and none pending, note station and kind with GPEND until the
next ring cycle count 63; in a ring out of SYNC all three are refused with E_STATE, and a station above 63 with
E_PARAM. (spec/03_ring_link_and_frames.md.) -/
def Obligations.RingCommands : Prop :=
  ∀ (s : State) (p : Path) (r : RingId) (arg : BitVec 16), s.dev.takes p (pgRing r) →
    (s.dev.commanding = true → s.dev.rstate r = rsSYNC →
      exec (.range p r arg) s = .next (s.withDev (answered p
        ((recorded (pgRing r) 0x01 arg s.dev).mapRg r fun g => { g with wantRange := true }))) ∧
      (s.dev.on (pgRing r) RING.HOTINS = true → s.dev.on (pgRing r) RING.BROKEN = false →
        s.dev.on (pgRing r) RING.GPEND = false → arg.toNat ≠ s.dev.myst →
        (arg.toNat ≤ 63 →
          exec (.grant p r arg) s = .next (s.withDev (answered p
            ((((((recorded (pgRing r) 0x02 arg s.dev).wr (pgRing r) RING.GSTA arg.toNat).wr (pgRing r) RING.GWD 0).wr
              (pgRing r) RING.GPEND 1).wr (pgRing r) RING.GDONE 0).mapRg r fun g =>
                { g with grantAt := some (s.dev.cyc / 64 * 64 + if s.dev.cyc % 64 = 63 then 127 else 63) }))) ∧
          exec (.withdraw p r arg) s = .next (s.withDev (answered p
            ((((((recorded (pgRing r) 0x03 arg s.dev).wr (pgRing r) RING.GSTA arg.toNat).wr (pgRing r) RING.GWD 1).wr
              (pgRing r) RING.GPEND 1).wr (pgRing r) RING.GDONE 0).mapRg r fun g =>
                { g with grantAt := some (s.dev.cyc / 64 * 64 + if s.dev.cyc % 64 = 63 then 127 else 63) })))) ∧
        (63 < arg.toNat →
          exec (.grant p r arg) s = .next (s.withDev (answered p (refusedWith rPARAM (pgRing r) 0x02 arg s.dev))) ∧
          exec (.withdraw p r arg) s = .next (s.withDev (answered p (refusedWith rPARAM (pgRing r) 0x03 arg s.dev)))))) ∧
    (s.dev.commanding = false ∨ s.dev.rstate r ≠ rsSYNC →
      exec (.range p r arg) s = .next (s.withDev (answered p (refusedWith rSTATE (pgRing r) 0x01 arg s.dev))) ∧
      exec (.grant p r arg) s = .next (s.withDev (answered p (refusedWith rSTATE (pgRing r) 0x02 arg s.dev))) ∧
      exec (.withdraw p r arg) s = .next (s.withDev (answered p (refusedWith rSTATE (pgRing r) 0x03 arg s.dev))))

/-- HALT in LANTERN halts a pair that is IDLE or RUN, keeping whether it ran; RESUME of a halted pair recomputes its
image CRC and goes on as before; STEP of a halted pair issues the instruction at its PC and HALT is raised again; BIST
in LANTERN puts an idle pair to TEST, REVIVE a faulted one, INJECT faults an idle one with cause 1; the counts of
pairs of TSU and the flags of SSTAT follow; each is refused with E_STATE when the pair is not in such a state.
(spec/08_engine_programming.md.) -/
def Obligations.PairCommands : Prop :=
  ∀ (s : State) (p : Path) (c : PairId) (arg : BitVec 16), s.dev.takes p (pgCep c) →
    (s.dev.stage = 1 → (s.dev.pstate c = 1 ∨ s.dev.pstate c = 2) → exec (.cepHalt p c arg) s =
      .next (s.withDev (answered p (raise (pgCep c) 3 c
        (showPairs (((recorded (pgCep c) 0x01 arg s.dev).setPair c
          { s.dev.pair c with wasRun := (s.dev.pair c).running != .nothing }).wr (pgCep c) CEP.PSTATE 3)))))) ∧
    ((s.dev.stage ≠ 1 ∨ (s.dev.pstate c ≠ 1 ∧ s.dev.pstate c ≠ 2)) → exec (.cepHalt p c arg) s =
      .next (s.withDev (answered p (refusedWith rSTATE (pgCep c) 0x01 arg s.dev)))) ∧
    (s.dev.pstate c = 3 →
      exec (.step p c arg) s = .next (s.withDev (answered p (stepPair c (recorded (pgCep c) 0x02 arg s.dev)))) ∧
      exec (.cepResume p c arg) s = .next (s.withDev (answered p
        (showPairs (((recorded (pgCep c) 0x03 arg s.dev).setReg (pgCep c) 0 CEP.CIMG.off (BitVec.ofNat 32 (s.dev.pairCrc c))).wr
          (pgCep c) CEP.PSTATE (if (s.dev.pair c).running = .nothing then 1 else 2)))))) ∧
    (s.dev.pstate c ≠ 3 →
      exec (.step p c arg) s = .next (s.withDev (answered p (refusedWith rSTATE (pgCep c) 0x02 arg s.dev))) ∧
      exec (.cepResume p c arg) s = .next (s.withDev (answered p (refusedWith rSTATE (pgCep c) 0x03 arg s.dev)))) ∧
    (s.dev.stage = 1 → s.dev.pstate c = 1 →
      exec (.bist p c arg) s = .next (s.withDev (answered p
        (showPairs (((recorded (pgCep c) 0x04 arg s.dev).setPair c { s.dev.pair c with reviving := false }).wr (pgCep c)
          CEP.PSTATE 5)))) ∧
      exec (.inject p c arg) s = .next (s.withDev (answered p (faultPair c 1 (recorded (pgCep c) 0x05 arg s.dev))))) ∧
    ((s.dev.stage ≠ 1 ∨ s.dev.pstate c ≠ 1) →
      exec (.bist p c arg) s = .next (s.withDev (answered p (refusedWith rSTATE (pgCep c) 0x04 arg s.dev))) ∧
      exec (.inject p c arg) s = .next (s.withDev (answered p (refusedWith rSTATE (pgCep c) 0x05 arg s.dev)))) ∧
    (s.dev.pstate c = 4 → exec (.revive p c arg) s = .next (s.withDev (answered p
      (showPairs (((recorded (pgCep c) 0x06 arg s.dev).setPair c { s.dev.pair c with reviving := true }).wr (pgCep c)
        CEP.PSTATE 5))))) ∧
    (s.dev.pstate c ≠ 4 → exec (.revive p c arg) s =
      .next (s.withDev (answered p (refusedWith rSTATE (pgCep c) 0x06 arg s.dev))))

/-- LARM arms and LDISARM disarms the latch, CDISARM disarms the compare unit in its argument and refuses one above 1
with E_PARAM, CLRERR clears the index error unless a line fault stands, and RDISARM disarms the ring compare unit in
its argument and refuses one above 15 with E_PARAM. (spec/10_local_feedback_io.md.) -/
def Obligations.LocalChannelCommands : Prop :=
  (∀ (s : State) (p : Path) (c : FbuId) (arg : BitVec 16), s.dev.takes p (pgFbu c) →
    exec (.larm p c arg) s = .next (s.withDev (answered p ((recorded (pgFbu c) 0x01 arg s.dev).wr (pgFbu c) FBU.LARMD 1))) ∧
    exec (.ldisarm p c arg) s = .next (s.withDev (answered p ((recorded (pgFbu c) 0x02 arg s.dev).wr (pgFbu c) FBU.LARMD 0))) ∧
    (∀ u : Fin 2, arg.toNat = u.val → exec (.cdisarm p c arg) s = .next (s.withDev (answered p
      ((recorded (pgFbu c) 0x03 arg s.dev).wrC c u FBU.ARMED 0)))) ∧
    (2 ≤ arg.toNat → exec (.cdisarm p c arg) s =
      .next (s.withDev (answered p (refusedWith rPARAM (pgFbu c) 0x03 arg s.dev)))) ∧
    (s.dev.on (pgFbu c) FBU.LF = false → exec (.clrerr p c arg) s = .next (s.withDev (answered p
      (showFerr c ((recorded (pgFbu c) 0x04 arg s.dev).wr (pgFbu c) FBU.IXF 0))))) ∧
    (s.dev.on (pgFbu c) FBU.LF = true → exec (.clrerr p c arg) s =
      .next (s.withDev (answered p (refusedWith rSTATE (pgFbu c) 0x04 arg s.dev))))) ∧
  (∀ (s : State) (p : Path) (arg : BitVec 16), s.dev.takesJ p pgSGU →
    (arg.toNat < 16 → exec (.rdisarm p arg) s = .next (s.withDev (answered p
      ((recorded pgSGU 0x01 arg s.dev).wrS pgSGU arg.toNat SGU.ARMED 0)))) ∧
    (16 ≤ arg.toNat → exec (.rdisarm p arg) s = .next (s.withDev (answered p (refusedWith rPARAM pgSGU 0x01 arg s.dev)))))

/-- In LANTERN and FULL TRIP sets its bit of SLATCH and, while the chain is released, holds it with cause 6, the time
of the trip and its count, sends STOP, and takes the STO outputs down; with the chain holding already only the bit is
set. RELEASE waits with BUSY for its evaluation. In KEEPER both are refused with E_STATE.
(spec/10_local_feedback_io.md.) -/
def Obligations.SafeChainCommands : Prop :=
  (∀ (s : State) (p : Path) (arg : BitVec 16), s.dev.takes p pgSAF →
    (s.dev.stage ≠ 0 → s.dev.on pgSAF SAF.HOLD = true → exec (.trip p arg) s = .next (s.withDev (answered p
      ((recorded pgSAF 0x01 arg s.dev).wrBit pgSAF SAF.TRIPC 0 true)))) ∧
    (s.dev.stage ≠ 0 → s.dev.on pgSAF SAF.HOLD = false → exec (.trip p arg) s = .next (s.withDev (answered p
      (raise pgSAF 0 6 (tripSto (sendStop ((((((recorded pgSAF 0x01 arg s.dev).wrBit pgSAF SAF.TRIPC 0 true).wr pgSAF
        SAF.HOLD 1).wr pgSAF SAF.CAUSE 6).wr64 pgSAF 0 SAF.STRIPLO.off s.dev.st).incW pgSAF SAF.TRIPS))))))) ∧
    (s.dev.stage = 0 → exec (.trip p arg) s =
      .next (s.withDev (answered p (refusedWith rSTATE pgSAF 0x01 arg s.dev))))) ∧
  (∀ (s : State) (p : Path) (arg : BitVec 16), s.dev.takesJ p pgSAF →
    (s.dev.stage ≠ 0 → exec (.release p arg) s = .next (s.withDev (answered p
      ((waiting pgSAF 0x02 arg s.dev).safeMap fun x => { x with release := some s.dev.evalCycle })))) ∧
    (s.dev.stage = 0 → exec (.release p arg) s =
      .next (s.withDev (answered p (refusedWith rSTATE pgSAF 0x02 arg s.dev)))))

/-- Over a path that serves, on a page with no command waiting, each of these commands completes with its own effect.
CONV of a core that is not OFF is one trigger of a scan at the present time, and none while CONT is 1 and a scan runs,
is due or is pending. ABORT of a core in WAKE, SCAN or DUMP, or with a trigger pending, clears PEND; a scan of the
core ends at once and the core is free, its excitation off unless EXCC holds it; a running dump completes and the scan
ends with it; the scan of a validation goes on and what was due is dropped (the last is the choice of the model, log
entry 113). ARM of an IDLE or STOPPED unit whose configuration is admitted and whose record fits clears OVF and
PREFULL, takes the pattern as it stands, reserves a record and arms the unit for it. STOP in ARMED, and in REARM with
the next record reserved, gives the reservation back, and in TRIGGERED closes the record with TRUNC; the unit is
STOPPED and STOP raised with the number of its record. FORCE in ARMED is a trigger at the present time with FORCED.
RESET of an IDLE or STOPPED unit with no post-processing outstanding makes RCNT and ACNT meet WCNT, clears OVF and
leaves the unit IDLE. In the other states each is refused with E_STATE, and ARM of a configuration that is not
admitted with E_PARAM. (spec/11_measurement_front_end.md, spec/12_capture_engine.md.) -/
def Obligations.MeasurementAndCaptureCommands : Prop :=
  (∀ (s : State) (p : Path) (c : CoreId) (arg : BitVec 16), s.dev.takes p (pgMfc c) → s.dev.stage ≠ 0 →
    (s.dev.cstate c ≠ 0 → exec (.conv p c arg) s = .next (s.withDev (answered p
      (if s.dev.contRuns c then recorded (pgMfc c) 0x01 arg s.dev
       else mfcTake c false s.dev.st (recorded (pgMfc c) 0x01 arg s.dev))))) ∧
    (s.dev.cstate c = 0 → exec (.conv p c arg) s =
      .next (s.withDev (answered p (refusedWith rSTATE (pgMfc c) 0x01 arg s.dev)))) ∧
    (∀ d, d = (recorded (pgMfc c) 0x02 arg s.dev).wr (pgMfc c) MFC.PEND 0 →
      (s.dev.cstate c < 3 → s.dev.on (pgMfc c) MFC.PEND = true → exec (.mfcAbort p c arg) s = .next (s.withDev (answered p d))) ∧
      (s.dev.cstate c = 3 → exec (.mfcAbort p c arg) s = .next (s.withDev (answered p
        (coreFree c d.st (d.mapCore c fun x => { x with due := [], exc := 0 }))))) ∧
      (s.dev.cstate c = 4 → s.dev.validating c = false → exec (.mfcAbort p c arg) s = .next (s.withDev (answered p
        (coreFree c d.st (d.mapCore c fun x =>
          { x with due := [], exc := if d.chanScan c MFC.EXCC = 1 then x.exc else 0 }))))) ∧
      (s.dev.validating c = true → exec (.mfcAbort p c arg) s = .next (s.withDev (answered p
        (d.mapCore c fun x => { x with due := [] })))) ∧
      (s.dev.cstate c = 5 → exec (.mfcAbort p c arg) s = .next (s.withDev (answered p
        (d.mapCore c fun x => { x with aborted := true }))))) ∧
    (s.dev.cstate c < 3 → s.dev.on (pgMfc c) MFC.PEND = false → exec (.mfcAbort p c arg) s =
      .next (s.withDev (answered p (refusedWith rSTATE (pgMfc c) 0x02 arg s.dev))))) ∧
  (∀ (s : State) (p : Path) (u : CapId) (arg : BitVec 16), s.dev.takes p (pgCapu u) →
    ((s.dev.rd (pgCapu u) CAPU.USTATE = 0 ∨ s.dev.rd (pgCapu u) CAPU.USTATE = 4) →
      (∀ d, d = ((recorded (pgCapu u) 0x01 arg s.dev).wr (pgCapu u) CAPU.OVF 0).wr (pgCapu u) CAPU.PREFULL 0 →
        armParam u s.dev = true → capFits u s.dev = true → exec (.arm p u arg) s = .next (s.withDev (answered p
          (capArmed u (capReserve u (d.setCapUnit u { d.capUnit u with pattern := d.capPatternHolds u })))))) ∧
      (armParam u s.dev = true → capFits u s.dev = false → exec (.arm p u arg) s =
        .next (s.withDev (answered p (refusedWith rSTATE (pgCapu u) 0x01 arg s.dev)))) ∧
      (armParam u s.dev = false → exec (.arm p u arg) s =
        .next (s.withDev (answered p (refusedWith rPARAM (pgCapu u) 0x01 arg s.dev)))) ∧
      (∀ d, d = ((recorded (pgCapu u) 0x04 arg s.dev).wr (pgCapu u) CAPU.RCNT (s.dev.rd (pgCapu u) CAPU.WCNT)).wr (pgCapu u)
          CAPU.ACNT (s.dev.rd (pgCapu u) CAPU.WCNT) →
        s.dev.rd (pgCapu u) CAPU.NPP = 0 → exec (.capuReset p u arg) s = .next (s.withDev (answered p
          (capState u 0 ((d.wr (pgCapu u) CAPU.OVF 0).setCapUnit u { s.dev.capUnit u with waiting := [], toCopy := [] }))))) ∧
      (s.dev.rd (pgCapu u) CAPU.NPP ≠ 0 → exec (.capuReset p u arg) s =
        .next (s.withDev (answered p (refusedWith rSTATE (pgCapu u) 0x04 arg s.dev)))) ∧
      exec (.capuStop p u arg) s = .next (s.withDev (answered p (refusedWith rSTATE (pgCapu u) 0x02 arg s.dev)))) ∧
    (∀ d, d = recorded (pgCapu u) 0x02 arg s.dev →
      ((s.dev.rd (pgCapu u) CAPU.USTATE = 1 ∨ (s.dev.rd (pgCapu u) CAPU.USTATE = 3 ∧ (s.dev.capUnit u).reserved = true)) →
        exec (.capuStop p u arg) s = .next (s.withDev (answered p
          (raise (pgCapu u) 3 ((s.dev.capUnit u).seq % 2 ^ 16) (capState u 4 (capDiscard u d)))))) ∧
      (s.dev.rd (pgCapu u) CAPU.USTATE = 2 → exec (.capuStop p u arg) s = .next (s.withDev (answered p
        (raise (pgCapu u) 3 ((s.dev.capUnit u).seq % 2 ^ 16) (capState u 4 (capClose u true d)))))) ∧
      (s.dev.rd (pgCapu u) CAPU.USTATE = 3 → (s.dev.capUnit u).reserved = false → exec (.capuStop p u arg) s =
        .next (s.withDev (answered p (raise (pgCapu u) 3 ((s.dev.capUnit u).seq % 2 ^ 16) (capState u 4 d)))))) ∧
    (s.dev.rd (pgCapu u) CAPU.USTATE = 1 → exec (.force p u arg) s = .next (s.withDev (answered p
      (capAccept raise u s.dev.st 4 (recorded (pgCapu u) 0x03 arg s.dev))))) ∧
    (s.dev.rd (pgCapu u) CAPU.USTATE ≠ 1 → exec (.force p u arg) s =
      .next (s.withDev (answered p (refusedWith rSTATE (pgCapu u) 0x03 arg s.dev)))))

/-- SILENCE on a STANDBY asks for decision D8, on a commanding head whose axes are all MOORED for SILENT; RESYNC,
where it may be joined, begins phase JOIN from now; HANDOVER and MANDATE that the state allows are noted, or held as a
request with DISAGREE when the peer contradicts them; CLRREQ drops a held request and its mark; each whose condition
is not met is refused with E_STATE. (spec/13_head_pair_redundancy.md.) -/
def Obligations.HeadPairCommands : Prop :=
  ∀ (s : State) (p : Path) (arg : BitVec 16), s.dev.takes p pgRED →
    (s.dev.role = roSTANDBY → exec (.silence p arg) s = .next (s.withDev (answered p
      ((recorded pgRED 0x02 arg s.dev).redMap fun r => { r with d8 := true })))) ∧
    (s.dev.commanding = true → s.dev.role ≠ roSTANDBY → (∀ n ∈ s.dev.activeAxes, s.dev.axState n = axMOORED) →
      exec (.silence p arg) s = .next (s.withDev (answered p
        ((recorded pgRED 0x02 arg s.dev).redMap fun r => { r with silence := true })))) ∧
    (s.dev.role ≠ roSTANDBY → s.dev.commanding = false → exec (.silence p arg) s =
      .next (s.withDev (answered p (refusedWith rSTATE pgRED 0x02 arg s.dev)))) ∧
    (s.dev.mayJoin = true → exec (.resync p arg) s = .next (s.withDev (answered p
      (((recorded pgRED 0x03 arg s.dev).wr pgRED RED.RPH 1).redMap fun r =>
        { r with
          since := s.dev.st, ready := false, bulkIn := [], items := [], istart := 0, same := none, parts := [], stored := [],
          opened := none })))) ∧
    (s.dev.mayJoin = false → exec (.resync p arg) s =
      .next (s.withDev (answered p (refusedWith rSTATE pgRED 0x03 arg s.dev)))) ∧
    (s.dev.redOk 0x01 = true → s.dev.contradicted 0x01 = false →
      exec (.handover p arg) s = .next (s.withDev (answered p (redApply 0x01 (recorded pgRED 0x01 arg s.dev))))) ∧
    (s.dev.redOk 0x01 = true → s.dev.contradicted 0x01 = true →
      exec (.handover p arg) s = .next (s.withDev (answered p (raise pgRED 6 0x01
        (((((recorded pgRED 0x01 arg s.dev).wr pgRED RED.RCODE 0x01).wr pgRED RED.RV 1).wr pgRED RED.RAGE 0).wr pgRED
          RED.DISAGREE 1))))) ∧
    (s.dev.redOk 0x01 = false → exec (.handover p arg) s =
      .next (s.withDev (answered p (refusedWith rSTATE pgRED 0x01 arg s.dev)))) ∧
    (s.dev.redOk 0x04 = true → s.dev.contradicted 0x04 = false →
      exec (.mandate p arg) s = .next (s.withDev (answered p (redApply 0x04 (recorded pgRED 0x04 arg s.dev))))) ∧
    (s.dev.redOk 0x04 = false → exec (.mandate p arg) s =
      .next (s.withDev (answered p (refusedWith rSTATE pgRED 0x04 arg s.dev)))) ∧
    exec (.clrreq p arg) s = .next (s.withDev (answered p
      (((recorded pgRED 0x05 arg s.dev).setReg pgRED 0 RED.RCODE.off 0).wr pgRED RED.DISAGREE 0)))

/-- A command of an AXP, SEA, PRF, PGRP or TSU page that reaches it with BUSY = 0 and lands on arrival is recorded
with BUSY = 1 and kept, with its argument, the cycle k + 2 and, for PRF, the descriptor as it stands in its window;
SWAP also sets SWPEND; nothing else changes. (spec/05_axis_control.md, spec/06_season_unit.md,
spec/07_profiles_homing_stepping.md, spec/09_task_scheduler.md, spec/15_host_interface_registers.md.) -/
def Obligations.MotionCommandsWait : Prop :=
  ∀ (s : State) (p : Path) (arg : BitVec 16),
    (∀ n : AxisId, s.dev.takesJ p (pgAxp n) →
      exec (.enable p n arg) s = .next (s.withDev (answered p (queued (pgAxp n) 0x01 arg noDesc s.dev))) ∧
      exec (.disable p n arg) s = .next (s.withDev (answered p (queued (pgAxp n) 0x02 arg noDesc s.dev))) ∧
      exec (.axpHalt p n arg) s = .next (s.withDev (answered p (queued (pgAxp n) 0x03 arg noDesc s.dev))) ∧
      exec (.start p n arg) s = .next (s.withDev (answered p (queued (pgAxp n) 0x04 arg noDesc s.dev))) ∧
      exec (.clear p n arg) s = .next (s.withDev (answered p (queued (pgAxp n) 0x06 arg noDesc s.dev))) ∧
      exec (.moor p n arg) s = .next (s.withDev (answered p (queued (pgAxp n) 0x07 arg noDesc s.dev))) ∧
      exec (.axpClrcnt p n arg) s = .next (s.withDev (answered p (queued (pgAxp n) 0x08 arg noDesc s.dev))) ∧
      exec (.swap p n arg) s = .next (s.withDev (answered p ((queued (pgAxp n) 0x05 arg noDesc s.dev).wr (pgAxp n) AXP.SWPEND 1)))) ∧
    (s.dev.takesJ p pgSEA →
      exec (.learn p arg) s = .next (s.withDev (answered p (queued pgSEA 0x01 arg noDesc s.dev))) ∧
      exec (.freeze p arg) s = .next (s.withDev (answered p (queued pgSEA 0x02 arg noDesc s.dev))) ∧
      exec (.seaOff p arg) s = .next (s.withDev (answered p (queued pgSEA 0x03 arg noDesc s.dev))) ∧
      exec (.seaReset p arg) s = .next (s.withDev (answered p (queued pgSEA 0x04 arg noDesc s.dev))) ∧
      exec (.copy p arg) s = .next (s.withDev (answered p (queued pgSEA 0x05 arg noDesc s.dev))) ∧
      exec (.seaClrcnt p arg) s = .next (s.withDev (answered p (queued pgSEA 0x06 arg noDesc s.dev)))) ∧
    (s.dev.takesJ p pgPRF →
      exec (.move p arg) s =
        .next (s.withDev (answered p (queued pgPRF 0x01 arg (s.dev.moveDesc (arg.toNat % 256)) s.dev))) ∧
      exec (.queue p arg) s =
        .next (s.withDev (answered p (queued pgPRF 0x02 arg (s.dev.moveDesc (arg.toNat % 256)) s.dev))) ∧
      exec (.flush p arg) s =
        .next (s.withDev (answered p (queued pgPRF 0x03 arg (s.dev.moveDesc (arg.toNat % 256)) s.dev))) ∧
      exec (.home p arg) s =
        .next (s.withDev (answered p (queued pgPRF 0x04 arg (s.dev.moveDesc (arg.toNat % 256)) s.dev))) ∧
      exec (.prfClrcnt p arg) s =
        .next (s.withDev (answered p (queued pgPRF 0x05 arg (s.dev.moveDesc (arg.toNat % 256)) s.dev)))) ∧
    (∀ g : GroupId, s.dev.takesJ p (pgPgrp g) →
      exec (.gstart p g arg) s = .next (s.withDev (answered p (queued (pgPgrp g) 0x01 arg noDesc s.dev))) ∧
      exec (.ghold p g arg) s = .next (s.withDev (answered p (queued (pgPgrp g) 0x02 arg noDesc s.dev))) ∧
      exec (.gresume p g arg) s = .next (s.withDev (answered p (queued (pgPgrp g) 0x03 arg noDesc s.dev))) ∧
      exec (.gabort p g arg) s = .next (s.withDev (answered p (queued (pgPgrp g) 0x04 arg noDesc s.dev))) ∧
      exec (.pgrpClrcnt p g arg) s = .next (s.withDev (answered p (queued (pgPgrp g) 0x05 arg noDesc s.dev)))) ∧
    (s.dev.takesJ p pgTSU →
      exec (.trigger p arg) s = .next (s.withDev (answered p (queued pgTSU 0x01 arg noDesc s.dev))) ∧
      exec (.cancel p arg) s = .next (s.withDev (answered p (queued pgTSU 0x02 arg noDesc s.dev))) ∧
      exec (.tsuClrcnt p arg) s = .next (s.withDev (answered p (queued pgTSU 0x03 arg noDesc s.dev))))

/-- A command written to PCMD of a page whose PCST has BUSY = 1 (read-once pages of any class, on a head that takes
writes on arrival) leaves CODE, RESULT and ARG of PCST as they are and sets LOST; it has no other effect.
(spec/15_host_interface_registers.md.) -/
def Obligations.BusyPageLosesCommand : Prop :=
  ∀ (d : Dev) (p : Path) (page code : Nat) (arg : BitVec 16), d.reaches p page → d.on page HDR.BUSY = true →
    d.landsNow → code < 256 → pageCommand p page code arg d = answered p (d.wr page HDR.LOST 1)

/-- On a STANDBY head a command of an AXP, PRF, PGRP, SEA, TSU or SGU page is not applied: DISAGREE of the page is set
and, with BUSY = 0, PCST records code and argument with E_STATE; nothing else changes.
(spec/15_host_interface_registers.md, spec/13_head_pair_redundancy.md.) -/
def Obligations.StandbyHoldsRequests : Prop :=
  ∀ (d : Dev) (p : Path) (page code : Nat) (arg : BitVec 16) (c : Cls), d.reaches p page → d.role = roSTANDBY → code < 256 →
    clsOf page = some c → (c = .axp ∨ c = .prf ∨ c = .pgrp ∨ c = .sea ∨ c = .tsu ∨ c = .sgu) → d.on page HDR.BUSY = false →
    pageCommand p page code arg d = answered p (refusedWith rSTATE page code arg
      (disagree ⟨page, 0, HDR.PCMD_CODE.off, BitVec.ofNat 32 (code + arg.toNat * 2 ^ 16), none⟩ d))

/-- On a head whose journal runs, with no write held and room in the queue, a command of an AXP, PRF, PGRP, SEA, TSU
or SGU page enters the journal as a write entry; its page does not see it before the entry lands.
(spec/13_head_pair_redundancy.md, spec/15_host_interface_registers.md.) -/
def Obligations.JournalTakesCommands : Prop :=
  ∀ (d : Dev) (p : Path) (page code : Nat) (arg : BitVec 16) (c : Cls), d.reaches p page → d.role ≠ roSTANDBY →
    d.journalRuns = true → d.host.held = [] → d.red.wait.length < 1024 → code < 256 →
    clsOf page = some c → (c = .axp ∨ c = .prf ∨ c = .pgrp ∨ c = .sea ∨ c = .tsu ∨ c = .sgu) →
    pageCommand p page code arg d = answered p (pushEntry
      (.write ⟨page, 0, HDR.PCMD_CODE.off, BitVec.ofNat 32 (code + arg.toNat * 2 ^ 16), none⟩) d)

/-- With the axis task of table n able to run, DEFERRED_EVALUATION keeps what the evaluation of the cycle brings, once
in a cycle, and changes nothing else: no register, no state of an axis, no waiting command; with the task not able to
run, or what is due evaluated already, it changes nothing. The evaluation with no write due and exactly one command
due takes that command from those that wait, evaluates it, and records its result with BUSY = 0. The task commits what
was evaluated, and completes a RESET or COPY whose cycle has come; where nothing was evaluated before, it evaluates
then. (spec/02_control_cycle.md, spec/05_axis_control.md, spec/06_season_unit.md.) -/
def Obligations.DeferredCommandEvaluated : Prop :=
  (∀ (s : State) (n : AxisId),
    (s.dev.taskRunnable n = false → exec (.deferredEvaluation n) s = .next s) ∧
    ((s.dev.aheadFor n s.dev.cyc).isSome = true → exec (.deferredEvaluation n) s = .next s) ∧
    (s.dev.taskRunnable n = true → s.dev.aheadFor n s.dev.cyc = none → exec (.deferredEvaluation n) s =
      .next (s.withDev { s.dev with mot := { s.dev.mot with ahead := s.dev.mot.ahead ++ [aheadOf n s.dev] } }))) ∧
  (∀ (d : Dev) (n : AxisId) (c : DueCmd), (∀ w ∈ d.mot.writes, DueWrite.forTask n d.cyc w = false) →
    d.mot.cmds.filter (fun x => DueCmd.forTask n d.cyc x) = [c] →
    evaluation n d = evalDue n d.cyc c
      { d with mot := { d.mot with cmds := d.mot.cmds.filter fun x => !DueCmd.forTask n d.cyc x } }) ∧
  (∀ (d : Dev) (n : AxisId), d.aheadFor n d.cyc = none → taskEvaluated n d = seaDone n (evaluation n d)) ∧
  (∀ (d : Dev) (n : AxisId) (a : AxAhead), d.aheadFor n d.cyc = some a → taskEvaluated n d = seaDone n (a.commit n d))

/-- ENABLE of a MOORED, unlatched axis in FULL with the chain released and a record seen, its configuration valid,
leaves it READY; START of a READY axis with a source leaves it RUN; HALT of a running axis and DISABLE of one that is
up stop it; MOOR moors any configured axis; CLEAR of a latched axis that may be cleared clears FLATCH and FCODE;
CLRCNT clears its counters; each in another state is E_STATE. (spec/05_axis_control.md.) -/
def Obligations.AxisCommandEvaluation : Prop :=
  ∀ (n : AxisId) (k : Nat) (d : Dev),
    (d.axState n = axMOORED → d.on (pgAxp n) AXP.FLATCH = false → d.stage = 2 → d.on pgSAF SAF.HOLD = false →
      (d.ax n).seen = true → d.enableOk n = true → evalAxp n 0x01 k d = (rOK, enableAxis n d)) ∧
    (d.axState n = axMOORED → d.on (pgAxp n) AXP.FLATCH = false → d.stage = 2 → d.on pgSAF SAF.HOLD = false →
      (d.ax n).seen = true → d.enableOk n = false → evalAxp n 0x01 k d = (rPARAM, d)) ∧
    (d.axState n ≠ axMOORED → evalAxp n 0x01 k d = (rSTATE, d)) ∧
    ((d.axState n = axREADY ∨ d.axState n = axRUN ∨ d.axState n = axSTOPPING) →
      evalAxp n 0x02 k d = (rOK, stopAxis n true d)) ∧
    (d.axState n = axMOORED → evalAxp n 0x02 k d = (rSTATE, d)) ∧
    (d.axState n = axRUN → evalAxp n 0x03 k d = (rOK, stopAxis n false d)) ∧
    (d.axState n ≠ axRUN → evalAxp n 0x03 k d = (rSTATE, d)) ∧
    (d.axState n = axREADY → d.par n AXP.SPSRC = 1 → d.rd (pgAxp n) AXP.GDEN ≠ 0 →
      evalAxp n 0x04 k d = (rOK, startAxis n d)) ∧
    (d.axState n ≠ axREADY → evalAxp n 0x04 k d = (rSTATE, d)) ∧
    (d.axState n = axMOORED → evalAxp n 0x05 k d = (rOK, swapBanks n (d.wr (pgAxp n) AXP.SWPEND 0))) ∧
    (d.axState n = axMOORED → d.on (pgAxp n) AXP.FLATCH = true → d.clearOk n k = true →
      evalAxp n 0x06 k d = (rOK, (d.wr (pgAxp n) AXP.FLATCH 0).wr (pgAxp n) AXP.FCODE 0)) ∧
    (d.axState n = axMOORED → d.clearOk n k = false → evalAxp n 0x06 k d = (rSTATE, d)) ∧
    (d.axState n ≠ axDISABLED → evalAxp n 0x07 k d = (rOK, moorAxis n d)) ∧
    (d.axState n = axDISABLED → evalAxp n 0x07 k d = (rSTATE, d)) ∧
    evalAxp n 0x08 k d = (rOK, clearAxisCounts n d)

/-- A write of one word, in the page view or through SET, CLR or TOG, that meets no bus error, is no low half of a
pair, is not KEY or PIXCTL and lands on arrival, lands at its register in its view; over SPI the response has status
0; nothing else changes. (spec/15_host_interface_registers.md.) -/
def Obligations.RegisterWritesLand : Prop :=
  ∀ (s : State) (p : Path) (page off : Nat) (v : Word), s.dev.reaches p page → page < 1024 → off < 0x1000 → off % 4 = 0 → 0x40 ≤ off → s.dev.landsNow →
    pairHalf page off ≠ 1 → ¬ (page = pgSTG ∧ off = STG.KEY.off) → ¬ (page = pgTIM ∧ off = TIM.ACQ.off) →
    (s.dev.writeCause p page (s.dev.selAhead page off) 0 off v.toNat = none →
      exec (.registerWrite ⟨p, addrOf page 0 off, 1, 0xF, v.setWidth 64⟩) s =
        .next (s.withDev (answered p (landWrite ⟨page, 0, off, v, none⟩ s.dev))) ∧
      exec (.journalledWrite p (BitVec.ofNat 24 (addrOf page 0 off)) v) s =
        .next (s.withDev (answered p (landWrite ⟨page, 0, off, v, none⟩ s.dev)))) ∧
    (s.dev.writeCause p page (s.dev.selAhead page off) 1 off v.toNat = none →
      exec (.aliasSet p (BitVec.ofNat 24 (addrOf page 0 off)) v) s =
        .next (s.withDev (answered p (landWrite ⟨page, 1, off, v, none⟩ s.dev)))) ∧
    (s.dev.writeCause p page (s.dev.selAhead page off) 2 off v.toNat = none →
      exec (.aliasClr p (BitVec.ofNat 24 (addrOf page 0 off)) v) s =
        .next (s.withDev (answered p (landWrite ⟨page, 2, off, v, none⟩ s.dev)))) ∧
    (s.dev.writeCause p page (s.dev.selAhead page off) 3 off v.toNat = none →
      exec (.aliasTog p (BitVec.ofNat 24 (addrOf page 0 off)) v) s =
        .next (s.withDev (answered p (landWrite ⟨page, 3, off, v, none⟩ s.dev))))

/-- On the GLB, OTP, RING, SYS, DMC, CAP and SGC pages a landed write of a register from 0x040 on, which the state of
the unit does not refuse, writes the register in its window with the value its view gives, and restores its parity;
where it names the source of an edge probe (CAP from 0x100 on), the probe takes the level of its pin; where it gives
the STEP output of a channel its polarity (SCFG of SGC), the pin takes its idle level, an edge for the probes that
watch it; every other register, all memory and every other unit stand. (spec/15_host_interface_registers.md.) -/
def Obligations.LandedWriteSetsItsRegister : Prop :=
  ∀ (d : Dev) (page off view : Nat) (v : Word) (c : Cls) (r : RegRow), clsOf page = some c →
    (c = .glb ∨ c = .otp ∨ c = .ring ∨ c = .sys ∨ c = .dmc ∨ c = .cap ∨ c = .sgc) → 0x40 ≤ off → off < 0x1000 →
    regRow c off = some r → r.wo = 0 → r.w1p = 0 → d.refusedNow ⟨page, view, off, v, none⟩ = false → ∃ x,
    x = restoreParity ⟨page, d.selOf page off, off⟩ (d.setReg page (d.selOf page off) off
      (BitVec.ofNat 32 (viewed r view (d.reg page (d.selOf page off) off).toNat v.toNat))) ∧
    ((c ≠ .cap ∨ off < 0x100) → (c ≠ .sgc ∨ off ≠ SGC.SPINV.off) → landWrite ⟨page, view, off, v, none⟩ d = x) ∧
    (c = .cap → 0x100 ≤ off → landWrite ⟨page, view, off, v, none⟩ d = edgeSrcWritten ((off - 0x100) / 4) x) ∧
    (c = .sgc → off = SGC.SPINV.off → landWrite ⟨page, view, off, v, none⟩ d =
      pinEdge (0x50 + (page - 0x70)) (x.on page SGC.SPINV) x.st x)

/-- In the page view an RW bit takes the bit written and every other bit stands; SET ORs the written bits into the RW
bits, CLR clears the RW and RC bits written as 1, TOG inverts the RW bits written as 1, and every other bit stands.
(spec/15_host_interface_registers.md.) -/
def Obligations.ViewsActOnBits : Prop :=
  ∀ (r : RegRow) (old v i : Nat), old < 2 ^ 32 → v < 2 ^ 32 → r.rw < 2 ^ 32 → r.rc < 2 ^ 32 →
    (viewed r 0 old v).testBit i = (if r.rw.testBit i then v.testBit i else old.testBit i) ∧
    (viewed r 1 old v).testBit i = (old.testBit i || (v.testBit i && r.rw.testBit i)) ∧
    (viewed r 2 old v).testBit i = (old.testBit i && !(v.testBit i && (r.rw.testBit i || r.rc.testBit i))) ∧
    (viewed r 3 old v).testBit i = (old.testBit i ^^ (v.testBit i && r.rw.testBit i))

/-- A 32-bit write of the low word of a pair that meets no bus error is held on its path and lands nowhere; a write of
the high word over the same path then lands both words at once; with no high word the held word lands alone 10 µs
after it was written. (spec/15_host_interface_registers.md.) -/
def Obligations.PairHalvesLandTogether : Prop :=
  ∀ (s : State) (p : Path) (page off : Nat), page < 1024 → off < 0x1000 → off % 4 = 0 → 0x40 ≤ off →
    s.dev.serves p = true → s.dev.answers page = true →
    (∀ v : Word, (s.dev.latch p).held = none → pairHalf page off = 1 →
      s.dev.writeCause p page (s.dev.selAhead page off) 0 off v.toNat = none →
      exec (.pairLowWrite p (BitVec.ofNat 24 (addrOf page 0 off)) v) s =
        .next (s.withDev (thanks p (setHeld p (some (page, off, v)) s.dev)))) ∧
    (∀ lo hi : Word, (s.dev.latch p).held = some (page, off, lo) → s.dev.landsNow → off + 4 < 0x1000 →
      pairHalf page (off + 4) = 2 → page ≠ pgSTG → page ≠ pgTIM →
      s.dev.writeCause p page (s.dev.selAhead page (off + 4)) 0 (off + 4) hi.toNat = none →
      exec (.registerWrite ⟨p, addrOf page 0 (off + 4), 1, 0xF, hi.setWidth 64⟩) s =
        .next (s.withDev (answered p (landWrite ⟨page, 0, off, lo, some hi⟩ s.dev)))) ∧
    (∀ lo : Word, (s.dev.latch p).held = some (page, off, lo) → s.dev.landsNow →
      exec (.heldLowWordTimeout p) s = .next (s.withDev (setHeld p none (landWrite ⟨page, 0, off, lo, none⟩
        (s.dev.at ((s.dev.latch p).since + 160000))))))

/-- A write of one whole register of an AXP page that meets no bus error enters the journal as a write entry while the
journal runs with room and no write held; on a STANDBY it sets DISAGREE of the page and changes nothing else.
(spec/13_head_pair_redundancy.md, spec/15_host_interface_registers.md.) -/
def Obligations.JournalledWritesWait : Prop :=
  ∀ (s : State) (p : Path) (n : AxisId) (off : Nat) (v : Word), s.dev.reaches p (pgAxp n) → 0x40 ≤ off → off < 0x1000 →
    off % 4 = 0 → pairHalf (pgAxp n) off = 0 →
    s.dev.writeCause p (pgAxp n) (s.dev.selAhead (pgAxp n) off) 0 off v.toNat = none →
    (s.dev.role ≠ roSTANDBY → s.dev.journalRuns = true → s.dev.host.held = [] → s.dev.red.wait.length < 1024 →
      exec (.journalledWrite p (BitVec.ofNat 24 (addrOf (pgAxp n) 0 off)) v) s =
        .next (s.withDev (answered p (pushEntry (.write ⟨pgAxp n, 0, off, v, none⟩) s.dev))) ∧
      exec (.axpWrite p n off v) s =
        .next (s.withDev (answered p (pushEntry (.write ⟨pgAxp n, 0, off, v, none⟩) s.dev)))) ∧
    (s.dev.role = roSTANDBY →
      exec (.axpWrite p n off v) s = .next (s.withDev (answered p (s.dev.wr (pgAxp n) AXP.DISAGREE 1))))

/-- A write of an AXP register that lands takes its value at once in the register as written; where the register is
one adopted in cycle k + 2, the value read back waits for its adoption, and a write of one that is adopted at mooring
or at START is noted, so that PCHG stands until then. A write of CVAL takes its value and arms its compare unit as the
unit rules; a write of FCFG or SCFG of a unit not in use takes its value; another MODE or QM starts the channel anew,
and line faults and soft limits are shown for the configuration now in use. A ring compare register waits for its
adoption by the task of RAX. (spec/05_axis_control.md, spec/10_local_feedback_io.md.) -/
def Obligations.MotionRegisterWrites : Prop :=
  ∀ (s : State) (p : Path) (v : Word), s.dev.landsNow →
    (∀ (n : AxisId) (off : Nat), s.dev.reaches p (pgAxp n) → 0x40 ≤ off → off < 0x1000 → off % 4 = 0 → pairHalf (pgAxp n) off = 0 →
      s.dev.writeCause p (pgAxp n) (s.dev.selAhead (pgAxp n) off) 0 off v.toNat = none → ∃ d,
        d = putReg (pgAxp n) 0 0 off v.toNat s.dev ∧ exec (.axpWrite p n off v) s =
          .next (s.withDev (answered p (showPchg n
            ((if liveOffs.contains off then noteWrite n (pgAxp n) 0 off (d.reg (pgAxp n) 0 off) d else d).mapAx n fun x =>
              { x with chgMoor := x.chgMoor || mooringOffs.contains off, chgStart := x.chgStart || startOffs.contains off }))))) ∧
    (∀ (c : FbuId) (u : Fin 2), s.dev.reaches p (pgFbu c) → s.dev.on (pgFbu c) HDR.LOCK = false →
      exec (.cvalWrite p c u v) s = .next (s.withDev (answered p
        (cvalWritten c u (putReg (pgFbu c) 0 0 (FBU.CVAL.off + 0x20 * u.val) v.toNat s.dev))))) ∧
    (∀ (c : FbuId), s.dev.reaches p (pgFbu c) → s.dev.on (pgFbu c) HDR.LOCK = false → s.dev.fbuInUse c = false →
      exec (.fbuConfigWrite p c true v) s = .next (s.withDev (answered p
        (putReg (pgFbu c) 0 0 FBU.NBITS.off v.toNat s.dev))) ∧
      (∃ d, d = putReg (pgFbu c) 0 0 FBU.MODE.off v.toNat s.dev ∧ exec (.fbuConfigWrite p c false v) s =
        .next (s.withDev (answered p (fbuConfigured c (s.dev.reg (pgFbu c) 0 FBU.MODE.off).toNat
          (d.reg (pgFbu c) 0 FBU.MODE.off).toNat d))))) ∧
    (∀ off : Nat, s.dev.reaches p pgSGU → 0xA0 ≤ off → off < 0x1000 → off % 4 = 0 → pairHalf pgSGU off = 0 →
      s.dev.writeCause p pgSGU (s.dev.selAhead pgSGU off) 0 off v.toNat = none → ∃ d sel,
        sel = s.dev.rd pgSGU SGU.RSEL ∧ d = putReg pgSGU sel 0 off v.toNat s.dev ∧ exec (.ringCompareWrite p off v) s =
          .next (s.withDev (answered p (noteWrite (d.rdS pgSGU sel SGU.RAX) pgSGU sel off (d.reg pgSGU sel off) d))))

/-- ACQ gives the host the newest input bank when there is a new one and changes nothing otherwise; PUB swaps the host
output bank with the pending one and marks it fresh; RXR, TXW, RCNT and HREL take a value within their span and meet a
bus error with cause 6 otherwise; LOGR moves on within the unread entries and shows what is left; SAFOWN is set over
SPI, stays set, and is refused over PCI Express; HINT takes its value and starts its age anew.
(spec/02_control_cycle.md, spec/12_capture_engine.md, spec/13_head_pair_redundancy.md,
spec/15_host_interface_registers.md.) -/
def Obligations.PointerWrites : Prop :=
  ∀ (s : State) (p : Path) (v : Word),
    (s.dev.reaches p pgTIM → s.dev.on pgTIM TIM.NEW = true → exec (.pixctlAcq p) s = .next (s.withDev (answered p
      (((s.dev.wr pgTIM TIM.PIXI_HOST (s.dev.rd pgTIM TIM.NEWEST)).wr pgTIM TIM.NEWEST (s.dev.rd pgTIM TIM.PIXI_HOST)).wr
        pgTIM TIM.NEW 0)))) ∧
    (s.dev.reaches p pgTIM → s.dev.on pgTIM TIM.NEW = false → exec (.pixctlAcq p) s = .next (s.withDev (answered p s.dev))) ∧
    (s.dev.reaches p pgTIM → s.dev.landsNow → exec (.pixctlPub p) s = .next (s.withDev (answered p
      (((s.dev.wr pgTIM TIM.PIXO_HOST (s.dev.rd pgTIM TIM.PEND)).wr pgTIM TIM.PEND (s.dev.rd pgTIM TIM.PIXO_HOST)).wr
        pgTIM TIM.FRESH 1)))) ∧
    (s.dev.reaches p pgHIF → s.dev.on pgHIF HDR.LOCK = false →
      (v.toNat % 64 = 0 → inSpan (s.dev.rd pgHIF HIF.RXR) (s.dev.rd pgHIF HIF.RXW) v.toNat = true → exec (.rxrWrite p v) s =
        .next (s.withDev (answered p (putReg pgHIF 0 0 HIF.RXR.off v.toNat s.dev)))) ∧
      (v.toNat % 64 = 0 → inSpan (s.dev.rd pgHIF HIF.TXW) (s.dev.rd pgHIF HIF.TXR + mailSize) v.toNat = true →
        exec (.txwWrite p v) s = .next (s.withDev (answered p (putReg pgHIF 0 0 HIF.TXW.off v.toNat s.dev))))) ∧
    (s.dev.reaches .pcie pgHIF → s.dev.on pgHIF HDR.LOCK = false → v.toNat % 64 ≠ 0 →
      exec (.rxrWrite .pcie v) s = .next (s.withDev (busError .pcie 0 (addrOf pgHIF 0 HIF.RXR.off) true 6 s.dev))) ∧
    (∀ u : CapId, s.dev.reaches p (pgCapu u) → s.dev.on (pgCapu u) HDR.LOCK = false →
      (rcntOk u v.toNat s.dev = true → exec (.rcntWrite p u v) s =
        .next (s.withDev (answered p (putReg (pgCapu u) 0 0 CAPU.RCNT.off v.toNat s.dev)))) ∧
      (hrelOk u v.toNat s.dev = true → exec (.hrelWrite p u v) s =
        .next (s.withDev (answered p (putReg (pgCapu u) 0 0 CAPU.HREL.off v.toNat s.dev))))) ∧
    (∀ u : CapId, s.dev.reaches .pcie (pgCapu u) → s.dev.on (pgCapu u) HDR.LOCK = false → rcntOk u v.toNat s.dev = false →
      exec (.rcntWrite .pcie u v) s =
        .next (s.withDev (busError .pcie 0 (addrOf (pgCapu u) 0 CAPU.RCNT.off) true 6 s.dev))) ∧
    (s.dev.reaches p pgEVT → s.dev.on pgEVT HDR.LOCK = false → v.toNat < 1024 →
      (v.toNat + 1024 - s.dev.rd pgEVT EVT.LOGR) % 1024 ≤ s.dev.logUnread → exec (.logrWrite p v) s =
        .next (s.withDev (answered p (showLog (s.dev.logUnread - (v.toNat + 1024 - s.dev.rd pgEVT EVT.LOGR) % 1024)
          (putReg pgEVT 0 0 EVT.LOGR.off v.toNat s.dev))))) ∧
    (s.dev.reaches .spi pgSPM → s.dev.on pgSPM HDR.LOCK = false →
      (s.dev.on pgSPM SPM.SAFOWN = false → exec (.safownWrite .spi v) s =
        .next (s.withDev (answered .spi (putReg pgSPM 0 0 SPM.SAFOWN.off v.toNat s.dev)))) ∧
      (s.dev.on pgSPM SPM.SAFOWN = true → exec (.safownWrite .spi v) s =
        .next (s.withDev (answered .spi ((putReg pgSPM 0 0 SPM.SAFOWN.off v.toNat s.dev).wr pgSPM SPM.SAFOWN 1))))) ∧
    (s.dev.reaches .pcie pgSPM → s.dev.on pgSPM HDR.LOCK = false → exec (.safownWrite .pcie v) s =
      .next (s.withDev (busError .pcie 0 (addrOf pgSPM 0 SPM.SAFOWN.off) true 5 s.dev))) ∧
    (s.dev.reaches p pgRED → s.dev.on pgRED HDR.LOCK = false → v.toNat < 4 → exec (.mgmtHintWrite p v) s =
      .next (s.withDev (answered p (((putReg pgRED 0 0 RED.HINT.off v.toNat s.dev).wr pgRED RED.HINT v.toNat).wr pgRED
        RED.HAGE 0))))

/-- A write over PCI Express to an offset of BAR0 that meets a cause is only recorded in HIF, with BUSERR raised; over
SPI the response carries status 1 as well; a read over PCI Express receives a Completer Abort, and one over SPI status
1 with data 0; a posted write to BAR2 or BAR4 that a byte of its map refuses is only recorded.
(spec/15_host_interface_registers.md.) -/
def Obligations.BusErrorsHaveNoSideEffect : Prop :=
  (∀ (s : State) (q : BusWrite) (c : Nat), s.dev.serves q.path = true → q.addr < 2 ^ 24 → s.dev.writeFault q = some c →
    exec (.registerWrite q) s = .next (s.withDev (match q.path with
      | .pcie => busError .pcie 0 q.addr true c s.dev
      | .spi => spiRespond 14 12 1 [] (busError .spi 0 q.addr true c s.dev)))) ∧
  (∀ (s : State) (q : BusRead) (c : Nat), s.dev.serves q.path = true → q.addr < 2 ^ 24 → q.be.toNat % 16 ≠ 0 →
    s.dev.readFault q = some c → q.path = .pcie →
    exec (.registerRead q) s = .next (s.withDev ((busError .pcie 0 q.addr false c s.dev).emit (.completion none)))) ∧
  (∀ (s : State) (q : BusRead) (c : Nat), s.dev.serves q.path = true → s.dev.readFault ⟨.spi, q.addr, 1, 0xF⟩ = some c →
    q.path = .spi → exec (.registerRead q) s =
      .next (s.withDev (spiRespond 14 8 1 [0, 0, 0, 0] (busError .spi 0 q.addr false c s.dev)))) ∧
  (∀ (d : Dev) (p : Path) (space adr cause : Nat) (wr : Bool), d.stage ≠ 0 → cause < 8 →
    (busError p space adr wr cause d).rd pgHIF HIF.CAUSE = cause ∧
    (busError p space adr wr cause d).rd pgHIF HIF.WR = b2n wr ∧
    (d.evt.hold = none → bitOf ((busError p space adr wr cause d).rd pgHIF HDR.PEVT) 0 = true) ∧
    (∀ page sel off, page < 1024 → off < 0x1000 → page ≠ pgHIF → page ≠ pgEVT → page ≠ pgTSU → ¬ (0x50 ≤ page ∧ page < 0x60) →
      (busError p space adr wr cause d).reg page sel off = d.reg page sel off) ∧
    (∀ a, a < dramLog → (busError p space adr wr cause d).mem8 a = d.mem8 a)) ∧
  (∀ (s : State) (off : BitVec 28) (b : Byte) (c : Nat), s.dev.serves .pcie = true →
    byteCause s.dev.bar2 off.toNat = some c →
    exec (.bar2Write off [some b]) s = .next (s.withDev (busError .pcie 1 off.toNat true c s.dev)))

/-- A read over PCI Express of a register that is no pair half and meets no bus error completes with what the register
shows; it clears exactly the RC bits it returned as 1, unless PEEK is set; it changes no other register. A read of the
low half of a pair also latches the high half as it stands, and the read of that half over the same path returns the
latched word once. (spec/15_host_interface_registers.md.) -/
def Obligations.ReadsReturnAndClear : Prop :=
  (∀ (s : State) (page off : Nat) (c : Cls) (r : RegRow), page < 1024 → off < 0x1000 → off % 4 = 0 →
    s.dev.serves .pcie = true → clsOf page = some c → regRow c off = some r →
    s.dev.readFault ⟨.pcie, addrOf page 0 off, 1, 0xF⟩ = none → s.dev.host.pcie.high = none →
    pairHalf page off = 0 → s.dev.freeRead page off = false →
    (r.rc = 0 ∨ s.dev.on pgGLB GLB.PEEK = true →
      exec (.registerRead ⟨.pcie, addrOf page 0 off, 1, 0xF⟩) s =
        .next (s.withDev (s.dev.emit (.completion (some [s.dev.shown page (s.dev.selOf page off) off]))))) ∧
    (r.rc ≠ 0 → s.dev.on pgGLB GLB.PEEK = false →
      exec (.rcRead .pcie (BitVec.ofNat 24 (addrOf page 0 off))) s = .next (s.withDev
        ((s.dev.setReg page (s.dev.selOf page off) off (s.dev.reg page (s.dev.selOf page off) off &&&
          ~~~(s.dev.shown page (s.dev.selOf page off) off &&& BitVec.ofNat 32 r.rc))).emit
            (.completion (some [s.dev.shown page (s.dev.selOf page off) off])))))) ∧
  (∀ (s : State) (page off : Nat) (c : Cls) (r : RegRow), page < 1024 → off < 0x1000 → off % 4 = 0 → page ≠ pgTIM →
    s.dev.serves .pcie = true → clsOf page = some c → regRow c off = some r → r.rc = 0 →
    s.dev.readFault ⟨.pcie, addrOf page 0 off, 1, 0xF⟩ = none → s.dev.host.pcie.high = none →
    pairHalf page off = 1 → s.dev.freeRead page off = false →
    exec (.pairLowRead .pcie (BitVec.ofNat 24 (addrOf page 0 off))) s = .next (s.withDev
      ({ s.dev with host := { s.dev.host with pcie := { s.dev.host.pcie with
          high := some (page, off + 4, s.dev.shown page (s.dev.selOf page (off + 4)) (off + 4)) } } }.emit
        (.completion (some [s.dev.shown page (s.dev.selOf page off) off]))))) ∧
  (∀ (s : State) (page off : Nat) (w : Word), page < 1024 → off < 0x1000 → off % 4 = 0 → s.dev.serves .pcie = true →
    s.dev.readFault ⟨.pcie, addrOf page 0 off, 1, 0xF⟩ = none → s.dev.host.pcie.high = some (page, off, w) →
    exec (.registerRead ⟨.pcie, addrOf page 0 off, 1, 0xF⟩) s = .next (s.withDev
      ({ s.dev with host := { s.dev.host with pcie := { s.dev.host.pcie with high := none } } }.emit
        (.completion (some [w])))))

/-- A READ frame of 14 bytes with a right CRC of its request is answered after 8 bytes with status and data of the
register read; a WRITE frame of 14 bytes with a right CRC after 12 bytes with the status of the write; a wrong CRC is
answered with status 2, counted, and raises its event without the access; an unknown command is counted and answered
with status 4; a frame cut before its last request byte has no effect but FRMERR and its event.
(spec/15_host_interface_registers.md.) -/
def Obligations.SpiFrames : Prop :=
  ∀ (s : State) (mosi : List Byte), s.dev.pathUp .spi = true →
    (mosi.length = 14 → mosi.headD 0 = 1 → crc8 (mosi.take 5) = (mosi.getD 5 0).toNat →
      exec (.spiRead mosi) s = .next (s.withDev
        (spiReadAt 14 (numBE ((mosi.drop 1).take 4)) s.dev))) ∧
    (mosi.length = 14 → mosi.headD 0 = 1 → crc8 (mosi.take 5) ≠ (mosi.getD 5 0).toNat →
      exec (.spiRead mosi) s = .next (s.withDev (spiRespond 14 8 2 [0, 0, 0, 0] (raise pgSPM 0 0 (s.dev.inc pgSPM SPM.CRCERR))))) ∧
    (mosi.length = 14 → mosi.headD 0 = 2 → crc8 (mosi.take 9) = (mosi.getD 9 0).toNat →
      exec (.spiWrite mosi) s = .next (s.withDev
        (spiWriteAt 14 (numBE ((mosi.drop 1).take 4)) (BitVec.ofNat 32 (numBE ((mosi.drop 5).take 4))) s.dev))) ∧
    (mosi.length = 14 → mosi.headD 0 = 2 → crc8 (mosi.take 9) ≠ (mosi.getD 9 0).toNat →
      exec (.spiWrite mosi) s = .next (s.withDev (spiRespond 14 12 2 [] (raise pgSPM 0 0 (s.dev.inc pgSPM SPM.CRCERR))))) ∧
    (6 ≤ mosi.length → mosi.headD 0 ≠ 1 → mosi.headD 0 ≠ 2 →
      exec (.spiRead mosi) s = .next (s.withDev (spiRespond mosi.length 8 4 [0, 0, 0, 0] (s.dev.inc pgSPM SPM.CMDERR)))) ∧
    (mosi.length < 6 → exec (.spiFrameAbort mosi) s = .next (s.withDev (raise pgSPM 1 1 (s.dev.inc pgSPM SPM.FRMERR))))

/-- A byte written to the cam region through BAR2 stands there, and every other byte of memory stands, on a head whose
journal does not run and which discards no data; a byte written to the transmit mailbox through BAR4 likewise; a
descriptor of an engine that may work and that meets no error is carried out, its status written with code 0 and DONE
counted; one that meets an error halts the engine with its code, and with code 5, an ECC error of what it reads, its
data is copied as read all the same; with no byte to move a streaming transfer changes nothing, otherwise RCNT and
HWCNT advance by the bytes moved. (spec/15_host_interface_registers.md, spec/13_head_pair_redundancy.md,
spec/12_capture_engine.md.) -/
def Obligations.BarDataAndDma : Prop :=
  (∀ (s : State) (off : BitVec 28) (b : Byte), s.dev.serves .pcie = true → s.dev.discardsData = false →
    s.dev.journalRuns = false → 0xC00_0000 ≤ off.toNat → off.toNat < 0xD00_0000 →
    exec (.bar2Write off [some b]) s = .next (s.withDev (s.dev.setMem8 off.toNat b))) ∧
  (∀ (s : State) (off : BitVec 24) (b : Byte), s.dev.serves .pcie = true → 0xC0_0000 ≤ off.toNat →
    exec (.bar4Write off [some b]) s = .next (s.withDev (s.dev.setMem8 (dramMailTx + (off.toNat - 0xC0_0000)) b))) ∧
  (∀ (s : State) (e : DmaId) (desc data : List Byte) (h : Bool),
    (s.dev.dmaReady e = false → exec (.dmaDescriptor e desc data h) s = .next s) ∧
    (s.dev.dmaReady e = true → s.dev.dmaError desc h = 0 → bitOf (desc.getD 16 0).toNat 2 = false →
      exec (.dmaDescriptor e desc data h) s = .next (s.withDev
        ((dmaStatus e 0 (dmaMove desc data s.dev)).incW pgDMC (DMC.DONE.nth 0x20 e)))) ∧
    (s.dev.dmaReady e = true → s.dev.dmaError desc h ≠ 0 → ∃ d,
      d = (if s.dev.dmaError desc h = 5 then dmaMove desc data s.dev else s.dev) ∧
      exec (.dmaDescriptor e desc data h) s = .next (s.withDev (raise pgDMC (4 + e) (4 + e)
        (((dmaStatus e (s.dev.dmaError desc h) d).wr pgDMC (DMC.ERR.nth 0x20 e) (s.dev.dmaError desc h)).wr pgDMC
          (DMC.HALT.nth 0x20 e) 1))))) ∧
  (∀ (s : State) (e : DmaId) (u : CapId),
    (s.dev.streamBytes u = 0 → exec (.dmaTransfer e u) s = .next s) ∧
    (s.dev.pathUp .pcie = true → s.dev.streams e u = true → s.dev.streamBytes u ≠ 0 →
      (s.dev.capUnit u).toCopy = [] → ∃ t, exec (.dmaTransfer e u) s = .next t ∧
        t.dev.rd (pgCapu u) CAPU.HWCNT = (s.dev.rd (pgCapu u) CAPU.HWCNT + s.dev.streamBytes u) % 2 ^ 32 ∧
        t.dev.rd (pgCapu u) CAPU.RCNT = (s.dev.rd (pgCapu u) CAPU.RCNT + s.dev.streamBytes u) % 2 ^ 32 ∧
        t.dev.mem = s.dev.mem))

/-- A pass of the scrubber that finds nothing counts PASSES alone; a mismatch in a register of the HIF page, not yet
reported, is noted with its place in the page header and in GLB, counted, and raises PARITY; a vector whose hold has
passed, not masked, with a request pending sends its message and clears the request; a message in reassembly for RTMO
cycles is dropped and counted, an earlier one stays; the low word of CWDAT of a halted or disabled pair is held, and
with the high word it is written at CWSEL. (spec/15_host_interface_registers.md, spec/08_engine_programming.md.) -/
def Obligations.ScrubberVectorsAndMailboxTime : Prop :=
  (∀ s : State, s.dev.keep.porst = false → exec (.parityScrub []) s = .next (s.withDev (s.dev.incW pgGLB GLB.PASSES))) ∧
  (∀ (s : State) (off : Nat), s.dev.keep.porst = false → off < 4096 → s.dev.on pgHIF HDR.V = false →
    (s.dev.incW pgGLB GLB.PASSES).reports ⟨pgHIF, 0, off⟩ = true → exec (.parityScrub [⟨pgHIF, 0, off⟩]) s =
      .next (s.withDev (raise pgGLB 0 pgHIF ((((((({ s.dev.incW pgGLB GLB.PASSES with
        host := { s.dev.host with reported := ⟨pgHIF, 0, off⟩ :: s.dev.host.reported } }.wr pgHIF HDR.OFS off).wr pgHIF
          HDR.V 1).wr pgGLB GLB.PAGE pgHIF).wr pgGLB GLB.WOFS (off / 4)).wr pgGLB GLB.WSEL 0).inc pgGLB GLB.PCNT))))) ∧
  (∀ (s : State) (v : Fin 32) (t0 : Nat), s.dev.stage ≠ 0 → s.dev.evt.lastMsg.get v = some t0 →
    (s.dev.evt.msgPending.get v = false → exec (.msixHoldExpire v) s = .next s) ∧
    (s.dev.evt.msgPending.get v = true → s.dev.msixMasked v = false → ∃ t, exec (.msixHoldExpire v) s = .next t ∧
      t.dev.evt.msgPending.get v = false ∧ t.dev.evt.lastMsg.get v = some t.dev.st ∧
      t.dev.out = .msix v :: s.dev.out ∧ t.dev.regs = s.dev.regs ∧ t.dev.mem = s.dev.mem)) ∧
  (∀ (s : State) (key : MailKey) (m : Reasm), s.dev.host.mail.find? (fun (x : Reasm) => x.key == key) = some m →
    (s.dev.cyc < m.cycle + s.dev.rd pgHIF HIF.RTMO → exec (.mailboxTimeout key) s = .next s) ∧
    (m.cycle + s.dev.rd pgHIF HIF.RTMO ≤ s.dev.cyc → exec (.mailboxTimeout key) s = .next (s.withDev
      (mailDrop HIF.RXBAD (putMail (s.dev.host.mail.filter fun (x : Reasm) => x.key != key) s.dev))))) ∧
  (∀ (s : State) (p : Path) (c : PairId) (v : Word), s.dev.serves p = true → s.dev.answers (pgCep c) = true →
    s.dev.cwOpen c = true → s.dev.on (pgCep c) HDR.LOCK = false →
    ((s.dev.latch p).held = none → exec (.cwdatAccess p c false (some v)) s =
      .next (s.withDev (thanks p (setHeld p (some (pgCep c, CEP.CWDATLO.off, v)) s.dev)))) ∧
    (∀ lo : Word, (s.dev.latch p).held = some (pgCep c, CEP.CWDATLO.off, lo) → exec (.cwdatAccess p c true (some v)) s =
      .next (s.withDev (answered p (cwHalf c true v.toNat (cwHalf c false lo.toNat s.dev))))))

/-- A legal instruction of format P whose moves meet no trap is issued by a pair in RUN: the accumulator ACD gets the
exact result by the range rule, both moves load, store and update by the registers that stood before, and control goes
on; every byte outside the bytes the moves store and outside the event log stands. (spec/08_engine_programming.md.) -/
def Obligations.FormatPInstructions : Prop :=
  ∀ (s : State) (p : PairId) (t q : Nat) (w : FmtP), s.runs p t q → ∀ e : Eng, e = s.dev.eng p →
    ∀ env : Env, env = s.dev.taskEnv p t → e.movesRun env w →
    (exec (.nop p w) s = .next (s.withDev (issued p (s.dev.moved env w e e) none false
      (storeOf env e w.ymv (storeOf env e w.xmv s.dev))))) ∧
    (∀ i x, (i, x) ∈ [(Instr.mac p w, accVal (e.acc w.acd) + product w.sm (e.dReg w.sa) (e.dReg w.sb)),
        (.msu p w, accVal (e.acc w.acd) - product w.sm (e.dReg w.sa) (e.dReg w.sb)),
        (.mpy p w, product w.sm (e.dReg w.sa) (e.dReg w.sb)),
        (.adda p w, accVal (e.acc w.acd) + accVal (e.acc w.acs)),
        (.suba p w, accVal (e.acc w.acd) - accVal (e.acc w.acs)), (.clra p w, 0)] →
      ∃ e' num, e.accGets e' num w.acd x ∧ exec i s = .next (s.withDev (issued p (s.dev.moved env w e e') none num
        (storeOf env e w.ymv (storeOf env e w.xmv s.dev))))) ∧
    (∀ i ∈ [Instr.nop p w, .mac p w, .msu p w, .mpy p w, .adda p w, .suba p w, .clra p w], ∀ u, exec i s = .next u →
      ∀ a, (a < dramLog ∨ dramLog + 0x4000 ≤ a) →
      (∀ m ∈ [w.xmv, w.ymv], ∀ b n v, moveStore e m = some (b, n, v) → a < dataAddr p b ∨ dataAddr p b + n ≤ a) →
      u.dev.mem8 a = s.dev.mem8 a)

/-- FTAP with MOP = 1, REG = 0, SZ = 0 and BSC = 0 in its Y field and no trap reads the word at the field's A
register, adds SA times that word to ACD by the range rule, writes the word to the address + 4 whatever the circular
length, and then applies UPD; its X move loads, stores and updates as an ordinary move. (R322.) -/
def Obligations.DelayLineTap : Prop :=
  ∀ (s : State) (p : PairId) (t q : Nat) (w : FmtP), s.runs p t q → ∀ e : Eng, e = s.dev.eng p →
    ∀ env : Env, env = s.dev.taskEnv p t → ∀ a tap : Nat, a = (e.aReg w.ymv.ar).toNat → tap = s.dev.engRead p a 4 →
    w.rsvd = 0 → moveLegal w.xmv = true → moveTrap env e false w.xmv = none →
    w.ymv.mop = 1 → w.ymv.reg = 0 → w.ymv.sz = 0 → w.ymv.bsc = 0 → w.ymv.rsvd = 0 → w.ymv.upd ≠ 7 →
    moveTrap env e true w.ymv = none → mayAccess env.code (a + 4) 4 true = true → a + 8 ≤ 0x2_0000 →
    ∃ e1 num e2, e.accGets e1 num w.acd (accVal (e.acc w.acd) + product w.sm (e.dReg w.sa) (BitVec.ofNat 32 tap)) ∧
      e2 = (moveRegs e (moveRead env s.dev e w.xmv) w.xmv e1).setA w.ymv.ar (addrUpdate e w.ymv.ar w.ymv.upd 4) ∧
      exec (.ftap p w) s = .next (s.withDev (issued p e2 none num
        ((storeOf env e w.xmv s.dev).engWrite p (a + 4) 4 tap)))

/-- Each instruction, issued by a pair in RUN with RSVD = 0, writes its result to DD (CMP writes none) and sets
exactly the flags of its row: Z and N of the result, C and V of a sum or difference, V where MIN, MAX, ABS or SAT
limited, V and SOV of ASH; every other bit of SR, every other register and all memory stand.
(spec/08_engine_programming.md.) -/
def Obligations.IntegerInstructions : Prop :=
  ∀ (s : State) (p : PairId) (t q : Nat) (w : FmtR), s.runs p t q → ∀ e : Eng, e = s.dev.eng p →
    ∀ a b : Word, a = e.dReg w.da → b = e.op2 w → ∀ k : Int, k = w.sh.toInt → w.rsvd = 0 →
    ∀ sum dif ash : Int, sum = a.toInt + b.toInt → dif = a.toInt - b.toInt →
    ash = (if 0 ≤ k then a.toInt * 2 ^ k.toNat else if e.SR.getLsbD srRMODE then a.toInt / 2 ^ (-k).toNat
      else (a.toInt + 2 ^ ((-k).toNat - 1)) / 2 ^ (-k).toNat) →
    ∀ (fit : Int → Word) (out : Int → Bool), (∀ x, fit x = BitVec.ofInt 32
      (if w.sat then max (-(2 ^ 31)) (min (2 ^ 31 - 1) x) else x)) →
    (∀ x, out x = (decide (x < -(2 ^ 31)) || decide (2 ^ 31 - 1 < x))) →
    (∀ i v fl, (i, v, fl) ∈ [
        (Instr.add p w, fit sum, [(srC, decide (2 ^ 32 ≤ a.toNat + b.toNat)), (srV, out sum)]),
        (.sub p w, fit dif, [(srC, decide (b.toNat ≤ a.toNat)), (srV, out dif)]),
        (.and p w, a &&& b, []), (.or p w, a ||| b, []), (.xor p w, a ^^^ b, []), (.mov p w, b, []),
        (.ash p w, fit ash, [(srV, out ash), (srSOV, e.SR.getLsbD srSOV || (out ash && w.sat))]),
        (.lsh p w, if 0 ≤ k then a <<< k.toNat else a >>> (-k).toNat, []),
        (.min p w, if b.toInt < a.toInt then b else a, [(srV, decide (b.toInt < a.toInt))]),
        (.max p w, if a.toInt < b.toInt then b else a, [(srV, decide (a.toInt < b.toInt))]),
        (.abs p w, if a = 0x8000_0000 then 0x7FFF_FFFF else if a.msb then -a else a, [(srV, a == 0x8000_0000)]),
        (.sat p w, BitVec.ofInt 32 (max (-(b.toInt.natAbs : Int)) (min b.toInt.natAbs a.toInt)),
          [(srV, decide (b.toInt.natAbs < a.toInt.natAbs))])] →
      ∃ e', (e.setD w.dd v).flagged e' ([(srZ, v == 0), (srN, v.msb)] ++ fl) ∧
        exec i s = .next (s.withDev (issued p e' none false s.dev))) ∧
    (∃ e', e.flagged e' [(srZ, a == b), (srN, (a - b).msb), (srC, decide (b.toNat ≤ a.toNat)), (srV, out dif)] ∧
      exec (.cmp p w) s = .next (s.withDev (issued p e' none false s.dev)))

/-- Loads of an accumulator set AZ, AN and AG; SHA and RNDA follow the range rule; SATA limits to the range of the
Q1.31 position; EXPA gives the count of redundant sign bits less 9; STA and STAW scale by 2^SH, round once and
saturate, with SOV sticky; SINCOS writes cosine and sine to an even pair and no flag; no memory changes.
(spec/08_engine_programming.md.) -/
def Obligations.AccumulatorInstructions : Prop :=
  ∀ (s : State) (p : PairId) (t q : Nat) (w : FmtR), s.runs p t q → ∀ e : Eng, e = s.dev.eng p →
    ∀ (a : Word) (x k : Int), a = e.dReg w.da → x = accVal (e.acc w.ac) → k = w.sh.toInt → w.rsvd = 0 →
    (∀ i v, (i, v) ∈ [(Instr.lda p w, a.toInt * 2 ^ 31),
        (.ldaw p w, ((a.toNat : Int) + (e.dReg w.db).toInt * 2 ^ 32))] → ∃ e', e.accGets e' false w.ac v ∧
      exec i s = .next (s.withDev (issued p e' none false s.dev))) ∧
    (∀ i v, (i, v) ∈ [(Instr.sha p w, scaleRnd (e.SR.getLsbD srRMODE) x k),
        (.rnda p w, scaleRnd (e.SR.getLsbD srRMODE) x (-31) * 2 ^ 31)] → ∃ e' num, e.accGets e' num w.ac v ∧
      exec i s = .next (s.withDev (issued p e' none num s.dev))) ∧
    (∃ (v : BitVec 72) (e' : Eng), v.toInt = max (-(2 ^ 62)) (min (2 ^ 62 - 1) x) ∧
      (e.setAcc w.ac v).flagged e' [(srAZ, v == 0), (srAN, v.msb),
        (srAG, !(v.extractLsb' 63 9 == 0 || v.extractLsb' 63 9 == 511)), (srSOV, e.SR.getLsbD srSOV || decide (v.toInt ≠ x))] ∧
      exec (.sata p w) s = .next (s.withDev (issued p e' none false s.dev))) ∧
    (∃ (r : Nat) (v : Word) (e' : Eng), r ≤ 71 ∧ -(2 ^ (71 - r)) ≤ x ∧ x < 2 ^ (71 - r) ∧
      (r < 71 → ¬ (-(2 ^ (70 - r)) ≤ x ∧ x < 2 ^ (70 - r))) ∧ v = BitVec.ofInt 32 ((r : Int) - 9) ∧
      (e.setD w.dd v).flagged e' [(srZ, v == 0), (srN, v.msb)] ∧
      exec (.expa p w) s = .next (s.withDev (issued p e' none false s.dev))) ∧
    (∃ (y : Int) (v : Word) (e' : Eng), y = scaleRnd (e.SR.getLsbD srRMODE) x (k - 31) ∧
      v.toInt = max (-(2 ^ 31)) (min (2 ^ 31 - 1) y) ∧
      (e.setD w.dd v).flagged e' [(srSOV, e.SR.getLsbD srSOV || decide (v.toInt ≠ y))] ∧
      exec (.sta p w) s = .next (s.withDev (issued p e' none false s.dev))) ∧
    (w.dd.getLsbD 0 = false →
      (∃ (y : Int) (v : BitVec 64) (e' : Eng), y = scaleRnd (e.SR.getLsbD srRMODE) x k ∧
        v.toInt = max (-(2 ^ 63)) (min (2 ^ 63 - 1) y) ∧
        ((e.setD w.dd (v.extractLsb' 0 32)).setD (w.dd + 1) (v.extractLsb' 32 32)).flagged e'
          [(srSOV, e.SR.getLsbD srSOV || decide (v.toInt ≠ y))] ∧
        exec (.staw p w) s = .next (s.withDev (issued p e' none false s.dev))) ∧
      exec (.sincos p w) s = .next (s.withDev (issued p
        ((e.setD w.dd (BitVec.ofInt 32 (sinCos a.toNat).2)).setD (w.dd + 1) (BitVec.ofInt 32 (sinCos a.toNat).1))
        none false s.dev)))

/-- MOVA leaves its value to come into effect after the next instruction; MOVS reads any special register into DD, and
writes SR, SCL and BEXP; RDT gives ST bits [31:0] in a task marked for it and is trap 7 in any other; no memory and no
other register changes. (spec/08_engine_programming.md.) -/
def Obligations.SpecialRegisterMoves : Prop :=
  ∀ (s : State) (p : PairId) (t q : Nat) (w : FmtR), s.runs p t q → ∀ e : Eng, e = s.dev.eng p →
    w.rsvd = 0 →
    (w.dd.toNat < 8 → ∀ i : Fin 8, i.val = w.dd.toNat → ∀ c, (w.ac = 0 ∧ c = AddrClass.a) ∨ (w.ac = 1 ∧ c = .m) ∨ (w.ac = 2 ∧ c = .l) →
      exec (.mova p w) s = .next (s.withDev (issued p { e with mova := some (c, i, e.op2 w) } none false s.dev))) ∧
    (w.mod = true → w.sh.toNat ≤ 11 → exec (.movs p w) s =
      .next (s.withDev (issued p (e.setD w.dd (e.special w.sh.toNat)) none false s.dev))) ∧
    (w.mod = false →
      (w.sh = 0 → ∃ e', e.flagged e' ((List.range 32).map fun i => (i, decide (i < 14) && (e.op2 w).getLsbD i)) ∧
        exec (.movs p w) s = .next (s.withDev (issued p e' none false s.dev))) ∧
      (w.sh = 1 → exec (.movs p w) s =
        .next (s.withDev (issued p { e with SCL := BitVec.ofNat 32 ((e.op2 w).toNat % 64) } none false s.dev))) ∧
      (w.sh = 2 → exec (.movs p w) s =
        .next (s.withDev (issued p { e with BEXP := BitVec.ofNat 32 ((e.op2 w).toNat % 32) } none false s.dev)))) ∧
    ((s.dev.taskEnv p t).nondet = true → exec (.rdt p w) s =
      .next (s.withDev (issued p (e.setD w.dd (BitVec.ofNat 32 s.dev.st)) none false s.dev))) ∧
    ((s.dev.taskEnv p t).nondet = false → exec (.rdt p w) s = .next (s.withDev (taskTrap p t 7 s.dev)))

/-- MOVS with MOD = 0 and an index from 3 to 11, and MOVS with any index above 11, is trap 1 in every task and every
hook; a pair in RUN takes the trap, which records code 1 and ends the task. (R310.) -/
def Obligations.ReadOnlySpecialRegistersTrap : Prop :=
  ∀ w : FmtR, ((w.mod = false ∧ 3 ≤ w.sh.toNat ∧ w.sh.toNat ≤ 11) ∨ 11 < w.sh.toNat) →
    (∀ (env : Env) (e : Eng) (d : Dev), insMovs w env e d = .error 1) ∧
    (∀ (s : State) (p : PairId) (t q : Nat), s.runs p t q → exec (.movs p w) s = .next (s.withDev (endTask p false
      ((raise (pgCep p) 1 p (recordTrap p 1 (s.dev.pair p).eng.pc.toNat t 0 s.dev)).wrS pgTSU t TSU.TRAPF 1))))

/-- DIVI loads the divider and sets DZ and DOV; DIVS shifts one quotient bit into DD; DIVI, 31 DIVS and DIVF give
trunc(DA × 2^31 / DB) for |DA| below |DB|; DIVI with MOD = 1, 32 DIVS and DIVF give trunc(DA / DB) where it is in
range, and DREM then gives the remainder with the sign of DA; with DZ or DOV, DIVF writes the limit of the sign of the
quotient, that of DA where DB = 0. (R324.) -/
def Obligations.DivisionSequence : Prop :=
  (∀ (s : State) (p : PairId) (t q : Nat) (w : FmtR), s.runs p t q → w.rsvd = 0 → ∀ e : Eng, e = s.dev.eng p →
    ∀ a b : Int, a = (e.dReg w.da).toInt → b = (e.dReg w.db).toInt →
    (w.mod = false → ∃ e', exec (.divi p w) s = .next (s.withDev (issued p e' none false s.dev)) ∧
      e'.SR.getLsbD srDOV = decide (b.natAbs ≤ a.natAbs) ∧ e'.SR.getLsbD srDZ = decide (b = 0) ∧
      e'.div.rem = a.natAbs ∧ e'.div.dvs = b.natAbs ∧ e'.D = (e.setD w.dd 0).D ∧
      (∀ i, i < 32 → i ≠ srDOV → i ≠ srDZ → e'.SR.getLsbD i = e.SR.getLsbD i)) ∧
    (w.mod = true → ∃ e', exec (.divi p w) s = .next (s.withDev (issued p e' none false s.dev)) ∧
      e'.SR.getLsbD srDZ = decide (b = 0) ∧ e'.div.rem = 0 ∧ e'.div.dvd = a.natAbs ∧ e'.div.dvs = b.natAbs ∧ e'.D = e.D ∧
      (∀ i, i < 32 → i ≠ srDOV → i ≠ srDZ → e'.SR.getLsbD i = e.SR.getLsbD i)) ∧
    (∃ e', exec (.divs p w) s = .next (s.withDev (issued p e' none false s.dev)) ∧ e'.SR = e.SR ∧
      (e.div.rem < 2 ^ 32 → ∀ r, r = 2 * e.div.rem + (if e.div.integer then e.div.dvd / 2 ^ 31 % 2 else 0) →
        (e.div.dvs ≤ r → e'.div.rem = r - e.div.dvs ∧ e'.D = (e.setD w.dd (2 * e.dReg w.dd + 1)).D) ∧
        (r < e.div.dvs → e'.div.rem = r ∧ e'.D = (e.setD w.dd (2 * e.dReg w.dd)).D))) ∧
    (∃ v e', (e.setD w.dd v).flagged e' [(srZ, v == 0), (srN, v.msb)] ∧
      exec (.divf p w) s = .next (s.withDev (issued p e' none false s.dev)) ∧
      (e.SR.getLsbD srDZ = true ∨ e.SR.getLsbD srDOV = true →
        v = if e.div.qneg then 0x8000_0000 else 0x7FFF_FFFF))) ∧
  (∀ (s : State) (p : PairId) (t q : Nat) (i d f r : FmtR), s.runs p t q →
    i.rsvd = 0 → d.rsvd = 0 → f.rsvd = 0 → r.rsvd = 0 → d.dd = i.dd → f.dd = i.dd →
    ∀ a b : Int, a = ((s.dev.eng p).dReg i.da).toInt → b = ((s.dev.eng p).dReg i.db).toInt →
    (i.mod = false → a.natAbs < b.natAbs → ∃ u,
      execAll ([.divi p i] ++ List.replicate 31 (.divs p d) ++ [.divf p f]) s = .next u ∧
      ((u.dev.eng p).dReg i.dd).toInt = (a * 2 ^ 31).tdiv b) ∧
    (i.mod = true → b ≠ 0 → ¬ (a = -(2 ^ 31) ∧ b = -1) → ∃ u v,
      execAll ([.divi p i] ++ List.replicate 32 (.divs p d) ++ [.divf p f]) s = .next u ∧
      ((u.dev.eng p).dReg i.dd).toInt = a.tdiv b ∧
      exec (.drem p r) u = .next v ∧ ((v.dev.eng p).dReg r.dd).toInt = a.tmod b) ∧
    (b = 0 → ∀ n, ∃ u, execAll ([.divi p i] ++ List.replicate n (.divs p d) ++ [.divf p f]) s = .next u ∧
      (u.dev.eng p).dReg i.dd = if a < 0 then 0x8000_0000 else 0x7FFF_FFFF) ∧
    (i.mod = false → b ≠ 0 → b.natAbs ≤ a.natAbs → ∀ n, ∃ u,
      execAll ([.divi p i] ++ List.replicate n (.divs p d) ++ [.divf p f]) s = .next u ∧
      (u.dev.eng p).dReg i.dd = if (a < 0) = (b < 0) then 0x7FFF_FFFF else 0x8000_0000))

/-- Away from the END of an active block, JMP, CALL and RET go to their target when their condition holds and on
otherwise; CALL pushes PC + 1 below depth 8 and RET pops; REP opens a block, or passes it with count 0; BRKL marks the
innermost block; YIELD reaches a yield point, DONE ends the task, POST posts event 224 + n with its argument; BKPT
halts the pair in LANTERN with BKPTEN and is trap 8 otherwise. (spec/08_engine_programming.md.) -/
def Obligations.ControlInstructions : Prop :=
  ∀ (s : State) (p : PairId) (t q : Nat) (w : FmtC), s.runs p t q → ∀ e : Eng, e = s.dev.eng p →
    w.rsvd = 0 → ∀ on : Eng → Option (BitVec 16) → State, (∀ e' j, on e' j = s.withDev (issued p e' j false s.dev)) →
    (e.atEnd = false →
      (e.holds w.cond = false → (∀ i ∈ [Instr.jmp p w, .call p w, .ret p w], exec i s = .next (on e none))) ∧
      (e.holds w.cond = true → w.tgt.toNat < 0x4000 →
        (e.leaves w.tgt = false → exec (.jmp p w) s = .next (on e (some w.tgt))) ∧
        (e.calls.length < 8 → exec (.call p w) s = .next (on { e with calls := (e.pc + 1) :: e.calls } (some w.tgt)))) ∧
      (e.holds w.cond = true → (∀ l, e.loops.head? = some l → l.depth ≠ e.calls.length) →
        ∀ a rest, e.calls = a :: rest → exec (.ret p w) s = .next (on { e with calls := rest } (some a))) ∧
      (w.cond = 0 →
        (∀ n, n = (if w.csrc then (e.dReg w.dc).toNat else w.imm.toNat % 2 ^ 16) → n ≤ 65535 → w.imm.toNat < 2 ^ 16 →
          e.loops.length < 4 → (∀ l, e.loops.head? = some l → l.depth = e.calls.length → w.tgt.toNat ≤ l.last.toNat) →
          exec (.rep p w) s = .next (if n = 0 then on e (some (w.tgt + 1)) else
            on { e with loops := ⟨e.pc + 1, w.tgt, n, e.calls.length, false⟩ :: e.loops } (some (e.pc + 1)))) ∧
        (e.loops = [] → exec (.brkl p w) s = .next (on e none)) ∧
        (∀ l ls, e.loops = l :: ls →
          exec (.brkl p w) s = .next (on { e with loops := { l with leave := true } :: ls } none)) ∧
        exec (.yield p w) s = .next (s.withDev (yieldPoint p (issued p e none false s.dev))) ∧
        exec (.done p w) s = .next (s.withDev (endTask p true (issued p e none false s.dev))))) ∧
    (w.cond = 0 →
      (w.imm.toNat / 2 ^ 5 % 2 ^ 11 = 0 → exec (.post p w) s = .next (s.withDev (postEvent (224 + w.imm.toNat % 32)
        (if w.csrc then (e.dReg w.dc).toNat % 2 ^ 16 else w.imm.toNat / 2 ^ 16) (issued p e none false s.dev)))) ∧
      (s.dev.stage = 1 → s.dev.on (pgCep p) CEP.BKPTEN = true →
        exec (.bkpt p w) s = .next (s.withDev (haltPair p (issued p e none false s.dev)))) ∧
      (s.dev.stage ≠ 1 ∨ s.dev.on (pgCep p) CEP.BKPTEN = false →
        exec (.bkpt p w) s = .next (s.withDev (taskTrap p t 8 s.dev))))

/-- A legal, allowed and aligned LD loads its register by size and shift; ST stores it at AR + DISP; both apply UPD;
LD leaves all memory, ST every byte outside the stored ones; an illegal form is trap 1, a forbidden address trap 2, a
misaligned one trap 3. (spec/08_engine_programming.md.) -/
def Obligations.MemoryInstructions : Prop :=
  ∀ (s : State) (p : PairId) (t q : Nat) (w : FmtM), s.runs p t q → ∀ e : Eng, e = s.dev.eng p →
    ∀ a n : Nat, a = (e.aReg w.ar + w.disp).toNat → n = szBytes w.sz →
    ∀ upd : Eng → Eng, (∀ x, upd x = x.setA w.ar (if w.upd = 0 then x.aReg w.ar else addrUpdate e w.ar w.upd n)) →
    (legalM w = true →
      (mayAccess .user a n false = true → a % n = 0 →
        exec (.ld p w) s = .next (s.withDev (issued p (upd (e.loadReg w.dd w.sz w.bsc (s.dev.engRead p a n))) none false s.dev)) ∧
        (w.sz = 0 → w.bsc = 0 → w.upd = 0 → ∀ u, exec (.ld p w) s = .next u →
          (u.dev.eng p).dReg w.dd = BitVec.ofNat 32 (s.dev.engRead p a 4))) ∧
      (mayAccess .user a n true = true → a % n = 0 →
        exec (.st p w) s = .next (s.withDev (issued p (upd (e.storeReg w.dd w.sz w.bsc).2) none false
          (s.dev.engWrite p a n (e.storeReg w.dd w.sz w.bsc).1))) ∧
        ∀ u, exec (.st p w) s = .next u → ∀ b, b < dataAddr p a ∨ dataAddr p a + n ≤ b → u.dev.mem8 b = s.dev.mem8 b) ∧
      (mayAccess .user a n false = false → exec (.ld p w) s = .next (s.withDev (taskTrap p t 2 s.dev))) ∧
      (mayAccess .user a n true = false → exec (.st p w) s = .next (s.withDev (taskTrap p t 2 s.dev))) ∧
      (mayAccess .user a n false = true → a % n ≠ 0 → exec (.ld p w) s = .next (s.withDev (taskTrap p t 3 s.dev))) ∧
      (mayAccess .user a n true = true → a % n ≠ 0 → exec (.st p w) s = .next (s.withDev (taskTrap p t 3 s.dev)))) ∧
    (legalM w = false → exec (.ld p w) s = .next (s.withDev (taskTrap p t 1 s.dev)) ∧
      exec (.st p w) s = .next (s.withDev (taskTrap p t 1 s.dev)))

/-- In KEEPER the six events of the cycle change nothing. In LANTERN and FULL each advances time to its point of the
cycle and does the work of that point in the order written: TICK ends cycle k - 1 (tasks left over, capture,
histories), puts cycle k and its tick, keeps what a later run of it needs, samples and evaluates, swaps the output
banks, starts the rings, the time base, the pair and the safe chain anew, steps ST where a cold start has yielded, and
raises TICK; a head that stores cycles for its REPLAY leaves its tables and banks alone; the end of the upstream
window judges the slots, corrects the clock and builds the mirror half; the CWD decides roles, moors, settles late
tables, swaps the input banks and builds the command frames; NIT sends a PDX message that waited for its neighbour,
applies OFS, sends STOP while the safe chain holds, and settles INSERT; the async window sends the SYNC frame of each
SYS port, and its PDX message where the frame of the neighbour is there, where the link is fitted, and the records for
other clusters, and nothing with HDUP set; the end of the mirror slot lands the own journal and takes the half of the
peer by role. (spec/02_control_cycle.md, spec/03_ring_link_and_frames.md, spec/04_ring_time_and_startup.md,
spec/13_head_pair_redundancy.md.) -/
def Obligations.CycleEvents : Prop :=
  (∀ (s : State) (gpio : Word), s.dev.stage = 0 →
    exec (.tick gpio) s = .next s ∧ exec .endOfUpstreamWindow s = .next s ∧ exec .cwd s = .next s ∧
    exec .nitStart s = .next s ∧ exec .asyncWindowStart s = .next s ∧ exec .mirrorSlotEnd s = .next s) ∧
  (∀ (s : State) (gpio : Word) (k : Nat) (x y z w : Dev), s.dev.stage ≠ 0 → k = s.dev.cyc + 1 →
    x = s.dev.at (k * s.dev.period) → y = reportAborts s.dev.cyc x.openTasks (putCycle k (cycleEnds s.dev.cyc x.openTasks x)) →
    z = storedTick (unlessStoring (keepPast k gpio) y) → w = unlessStoring (outputSwap k) (cycleBegins k gpio z) →
    exec (.tick gpio) s = .next (s.withDev
      (raise pgTIM 0 0 (stepYields (safTick k (redTick (timeTick (w.eachRing (ringTick k)))))))) ∧
    (y.red.opened = none → z = keepPast k gpio y)) ∧
  (∀ (s : State) (x : Dev), s.dev.stage ≠ 0 → x = endOfUpstream s.dev →
    exec .endOfUpstreamWindow s = .next (s.withDev (mirrorBuild (cyclePoint 2 x.cyc x)))) ∧
  (∀ (s : State) (t : Nat) (x y : Dev), s.dev.stage ≠ 0 → t = s.dev.tickSt + cwdTime s.dev.rate →
    x = overruns (moorLocal (cwdPair (moorMuted (s.dev.at t)))) → y = lateTasks 1 (if x.allEnded then cwdSlack t x else x) →
    exec .cwd s = .next (s.withDev (buildCommands (inputSwap (cyclePoint 3 y.cyc y))))) ∧
  (∀ (s : State) (x : Dev), s.dev.stage ≠ 0 → x = nitOffset (nitPdx (s.dev.at (s.dev.tickSt + nitStart s.dev.rate))) →
    (x.on pgSAF SAF.HOLD = true →
      exec .nitStart s = .next (s.withDev (nitSysInsert (nitHeard ((sendStop x).eachRing nitRing))))) ∧
    (x.on pgSAF SAF.HOLD = false →
      exec .nitStart s = .next (s.withDev (nitSysInsert (nitHeard (x.eachRing nitRing)))))) ∧
  (∀ (s : State) (x : Dev), s.dev.stage ≠ 0 → x = s.dev.at (s.dev.tickSt + asyncStart s.dev.rate) →
    (s.dev.on pgSTG STG.HDUP = true → exec .asyncWindowStart s = .next (s.withDev x)) ∧
    (s.dev.on pgSTG STG.HDUP = false → s.dev.fitted (.sys .e) = false →
      exec .asyncWindowStart s = .next (s.withDev (txRouted 4096 x))) ∧
    (s.dev.on pgSTG STG.HDUP = false → s.dev.fitted (.sys .e) = true →
      exec .asyncWindowStart s = .next (s.withDev (txRouted 4096 (sysWindow .w (sysWindow .e x)))))) ∧
  (∀ (s : State) (x y : Dev), s.dev.stage ≠ 0 → x = s.dev.at (s.dev.tickSt + mirrorEnd s.dev.rate) →
    y = x.red.carried.foldl (fun (d : Dev) (e : JEntry) => landOwn e d)
      ((if x.red.carried = [] then x else x.setMemBytes (journalAddr x.cyc) x.red.jnow).redMap fun r => { r with carried := [] }) →
    (s.dev.commanding = true → exec .mirrorSlotEnd s = .next (s.withDev
      (takeSecond (y.red.rx.filter fun m => !m.first) (admitHeld 64 y)))) ∧
    (s.dev.commanding = false → (s.dev.role = roSTANDBY ∨ s.dev.joining = true) → exec .mirrorSlotEnd s =
      .next (s.withDev (takeFirst (x.red.rx.filter fun m => m.first) x))) ∧
    (s.dev.commanding = false → s.dev.role ≠ roSTANDBY → s.dev.joining = false →
      exec .mirrorSlotEnd s = .next (s.withDev x)))

/-- At the CWD of a commanding head a table whose task has ended clears MISSN and keeps its state; one that was not
MOORED at the start of the cycle and missed for the first time counts a HOLD, shows MISSN = 1, notes the cycle in
which it sends HOLD and keeps its state; one that missed again is MOORED with FLATCH and FCODE 1 and counted in MOOR,
with MISSN = 2. OUTPUT_BANK_SWAP exchanges the bank of the device and the pending one where FRESH is set, clears FRESH
and notes the cycle in TAKEN, and otherwise changes nothing; INPUT_BANK_SWAP publishes the bank of the device as
NEWEST, sets NEW and SEQ and leaves the host its bank; three banks that are distinct stay distinct.
(spec/02_control_cycle.md, spec/05_axis_control.md.) -/
def Obligations.DeadlineOutcomesAndBanks : Prop :=
  (∀ (d : Dev) (n : Fin 256), d.endedNow n = true → (cwdAxis n d).rd (pgAxp n) AXP.MISSN = 0 ∧
    ((cwdAxis n d).ax n).holdAt = (d.ax n).holdAt ∧ ∀ m : Fin 256, (cwdAxis n d).axState m = d.axState m) ∧
  (∀ (d : Dev) (n : Fin 256), d.endedNow n = false → d.configured n = true → (d.ax n).wasMoored = false →
    d.rd (pgAxp n) AXP.MISSN = 0 →
    (cwdAxis n d).rd (pgAxp n) AXP.MISSN = 1 ∧ ((cwdAxis n d).ax n).holdAt = some d.cyc ∧
    (cwdAxis n d).rd (pgAxp n) AXP.HOLDS = min 65535 (d.rd (pgAxp n) AXP.HOLDS + 1) ∧
    ∀ m : Fin 256, (cwdAxis n d).axState m = d.axState m) ∧
  (∀ (d : Dev) (n : Fin 256), d.endedNow n = false → d.configured n = true → (d.ax n).wasMoored = false →
    d.rd (pgAxp n) AXP.MISSN ≠ 0 →
    (cwdAxis n d).rd (pgAxp n) AXP.MISSN = 2 ∧ (cwdAxis n d).axState n = axMOORED ∧
    (cwdAxis n d).rd (pgAxp n) AXP.FLATCH = 1 ∧ (cwdAxis n d).rd (pgAxp n) AXP.FCODE = 1) ∧
  (∀ (d : Dev) (k h p : Nat), h = d.rd pgTIM TIM.PIXO_HOST → p = d.rd pgTIM TIM.PEND → h < 3 → p < 3 → h ≠ p →
    (d.on pgTIM TIM.FRESH = false → outputSwap k d = d) ∧
    (d.on pgTIM TIM.FRESH = true →
      (outputSwap k d).rd pgTIM TIM.PIXO_HOST = h ∧ (outputSwap k d).rd pgTIM TIM.PEND = 3 - (h + p) ∧
      3 - (h + p) < 3 ∧ 3 - (h + p) ≠ h ∧ 3 - (h + p) ≠ p ∧ 3 - (h + (3 - (h + p))) = p ∧
      (outputSwap k d).rd pgTIM TIM.FRESH = 0 ∧ (outputSwap k d).rd pgTIM TIM.TAKEN = k % 65536)) ∧
  (∀ (d : Dev) (h n : Nat), h = d.rd pgTIM TIM.PIXI_HOST → n = d.rd pgTIM TIM.NEWEST → h < 3 → n < 3 → h ≠ n →
    (inputSwap d).rd pgTIM TIM.PIXI_HOST = h ∧ (inputSwap d).rd pgTIM TIM.NEWEST = 3 - (h + n) ∧
    3 - (h + n) < 3 ∧ 3 - (h + n) ≠ h ∧ 3 - (h + n) ≠ n ∧ (inputSwap d).rd pgTIM TIM.NEW = 1 ∧
    (inputSwap d).rd pgTIM TIM.SEQ = d.cyc % 65536)

/-- Each event of the time base has its effect where its condition holds and changes nothing where it does not:
RATE_SWITCH at the super-cycle announced, just before or after its tick, takes NRATE, renumbers the cycles, assigns
the axes anew and posts RATE, and is refused where the assignment no longer fits (the refusal is the choice of the
model, log entry 100); eight misses take a STANDBY or SILENT head out of SYNC on every ring; three disagreements take
a ring out of SYNC with cause 4; three own slots violated make it PASSIVE with SYNC_LOST 6, and its muted stations
without an async slot are heard again; three violations of a slot mute its station and order it PASSIVE;
LISTEN_TIMEOUT of a ring whose listen timer runs out within the cycle, on a head that may lead its cold start, begins
one at that time with ST of the best source; the takeover of a ring begins one in the next NIT; eight COLDSTART
frames, or four good double cycles, bring SYNC with INTEGRATED; SSYNC is gained and lost by the parent, and lost when
no port hears of a lighthouse for 64 cycles; a held request of RED is dropped after 256 cycles. A ring that leaves
SYNC, PASSIVE or INTEGRATE is in LISTEN, without grant, resettle or muted stations. (spec/04_ring_time_and_startup.md,
spec/02_control_cycle.md, spec/13_head_pair_redundancy.md.) -/
def Obligations.TimeBaseEvents : Prop :=
  (∀ s : State,
    (s.dev.time.rateAt = none → exec .rateSwitch s = .next s) ∧
    (∀ (b : Nat) (y : Dev), s.dev.time.rateAt = some b →
      y = (s.dev.wr pgTIM TIM.RPEND 0).timeMap (fun t => { t with rateAt := none }) →
      ((s.dev.stage = 0 ∨ s.dev.st + s.dev.period < b * 128000000) → exec .rateSwitch s = .next s) ∧
      (s.dev.stage ≠ 0 → b * 128000000 ≤ s.dev.st + s.dev.period → y.assignOk (s.dev.rd pgTIM TIM.NRATE) s.dev.tsu.work = false →
        exec .rateSwitch s = .next (s.withDev (y.wr pgTIM TIM.NRATE s.dev.rate))) ∧
      (∀ z : Dev, s.dev.stage ≠ 0 → y.assignOk (s.dev.rd pgTIM TIM.NRATE) s.dev.tsu.work = true →
        z = putRateAt (if s.dev.st < b * 128000000 then b * 128000000 / periodOf (s.dev.rd pgTIM TIM.NRATE) - 1
          else s.dev.st / periodOf (s.dev.rd pgTIM TIM.NRATE)) (s.dev.rd pgTIM TIM.NRATE) y →
        b * 128000000 ≤ s.dev.st + s.dev.period → exec .rateSwitch s = .next (s.withDev (raise pgTIM 5 5 (assignAxes z)))))) ∧
  (∀ s : State,
    (8 ≤ s.dev.time.miss → (s.dev.role = roSTANDBY ∨ s.dev.role = roSILENT) → exec .beaconMissLimit s = .next (s.withDev
      ((s.dev.eachRing fun (r : Fin 4) (d : Dev) => leaveSync r 3 d).timeMap fun t => { t with miss := 0 }))) ∧
    ((s.dev.time.miss < 8 ∨ (s.dev.role ≠ roSTANDBY ∧ s.dev.role ≠ roSILENT)) → exec .beaconMissLimit s = .next s) ∧
    (s.dev.on pgRED RED.RV = true → 256 ≤ s.dev.rd pgRED RED.RAGE →
      exec .heldRequestExpire s = .next (s.withDev (dropRequest s.dev))) ∧
    ((s.dev.on pgRED RED.RV = false ∨ s.dev.rd pgRED RED.RAGE < 256) → exec .heldRequestExpire s = .next s)) ∧
  (∀ (s : State) (r : RingId),
    (3 ≤ (s.dev.rg r).disagree → exec (.ringPoolDisagree r) s = .next (s.withDev (leaveSync r 4 s.dev))) ∧
    ((s.dev.rg r).disagree < 3 → exec (.ringPoolDisagree r) s = .next s) ∧
    (s.dev.rstate r = rsSYNC → 3 ≤ (s.dev.rg r).ownViol → exec (.ownSlotViolated r) s =
      .next (s.withDev (postSyncLost r 6 ((setRstate r rsPASSIVE s.dev).mapRg r fun g => { g with
        muted := g.muted.filter fun sta => (s.dev.slots r).any fun x => x.type == ftASYNC && x.holder == sta })))) ∧
    ((s.dev.rstate r ≠ rsSYNC ∨ (s.dev.rg r).ownViol < 3) → exec (.ownSlotViolated r) s = .next s) ∧
    (∀ cause : Nat, s.dev.ringFollows r = false → leaveSync r cause s.dev = s.dev) ∧
    (∀ cause : Nat, s.dev.ringFollows r = true → (leaveSync r cause s.dev).rstate r = rsLISTEN ∧
      (leaveSync r cause s.dev).on (pgRing r) RING.RESETTLE = false ∧ (leaveSync r cause s.dev).on (pgRing r) RING.GPEND = false ∧
      ((leaveSync r cause s.dev).rg r).muted = [] ∧ ((leaveSync r cause s.dev).rg r).grantAt = none ∧
      (leaveSync r cause s.dev).on (pgRing r) RING.INS = s.dev.on (pgRing r) RING.INS)) ∧
  (∀ (s : State) (r : RingId) (slot : Byte) (sta : Nat) (x : Dev), sta = (s.dev.slot r slot.toNat).holder →
    x = muteStation r sta s.dev →
    (s.dev.commanding = true → (∃ c, (slot.toNat, c) ∈ (s.dev.rg r).viol ∧ 3 ≤ c) → sta ∉ (s.dev.rg r).muted →
      exec (.slotMute r slot) s = .next (s.withDev (raise (pgRing r) 6 sta (queueAsync r
        (.order (mgmtMessage (x.sysId r sta) (x.sysId r x.myst) 0 0 0 true [1, 0, 0, 0, 0, 0, 0, 0])) x)))) ∧
    ((s.dev.commanding = false ∨ (∀ c, (slot.toNat, c) ∈ (s.dev.rg r).viol → c < 3) ∨ sta ∈ (s.dev.rg r).muted) →
      exec (.slotMute r slot) s = .next s)) ∧
  (∀ (s : State) (r : RingId) (due : Nat),
    due = (s.dev.rg r).listen + (if s.dev.myst = 0 then 160000000 else 176000000) →
    (s.dev.stage ≠ 0 → s.dev.rstate r = rsLISTEN → s.dev.mayStart r = true → due < s.dev.tickSt + s.dev.period →
      exec (.listenTimeout r) s = .next (s.withDev (enterColdstart r (takeSource r (s.dev.at due))))) ∧
    ((s.dev.stage = 0 ∨ s.dev.rstate r ≠ rsLISTEN ∨ s.dev.mayStart r = false ∨ s.dev.tickSt + s.dev.period ≤ due) →
      exec (.listenTimeout r) s = .next s)) ∧
  (∀ (d : Dev) (r : RingId),
    ((d.ringUsed r = false ∨ d.on pgSTG STG.HDUP = true ∨ d.ownSlot r ftSYNC = none) → d.mayStart r = false) ∧
    ((∃ q : RingId, q ≠ r ∧ d.rstate q = rsSYNC) → takeSource r d = d) ∧
    ((∀ q : RingId, q ≠ r → d.rstate q ≠ rsSYNC) → d.time.sysOff = none → takeSource r d = d) ∧
    (∀ o : Int, (∀ q : RingId, q ≠ r → d.rstate q ≠ rsSYNC) → d.time.sysOff = some o → 0 < o →
      takeSource r d = stepTime (d.st + o.toNat) d)) ∧
  (∀ (s : State) (r : RingId),
    (s.dev.rstate r = rsCOLDSTART → 8 ≤ (s.dev.rg r).csSent → (s.dev.rg r).coldFrom + 8 ≤ s.dev.cyc → (s.dev.rg r).yields = false →
      exec (.coldstartComplete r) s = .next (s.withDev (enterSync r 0 s.dev))) ∧
    ((s.dev.rstate r ≠ rsCOLDSTART ∨ (s.dev.rg r).csSent < 8 ∨ s.dev.cyc < (s.dev.rg r).coldFrom + 8 ∨
      (s.dev.rg r).yields = true) →
      exec (.coldstartComplete r) s = .next s) ∧
    (s.dev.rstate r = rsINTEGRATE → 4 ≤ (s.dev.rg r).goodRun →
      (s.dev.inserted r = true → exec (.integrateToSync r) s = .next (s.withDev (enterSync r 1 s.dev))) ∧
      (s.dev.inserted r = false → exec (.integrateToSync r) s = .next (s.withDev (enterSync r 2 s.dev)))) ∧
    ((s.dev.rstate r ≠ rsINTEGRATE ∨ (s.dev.rg r).goodRun < 4) → exec (.integrateToSync r) s = .next s) ∧
    (∀ go : Bool, go = (s.dev.rstate r == rsLISTEN || s.dev.rstate r == rsINTEGRATE || (s.dev.ringSync r && !s.dev.inserted r)) →
      ((∃ q, q < 4 ∧ s.dev.ringSync q = true) → 64 ≤ (s.dev.rg r).role0 → go = true → s.dev.mayStart r = true →
        exec (.headRingTakeover r) s = .next (s.withDev (s.dev.mapRg r fun g => { g with takeover := true }))) ∧
      (((∀ q, q < 4 → s.dev.ringSync q = false) ∨ (s.dev.rg r).role0 < 64 ∨ go = false ∨ s.dev.mayStart r = false) →
        exec (.headRingTakeover r) s = .next s)) ∧
    ((s.dev.rg r).takeover = true → (s.dev.rg r).brokenE = false → (s.dev.rg r).brokenW = false → (s.dev.rg r).insert = none →
      nitRing r s.dev = enterColdstart r (leaveSync r 5 s.dev)) ∧
    (∀ arg : Nat, (enterSync r arg s.dev).rstate r = rsSYNC ∧
      ((enterSync r arg s.dev).rg r).wantRange = (s.dev.role != roSTANDBY && s.dev.role != roSILENT)) ∧
    (enterColdstart r s.dev).rstate r = rsCOLDSTART ∧ (enterColdstart r s.dev).inserted r = true) ∧
  (∀ s : State,
    (s.dev.fitted (.sys .e) = false → exec .sysSyncAcquire s = .next s) ∧
    (s.dev.fitted (.sys .e) = true → (s.dev.isLighthouse = true ∨ (s.dev.parent ≠ none ∧ 8 ≤ s.dev.time.within)) →
      exec .sysSyncAcquire s = .next (s.withDev (s.dev.wr pgSYS SYS.SSYNC 1))) ∧
    (s.dev.isLighthouse = false → (s.dev.parent = none ∨ s.dev.time.within < 8) → exec .sysSyncAcquire s = .next s) ∧
    (∀ p : Port, s.dev.parent = some p → s.dev.on pgSYS SYS.SSYNC = true →
      (4 ≤ s.dev.time.beyond → exec (.sysSyncLoss .drift) s =
        .next (s.withDev (raise pgSYS 2 3 (s.dev.wr pgSYS SYS.SSYNC 0)))) ∧
      (s.dev.time.beyond < 4 → exec (.sysSyncLoss .drift) s = .next s) ∧
      (64 ≤ (s.dev.sysPort p).age → exec (.sysSyncLoss .silent) s =
        .next (s.withDev (raise pgSYS 2 2 (s.dev.wr pgSYS SYS.SSYNC 0)))) ∧
      ((s.dev.sysPort p).age < 64 → exec (.sysSyncLoss .silent) s = .next s)) ∧
    (s.dev.parent = none → exec (.sysSyncLoss .drift) s = .next s ∧
      (s.dev.isLighthouse = false → 64 ≤ s.dev.time.e.age → 64 ≤ s.dev.time.w.age → s.dev.on pgSYS SYS.SSYNC = true →
        exec (.sysSyncLoss .silent) s = .next (s.withDev (raise pgSYS 2 2 (s.dev.wr pgSYS SYS.SSYNC 0)))) ∧
      ((s.dev.isLighthouse = true ∨ s.dev.time.e.age < 64 ∨ s.dev.time.w.age < 64) →
        exec (.sysSyncLoss .silent) s = .next s)) ∧
    (∀ cause : SysLoss, s.dev.on pgSYS SYS.SSYNC = false → exec (.sysSyncLoss cause) s = .next s))

/-- On a lane that is fitted, gain and loss of block lock are shown in the KEEP domain in every stage, and on a
powered head also in the ring or SYS page, with LINK_UP and LINK_LOST on the system link and LOCKL for a loss that was
no break; a break is sent and healed with the arguments of this port; on a port with block lock, ordered sets of
another station go on and have their effect, those of this station end here, an unknown one goes on and is counted in
OSERR on a ring; a complete ranging round yields loop delays, ASYM, SCHOK, the ranged PTAB with RNGV and a GEO
message, which repeats the geometry in force where SCHOK is 0; a geometry with GOK takes effect at its ACT, and ends
resettle and the wait of an inserted head unless it is older than those (GEOACT at GOK = 0 and the older message are
the choices of the model, log entries 93 and 95); resettle ends after 256 cycles without a GEO message; a grant raises
INSERT, a withdrawal lowers it; a muted station that is heard again is unmuted and ordered to RESUME. Where its
condition does not hold the event changes nothing. (spec/03_ring_link_and_frames.md,
spec/04_ring_time_and_startup.md.) -/
def Obligations.LinkAndRingManagement : Prop :=
  (∀ (s : State) (l : Lane),
    (s.dev.fitted l = false → exec (.blockLockAcquire l) s = .next s ∧ exec (.blockLockLoss l) s = .next s) ∧
    (s.dev.fitted l = true → s.dev.stage = 0 →
      exec (.blockLockAcquire l) s = .next (s.withDev (setLock l true s.dev)) ∧
      exec (.blockLockLoss l) s = .next (s.withDev (setLock l false s.dev))) ∧
    (s.dev.fitted l = true → s.dev.locked l = true →
      exec (.blockLockAcquire l) s = .next (s.withDev (setLock l true s.dev))) ∧
    (s.dev.fitted l = true → s.dev.locked l = false →
      exec (.blockLockLoss l) s = .next (s.withDev (setLock l false s.dev)))) ∧
  (∀ (s : State) (p : Port), s.dev.sends (.sys p) = true →
    (s.dev.locked (.sys p) = false → exec (.blockLockAcquire (.sys p)) s =
      .next (s.withDev (raise pgSYS 1 1 (setLock (.sys p) true s.dev)))) ∧
    (s.dev.locked (.sys p) = true → exec (.blockLockLoss (.sys p)) s =
      .next (s.withDev (raise pgSYS 0 0 (setLock (.sys p) false s.dev))))) ∧
  (∀ (s : State) (r : RingId) (p : Port), s.dev.sends (.ring r p) = true →
    (s.dev.locked (.ring r p) = false → (s.dev.rg r).lostAt p = true → exec (.blockLockAcquire (.ring r p)) s =
      .next (s.withDev (((setLock (.ring r p) true s.dev).inc (pgRing r) RING.LOCKL).mapRg r (RingDyn.withLost p false)))) ∧
    (s.dev.locked (.ring r p) = false → (s.dev.rg r).lostAt p = false → exec (.blockLockAcquire (.ring r p)) s =
      .next (s.withDev ((setLock (.ring r p) true s.dev).mapRg r (RingDyn.withLost p false)))) ∧
    (s.dev.locked (.ring r p) = true → exec (.blockLockLoss (.ring r p)) s =
      .next (s.withDev ((setLock (.ring r p) false s.dev).mapRg r (RingDyn.withLost p true)))) ∧
    (s.dev.locked (.ring r p) = false → exec (.breakDetect r p) s = .next (s.withDev
      (osRing r 0x02 (breakArg s.dev p) (s.dev.mapRg r fun g => (g.withBroken p true).withLost p false)))) ∧
    (s.dev.locked (.ring r p) = true → exec (.breakDetect r p) s = .next s) ∧
    (s.dev.locked (.ring r p) = true → (s.dev.rg r).brokenAt p = true → exec (.healSend r p) s = .next (s.withDev
      (osRing r 0x03 (breakArg s.dev p) (s.dev.mapRg r (RingDyn.withBroken p false))))) ∧
    ((s.dev.locked (.ring r p) = false ∨ (s.dev.rg r).brokenAt p = false) → exec (.healSend r p) s = .next s)) ∧
  (∀ (s : State) (r : RingId) (p : Port), s.dev.sends (.ring r p) = false →
    exec (.breakDetect r p) s = .next s ∧ exec (.healSend r p) s = .next s) ∧
  (∀ d : Dev, breakArg d .e = d.myst + 64 ∧ breakArg d .w = d.myst) ∧
  (∀ (s : State) (l : Lane) (code : Byte) (arg : BitVec 48), s.dev.hears l = false →
    exec (.stopOsReceive l arg) s = .next s ∧ exec (.breakOsReceive l arg) s = .next s ∧
    exec (.healOsReceive l arg) s = .next s ∧ exec (.unknownOsReceive l code arg) s = .next s) ∧
  (∀ (s : State) (r : RingId) (p : Port) (arg : BitVec 48) (org : Nat) (x : Dev), s.dev.hears (.ring r p) = true →
    org = arg.toNat % 64 →
    (org = s.dev.myst → exec (.stopOsReceive (.ring r p) arg) s = .next s ∧
      exec (.breakOsReceive (.ring r p) arg) s = .next s ∧ exec (.healOsReceive (.ring r p) arg) s = .next s) ∧
    (org ≠ s.dev.myst → x = forwardSet (.ring r p) 0x01 arg s.dev →
      (s.dev.on (pgRing r) RING.STOPRX = true → exec (.stopOsReceive (.ring r p) arg) s =
        .next (s.withDev (safRing org (raise (pgRing r) 2 2 x)))) ∧
      (s.dev.on (pgRing r) RING.STOPRX = false → exec (.stopOsReceive (.ring r p) arg) s = .next (s.withDev
        (safRing org (raise (pgRing r) 2 2 ((x.wr (pgRing r) RING.STOPRX 1).wr (pgRing r) RING.STOPORG org)))))) ∧
    (org ≠ s.dev.myst → exec (.breakOsReceive (.ring r p) arg) s = .next (s.withDev
        (recordBreak r org (arg.toNat / 64 % 2) (forwardSet (.ring r p) 0x02 arg s.dev))) ∧
      exec (.healOsReceive (.ring r p) arg) s = .next (s.withDev (forwardSet (.ring r p) 0x03 arg s.dev))) ∧
    (∀ code : Byte, (code = 0 ∨ 3 < code.toNat) → exec (.unknownOsReceive (.ring r p) code arg) s = .next (s.withDev
      ((forwardSet (.ring r p) code arg s.dev).inc (pgRing r) RING.OSERR)))) ∧
  (∀ (s : State) (p : Port) (code : Byte) (arg : BitVec 48), s.dev.hears (.sys p) = true →
    (arg.toNat % 64 = s.dev.deviceNo % 64 → exec (.stopOsReceive (.sys p) arg) s = .next s ∧
      exec (.breakOsReceive (.sys p) arg) s = .next s ∧ exec (.healOsReceive (.sys p) arg) s = .next s) ∧
    (arg.toNat % 64 ≠ s.dev.deviceNo % 64 →
      exec (.stopOsReceive (.sys p) arg) s = .next (s.withDev (safRing 0 (forwardSet (.sys p) 0x01 arg s.dev))) ∧
      exec (.breakOsReceive (.sys p) arg) s = .next (s.withDev (forwardSet (.sys p) 0x02 arg s.dev)) ∧
      exec (.healOsReceive (.sys p) arg) s = .next (s.withDev (forwardSet (.sys p) 0x03 arg s.dev))) ∧
    ((code = 0 ∨ 3 < code.toNat) →
      exec (.unknownOsReceive (.sys p) code arg) s = .next (s.withDev (forwardSet (.sys p) code arg s.dev)))) ∧
  (∀ (s : State) (r : RingId),
    ((s.dev.rg r).ranging = none → exec (.rangingComplete r) s = .next s) ∧
    (∀ q, (s.dev.rg r).ranging = some q → (q.le = none ∨ q.lw = none) → exec (.rangingComplete r) s = .next s) ∧
    (∀ (rid c le lw : Nat) (replies : List (Nat × Int × Nat)) (ptab : List Word) (x y : Dev),
      (s.dev.rg r).ranging = some ⟨rid, c, some le, some lw, replies⟩ →
      ptab = rangedPtab s.dev.myst ((le + lw) / 2) replies →
      x = ((s.dev.wr (pgRing r) RING.LOOPE_LOOP le).wr (pgRing r) RING.LOOPW_LOOP lw).wr (pgRing r) RING.ASYM
        (if le + 64 < lw ∨ lw + 64 < le then 1 else 0) →
      y = ((putPtab r ptab ((x.wr (pgRing r) RING.SCHOK (if scheduleOk (geoOf ptab) x.rate (x.slots r) then 1 else 0)).wr
        (pgRing r) RING.RNGV 1)).mapRg r fun g => { g with ranging := none, kept := some (s.dev.inForce r) }) →
      (scheduleOk (geoOf ptab) x.rate (x.slots r) = true →
        exec (.rangingComplete r) s = .next (s.withDev (sendGeo r ⟨le, lw, 0, true, ptab⟩ (raise (pgRing r) 3 3 y)))) ∧
      (scheduleOk (geoOf ptab) x.rate (x.slots r) = false →
        exec (.rangingComplete r) s = .next (s.withDev (sendGeo r
          ⟨(s.dev.inForce r).1, (s.dev.inForce r).2.1, 0, false, (s.dev.inForce r).2.2⟩ (raise (pgRing r) 3 3 y))))) ∧
    ((s.dev.rg r).geo = none → exec (.geoAct r) s = .next s) ∧
    (∀ g : Geometry, (s.dev.rg r).geo = some g →
      (2 ^ 31 ≤ (s.dev.cyc + 2 ^ 32 - g.act) % 2 ^ 32 → exec (.geoAct r) s = .next s) ∧
      ((s.dev.cyc + 2 ^ 32 - g.act) % 2 ^ 32 < 2 ^ 31 → ∃ t, exec (.geoAct r) s = .next t ∧
        t.pending = s.pending ∧ (t.dev.rg r).geo = none ∧
        ((s.dev.rg r).geoOld = false → t.dev.on (pgRing r) RING.RESETTLE = false) ∧
        ((s.dev.rg r).geoOld = true → t.dev.on (pgRing r) RING.RESETTLE = s.dev.on (pgRing r) RING.RESETTLE ∧
          (t.dev.rg r).txWait = (s.dev.rg r).txWait) ∧
        (g.gok = true → ((s.dev.rg r).geoOld = false → (t.dev.rg r).txWait = false) ∧ (t.dev.rg r).kept = none ∧
          t.dev.on (pgRing r) RING.RNGV = true ∧
          t.dev.rd (pgRing r) RING.GEOACT = g.act % 2 ^ RING.GEOACT.width ∧
          t.dev.rd (pgRing r) RING.LOOPE_LOOP = g.le % 2 ^ RING.LOOPE_LOOP.width ∧
          t.dev.rd (pgRing r) RING.LOOPW_LOOP = g.lw % 2 ^ RING.LOOPW_LOOP.width ∧
          t.dev.on (pgRing r) RING.ASYM = decide (g.le + 64 < g.lw ∨ g.lw + 64 < g.le) ∧
          ∀ i, i < 64 → t.dev.reg (pgRing r) 0 (RING.DE.off + 4 * i) = g.ptab.getD i 0x000FFFFF#32) ∧
        (g.gok = false → (t.dev.rg r).txWait = (s.dev.rg r).txWait ∧ (t.dev.rg r).kept = (s.dev.rg r).kept ∧
          t.dev.rd (pgRing r) RING.GEOACT = s.dev.rd (pgRing r) RING.GEOACT ∧
          ∀ i, i < 64 → t.dev.reg (pgRing r) 0 (RING.DE.off + 4 * i) = s.dev.reg (pgRing r) 0 (RING.DE.off + 4 * i)))) ∧
    (s.dev.on (pgRing r) RING.RESETTLE = true → 256 ≤ (s.dev.rg r).resettleN →
      ((s.dev.rg r).geo = none ∨ (s.dev.rg r).geoOld = true) → exec (.resettleTimeout r) s = .next (s.withDev
        ((s.dev.wr (pgRing r) RING.RESETTLE 0).mapRg r fun g => { g with resettleN := 0, disagree := 0 }))) ∧
    ((s.dev.on (pgRing r) RING.RESETTLE = false ∨ (s.dev.rg r).resettleN < 256 ∨
      ((s.dev.rg r).geo ≠ none ∧ (s.dev.rg r).geoOld = false)) → exec (.resettleTimeout r) s = .next s) ∧
    ((s.dev.rg r).insg = some (s.dev.myst, false) → s.dev.inserted r = false → s.dev.ringSync r = true →
      s.dev.on pgSTG STG.HDUP = false → exec (.insertByGrant r) s = .next (s.withDev
        ((s.dev.wr (pgRing r) RING.INS 1).mapRg r fun g => { g with
          txWait := true, rtag := none, geoOld := g.geo.isSome, frags := [] }))) ∧
    (((s.dev.rg r).insg ≠ some (s.dev.myst, false) ∨ s.dev.inserted r = true ∨ s.dev.ringSync r = false ∨
      s.dev.on pgSTG STG.HDUP = true) → exec (.insertByGrant r) s = .next s) ∧
    ((s.dev.rg r).insg = some (s.dev.myst, true) → s.dev.inserted r = true →
      exec (.insertLowerByWithdraw r) s = .next (s.withDev (s.dev.wr (pgRing r) RING.INS 0))) ∧
    (((s.dev.rg r).insg ≠ some (s.dev.myst, true) ∨ s.dev.inserted r = false) → exec (.insertLowerByWithdraw r) s = .next s)) ∧
  (∀ (s : State) (r : RingId) (sta : BitVec 6) (act : Nat), act = s.dev.cyc + s.dev.asyncLead r 1 + 4 →
    (s.dev.commanding = true → s.dev.ringSync r = true → sta.toNat ∈ (s.dev.rg r).muted → exec (.rejoin r sta) s =
      .next (s.withDev (queueMgmt r (s.dev.sysId r sta.toNat) ([2, 0, 0, 0] ++ bytesLE 4 act) (unmute r sta.toNat act s.dev)))) ∧
    ((s.dev.commanding = false ∨ s.dev.ringSync r = false ∨ sta.toNat ∉ (s.dev.rg r).muted) →
      exec (.rejoin r sta) s = .next s))

/-- A frame on a port without power or block lock has no effect; one with a wrong HCRC is forwarded and counted in
HCRC, whatever event brings it (that none is removed is the choice of the model, log entry 83). A good frame of
another station restarts the listen timer, is forwarded, moves time to its tag and its epoch is noted; where the ring
follows the time and the frame is the first copy in the window of its slot, an AXIS frame writes its records and
readies tasks, an IO frame writes the input bank, a SYNC frame gives its deviation, role, grant and rate, a COMMAND or
MIRROR frame of the peer is heard, an ASYNC frame gives its mailbox fragment or goes to another cluster through the
commanding head (log entry 97); a later copy is counted, and one outside every window is counted in COPYW. A ranging
reply in its window is collected once for each station of the round, and a second copy of a slot counted, whether a
round runs or not. The first copy of a SYNC or COLDSTART frame that fits brings a listening ring to INTEGRATE; a SYNC
frame, and a COLDSTART frame with priority, makes a cold start yield at the end of its cycle, and a COLDSTART frame
takes a ring out of SYNC that has heard no head for 64 cycles; a second copy of a slot is counted. On the system link
a wrong header, and a wrong payload of another device, is counted in CRCERR; a good frame of another device notes the
deviation, its cycle and the neighbour, or is delivered, queued or routed; a PDX message notes M and what the
neighbour knows of the lighthouse, and where it is of the cycle of the own measurement it gives the hop delay and the
offset. (spec/03_ring_link_and_frames.md, spec/04_ring_time_and_startup.md, spec/13_head_pair_redundancy.md,
spec/15_host_interface_registers.md.) -/
def Obligations.FramesReceived : Prop :=
  (∀ (s : State) (r : RingId) (f : RawFrame), s.dev.hears (.ring r f.port) = false →
    exec (.axisFrameReceive r f) s = .next s ∧ exec (.ioFrameReceive r f) s = .next s ∧
    exec (.syncFrameReceive r f) s = .next s ∧ exec (.commandFrameReceive r f) s = .next s ∧
    exec (.coldstartFrameReceive r f) s = .next s ∧ exec (.mirrorFrameReceive r f) s = .next s ∧
    exec (.asyncFrameReceive r f) s = .next s ∧ exec (.rangingReplyReceive r f) s = .next s) ∧
  (∀ (s : State) (p : Port) (f : RawFrame) (m : PdxMsg), s.dev.hears (.sys p) = false →
    exec (.sysSyncFrameReceive p f) s = .next s ∧ exec (.sysAsyncFrameReceive p f) s = .next s ∧
    exec (.pdxReceive p m) s = .next s) ∧
  (∀ (s : State) (r : RingId) (f : RawFrame) (bad : Dev), s.dev.hears (.ring r f.port) = true → hcrcOk f.sof = false →
    bad = (s.dev.transmit (.frame (.ring r (match f.port with | .e => .w | .w => .e)) f.sof f.data f.crc)).inc (pgRing r) RING.HCRC →
    exec (.axisFrameReceive r f) s = .next (s.withDev bad) ∧ exec (.ioFrameReceive r f) s = .next (s.withDev bad) ∧
    exec (.syncFrameReceive r f) s = .next (s.withDev bad) ∧ exec (.commandFrameReceive r f) s = .next (s.withDev bad) ∧
    exec (.coldstartFrameReceive r f) s = .next (s.withDev bad) ∧ exec (.mirrorFrameReceive r f) s = .next (s.withDev bad) ∧
    exec (.asyncFrameReceive r f) s = .next (s.withDev bad) ∧ exec (.rangingReplyReceive r f) s = .next (s.withDev bad)) ∧
  (∀ (s : State) (p : Port) (f : RawFrame), s.dev.hears (.sys p) = true →
    (hcrcOk f.sof = false ∨
      ((hdrOf f.sof).src + 64 * (hdrOf f.sof).srcx ≠ s.dev.deviceNo % 512 ∧ crc32c f.data ≠ f.crc.toNat)) →
    exec (.sysSyncFrameReceive p f) s = .next (s.withDev (s.dev.inc pgSYS SYS.CRCERR)) ∧
    exec (.sysAsyncFrameReceive p f) s = .next (s.withDev (s.dev.inc pgSYS SYS.CRCERR))) ∧
  (∀ (s : State) (r : RingId) (f : RawFrame) (n : Nat) (x y : Dev), x = s.dev.noted r f n → s.dev.accepts r f n →
    (s.dev.getsFrame r f ftAXIS →
      (x.axisNode r (hdrOf f.sof).src = true → (r.val, (hdrOf f.sof).src) ∉ x.red.nodes →
        y = { x with red := { x.red with nodes := (r.val, (hdrOf f.sof).src) :: x.red.nodes } } →
        exec (.axisFrameReceive r f) s = .next (s.withDev (readyByRecords (writeRecords r (hdrOf f.sof).src f y)))) ∧
      ((x.axisNode r (hdrOf f.sof).src = false ∨ (r.val, (hdrOf f.sof).src) ∈ x.red.nodes) →
        exec (.axisFrameReceive r f) s = .next (s.withDev (readyByRecords (writeRecords r (hdrOf f.sof).src f x))))) ∧
    (s.dev.getsFrame r f ftIO → exec (.ioFrameReceive r f) s = .next (s.withDev (x.setMemBytes
      (bankBase (3 - (x.rd pgTIM TIM.PIXI_HOST + x.rd pgTIM TIM.NEWEST)) + (x.slot r n).piofs * 8) f.data))) ∧
    (s.dev.getsFrame r f ftSYNC → exec (.syncFrameReceive r f) s = .next (s.withDev (useSync r f x))) ∧
    (s.dev.getsFrame r f ftCOMMAND →
      ((hdrOf f.sof).src = 1 - x.myst → y = hearPeer none x → exec (.commandFrameReceive r f) s =
        .next (s.withDev { y with red := { y.red with command := true, noCmdr := 0 } })) ∧
      ((hdrOf f.sof).src ≠ 1 - x.myst → exec (.commandFrameReceive r f) s = .next (s.withDev x))) ∧
    (s.dev.getsFrame r f ftMIRROR →
      ((hdrOf f.sof).src = 1 - x.myst → exec (.mirrorFrameReceive r f) s = .next (s.withDev (takeMirror f x))) ∧
      ((hdrOf f.sof).src ≠ 1 - x.myst → exec (.mirrorFrameReceive r f) s = .next (s.withDev x))) ∧
    (s.dev.getsFrame r f ftASYNC →
      ((fragOf f).ch = 0 → (hdrOf f.sof).src = 1 - x.myst →
        exec (.asyncFrameReceive r f) s = .next (s.withDev (ringMgmt r (fragOf f) x))) ∧
      ((fragOf f).ch = 0 → (hdrOf f.sof).src ≠ 1 - x.myst → exec (.asyncFrameReceive r f) s = .next (s.withDev x)) ∧
      ((fragOf f).ch ≠ 0 → x.ownId (fragOf f).dst = true →
        exec (.asyncFrameReceive r f) s = .next (s.withDev (mailFragment r f.tag (fragOf f) x))) ∧
      ((fragOf f).ch ≠ 0 → x.ownId (fragOf f).dst = false → (fragOf f).dst / 256 ≠ x.rd pgSYS SYS.SIDX → x.commanding = true →
        exec (.asyncFrameReceive r f) s = .next (s.withDev (sendRouted ((fragOf f).dst / 256) id f.data x))) ∧
      ((fragOf f).ch ≠ 0 → x.ownId (fragOf f).dst = false →
        ((fragOf f).dst / 256 = x.rd pgSYS SYS.SIDX ∨ x.commanding = false) →
        exec (.asyncFrameReceive r f) s = .next (s.withDev x)))) ∧
  (∀ (s : State) (r : RingId) (f : RawFrame) (x : Dev), x = s.dev.passed r f → x.ringFollows r = true →
    (x.slotFor r (hdrOf f.sof).type (hdrOf f.sof).src f.port f.tag = none →
      (s.dev.getsFrame r f ftAXIS → exec (.axisFrameReceive r f) s =
        .next (s.withDev (copyOutside r ftAXIS (hdrOf f.sof).src x))) ∧
      (s.dev.getsFrame r f ftSYNC → exec (.syncFrameReceive r f) s =
        .next (s.withDev (copyOutside r ftSYNC (hdrOf f.sof).src x)))) ∧
    (∀ n : Nat, x.slotFor r (hdrOf f.sof).type (hdrOf f.sof).src f.port f.tag = some n → n ∈ (x.rg r).accepted →
      (hdrOf f.sof).src ∉ (x.rg r).muted →
      (s.dev.getsFrame r f ftAXIS → exec (.axisFrameReceive r f) s = .next (s.withDev (x.incW (pgRing r) RING.CNTDUP))) ∧
      (s.dev.getsFrame r f ftSYNC → exec (.syncFrameReceive r f) s = .next (s.withDev (x.incW (pgRing r) RING.CNTDUP))))) ∧
  (∀ (s : State) (r : RingId) (f : RawFrame) (x y : Dev), x = s.dev.passed r f → x.firstOf r f = some y → x.ringFollows r = false →
    s.dev.getsFrame r f ftSYNC →
    (beaconFits r f x = false → exec (.syncFrameReceive r f) s = .next (s.withDev x)) ∧
    (∀ v : Int, beaconFits r f x = true → x.rstate r = rsLISTEN → x.nominalDev r f = some v →
      exec (.syncFrameReceive r f) s = .next (s.withDev (integrate r v (noteRole r f y)))) ∧
    (∀ v : Int, beaconFits r f x = true → x.rstate r = rsCOLDSTART → (x.rg r).yields = false → x.nominalDev r f = some v →
      exec (.syncFrameReceive r f) s = .next (s.withDev ((noteRole r f y).mapRg r fun g => { g with
        yields := true, yieldDev := v })))) ∧
  (∀ (s : State) (r : RingId) (f : RawFrame) (x : Dev), x = s.dev.passed r f → x.firstOf r f = none → beaconFits r f x = true →
    (s.dev.getsFrame r f ftSYNC → x.ringFollows r = false →
      exec (.syncFrameReceive r f) s = .next (s.withDev (x.incW (pgRing r) RING.CNTDUP))) ∧
    (s.dev.getsFrame r f ftCOLDSTART → (x.rstate r = rsLISTEN ∨ x.rstate r = rsCOLDSTART) →
      exec (.coldstartFrameReceive r f) s = .next (s.withDev (x.incW (pgRing r) RING.CNTDUP)))) ∧
  (∀ (s : State) (r : RingId) (f : RawFrame) (x : Dev), x = s.dev.passed r f → s.dev.getsFrame r f ftRANGING →
    ((x.ringSync r = false ∨ (hdrOf f.sof).src ∈ (x.rg r).muted) → exec (.rangingReplyReceive r f) s = .next (s.withDev x)) ∧
    (x.ringSync r = true → (hdrOf f.sof).src ∉ (x.rg r).muted →
      (x.rangingSlot r f = none →
        exec (.rangingReplyReceive r f) s = .next (s.withDev (copyOutside r ftRANGING (hdrOf f.sof).src x))) ∧
      (∀ n : Nat, x.rangingSlot r f = some n → n ∈ (x.rg r).accepted → field f 0 1 = 1 →
        exec (.rangingReplyReceive r f) s = .next (s.withDev (x.incW (pgRing r) RING.CNTDUP))) ∧
      (∀ (n : Nat) (y : Dev), x.rangingSlot r f = some n → n ∉ (x.rg r).accepted →
        y = x.mapRg r (fun g => { (g.hearing (hdrOf f.sof).src) with accepted := n :: g.accepted }) →
        (field f 0 1 = 1 →
          ((x.rg r).ranging = none → exec (.rangingReplyReceive r f) s = .next (s.withDev y)) ∧
          (∀ q : Ranging, (x.rg r).ranging = some q →
            (q.rid % 65536 = field f 2 2 → (∀ e ∈ q.replies, e.1 ≠ (hdrOf f.sof).src) →
              exec (.rangingReplyReceive r f) s = .next (s.withDev (y.mapRg r fun g => { g with
                ranging := some { q with replies := q.replies ++ [((hdrOf f.sof).src, fieldI f 4 4, field f 8 2)] } }))) ∧
            ((q.rid % 65536 ≠ field f 2 2 ∨ ∃ e ∈ q.replies, e.1 = (hdrOf f.sof).src) →
              exec (.rangingReplyReceive r f) s = .next (s.withDev y)))) ∧
        (field f 0 1 ≠ 1 → (hdrOf f.sof).src = 1 - x.myst →
          exec (.rangingReplyReceive r f) s = .next (s.withDev (tagRequest r f y))) ∧
        (field f 0 1 ≠ 1 → (hdrOf f.sof).src ≠ 1 - x.myst → exec (.rangingReplyReceive r f) s = .next (s.withDev y))) ∧
      (∀ n : Nat, x.rangingSlot r f = some n → n ∈ (x.rg r).accepted → field f 0 1 ≠ 1 → (hdrOf f.sof).src = 1 - x.myst →
        exec (.rangingReplyReceive r f) s = .next (s.withDev (tagRequest r f (x.incW (pgRing r) RING.CNTDUP)))))) ∧
  (∀ (s : State) (r : RingId) (f : RawFrame) (x : Dev), x = s.dev.passed r f → s.dev.getsFrame r f ftCOLDSTART →
    (beaconFits r f x = false → exec (.coldstartFrameReceive r f) s = .next (s.withDev x)) ∧
    (∀ y : Dev, beaconFits r f x = true → x.firstOf r f = some y →
      (x.rstate r = rsLISTEN → x.nominalDev r f = none → exec (.coldstartFrameReceive r f) s = .next (s.withDev y)) ∧
      (∀ v : Int, x.rstate r = rsLISTEN → x.nominalDev r f = some v →
        exec (.coldstartFrameReceive r f) s = .next (s.withDev (integrate r v y))) ∧
      (∀ v : Int, x.rstate r = rsCOLDSTART → field f 8 1 = 0 → (hdrOf f.sof).src < x.myst → (x.rg r).yields = false →
        x.nominalDev r f = some v →
        exec (.coldstartFrameReceive r f) s = .next (s.withDev (y.mapRg r fun g => { g with yields := true, yieldDev := v }))) ∧
      (x.rstate r = rsCOLDSTART → (field f 8 1 ≠ 0 ∨ x.myst < (hdrOf f.sof).src ∨ (x.rg r).yields = true) →
        exec (.coldstartFrameReceive r f) s = .next (s.withDev y)) ∧
      (∀ v : Int, x.rstate r = rsSYNC → field f 8 1 = 0 → (hdrOf f.sof).src ≤ 1 → 64 ≤ (x.rg r).headless →
        (x.rg r).roleNow ≠ some true → (leaveSync r 5 y).nominalDev r f = some v →
        exec (.coldstartFrameReceive r f) s = .next (s.withDev (integrate r v (leaveSync r 5 y))))) ∧
    (beaconFits r f x = true → x.rstate r = rsSYNC → ((x.rg r).headless < 64 ∨ (x.rg r).roleNow = some true) →
      exec (.coldstartFrameReceive r f) s = .next (s.withDev x))) ∧
  (∀ (s : State) (p : Port) (f : RawFrame) (x y z w : Dev), s.dev.hears (.sys p) = true → hcrcOk f.sof = true →
    payloadOk f = true → (hdrOf f.sof).src + 64 * (hdrOf f.sof).srcx ≠ s.dev.deviceNo % 512 → x = s.dev.at f.tag →
    y = x.mapSys p (fun a => { a with
      m := some (beaconTime f / x.period, (f.tag : Int) - beaconTime f), nid := some (field f 12 2) }) →
    z = (if field f 8 1 % 8 = rsSYNC then
      y.timeMap (fun a => { a with sysOff := some ((a.hop : Int) - ((f.tag : Int) - beaconTime f)) }) else y) →
    w = steerLimit (pairPdx p z) →
    ((hdrOf f.sof).type = ftSYNC → (w.sysPort p).pdxDue = false → exec (.sysSyncFrameReceive p f) s = .next (s.withDev w)) ∧
    ((hdrOf f.sof).type = ftSYNC → (w.sysPort p).pdxDue = true →
      exec (.sysSyncFrameReceive p f) s = .next (s.withDev (sendPdx p w))) ∧
    ((hdrOf f.sof).type ≠ ftSYNC → exec (.sysSyncFrameReceive p f) s = .next (s.withDev x)) ∧
    ((hdrOf f.sof).type = ftASYNC → ((fragOf f).dst = 0xFFFF ∨ (fragOf f).dst / 256 = x.rd pgSYS SYS.SIDX) →
      (x.ownId (fragOf f).dst = true → (fragOf f).ch ≠ 0 → exec (.sysAsyncFrameReceive p f) s =
        .next (s.withDev (mailFragment 0 f.tag (fragOf f) x))) ∧
      (x.ownId (fragOf f).dst = false → exec (.sysAsyncFrameReceive p f) s =
        .next (s.withDev (toRing (fragOf f).dst f.data x)))) ∧
    ((hdrOf f.sof).type = ftASYNC → (fragOf f).dst ≠ 0xFFFF → (fragOf f).dst / 256 ≠ x.rd pgSYS SYS.SIDX →
      exec (.sysAsyncFrameReceive p f) s = .next (s.withDev (sysRoute ((fragOf f).dst / 256) (sysLocal f)
        (fun q d => d.transmit (.frame (.sys q) f.sof f.data f.crc)) x)))) ∧
  (∀ (idx prim alt : Nat) (here : Dev → Dev) (send : Port → Dev → Dev) (d : Dev), prim = d.rd pgSYS (SYS.PRIM.nth 4 idx) →
    alt = d.rd pgSYS (SYS.ALT.nth 4 idx) →
    (prim = 0 → sysRoute idx here send d = here d) ∧
    (prim = 1 → d.hears (.sys .e) = true → sysRoute idx here send d = send .e d) ∧
    (prim = 2 → d.hears (.sys .w) = true → sysRoute idx here send d = send .w d) ∧
    (prim = 1 → alt = 2 → d.hears (.sys .e) = false → d.hears (.sys .w) = true → sysRoute idx here send d = send .w d) ∧
    (prim = 2 → alt = 1 → d.hears (.sys .w) = false → d.hears (.sys .e) = true → sysRoute idx here send d = send .e d) ∧
    ((prim = 1 ∨ prim = 2) → alt ≠ 0 → d.hears (.sys .e) = false → d.hears (.sys .w) = false →
      sysRoute idx here send d = raise pgSYS 3 3 (d.inc pgSYS SYS.RTFAIL))) ∧
  (∀ (s : State) (p : Port) (m : PdxMsg), s.dev.hears (.sys p) = true → exec (.pdxReceive p m) s = .next (s.withDev
    (steerLimit (pairPdx p (s.dev.mapSys p fun a => { a with
      hops := m.hops.toNat, lidx := m.lidx.toNat, age := 0, theirs := some (m.cyc.toNat, m.m.toInt) }))))) ∧
  (∀ (d : Dev) (p : Port) (c c' : Nat) (own them : Int), (d.sysPort p).m = some (c, own) → (d.sysPort p).theirs = some (c', them) →
    (c % 2 ^ 32 ≠ c' → pairPdx p d = d) ∧
    (c % 2 ^ 32 = c' → ∃ x : Dev,
      x = (d.wr pgSYS (match p with | .e => SYS.PDLYE_PDLY | .w => SYS.PDLYW_PDLY) (toBits 20 (divTrunc (own + them) 2))) ∧
      pairPdx p d = x.mapSys p (fun a => { a with o := some (divTrunc (own - them) 2) }))) ∧
  (∀ d : Dev,
    (d.parentFar = true → (steerLimit d).on pgSYS SYS.SSYNC = false ∧ (steerLimit d).time.far = true) ∧
    (d.parentFar = false → steerLimit d = d.timeMap fun t => { t with far := false }))

/-- Nothing leaves in KEEPER, with HDUP set, on a ring where this head is not inserted, from a slot that is not in the
table or not in its turn, or from an upstream or async slot of another holder. A commanding head in SYNC that has its
command frame and need not wait launches it in a COMMAND slot; the own SYNC slot launches SYNC in SYNC and, from the
first full cycle of a cold start on, COLDSTART in COLDSTART, counting it, and nothing in other states; the own async
slot launches what sendAsync gives. A port still busy with a forwarded frame is counted in TXCOLL and sends nothing;
with HDUP set no port sends. (spec/03_ring_link_and_frames.md, spec/13_head_pair_redundancy.md.) -/
def Obligations.FrameTransmit : Prop :=
  (∀ (s : State) (r : RingId) (slot : Byte) (be bw : Bool),
    (s.dev.stage = 0 ∨ s.dev.on pgSTG STG.HDUP = true ∨ s.dev.inserted r = false ∨
      s.dev.rd (pgRing r) RING.NSLOT ≤ slot.toNat ∨ (s.dev.slot r slot.toNat).turn s.dev.cyc = false) →
    exec (.frameTransmit r slot be bw) s = .next s) ∧
  (∀ (s : State) (r : RingId) (slot : Byte) (be bw : Bool) (n : Nat) (x : Slot), n = slot.toNat → x = s.dev.slot r n →
    s.dev.stage ≠ 0 → s.dev.on pgSTG STG.HDUP = false → s.dev.inserted r = true → n < s.dev.rd (pgRing r) RING.NSLOT →
    x.turn s.dev.cyc = true →
    (∀ p, x.type = ftCOMMAND → (s.dev.rg r).command = some p → s.dev.commanding = true → s.dev.rstate r = rsSYNC →
      (s.dev.rg r).txWait = false →
      exec (.frameTransmit r slot be bw) s = .next (s.withDev (launch r n ftCOMMAND (x.ap * 80) be bw p s.dev))) ∧
    (x.type = ftCOMMAND → ((s.dev.rg r).command = none ∨ s.dev.commanding = false ∨ s.dev.rstate r ≠ rsSYNC ∨
      (s.dev.rg r).txWait = true) → exec (.frameTransmit r slot be bw) s = .next s) ∧
    (x.type = ftMIRROR → s.dev.rstate r = rsSYNC → (s.dev.rg r).txWait = false → s.dev.role ≠ roNONE →
      exec (.frameTransmit r slot be bw) s = .next (s.withDev (sendMirror r n x be bw s.dev))) ∧
    (x.type ≠ ftCOMMAND → x.type ≠ ftMIRROR → x.holder ≠ s.dev.myst → exec (.frameTransmit r slot be bw) s = .next s) ∧
    (x.type = ftSYNC → x.holder = s.dev.myst → (s.dev.rg r).txWait = false →
      (s.dev.rstate r = rsCOLDSTART → s.dev.cyc < (s.dev.rg r).coldFrom → exec (.frameTransmit r slot be bw) s = .next s) ∧
      (s.dev.rstate r = rsCOLDSTART → (s.dev.rg r).coldFrom ≤ s.dev.cyc → exec (.frameTransmit r slot be bw) s = .next (s.withDev
        ((launch r n ftCOLDSTART (x.ap * 80) be bw (s.dev.coldPayload r (s.dev.tickSt + x.ap * 80)) s.dev).mapRg r fun g =>
          { g with csSent := g.csSent + 1 }))) ∧
      (s.dev.rstate r = rsSYNC → exec (.frameTransmit r slot be bw) s = .next (s.withDev (launch r n ftSYNC (x.ap * 80) be bw
        (s.dev.syncPayload (s.dev.tickSt + x.ap * 80) rsSYNC (s.dev.sysId r s.dev.myst) (s.dev.rg r).nbsPrev (s.dev.insgByte r)
          (s.dev.rd (pgRing r) RING.SHASH)) s.dev))) ∧
      (s.dev.rstate r ≠ rsCOLDSTART → s.dev.rstate r ≠ rsSYNC → exec (.frameTransmit r slot be bw) s = .next s)) ∧
    ((x.type = ftASYNC ∨ x.type = ftRANGING) → x.holder = s.dev.myst →
      exec (.frameTransmit r slot be bw) s = .next (s.withDev (sendAsync r n x be bw s.dev)))) ∧
  (∀ (d : Dev) (r : RingId) (p : Port) (h : Hdr) (data : List Byte) (crc : Word),
    launchPort r p true h data crc d = d.inc (pgRing r) RING.TXCOLL ∧
    (d.on pgSTG STG.HDUP = true → launchPort r p false h data crc d = d) ∧
    (d.on pgSTG STG.HDUP = false → ∃ sof, hcrcOk sof = true ∧
      launchPort r p false h data crc d = { d with out := .frame (.ring r p) sof data crc :: d.out }))

/-- An axis task runs where the scheduler would run it: evaluation, stages and commit of its table, then DONE;
otherwise nothing happens. A Season RESET or COPY completes in its cycle. A READY task is placed, unless another comes
before it there, or stays; a PREEMPTED one resumes on its free pair; a written task adopts what is due of its writes,
each from its own cycle on, when idle, and its flags trigger it. A pair fault takes the pair to FAULTED, its work to
the scheduler and the device to LANTERN when no working pair is left; a trap of kernel ROM code is recorded and a pair
fault with cause 5, one of a user task ends the task; an uncorrectable error of shared SRAM moors the axis of its
table, one of DRAM is counted and stays in its byte, which reads as another value (what value is open), or drops the
device in the region of the engine images; BIST ends with its result. A repair whose block has come installs it and
reruns the cycles since from the histories, and a replay gives the verdict whether it yields the command of the first
run. The phases of resynchronisation move as their condition holds, and nothing changes where it does not.
(spec/05_axis_control.md, spec/06_season_unit.md, spec/08_engine_programming.md, spec/09_task_scheduler.md,
spec/13_head_pair_redundancy.md.) -/
def Obligations.TasksPairsAndHeadPair : Prop :=
  (∀ (s : State) (n : AxisId) (t : Nat),
    (s.dev.taskRunnable n = true → exec (.axisTaskRun n t) s = .next (s.withDev (taskEnded n t (runKernel n (s.dev.at t))))) ∧
    (s.dev.taskRunnable n = false → exec (.axisTaskRun n t) s = .next s) ∧
    ((s.dev.sea n).ends = none → exec (.seaDone n) s = .next s) ∧
    (∀ c, (s.dev.sea n).ends = some c → s.dev.cyc < c → exec (.seaDone n) s = .next s) ∧
    (∀ (c : Nat) (x : Dev), (s.dev.sea n).ends = some c → c ≤ s.dev.cyc →
      (((s.dev.sea n).source = none ∧ x = s.dev.clearMem (seaAddr n 0) (seaAddr n 0 + 4 * s.dev.seaN n)) ∨
       (∃ (src : Nat) (y z : Dev), (s.dev.sea n).source = some src ∧
        ((y = s.dev ∧ ∀ b ∈ s.dev.bad, b < seaAddr src 0 ∨ seaAddr src 0 + 4 * s.dev.seaN n ≤ b) ∨
         ∃ b, s.dev.bad.find? (fun b => decide (seaAddr src 0 ≤ b) && decide (b < seaAddr src 0 + 4 * s.dev.seaN n)) = some b ∧
          y = seaFail (axisNo src) ((b - seaAddr src 0) / 4) s.dev) ∧
        z = y.copyMem (seaAddr src 0) (seaAddr n 0) (4 * s.dev.seaN n) ∧
        x = (z.wrS pgSEA n SEA.TSUM (z.rdS pgSEA src SEA.TSUM)).wrS pgSEA src SEA.STAT_BUSY 0)) →
      exec (.seaDone n) s = .next (s.withDev (seaEvent n 3
        ((x.mapSea n fun a => { a with ends := none, source := none }).wrS pgSEA n SEA.STAT_BUSY 0))))) ∧
  (∀ (s : State) (task : TaskId) (t : Nat) (i : Inst), (s.dev.at t).tsu.firstReady task = some i →
    (∀ p, s.dev.tasksRun = true → (s.dev.at t).place task = some p →
      ((s.dev.at t).nextOn p i = true → exec (.taskDispatch task t) s =
        .next (s.withDev (startInst i p (preempt p (s.dev.at t))))) ∧
      ((s.dev.at t).nextOn p i = false → exec (.taskDispatch task t) s = .next (s.withDev (s.dev.at t)))) ∧
    ((s.dev.tasksRun = false ∨ (s.dev.at t).place task = none) → exec (.taskDispatch task t) s = .next (s.withDev (s.dev.at t)))) ∧
  (∀ (s : State) (task : TaskId) (i : Inst) (p : PairId) (c : Context),
    s.dev.tsu.insts.find? (fun i => i.task == task.val && i.state == .preempted) = some i → i.pair = some p.val →
    s.dev.tsu.ctx.find? (fun c => c.task == task.val && c.seq == i.seq) = some c → s.dev.pstate p = 1 →
    (s.dev.pair p).running = .nothing → s.dev.freeForTasks p = true → s.dev.nextOn p i = true →
    ∃ t, exec (.taskResume task) s = .next t ∧ t.pending = s.pending ∧ t.dev.pstate p = 2 ∧
      (t.dev.pair p).running = .task task i.seq ∧ (t.dev.pair p).eng = c.eng) ∧
  (∀ (s : State) (task : TaskId),
    ((∀ i ∈ s.dev.tsu.insts, i.task = task.val → i.state ≠ .ready) → ∀ t,
      exec (.taskDispatch task t) s = .next (s.withDev (s.dev.at t))) ∧
    (s.dev.tsu.insts.find? (fun i => i.task == task.val && i.state == .preempted) = none → exec (.taskResume task) s = .next s) ∧
    ((∀ x ∈ s.dev.tsu.due, x.task = task.val → s.dev.rd64 pgTIM 0 TIM.CYCLO.off < x.cycle) →
      exec (.tsuWriteAdopt task) s = .next s) ∧
    (s.dev.tsu.idle task = false → exec (.tsuWriteAdopt task) s = .next s) ∧
    ((∃ x ∈ s.dev.tsu.due, x.task = task.val ∧ x.cycle ≤ s.dev.rd64 pgTIM 0 TIM.CYCLO.off) → s.dev.tsu.idle task = true →
      exec (.tsuWriteAdopt task) s = .next (s.withDev (flagTask raise task false false false
        (adoptDue task (s.dev.rd64 pgTIM 0 TIM.CYCLO.off) s.dev))))) ∧
  (∀ (task k : Nat) (d : Dev), (∀ x ∈ d.tsu.due, x.task = task → k < x.cycle → x ∈ (adoptDue task k d).tsu.due) ∧
    (∀ x ∈ (adoptDue task k d).tsu.due, x ∈ d.tsu.due ∧ (x.task = task → k < x.cycle)) ∧
    (adoptDue task k d).tsu.cfg.find? (fun c => c.1 == task) =
      some (task, (d.tsu.dueBy task k).foldl (fun c w => c.put w) (d.tsu.cfgOf task))) ∧
  (∀ (s : State) (p : PairId) (cause : PairCause) (code : Nat) (x : Dev),
    (code, cause) ∈ [(1, PairCause.lockstep), (2, .eccProgram), (3, .eccX), (4, .eccY)] →
    ((s.dev.pstate p = 0 ∨ s.dev.pstate p = 4) → exec (.pairFault p cause) s = .next s ∧
      exec (.uncorrectableEcc (.pair p cause)) s = .next s) ∧
    (s.dev.pstate p ≠ 0 → s.dev.pstate p ≠ 4 → x = takePairs (tsuPairFault p (raise (pgCep p) 0 p ((showTask p .nothing
        ((recordFault p code 0 s.dev).setPair p { (recordFault p code 0 s.dev).pair p with running := .nothing, wasRun := false })).wr
          (pgCep p) CEP.PSTATE 4))) →
      (p.val ∉ s.dev.tsu.work → exec (.pairFault p cause) s = .next (s.withDev x) ∧
        exec (.uncorrectableEcc (.pair p cause)) s = .next (s.withDev x)) ∧
      (p.val ∈ s.dev.tsu.work → (∃ q ∈ x.tsu.work, x.healthy q = true) → exec (.pairFault p cause) s = .next (s.withDev x)) ∧
      (p.val ∈ s.dev.tsu.work → (∀ q ∈ x.tsu.work, x.healthy q = false) →
        exec (.pairFault p cause) s = .next (s.withDev (dropLantern 10 x))))) ∧
  (∀ (p : PairId) (task code : Nat) (d x : Dev), x = recordTrap p code (d.pair p).eng.pc.toNat task 0 d →
    (task < 288 → taskTrap p task code d = stopPair p 5 code x) ∧
    (288 ≤ task → taskTrap p task code d = endTask p false ((raise (pgCep p) 1 p x).wrS pgTSU task TSU.TRAPF 1)) ∧
    (x.rd (pgCep p) CEP.TCODE = code % 2 ^ CEP.TCODE.width ∧ x.rd (pgCep p) CEP.TTID = task % 2 ^ CEP.TTID.width ∧
      x.rd (pgCep p) CEP.TPC = (d.pair p).eng.pc.toNat % 2 ^ CEP.TPC.width)) ∧
  (∀ (s : State) (off : Nat), (s.dev.stage = 0 → exec (.uncorrectableEcc (.shared off)) s = .next s ∧
      exec (.uncorrectableEcc (.dram off)) s = .next s) ∧
    (s.dev.stage ≠ 0 → 0x30_0000 ≤ off → exec (.uncorrectableEcc (.shared off)) s = .next (s.withDev
      (raise pgGLB 2 2 ((s.dev.inc pgGLB GLB.SECC_UNCOR).wr pgGLB GLB.SUADR_ADR off)))) ∧
    (∀ n : AxisId, s.dev.stage ≠ 0 → off / 0x3000 = n.val → s.dev.configured n = true →
      ∃ t, exec (.uncorrectableEcc (.shared off)) s = .next t ∧ t.dev.axState n = axMOORED ∧
        t.dev.rd (pgAxp n) AXP.FCODE = 6 ∧ t.dev.rd (pgAxp n) AXP.FLATCH = 1) ∧
    (s.dev.stage ≠ 0 → (off < dramImage ∨ dramStaging ≤ off) → ∃ t, exec (.uncorrectableEcc (.dram off)) s = .next t ∧
      t.dev.on pgSTG STG.DRAMOK = false ∧ off ∈ t.dev.bad ∧
      t.dev.stage = s.dev.stage ∧ t.dev.rd pgGLB GLB.DUADR_ADR = off / 64 * 64 % 2 ^ GLB.DUADR_ADR.width) ∧
    (s.dev.stage ≠ 0 → dramImage ≤ off → off < dramStaging → ∃ x, exec (.uncorrectableEcc (.dram off)) s =
      .next (s.withDev (dropLantern 8 x)) ∧ off ∈ x.bad) ∧
    (spoilByte off s.dev).mem8 off ≠ s.dev.mem8 off) ∧
  (∀ (s : State) (p : PairId) (pass : Bool), ((s.dev.pstate p ≠ 5 ∨ s.dev.load.tested = false) →
      exec (.bistComplete p pass) s = .next s) ∧
    (∀ x : Dev, s.dev.pstate p = 5 → s.dev.load.tested = true →
      x = ((s.dev.wr (pgCep p) CEP.BISTOK 1).setPair p { s.dev.pair p with reviving := false }).wr (pgCep p) CEP.PSTATE 1 →
      ((s.dev.pair p).reviving = false → exec (.bistComplete p true) s = .next (s.withDev (raise (pgCep p) 4 p (showPairs x)))) ∧
      ((s.dev.pair p).reviving = true → p.val ∉ s.dev.tsu.spare → exec (.bistComplete p true) s = .next (s.withDev
        (raise (pgCep p) 4 p (showPairs { x with tsu := { s.dev.tsu with
          work := s.dev.tsu.work.filter fun q => q != p.val, spare := s.dev.tsu.spare ++ [p.val] } }))))) ∧
    (∀ x : Dev, s.dev.pstate p = 5 → s.dev.load.tested = true → x = raise (pgCep p) 0 p
        ((((s.dev.wr (pgCep p) CEP.BISTOK 0).setPair p { s.dev.pair p with reviving := false }).wr (pgCep p) CEP.PSTATE 4).wr
          (pgCep p) CEP.FCAUSE 6) →
      ((s.dev.pair p).reviving = true → exec (.bistComplete p false) s = .next (s.withDev
        (raise (pgCep p) 4 p (showPairs x)))) ∧
      ((s.dev.pair p).reviving = false → exec (.bistComplete p false) s = .next (s.withDev
        (raise (pgCep p) 4 p (showPairs (takePairs (tsuPairFault p x)))))))) ∧
  (∀ (s : State) (n : AxisId),
    (∀ (c : Nat) (v w : TableState) (mem : Option (List Host.Cell)) (x y : Dev), s.dev.checks = true → s.dev.repairCame n = true →
      s.dev.red.repairs.find? (fun x => x.1 == n.val) = some (n.val, c) → v = Config.stateOf (s.dev.blockCame n) →
      rerunFrom n ((if s.dev.endedNow n then s.dev.cyc else s.dev.cyc - 1) - c) (c + 1) v none
        (adoptCommit c n v (s.dev.inc pgRED RED.REPAIRS)) = (w, mem, x) →
      ((mem = none ∧ y = putTable n w x) ∨ ∃ m, mem = some m ∧ y = copyOwn n m (putTable n w x)) →
      exec (.repairInstall n (s.dev.blockCame n)) s = .next (s.withDev (y.redMap fun r => { r with
        repairs := r.repairs.filter fun x => x.1 != n.val, installed := (n.val, y.cyc) :: r.installed.filter fun x => x.1 != n.val,
        parts := r.parts.filter fun i => i / 4 != n.val }))) ∧
    (∀ blk : List (BitVec 64),
      (s.dev.checks = false ∨ s.dev.repairCame n = false ∨ blk ≠ s.dev.blockCame n ∨ ∀ c, (n.val, c) ∉ s.dev.red.repairs) →
      exec (.repairInstall n blk) s = .next s) ∧
    ((s.dev.role = roSTANDBY ∧ ∃ c, (n.val, c) ∈ s.dev.red.repairs ∧ c + 256 ≤ s.dev.cyc) → exec (.repairTimeout n) s =
      .next (s.withDev (s.dev.redMap fun r => { r with d8 := true, repairs := r.repairs.filter fun x => x.1 != n.val }))) ∧
    ((s.dev.role ≠ roSTANDBY ∨ ∀ c, (n.val, c) ∈ s.dev.red.repairs → s.dev.cyc < c + 256) →
      exec (.repairTimeout n) s = .next s) ∧
    (s.dev.red.replay = none → exec (.replayTask n) s = .next s) ∧
    (∀ x : Replay, s.dev.red.replay = some x →
      ((x.axis ≠ n.val ∨ x.own ≠ none ∨ s.dev.cyc ≤ x.cycle) → exec (.replayTask n) s = .next s) ∧
      (x.axis = n.val → x.own = none → x.cycle < s.dev.cyc →
        (s.dev.replayDigest n x.cycle = none →
          (s.dev.commanding = true → exec (.replayTask n) s = .next (s.withDev (pushDecision (.mismatch n x.cycle) s.dev))) ∧
          (s.dev.commanding = false → exec (.replayTask n) s = .next s)) ∧
        (∀ (g : Nat) (eq : Bool) (y : Dev), s.dev.replayDigest n x.cycle = some g → (eq = true ↔ g = x.digest) →
          y = s.dev.redMap (fun r => { r with replay := some { x with own := some eq } }) →
          (s.dev.commanding = true → exec (.replayTask n) s = .next (s.withDev (pushDecision (.verdict n x.cycle eq)
            (pushDecision (.mismatch n x.cycle) y)))) ∧
          (s.dev.commanding = false → s.dev.checks = true → exec (.replayTask n) s = .next (s.withDev
            (y.redMap fun r => { r with reply := r.reply ++ replyItem 1 n eq x.cycle }))) ∧
          (s.dev.commanding = false → s.dev.checks = false → exec (.replayTask n) s = .next (s.withDev y)))))) ∧
  (∀ (s : State) (equal : Bool), (s.dev.rd pgRED RED.RPH ≠ 1 → exec (.joinComplete equal) s = .next s) ∧
    (s.dev.rd pgRED RED.RPH = 1 →
      (s.dev.commanding = true → exec (.joinComplete true) s = .next (s.withDev (pushDecision (.resync 2 0)
        ((s.dev.wr pgRED RED.RPH 2).redMap fun r => { r with
          pass := 1, cursor := 0, captured := false, items := [], bulk := [], istart := 0 })))) ∧
      (s.dev.commanding = true → exec (.joinComplete false) s = .next (s.withDev (s.dev.wr pgRED RED.CONFMIS 1))) ∧
      (s.dev.role = roSILENT → s.dev.red.same = none → exec (.joinComplete equal) s = .next s) ∧
      (s.dev.role = roSILENT → s.dev.red.same = some true → exec (.joinComplete true) s =
        .next (s.withDev (s.dev.wr pgRED RED.CONFMIS 0))) ∧
      (∀ b, s.dev.role = roSILENT → s.dev.red.same = some b → (equal = false ∨ b = false) → exec (.joinComplete equal) s =
        .next (s.withDev (resyncFail 1 s.dev))))) ∧
  (∀ s : State,
    (s.dev.commanding = true → s.dev.rd pgRED RED.RPH = 2 → s.dev.bulkTotal ≤ s.dev.red.cursor →
      ((s.dev.red.dirty.length ≤ 16384 ∨ 3 ≤ s.dev.red.pass) → exec .bulkPassEnd s = .next (s.withDev
        (pushDecision (.resync 3 0) ((s.dev.wr pgRED RED.RPH 3).redMap fun r => { r with captured := false, w := 0 })))) ∧
      (16384 < s.dev.red.dirty.length → s.dev.red.pass < 3 → exec .bulkPassEnd s = .next (s.withDev
        (showLeft (s.dev.redMap fun r => { r with pass := r.pass + 1, cursor := 0 }))))) ∧
    ((s.dev.commanding = false ∨ s.dev.rd pgRED RED.RPH ≠ 2 ∨ s.dev.red.cursor < s.dev.bulkTotal) →
      exec .bulkPassEnd s = .next s) ∧
    (s.dev.rd pgRED RED.RPH ≠ 3 → exec .snapshotComplete s = .next s) ∧
    (s.dev.rd pgRED RED.RPH = 3 →
      (s.dev.role = roSILENT → s.dev.blocksCame = true →
        exec .snapshotComplete s = .next (s.withDev (s.dev.redMap fun r => { r with ready := true }))) ∧
      (s.dev.role = roSILENT → s.dev.blocksCame = false → exec .snapshotComplete s = .next s) ∧
      (s.dev.commanding = true → s.dev.red.captured = true → s.dev.red.bulk = [] → exec .snapshotComplete s =
        .next (s.withDev (pushDecision (.resync 4 0) (s.dev.wr pgRED RED.RPH 4)))) ∧
      (s.dev.commanding = true → (s.dev.red.captured = false ∨ s.dev.red.bulk ≠ []) →
        exec .snapshotComplete s = .next s)) ∧
    (s.dev.rd pgRED RED.RPH ≠ 4 → exec .replayCatchUp s = .next s) ∧
    (s.dev.rd pgRED RED.RPH = 4 →
      (s.dev.commanding = true → exec .replayCatchUp s = .next (s.withDev (pushDecision (.resync 5 0)
        ((s.dev.wr pgRED RED.RPH 5).redMap fun r => { r with clean := 0 })))) ∧
      (s.dev.role = roSILENT → s.dev.red.opened = none → exec .replayCatchUp s = .next (s.withDev
        ((s.dev.wr pgRED RED.RPH 5).redMap fun r => { r with clean := 0 }))) ∧
      (s.dev.role = roSILENT → s.dev.red.opened ≠ none → exec .replayCatchUp s = .next s)) ∧
    (s.dev.rd pgRED RED.RPH = 5 → 128 ≤ s.dev.red.clean → (s.dev.role = roSILENT ∨ s.dev.role = roALONE) →
      exec .checkComplete s = .next (s.withDev (s.dev.redMap fun r => { r with d10 := true }))) ∧
    ((s.dev.rd pgRED RED.RPH ≠ 5 ∨ s.dev.red.clean < 128 ∨ (s.dev.role ≠ roSILENT ∧ s.dev.role ≠ roALONE)) → exec .checkComplete s = .next s) ∧
    (s.dev.joining = true → s.dev.red.since + 160000000000 < s.dev.st →
      exec .resyncTimeout s = .next (s.withDev (resyncFail 6 s.dev))) ∧
    ((s.dev.joining = false ∨ s.dev.st ≤ s.dev.red.since + 160000000000) → exec .resyncTimeout s = .next s))

/-- A change of a line of a feedback channel is held until its filter has passed it, and one taken back before does
nothing; then it steps RAW and COUNT by the count mode and the direction, an illegal transition is counted in QERR
with its event, a Hall channel counts by its sectors; RAW moves by the step, COUNT follows with the hysteresis and the
soft limits. Line faults are shown, counted and end; a serial frame gives RAW and COUNT, a late or erroneous one SERR;
an index gives IPOS, its tag, the latch with LSRC = 1 and the check; a latch takes the edges of its pin, or of Z, that
it is armed for. A compare pulse ends when its time has passed, further firings follow in turn, two pulse times after
the one before; a step moves SPOS and leaves on the pins; an edge of a pulse input moves PCNT once its filter has
passed it. A demand, a discrepancy and a feedback mismatch trip the safe chain with causes 2, 3 and 4; the delayed STO
output falls when its timer ends. In KEEPER local feedback does not count. (spec/10_local_feedback_io.md.) -/
def Obligations.LocalIoAndSafeChain : Prop :=
  (∀ (s : State) (c : FbuId) (a b z : Bool) (t : Nat),
    (s.dev.stage = 0 → exec (.fbuCountStep c a b z t) s = .next s ∧ (∀ u, exec (.latchEdge c u t) s = .next s) ∧
      exec (.indexEdge c t) s = .next s ∧ (∀ delay bits, exec (.serialFrame c delay bits) s = .next s) ∧
      ∀ i, exec (.pulseInputEdge i a b t) s = .next s) ∧
    (s.dev.stage ≠ 0 → exec (.fbuCountStep c a b z t) s =
      .next (s.withDev (settleFbu c t (fbuPins c a b z t (settleFbu c t (s.dev.at t))))))) ∧
  (∀ (i t : Nat) (v level : Bool) (l : List Held),
    ((∀ h ∈ l, h.line ≠ i) → level = v → holdLine i v level t l = l) ∧
    ((∀ h ∈ l, h.line ≠ i) → level ≠ v → holdLine i v level t l = l ++ [⟨i, level, t⟩]) ∧
    ((∃ h ∈ l, h.line = i) → level = v → holdLine i v level t l = l.filter fun h => h.line != i) ∧
    ((∃ h ∈ l, h.line = i) → level ≠ v → holdLine i v level t l = l)) ∧
  (∀ (d : Dev) (c : FbuId) (now : Nat),
    ((∀ h ∈ (d.fbu c).held, now < h.t + d.filterOf c) → settleFbu c now d = d) ∧
    (∀ (h : Held) (x : FbuDyn), (d.fbu c).held = [h] → h.t + d.filterOf c ≤ now → x = d.fbu c →
      settleFbu c now d = countEdge c (if h.line = 0 then h.level else x.a) (if h.line = 1 then h.level else x.b)
        (if h.line = 2 then h.level else x.z) h.t (d.mapFbu c fun x => { x with held := [] }))) ∧
  (∀ (d : Dev) (c : FbuId) (a b z : Bool) (t : Nat) (m y : Dev),
    ((d.rd (pgFbu c) FBU.MODE = 1 ∧ m = incEdge c a b t d) ∨ (d.rd (pgFbu c) FBU.MODE = 2 ∧ m = hallEdge c a b z t d) ∨
      (d.rd (pgFbu c) FBU.MODE ≠ 1 ∧ d.rd (pgFbu c) FBU.MODE ≠ 2 ∧ m = d)) →
    y = m.mapFbu c (fun x => { x with a := a, b := b, z := z }) →
    (((d.fbu c).z = z ∨ y.on (pgFbu c) FBU.LSRC = false ∨ (d.rd (pgFbu c) FBU.MODE ≠ 1 ∧ d.rd (pgFbu c) FBU.MODE ≠ 2)) →
      countEdge c a b z t d = y) ∧
    ((d.fbu c).z ≠ z → y.on (pgFbu c) FBU.LSRC = true → (d.rd (pgFbu c) FBU.MODE = 1 ∨ d.rd (pgFbu c) FBU.MODE = 2) →
      countEdge c a b z t d = latchSource c z t y)) ∧
  (∀ (d : Dev) (c : FbuId) (a b : Bool) (t : Nat) (x : FbuDyn) (y : Dev), x = d.fbu c →
    y = d.mapFbu c (fun x => { x with
      edgeA := if x.a != a then some t else x.edgeA, edgeB := if x.b != b then some t else x.edgeB }) →
    ((x.closeEdge a b (tenNs + d.filterOf c) t = true ∨ stepOf (d.rd (pgFbu c) FBU.QM) x.a x.b a b = none) →
      incEdge c a b t d = raise (pgFbu c) 1 1 (y.inc (pgFbu c) FBU.QERR)) ∧
    (∀ k : Int, x.closeEdge a b (tenNs + d.filterOf c) t = false → stepOf (d.rd (pgFbu c) FBU.QM) x.a x.b a b = some k →
      (k = 0 → incEdge c a b t d = y) ∧ (k ≠ 0 → incEdge c a b t d = countStep c k t y))) ∧
  (∀ (d : Dev) (c : FbuId) (k : Int) (t : Nat),
    (countStep c k t d).rd (pgFbu c) FBU.RAW = toBits 32 (d.rdI (pgFbu c) FBU.RAW + if d.on (pgFbu c) FBU.DIR then -k else k) ∧
    (d.on (pgFbu c) FBU.HYS = false → d.on (pgFbu c) FBU.LIMEN = false → (d.fbu c).lost = 0 →
      (countStep c k t d).rd (pgFbu c) FBU.COUNT = (countStep c k t d).rd (pgFbu c) FBU.RAW)) ∧
  (∀ (s : State) (c : FbuId) (l : Fin 3) (x : Dev),
    exec (.lineFaultEnd c l) s = .next (s.withDev (showFerr c (s.dev.wrBit (pgFbu c) FBU.LF l false))) ∧
    (s.dev.on (pgFbu c) FBU.LFEN = true → lineUsed (s.dev.rd (pgFbu c) FBU.MODE) l = true →
      s.dev.rdBit (pgFbu c) FBU.LF l = false → x = showFerr c ((s.dev.wrBit (pgFbu c) FBU.LF l true).inc (pgFbu c) FBU.LFC) →
      exec (.lineFault c l) s = .next (s.withDev (raise (pgFbu c) 0 0 x))) ∧
    ((s.dev.on (pgFbu c) FBU.LFEN = false ∨ lineUsed (s.dev.rd (pgFbu c) FBU.MODE) l = false ∨
      s.dev.rdBit (pgFbu c) FBU.LF l = true) → exec (.lineFault c l) s = .next s)) ∧
  (∀ (s : State) (c : FbuId) (delay : Nat) (bits : BitVec 64),
    (s.dev.rd (pgFbu c) FBU.MODE ≠ 3 → exec (.serialFrame c delay bits) s = .next s) ∧
    (s.dev.stage ≠ 0 → s.dev.rd (pgFbu c) FBU.MODE = 3 → 2000 < delay → ∃ t, exec (.serialFrame c delay bits) s = .next t ∧
      t.dev.on (pgFbu c) FBU.SERR = true ∧ t.dev.on (pgFbu c) FBU.FERR = true ∧ t.dev.count c = s.dev.count c ∧
      t.dev.rd (pgFbu c) FBU.RAW = s.dev.rd (pgFbu c) FBU.RAW) ∧
    (s.dev.stage ≠ 0 → s.dev.rd (pgFbu c) FBU.MODE = 3 → delay ≤ 2000 → s.dev.on (pgFbu c) FBU.EBIT = false →
      (s.dev.fbu c).serial = none → ∃ t, exec (.serialFrame c delay bits) s = .next t ∧
        t.dev.on (pgFbu c) FBU.SERR = false ∧ t.dev.rd (pgFbu c) FBU.SDLY = min 255 (delay / 10) ∧
        (s.dev.on (pgFbu c) FBU.GRAY = false → t.dev.rd (pgFbu c) FBU.RAW =
          framePos bits.toNat (s.dev.rd (pgFbu c) FBU.POFS) (s.dev.rd (pgFbu c) FBU.PBITS) % 2 ^ 32))) ∧
  (∀ (s : State) (c : FbuId) (t : Nat) (x : Dev),
    (s.dev.rd (pgFbu c) FBU.MODE ≠ 1 → exec (.indexEdge c t) s = .next s) ∧
    (s.dev.stage ≠ 0 → s.dev.rd (pgFbu c) FBU.MODE = 1 → x = zActive c t (settleFbu c (t + s.dev.filterOf c) (s.dev.at t)) →
      exec (.indexEdge c t) s = .next (s.withDev (indexCheck c t
        (((((x.wr (pgFbu c) FBU.IPOS (x.rd (pgFbu c) FBU.COUNT)).wr64 (pgFbu c) 0 FBU.ITAGLO.off
          (x.tagOf CAL.TFBU t)).incW (pgFbu c) FBU.ISEEN).mapFbu c fun y =>
            { y with indexed := true })))))) ∧
  (∀ (d : Dev) (c : FbuId) (t : Nat) (x : Dev), x = (pinEdge (0x12 + 4 * c.val) true t d).mapFbu c (fun y =>
      { y with z := true, held := y.held.filter fun h => h.line != 2 }) →
    (((d.fbu c).z = true ∨ x.on (pgFbu c) FBU.LSRC = false) → zActive c t d = x) ∧
    ((d.fbu c).z = false → x.on (pgFbu c) FBU.LSRC = true → zActive c t d = latchSource c true t x)) ∧
  (∀ (s : State) (pin : FbuId) (rising : Bool) (t : Nat) (x : Dev), s.dev.stage ≠ 0 →
    x = (pinEdge (0x30 + pin.val) rising t (s.dev.at t)).mapFbu pin (fun y => { y with pin := rising }) →
    ((∀ c : FbuId, x.latchesOn c pin = false) → exec (.latchEdge pin rising t) s = .next (s.withDev x)) ∧
    (∀ c : FbuId, x.latchesOn c pin = true → (∀ c' : FbuId, c' ≠ c →
        (latchSource c rising t (settleFbu c (t + x.filterOf c) x)).latchesOn c' pin = false ∧ x.latchesOn c' pin = false) →
      exec (.latchEdge pin rising t) s = .next (s.withDev (latchSource c rising t (settleFbu c (t + x.filterOf c) x))))) ∧
  (∀ (d : Dev) (c : FbuId) (rising : Bool) (t e : Nat), e = d.rd (pgFbu c) FBU.LEDGE →
    ((e = 3 ∨ (e = 1 ∧ rising = true) ∨ (e = 2 ∧ rising = false)) →
      (d.on (pgFbu c) FBU.LAUTO = true → latchSource c rising t d = latchTake c t d) ∧
      (d.on (pgFbu c) FBU.LAUTO = false → d.on (pgFbu c) FBU.LARMD = true →
        latchSource c rising t d = latchTake c t (d.wr (pgFbu c) FBU.LARMD 0)) ∧
      (d.on (pgFbu c) FBU.LAUTO = false → d.on (pgFbu c) FBU.LARMD = false →
        latchSource c rising t d = d.inc (pgFbu c) FBU.LMISS)) ∧
    ((e = 0 ∨ (e = 1 ∧ rising = false) ∨ (e = 2 ∧ rising = true)) → latchSource c rising t d = d)) ∧
  (∀ (s : State) (pin : FbuId) (level : Bool) (x : Dev),
    x = pinEdge (0x30 + pin.val) level s.dev.st (s.dev.mapFbu pin fun y => { y with pin := level }) →
    (x.on (pgFbu pin) FBU.LIEN = true → exec (.latchLevelDebounce pin level) s =
      .next (s.withDev (x.mapFbu pin fun y => { y with lat := level }))) ∧
    (x.on (pgFbu pin) FBU.LIEN = false → exec (.latchLevelDebounce pin level) s = .next (s.withDev x))) ∧
  (∀ (s : State) (c : FbuId) (u : Fin 2) (t : Nat) (y : Compare), y = (s.dev.fbu c).cmp[u] →
    (s.dev.rdC c u FBU.CACT = 0 → y.active = true → y.last + s.dev.pulseLsb c u ≤ t → exec (.comparePulseEnd c u t) s =
      .next (s.withDev (driveCmp c u false (y.last + s.dev.pulseLsb c u) (s.dev.at t)))) ∧
    ((s.dev.rdC c u FBU.CACT ≠ 0 ∨ y.active = false ∨ t < y.last + s.dev.pulseLsb c u) →
      exec (.comparePulseEnd c u t) s = .next s) ∧
    (((∃ q0 q1 : Int, y.span = some (q0, q1) ∧ s.dev.passes c u q0 q1 = true) ∨
        (s.dev.rdC c u FBU.BPOL = 1 ∧ s.dev.cmpBehind c u t = true)) → s.dev.cmpArmed c u = true →
      s.dev.rdC c u FBU.CMODE = 2 → y.last + 2 * s.dev.pulseLsb c u ≤ t → exec (.compareFiringInTurn c u t) s =
        .next (s.withDev (fireCmp c u (y.last + 2 * s.dev.pulseLsb c u) (s.dev.at t)))) ∧
    ((s.dev.cmpArmed c u = false ∨ s.dev.rdC c u FBU.CMODE ≠ 2 ∨ t < y.last + 2 * s.dev.pulseLsb c u ∨
      ((∀ q0 q1 : Int, y.span = some (q0, q1) → s.dev.passes c u q0 q1 = false) ∧
        (s.dev.rdC c u FBU.BPOL ≠ 1 ∨ s.dev.cmpBehind c u t = false))) →
      exec (.compareFiringInTurn c u t) s = .next s)) ∧
  (∀ (s : State) (n : StepId) (t : Nat) (x : StepDyn), x = s.dev.stp n →
    (s.dev.on (pgSgc n) SGC.SEN = true → x.i < x.m → ∃ t', exec (.stepPulse n t) s = .next t' ∧
      t'.dev.rd (pgSgc n) SGC.SPOS = toBits 32 (s.dev.rdI (pgSgc n) SGC.SPOS + if x.neg then -1 else 1) ∧
      (t'.dev.stp n).i = x.i + 1 ∧
      (x.i + 1 = x.m → t'.dev.on (pgSgc n) SGC.RUN = false) ∧
      ((∀ e, e < 64 → s.dev.rd pgCAP (CAP.SRC.nth 4 e) ≠ 0x50 + n.val) → t'.dev.mem = s.dev.mem ∧
        ∃ at', t'.dev.out = .step n (x.neg != s.dev.on (pgSgc n) SGC.SDINV) (!s.dev.on (pgSgc n) SGC.SPINV) at' :: s.dev.out)) ∧
    ((s.dev.on (pgSgc n) SGC.SEN = false ∨ x.m ≤ x.i) → exec (.stepPulse n t) s = .next s)) ∧
  (∀ (s : State) (i : Fin 4) (a b : Bool) (t : Nat) (k : Int), s.dev.stage ≠ 0 → (s.dev.pulseIn i).held = [] →
    k = pulseStep (s.dev.rd pgSGU (SGU.PMODE.nth 0x10 i)) (s.dev.pulseIn i).a (s.dev.pulseIn i).b a b →
    ∃ t', exec (.pulseInputEdge i a b t) s = .next t' ∧
      ((∀ e, e < 64 → s.dev.rd pgCAP (CAP.SRC.nth 4 e) ≠ 0x38 + 2 * i.val ∧
        s.dev.rd pgCAP (CAP.SRC.nth 4 e) ≠ 0x39 + 2 * i.val) → t'.dev.mem = s.dev.mem) ∧
      (s.dev.rd pgSGU (SGU.FILT.nth 0x10 i) = 0 → (t'.dev.pulseIn i).a = a ∧ (t'.dev.pulseIn i).b = b ∧
        t'.dev.rd pgSGU (SGU.PCNT.nth 0x10 i) = toBits 32 (s.dev.rdI pgSGU (SGU.PCNT.nth 0x10 i) +
          if s.dev.on pgSGU (SGU.PDIR.nth 0x10 i) then -k else k)) ∧
      (s.dev.rd pgSGU (SGU.FILT.nth 0x10 i) ≠ 0 → (t'.dev.pulseIn i).a = (s.dev.pulseIn i).a ∧
        (t'.dev.pulseIn i).b = (s.dev.pulseIn i).b ∧
        t'.dev.rd pgSGU (SGU.PCNT.nth 0x10 i) = s.dev.rd pgSGU (SGU.PCNT.nth 0x10 i) ∧
        (t'.dev.pulseIn i).held = holdLine 1 (s.dev.pulseIn i).b b t (holdLine 0 (s.dev.pulseIn i).a a t []))) ∧
  (∀ (s : State) (n : Fin 4) (a b : Bool) (x : Dev), x = setSafePins n a b s.dev →
    exec (.safeInputOk n a b) s = .next (s.withDev x) ∧
    (x.sien n = true → (x.stopA n = true ∨ x.stopB n = true) →
      exec (.safeInputDemand n a b) s = .next (s.withDev (safTrip 2 SAF.DEMAND n x))) ∧
    ((x.sien n = false ∨ (x.stopA n = false ∧ x.stopB n = false)) → exec (.safeInputDemand n a b) s = .next (s.withDev x)) ∧
    (s.dev.sien n = true → s.dev.stopA n ≠ s.dev.stopB n → exec (.safeDiscrepancy n) s = .next (s.withDev
      (safTrip 3 SAF.DISCL n (raise pgSAF 2 2 (s.dev.safeMap fun y => { y with disc := y.disc.set n true }))))) ∧
    ((s.dev.sien n = false ∨ s.dev.stopA n = s.dev.stopB n) → exec (.safeDiscrepancy n) s = .next s) ∧
    exec (.stoFbMismatch n) s = .next (s.withDev (safTrip 4 SAF.STOFBL n (raise pgSAF 3 3
      ((s.dev.safeMap fun y => { y with fbBad := y.fbBad.set n true }).wrBit pgSAF SAF.STOFB n
        (!s.dev.rdBit pgSAF SAF.STOOUT n))))) ∧
    exec (.stoFbMatch n) s = .next (s.withDev ((s.dev.safeMap fun y => { y with fbBad := y.fbBad.set n false }).wrBit pgSAF
      SAF.STOFB n (s.dev.rdBit pgSAF SAF.STOOUT n))) ∧
    (s.dev.on pgSAF SAF.HOLD = true → s.dev.safe.timer[n] = true → exec (.stoDelayExpire n) s = .next (s.withDev
      (setSto n false (s.dev.safeMap fun y => { y with timer := y.timer.set n false })))) ∧
    ((s.dev.on pgSAF SAF.HOLD = false ∨ s.dev.safe.timer[n] = false) → exec (.stoDelayExpire n) s = .next s)) ∧
  (∀ (d : Dev) (cause : Nat) (n : Fin 4), cause < 8 → (safTrip cause SAF.DEMAND n d).on pgSAF SAF.HOLD = true ∧
    (safTrip cause SAF.DEMAND n d).rdBit pgSAF SAF.DEMAND n = true ∧
    (d.on pgSAF SAF.HOLD = false → (safTrip cause SAF.DEMAND n d).rd pgSAF SAF.CAUSE = cause) ∧
    (d.on pgSAF SAF.HOLD = true → (safTrip cause SAF.DEMAND n d).rd pgSAF SAF.CAUSE = d.rd pgSAF SAF.CAUSE))

/-- A trigger of the selected source makes a scan due after its delay or pending, a second pending one is lost; a due
or pending scan of an idle core starts with the registers of its start in its first entry; settling, aperture and
rundown follow one another, each when its time has passed, and the rundown leaves the corrected, saturated result with
its flags, an overload leaves full scale with OVR and the time integrated, and the dump after it ends; a burn-out test
that reads high sets OW; a sleeping core wakes and is then idle. A crossing gives the line period and, after eight
steady ones, LOCK; 25 ms without one lose it. A fault of the die puts every core OFF until it is over. An edge to
another level of an edge probe is offered to the capture units, AUTO triggers after its time, a closed unit reserves
its next record, or stops with an overflow mark, and rearms once at most seven records are outstanding, and THROTTLE
posts its event. Each changes nothing where its condition does not hold. (spec/11_measurement_front_end.md,
spec/12_capture_engine.md.) -/
def Obligations.MeasurementAndCapture : Prop :=
  (∀ (s : State) (c : CoreId) (t : Nat),
    (s.dev.trigAt c t = true → s.dev.mfNow c MFC.CONT = 0 → exec (.mfcTrigger c t) s =
      .next (s.withDev (mfcTake c (predictable (s.dev.mfNow c MFC.TSRC)) t (s.dev.at t)))) ∧
    ((s.dev.trigAt c t = false ∨ s.dev.mfNow c MFC.CONT ≠ 0) → exec (.mfcTrigger c t) s = .next s)) ∧
  (∀ (d : Dev) (c : CoreId) (own : Bool) (t : Nat) (x : Dev),
    x = d.mapCore c (fun x => { x with due := x.due ++ [t + d.mf c MFC.TDLY * 160] }) →
    (d.cstate c = 0 → mfcTake c own t d = d) ∧
    (4 ≤ d.cstate c → mfcTake c own t d = pendScan c (passDues c t d)) ∧
    (d.cstate c = 3 → mfcTake c false t d = pendScan c d ∧ mfcTake c true t d = x) ∧
    ((d.cstate c = 1 ∨ d.cstate c = 2) → (d.on (pgMfc c) MFC.PEND = false → mfcTake c own t d = x) ∧
      (d.on (pgMfc c) MFC.PEND = true → mfcTake c own t d = pendScan c d)) ∧
    (d.on (pgMfc c) MFC.PEND = false → pendScan c d = d.wr (pgMfc c) MFC.PEND 1) ∧
    (d.on (pgMfc c) MFC.PEND = true → pendScan c d = raise (pgMfc c) 3 0xFF (d.inc (pgMfc c) MFC.TRGLOST)) ∧
    ((∀ t0 ∈ (d.core c).due, t ≤ t0) → passDues c t d = d)) ∧
  (∀ (s : State) (c : CoreId) (t : Nat),
    (∀ (t0 slack : Nat) (l : List Nat), s.dev.cstate c = 1 → (s.dev.core c).due = t0 :: l → t0 ≤ t + 320 →
      slack = (if predictable (s.dev.mf c MFC.TSRC) then 320 else 800) → exec (.scanStart c t) s = .next (s.withDev
        (beginEntry c 0 t ((adoptScan c (s.dev.at t)).mapCore c fun x => { x with
          due := l, late := x.late || decide (t0 + slack < t), aborted := false })))) ∧
    (s.dev.cstate c = 1 → (∀ t0 ∈ (s.dev.core c).due.head?, t + 320 < t0) → s.dev.on (pgMfc c) MFC.PEND = true →
      exec (.scanStart c t) s = .next (s.withDev (beginEntry c 0 t (((adoptScan c (s.dev.at t)).wr (pgMfc c) MFC.PEND 0).mapCore c
        fun x => { x with late := true, aborted := false })))) ∧
    ((s.dev.cstate c ≠ 1 ∨ ((∀ t0 ∈ (s.dev.core c).due.head?, t + 320 < t0) ∧ s.dev.on (pgMfc c) MFC.PEND = false)) →
      exec (.scanStart c t) s = .next s) ∧
    (s.dev.cstate c = 4 → (s.dev.core c).phase = 0 →
      (s.dev.core c).since + s.dev.chanScan c MFC.SETTLE * 16000 ≤ t + 160 → ∃ t', exec (.settleEnd c t) s = .next t' ∧
        (t'.dev.core c).phase = 1 ∧ (t'.dev.core c).t0 = t ∧ (t'.dev.core c).capt = s.dev.aperture c ∧
        t'.dev.regs = s.dev.regs ∧ t'.dev.mem = s.dev.mem) ∧
    ((s.dev.cstate c ≠ 4 ∨ (s.dev.core c).phase ≠ 0 ∨
      t + 160 < (s.dev.core c).since + s.dev.chanScan c MFC.SETTLE * 16000) → exec (.settleEnd c t) s = .next s) ∧
    (s.dev.cstate c = 4 → (s.dev.core c).phase = 1 → (s.dev.core c).t0 + (s.dev.core c).capt * 16 ≤ t + 160 →
      exec (.apertureEnd c t) s = .next (s.withDev ((s.dev.at t).mapCore c fun x => { x with phase := 2, since := t }))) ∧
    ((s.dev.cstate c ≠ 4 ∨ (s.dev.core c).phase ≠ 1 ∨ t + 160 < (s.dev.core c).t0 + (s.dev.core c).capt * 16) →
      exec (.apertureEnd c t) s = .next s)) ∧
  (∀ (s : State) (c : CoreId) (code : BitVec 25) (t : Nat) (v : Int) (x : Dev),
    v = correctCode (s.dev.core c).gain (s.dev.core c).offs code.toInt →
    ((s.dev.cstate c ≠ 4 ∨ (s.dev.core c).phase ≠ 2 ∨ t < (s.dev.core c).since + 4 * 16000) →
      exec (.rundownComplete c code t) s = .next s) ∧
    (s.dev.cstate c = 4 → (s.dev.core c).phase = 2 → (s.dev.core c).since + 4 * 16000 ≤ t → v = satS 24 v →
      x = endConversion c (writeResult c (some v) false false false (some (s.dev.core c).capt) (s.dev.at t)) →
      (x.bomode c = 2 → exec (.rundownComplete c code t) s = .next (s.withDev (x.mapCore c fun y =>
        { y with testing := true, since := t, burn := x.chanScan c MFC.BOCUR + 1 }))) ∧
      (x.bomode c ≠ 2 → exec (.rundownComplete c code t) s = .next (s.withDev (nextEntry c t x)))) ∧
    (s.dev.cstate c = 4 → (s.dev.core c).phase = 2 → (s.dev.core c).since + 4 * 16000 ≤ t → v ≠ satS 24 v → ∃ t', exec (.rundownComplete c code t) s = .next t' ∧
      t'.dev.cstate c = 5 ∧ (t'.dev.core c).phase = 3 ∧ t'.pending = s.pending)) ∧
  (∀ (s : State) (c : CoreId) (positive : Bool) (t : Nat),
    ((s.dev.cstate c ≠ 4 ∨ (s.dev.core c).phase ≠ 1) → exec (.overloadTrip c positive t) s = .next s) ∧
    (s.dev.cstate c = 4 → (s.dev.core c).phase = 1 → ∃ t', exec (.overloadTrip c positive t) s = .next t' ∧
      t'.dev.cstate c = 5 ∧ (t'.dev.core c).phase = 3 ∧ t'.pending = s.pending) ∧
    ((s.dev.cstate c ≠ 5 ∨ t < (s.dev.core c).since + max 300 (s.dev.mfScan c MFC.DUMPT) * 16000) →
      exec (.dumpComplete c t) s = .next s) ∧
    (s.dev.cstate c = 5 → (s.dev.core c).since + max 300 (s.dev.mfScan c MFC.DUMPT) * 16000 ≤ t →
      exec (.dumpComplete c t) s = .next (s.withDev
        (nextEntry c t ((s.dev.at t).mapCore c fun x => { x with testing := false, burn := 0 })))) ∧
    (s.dev.cstate c = 2 → predictable (s.dev.mf c MFC.TSRC) = true → s.dev.nextDue c t ≤ t + 200 * 16000 →
      exec (.wakeStart c t) s = .next (s.withDev ((s.dev.at t).wr (pgMfc c) MFC.CSTATE 3))) ∧
    (s.dev.cstate c = 2 → predictable (s.dev.mf c MFC.TSRC) = false → (s.dev.core c).due ≠ [] →
      exec (.wakeStart c t) s = .next (s.withDev ((s.dev.at t).wr (pgMfc c) MFC.CSTATE 3))) ∧
    ((s.dev.cstate c ≠ 2 ∨ (predictable (s.dev.mf c MFC.TSRC) = true ∧ t + 200 * 16000 < s.dev.nextDue c t) ∨
      (predictable (s.dev.mf c MFC.TSRC) = false ∧ (s.dev.core c).due = [])) → exec (.wakeStart c t) s = .next s) ∧
    (∀ slow : Bool, s.dev.cstate c = 3 → (slow = true ↔ ∃ t0 ∈ (s.dev.core c).due.head?, t0 < t) →
      exec (.wakeComplete c t) s = .next (s.withDev
        (((s.dev.at t).wr (pgMfc c) MFC.CSTATE 1).mapCore c fun x => { x with late := slow }))) ∧
    (s.dev.cstate c ≠ 3 → exec (.wakeComplete c t) s = .next s)) ∧
  (∀ (s : State) (c : CoreId) (high : Bool) (t : Nat) (x : Dev),
    (((s.dev.core c).testing = false ∨ t < (s.dev.core c).since + 50 * 16000) →
      exec (.burnoutTestComplete c high t) s = .next s) ∧
    ((s.dev.core c).testing = true → (s.dev.core c).since + 50 * 16000 ≤ t → x = (s.dev.at t).mapCore c (fun y => { y with testing := false, burn := 0 }) →
      (s.dev.cstate c = 4 → exec (.burnoutTestComplete c false t) s = .next (s.withDev (nextEntry c t x))) ∧
      (s.dev.cstate c ≠ 4 → exec (.burnoutTestComplete c false t) s = .next (s.withDev x)) ∧
      (s.dev.cstate c ≠ 4 → (s.dev.entryNow c).2 = false → exec (.burnoutTestComplete c true t) s = .next (s.withDev
        (raise (pgMfc c) 1 (s.dev.entryNow c).1 (imageResult c (s.dev.entryNow c).1
          (x.wr (pgMfc c) (MFC.OW.nth 0x20 (s.dev.entryNow c).1) 1))))))) ∧
  (∀ (s : State) (t : Nat) (x : Dev),
    ((s.dev.stage = 0 ∨ s.dev.on pgMFE MFE.LEN = false) → exec (.lineCrossing t) s = .next s) ∧
    (s.dev.stage ≠ 0 → s.dev.on pgMFE MFE.LEN = true →
      (s.dev.mfe.crossing = none → exec (.lineCrossing t) s = .next (s.withDev
        { s.dev.at t with mfe := { s.dev.mfe with crossing := some (t / 4 * 4), periods := [] } })) ∧
      (∀ t0, s.dev.mfe.crossing = some t0 →
        (periodOk (t / 4 * 4 - t0) = false → exec (.lineCrossing t) s = .next (s.withDev (loseLine
          { s.dev.at t with mfe := { s.dev.mfe with crossing := some (t / 4 * 4), periods := [] } }))) ∧
        (∀ l, periodOk (t / 4 * 4 - t0) = true → l = ((t / 4 * 4 - t0) :: s.dev.mfe.periods).take 9 →
          x = { s.dev.at t with mfe := { s.dev.mfe with crossing := some (t / 4 * 4), periods := l } } →
          (s.dev.on pgMFE MFE.LOCK = true → exec (.lineCrossing t) s =
            .next (s.withDev (setLper ((l.take 8).foldl (· + ·) 0 / 128) x))) ∧
          (s.dev.on pgMFE MFE.LOCK = false → steadyRun 8 l = true → exec (.lineCrossing t) s = .next (s.withDev
            (raise pgMFE 0 0 ((setLper ((l.take 8).foldl (· + ·) 0 / 128) x).wr pgMFE MFE.LOCK 1)))) ∧
          (s.dev.on pgMFE MFE.LOCK = false → steadyRun 8 l = false → exec (.lineCrossing t) s = .next (s.withDev x))))) ∧
    (s.dev.mfe.crossing = none → exec (.lineLost t) s = .next s) ∧
    (∀ t0, s.dev.mfe.crossing = some t0 →
      ((s.dev.stage = 0 ∨ t < t0 + 25000 * 16000) → exec (.lineLost t) s = .next s) ∧
      (s.dev.stage ≠ 0 → t0 + 25000 * 16000 ≤ t → exec (.lineLost t) s = .next (s.withDev (loseLine
        { s.dev.at t with mfe := { s.dev.mfe with crossing := none, periods := [] } }))))) ∧
  (∀ (s : State) (bits : BitVec 5),
    ((s.dev.stage = 0 ∨ s.dev.dieFitted = false ∨ bits = 0) → exec (.mfeDieFault bits) s = .next s) ∧
    (s.dev.stage ≠ 0 → s.dev.dieFitted = true → bits ≠ 0 → ∃ t, exec (.mfeDieFault bits) s = .next t ∧
      t.dev.mfe.fault = true ∧ ∀ c : CoreId, t.dev.cstate c = 0) ∧
    ((s.dev.stage = 0 ∨ s.dev.mfe.fault = false) → exec .mfeFaultRecovery s = .next s) ∧
    (s.dev.stage ≠ 0 → s.dev.mfe.fault = true → ∃ t, exec .mfeFaultRecovery s = .next t ∧ t.dev.mfe.fault = false ∧
      t.dev.rd pgMFE ⟨MFE.P5OK.off, 0, 5⟩ = 31 ∧
      ∀ c : CoreId, s.dev.on (pgMfc c) HDR.EN = true → s.dev.cstate c = 0 → s.dev.on pgCAL CAL.VBUSY = false →
        t.dev.cstate c = 1)) ∧
  (∀ (s : State) (e : BitVec 6) (rising : Bool) (u : CapId) (t : Nat) (x : Dev), x = s.dev.at t →
    (s.dev.stage = 0 → exec (.edgeProbeEdge e rising t) s = .next s ∧ exec .throttle s = .next s) ∧
    (s.dev.edgeLevel e.toNat = rising → exec (.edgeProbeEdge e rising t) s = .next s) ∧
    (s.dev.stage ≠ 0 → s.dev.edgeLevel e.toNat ≠ rising →
      (edgeSrcOn (s.dev.rd pgCAP (CAP.SRC.nth 4 e.toNat)) = false → exec (.edgeProbeEdge e rising t) s = .next (s.withDev x)) ∧
      (edgeSrcOn (s.dev.rd pgCAP (CAP.SRC.nth 4 e.toNat)) = true → exec (.edgeProbeEdge e rising t) s =
        .next (s.withDev (capEdge e.toNat rising (s.dev.tagOf (trimGroup (s.dev.rd pgCAP (CAP.SRC.nth 4 e.toNat))) t) x)))) ∧
    (s.dev.stage ≠ 0 → exec .throttle s = .next (s.withDev (raise pgCAP 0 0 s.dev))) ∧
    (s.dev.rd (pgCapu u) CAPU.MODE = 2 → s.dev.rd (pgCapu u) CAPU.USTATE = 1 →
      (s.dev.capUnit u).armedAt + min 60000 (max 1 (s.dev.rd (pgCapu u) CAPU.ATMO)) * 16000000 ≤ x.st →
      exec (.autoTimeout u t) s = .next (s.withDev (capTrigger raise u x.st 2 x))) ∧
    ((s.dev.rd (pgCapu u) CAPU.MODE ≠ 2 ∨ s.dev.rd (pgCapu u) CAPU.USTATE ≠ 1 ∨
      x.st < (s.dev.capUnit u).armedAt + min 60000 (max 1 (s.dev.rd (pgCapu u) CAPU.ATMO)) * 16000000) →
      exec (.autoTimeout u t) s = .next (s.withDev x)) ∧
    (s.dev.rd (pgCapu u) CAPU.USTATE = 3 → (s.dev.capUnit u).closedAt + s.dev.rd (pgCapu u) CAPU.HOLD * 16000 ≤ x.st →
      ((s.dev.capUnit u).reserved = false → capFits u x = false →
        exec (.rearmDone u t) s = .next (s.withDev (capOverflow u 1 x))) ∧
      (∀ y : Dev, ((s.dev.capUnit u).reserved = true ∧ y = x) ∨
          ((s.dev.capUnit u).reserved = false ∧ capFits u x = true ∧ y = capReserve u x) →
        (y.rd (pgCapu u) CAPU.NPP ≤ 7 → exec (.rearmDone u t) s = .next (s.withDev (capArmed u y))) ∧
        (7 < y.rd (pgCapu u) CAPU.NPP → exec (.rearmDone u t) s = .next (s.withDev y)))) ∧
    ((s.dev.rd (pgCapu u) CAPU.USTATE ≠ 3 ∨ x.st < (s.dev.capUnit u).closedAt + s.dev.rd (pgCapu u) CAPU.HOLD * 16000) →
      exec (.rearmDone u t) s = .next (s.withDev x)))
end

