-- ==== Sys2Proof/Laws/Bits.lean ====
section
/-! SUPPORT. Bit fields: what a field reads after it, or a field beside it, was written. -/
namespace Sys2Proof.Machine

/-- A number cut at bits `l` and `l + w`: high part, field, low part. -/
theorem cut_bits (x l w : Nat) :
    x = (x / 2 ^ (l + w)) * 2 ^ (l + w) + bitsOf x l w * 2 ^ l + x % 2 ^ l := by
  unfold bitsOf
  have h1 := Nat.div_add_mod x (2 ^ l)
  have h2 := Nat.div_add_mod (x / 2 ^ l) (2 ^ w)
  rw [Nat.div_div_eq_div_mul, ← pow_add] at h2
  calc x = 2 ^ l * (x / 2 ^ l) + x % 2 ^ l := h1.symm
    _ = 2 ^ l * (2 ^ w * (x / 2 ^ (l + w)) + x / 2 ^ l % 2 ^ w) + x % 2 ^ l := by rw [h2]
    _ = _ := by rw [pow_add]; ring

/-- What `putBits` builds. -/
theorem putBits_eq (x l w v : Nat) :
    putBits x l w v = (x / 2 ^ (l + w)) * 2 ^ (l + w) + (v % 2 ^ w) * 2 ^ l + x % 2 ^ l := by
  have h := cut_bits x l w
  unfold putBits
  omega

theorem bitsOf_lt (x l w : Nat) : bitsOf x l w < 2 ^ w := Nat.mod_lt _ (by positivity)

/-- A field is the shift of its low bits: the parts of a number cut at `l` and `l + w`. -/
theorem parts_div (h f lo l w : Nat) (hf : f < 2 ^ w) (hl : lo < 2 ^ l) :
    (h * 2 ^ (l + w) + f * 2 ^ l + lo) / 2 ^ l = h * 2 ^ w + f := by
  have e : h * 2 ^ (l + w) + f * 2 ^ l + lo = lo + 2 ^ l * (h * 2 ^ w + f) := by rw [pow_add]; ring
  rw [e, Nat.add_mul_div_left _ _ (by positivity), Nat.div_eq_of_lt hl, Nat.zero_add]

theorem bitsOf_putBits_same (x l w v : Nat) : bitsOf (putBits x l w v) l w = v % 2 ^ w := by
  have hv : v % 2 ^ w < 2 ^ w := Nat.mod_lt _ (by positivity)
  have hx : x % 2 ^ l < 2 ^ l := Nat.mod_lt _ (by positivity)
  rw [putBits_eq, bitsOf, parts_div _ _ _ _ _ hv hx, Nat.mul_add_mod_of_lt' hv]
where
  Nat.mul_add_mod_of_lt' {a b c : Nat} (h : c < b) : (a * b + c) % b = c := by
    rw [Nat.mul_comm, Nat.mul_add_mod, Nat.mod_eq_of_lt h]

/-- A field below the one written keeps its value. -/
theorem bitsOf_putBits_below (x l w v l' w' : Nat) (h : l' + w' ≤ l) :
    bitsOf (putBits x l w v) l' w' = bitsOf x l' w' := by
  have key : ∀ y, y % 2 ^ l = x % 2 ^ l → bitsOf y l' w' = bitsOf x l' w' := by
    intro y hy
    have cut : ∀ z, bitsOf z l' w' = bitsOf (z % 2 ^ l) l' w' := by
      intro z
      unfold bitsOf
      rw [← Nat.mod_mul_right_div_self, ← Nat.mod_mul_right_div_self, ← pow_add,
        Nat.mod_mod_of_dvd _ (Nat.pow_dvd_pow 2 h)]
    rw [cut y, cut x, hy]
  apply key
  rw [putBits_eq]
  have e : x / 2 ^ (l + w) * 2 ^ (l + w) + v % 2 ^ w * 2 ^ l + x % 2 ^ l
      = 2 ^ l * (x / 2 ^ (l + w) * 2 ^ w + v % 2 ^ w) + x % 2 ^ l := by rw [pow_add]; ring
  rw [e, Nat.mul_add_mod, Nat.mod_mod]

/-- A field above the one written keeps its value. -/
theorem bitsOf_putBits_above (x l w v l' w' : Nat) (h : l + w ≤ l') :
    bitsOf (putBits x l w v) l' w' = bitsOf x l' w' := by
  have hv : v % 2 ^ w < 2 ^ w := Nat.mod_lt _ (by positivity)
  have hx : x % 2 ^ l < 2 ^ l := Nat.mod_lt _ (by positivity)
  have top : putBits x l w v / 2 ^ (l + w) = x / 2 ^ (l + w) := by
    rw [putBits_eq, pow_add, ← Nat.div_div_eq_div_mul, ← pow_add, parts_div _ _ _ _ _ hv hx, Nat.mul_comm,
      Nat.mul_add_div (by positivity), Nat.div_eq_of_lt hv, Nat.add_zero]
  obtain ⟨k, rfl⟩ := Nat.exists_eq_add_of_le h
  unfold bitsOf
  rw [pow_add 2 (l + w) k, ← Nat.div_div_eq_div_mul, ← Nat.div_div_eq_div_mul, top]

/-- A field put into a number below `2 ^ n` leaves it below `2 ^ n`. -/
theorem putBits_lt (x l w v n : Nat) (hx : x < 2 ^ n) (h : l + w ≤ n) : putBits x l w v < 2 ^ n := by
  have hv : v % 2 ^ w < 2 ^ w := Nat.mod_lt _ (by positivity)
  have hl : x % 2 ^ l < 2 ^ l := Nat.mod_lt _ (by positivity)
  obtain ⟨k, rfl⟩ := Nat.exists_eq_add_of_le h
  have hq : x / 2 ^ (l + w) < 2 ^ k := by
    rw [Nat.div_lt_iff_lt_mul (by positivity), ← pow_add]; rwa [Nat.add_comm k]
  rw [putBits_eq, pow_add 2 (l + w) k]
  have h1 : v % 2 ^ w * 2 ^ l + x % 2 ^ l < 2 ^ (l + w) := by
    calc v % 2 ^ w * 2 ^ l + x % 2 ^ l < v % 2 ^ w * 2 ^ l + 2 ^ l := by omega
      _ = (v % 2 ^ w + 1) * 2 ^ l := by ring
      _ ≤ 2 ^ w * 2 ^ l := Nat.mul_le_mul_right _ hv
      _ = 2 ^ (l + w) := by rw [pow_add]; ring
  calc _ < x / 2 ^ (l + w) * 2 ^ (l + w) + 2 ^ (l + w) := by omega
    _ = (x / 2 ^ (l + w) + 1) * 2 ^ (l + w) := by ring
    _ ≤ 2 ^ k * 2 ^ (l + w) := Nat.mul_le_mul_right _ hq
    _ = _ := by ring

end Sys2Proof.Machine
end

