-- ==== Sys2Proof/Laws/Host.lean ====
section
/-! SUPPORT. Laws of host accesses: the page classes, and the way of a command from its write of PCMD to its page. -/
namespace Sys2Proof.Machine

theorem clsOf_glb : clsOf pgGLB = some .glb := rfl
theorem clsOf_stg : clsOf pgSTG = some .stg := rfl
theorem clsOf_tim : clsOf pgTIM = some .tim := rfl
theorem clsOf_evt : clsOf pgEVT = some .evt := rfl
theorem clsOf_hif : clsOf pgHIF = some .hif := rfl
theorem clsOf_spm : clsOf pgSPM = some .spm := rfl
theorem clsOf_cal : clsOf pgCAL = some .cal := rfl
theorem clsOf_otp : clsOf pgOTP = some .otp := rfl
theorem clsOf_saf : clsOf pgSAF = some .saf := rfl
theorem clsOf_red : clsOf pgRED = some .red := rfl
theorem clsOf_tsu : clsOf pgTSU = some .tsu := rfl
theorem clsOf_dmc : clsOf pgDMC = some .dmc := rfl
theorem clsOf_ring (r : RingId) : clsOf (pgRing r) = some .ring := by revert r; decide
theorem clsOf_sys : clsOf pgSYS = some .sys := rfl
theorem clsOf_cep (p : PairId) : clsOf (pgCep p) = some .cep := by revert p; decide
theorem clsOf_mfe : clsOf pgMFE = some .mfe := rfl
theorem clsOf_mfc (c : CoreId) : clsOf (pgMfc c) = some .mfc := by revert c; decide
theorem clsOf_cap : clsOf pgCAP = some .cap := rfl
theorem clsOf_capu (u : CapId) : clsOf (pgCapu u) = some .capu := by revert u; decide
theorem clsOf_fbu (c : FbuId) : clsOf (pgFbu c) = some .fbu := by revert c; decide
theorem clsOf_sgu : clsOf pgSGU = some .sgu := rfl
theorem clsOf_sgc (n : StepId) : clsOf (pgSgc n) = some .sgc := by revert n; decide
theorem clsOf_prf : clsOf pgPRF = some .prf := rfl
theorem clsOf_sea : clsOf pgSEA = some .sea := rfl
theorem clsOf_pgrp (g : GroupId) : clsOf (pgPgrp g) = some .pgrp := by revert g; decide
set_option maxRecDepth 8000 in
theorem clsOf_axp (n : AxisId) : clsOf (pgAxp n) = some .axp := by revert n; decide

/-- A page of the index has a number below 1024. -/
theorem clsOf_lt (page : Nat) (c : Cls) (h : clsOf page = some c) : page < 1024 := by
  have h1 := List.find?_some h
  simp only [Bool.and_eq_true, decide_eq_true_eq] at h1
  cases c <;> (simp only [Cls.base, Cls.count] at h1; omega)

theorem addrOf_lt (page view off : Nat) (hp : page < 1024) (hv : view < 4) (ho : off < 0x1000) :
    addrOf page view off < 2 ^ 24 := by
  unfold addrOf
  omega

theorem pageOfAddr_addrOf (page view off : Nat) (hv : view < 4) (ho : off < 0x1000) :
    pageOfAddr (addrOf page view off) = page := by
  unfold pageOfAddr addrOf
  omega

theorem viewOfAddr_addrOf (page view off : Nat) (hv : view < 4) (ho : off < 0x1000) :
    viewOfAddr (addrOf page view off) = view := by
  unfold viewOfAddr addrOf
  omega

theorem offOfAddr_addrOf (page view off : Nat) (ho : off < 0x1000) : offOfAddr (addrOf page view off) = off := by
  unfold offOfAddr addrOf
  omega

/-! ## The way of a write that no bus error stops -/

theorem regRow_pcmd (c : Cls) : regRow c HDR.PCMD_CODE.off = some ⟨0x018, 0x0, 1, 0x0, 0x0, 0x0, 0xffffffff, 0x0, 0, 0xffff00ff⟩ := rfl

theorem pairHalf_pcmd (page : Nat) : pairHalf page HDR.PCMD_CODE.off = 0 := by
  unfold pairHalf
  cases clsOf page <;> rfl

/-- No bus error meets a command of a page that is reached. -/
theorem writeCause_pcmd (d : Dev) (p : Path) (page sel v : Nat) (c : Cls) (h : d.reaches p page)
    (hc : clsOf page = some c) : d.writeCause p page sel 0 HDR.PCMD_CODE.off v = none := by
  obtain ⟨_, ha, _, hs⟩ := h
  simp only [Dev.writeCause, hc, ha, regRow_pcmd]
  by_cases hp : page = pgSAF
  · subst hp
    cases p
    · have := hs rfl rfl
      simp_all [HDR.PCMD_CODE, HDR.PEVE, pgSAF, pgSPM]
    · simp [HDR.PCMD_CODE, HDR.PEVE, pgSAF, pgSPM]
  · have : (page == pgSAF) = false := by simp [hp]
    simp [this, HDR.PCMD_CODE, HDR.PEVE, SPM.SAFOWN]

theorem oneWord_addrOf (page view off : Nat) (h : off % 4 = 0) : oneWord (addrOf page view off) 1 (15 : BitVec 8).toNat = true := by
  have : addrOf page view off % 4 = 0 := by unfold addrOf; omega
  simp [oneWord, this]

/-- The bus error of a write of one whole word, over any view. -/
theorem writeFault_word (d : Dev) (p : Path) (page view off : Nat) (v : Word) (hp : page < 1024) (hv : view < 4)
    (ho : off < 0x1000) (h4 : off % 4 = 0) (ha : d.answers page = true) :
    d.writeFault ⟨p, addrOf page view off, 1, 0xF, v.setWidth 64⟩ =
      d.writeCause p page (d.selAhead page off) view off v.toNat := by
  have h1 : ¬ 2 ^ 24 ≤ addrOf page view off := by
    have := addrOf_lt page view off hp hv ho
    omega
  have hw : (v.setWidth 64).toNat % 2 ^ 32 = v.toNat := by
    have := v.isLt
    simp only [BitVec.toNat_setWidth]
    omega
  unfold Dev.writeFault
  simp only [h1, if_false, pageOfAddr_addrOf page view off hv ho, viewOfAddr_addrOf page view off hv ho,
    offOfAddr_addrOf page view off ho, ha, Bool.not_true, Bool.false_eq_true, oneWord_addrOf page view off h4, if_true, hw]

/-- A served write of one whole word that no bus error stops. -/
theorem writeReg_word (d : Dev) (p : Path) (page view off : Nat) (v : Word) (hp : page < 1024) (hv : view < 4)
    (ho : off < 0x1000) (h4 : off % 4 = 0) (hs : d.serves p = true) (ha : d.answers page = true)
    (hf : d.writeCause p page (d.selAhead page off) view off v.toNat = none)
    (hn : ∀ d', writeWord p page view off v d ≠ (.retry, d')) :
    writeReg p page view off v d =
      thanks p (writeWord p page view off v d).2 := by
  have h1 : ¬ 2 ^ 24 ≤ addrOf page view off := by
    have := addrOf_lt page view off hp hv ho
    omega
  have h5 : (v.setWidth 64).setWidth 32 = v := by ext i hi; simp
  have hw : hostWrite ⟨p, addrOf page view off, 1, 0xF, v.setWidth 64⟩ d = (0, (writeWord p page view off v d).2) := by
    unfold hostWrite
    rw [writeFault_word d p page view off v hp hv ho h4 ha, hf]
    simp only [pageOfAddr_addrOf page view off hv ho, viewOfAddr_addrOf page view off hv ho,
      offOfAddr_addrOf page view off ho, h5, Nat.reduceEqDiff, if_false]
    split
    · rename_i h; rw [h]
    · rename_i h; exact absurd h (hn _)
  unfold writeReg writeAccess thanks
  cases p <;> simp only [hs, h1, hw, Bool.not_true, Bool.false_eq_true, if_false]

/-- What a taken write of a whole register leaves. -/
theorem writeWord_done (d d' : Dev) (p : Path) (page view off : Nat) (v : Word) (hl : (d.latch p).held = none)
    (h0 : view ≠ 0 ∨ pairHalf page off ≠ 1) (hd : deliver p ⟨page, view, off, v, none⟩ d = (.done, d')) :
    writeWord p page view off v d = (.done, setHeld p none d') := by
  have h1 : d.ownPair p page view off = true := by simp [Dev.ownPair, hl]
  have h2 : d.completes p page view off v = ⟨page, view, off, v, none⟩ := by simp [Dev.completes, hl]
  have h3 : ¬ (view = 0 ∧ pairHalf page off = 1) := by tauto
  simp [writeWord, h1, h2, h3, hd]

/-- A write of a whole register that is delivered leaves what its delivery leaves, and the answer. -/
theorem writeReg_delivered (d d' : Dev) (p : Path) (page view off : Nat) (v : Word) (hp : page < 1024) (hv : view < 4)
    (ho : off < 0x1000) (h4 : off % 4 = 0) (hr : d.reaches p page)
    (hf : d.writeCause p page (d.selAhead page off) view off v.toNat = none)
    (h0 : view ≠ 0 ∨ pairHalf page off ≠ 1) (hd : deliver p ⟨page, view, off, v, none⟩ d = (.done, d')) :
    writeReg p page view off v d = answered p d' := by
  obtain ⟨hs, ha, hl, _⟩ := hr
  have hw := writeWord_done d d' p page view off v hl h0 hd
  rw [writeReg_word d p page view off v hp hv ho h4 hs ha hf (by rw [hw]; intro _ h; cases h), hw]
  rfl

/-- Where a write lands that no journal takes up. -/
theorem submit_lands (d : Dev) (w : HostWrite) (h : w.journalled = true → d.landsNow) : submit w d = (.done, landWrite w d) := by
  unfold submit
  by_cases hw : w.journalled = true
  · obtain ⟨h1, h2⟩ := h hw
    simp [hw, h1, h2]
  · simp [hw]

/-- A command of a page that is reached lands with its code and argument. -/
theorem pageCommand_lands (d : Dev) (p : Path) (page code : Nat) (c : Cls) (arg : BitVec 16) (hr : d.reaches p page)
    (hc : clsOf page = some c) (hcode : code < 256)
    (hj : HostWrite.journalled ⟨page, 0, HDR.PCMD_CODE.off, BitVec.ofNat 32 (code + arg.toNat * 2 ^ 16), none⟩ = true →
      d.landsNow) :
    pageCommand p page code arg d = answered p (landCmd page code arg.toNat d) := by
  have hlt := clsOf_lt page c hc
  have hv : (BitVec.ofNat 32 (code + arg.toNat * 2 ^ 16)).toNat = code + arg.toNat * 2 ^ 16 := by
    have := arg.isLt
    simp only [BitVec.toNat_ofNat]
    omega
  refine writeReg_delivered d _ p page 0 HDR.PCMD_CODE.off _ hlt (by decide) (by decide) (by decide) hr
    (writeCause_pcmd d p page _ _ c hr hc) (Or.inr (by rw [pairHalf_pcmd]; decide)) ?_
  unfold deliver
  have hk : HDR.PCMD_CODE.off ≠ STG.KEY.off := by decide
  have hq : HDR.PCMD_CODE.off ≠ TIM.ACQ.off := by decide
  simp only [hk, hq, and_false, if_false]
  rw [submit_lands _ _ hj]
  unfold landWrite
  simp only [if_true, hv]
  congr 2 <;> omega

end Sys2Proof.Machine
end

