-- ==== Sys2Proof/Laws/Commands.lean ====
section
/-! SUPPORT. Laws of commands written to PCMD: what a page does with one, and where the command of each row lands. -/
namespace Sys2Proof.Machine

/-- A command that a page carries out at once. -/
theorem takeCmd_done (page code arg : Nat) (check : Dev → Nat) (eff : Dev → Dev) (d : Dev) (hb : d.on page HDR.BUSY = false)
    (hc : check d = rOK) : takeCmd page code arg check eff d = eff (recordCmd page code arg rOK false d) := by
  simp [takeCmd, hb, hc]

/-- A command that a page refuses. -/
theorem takeCmd_refused (page code arg : Nat) (check : Dev → Nat) (eff : Dev → Dev) (d : Dev)
    (hb : d.on page HDR.BUSY = false) (hc : check d ≠ rOK) :
    takeCmd page code arg check eff d = recordCmd page code arg (check d) false d := by
  simp [takeCmd, hb, hc]

/-- A command that meets one in work is lost (R571). -/
theorem takeCmd_busy (page code arg : Nat) (check : Dev → Nat) (eff : Dev → Dev) (d : Dev) (hb : d.on page HDR.BUSY = true) :
    takeCmd page code arg check eff d = d.wr page HDR.LOST 1 := by
  simp [takeCmd, hb]

theorem deferCmd_waits (page code arg : Nat) (d : Dev) (hb : d.on page HDR.BUSY = false) :
    deferCmd page code arg d = recordCmd page code arg rOK true d := by
  simp [deferCmd, hb]

theorem checks_ok (a b : Bool) : checks a b = rOK ↔ a = true ∧ b = true := by
  cases a <;> cases b <;> simp [checks, rOK, rSTATE, rPARAM]

theorem landCmd_stg (code arg : Nat) (d : Dev) : landCmd pgSTG code arg d = landStg code arg d := rfl
theorem landCmd_tim (code arg : Nat) (d : Dev) : landCmd pgTIM code arg d = landTim code arg d := rfl
theorem landCmd_evt (code arg : Nat) (d : Dev) : landCmd pgEVT code arg d = landEvt code arg d := rfl
theorem landCmd_hif (code arg : Nat) (d : Dev) : landCmd pgHIF code arg d = landHif code arg d := rfl
theorem landCmd_spm (code arg : Nat) (d : Dev) : landCmd pgSPM code arg d = landSpm code arg d := rfl
theorem landCmd_glb (code arg : Nat) (d : Dev) : landCmd pgGLB code arg d = landGlb code arg d := rfl
theorem landCmd_cal (code arg : Nat) (d : Dev) : landCmd pgCAL code arg d = landCal code arg d := rfl
theorem landCmd_otp (code arg : Nat) (d : Dev) : landCmd pgOTP code arg d = landOtp code arg d := rfl
theorem landCmd_saf (code arg : Nat) (d : Dev) : landCmd pgSAF code arg d = landSaf code arg d := rfl
theorem landCmd_red (code arg : Nat) (d : Dev) : landCmd pgRED code arg d = landRed code arg d := rfl
theorem landCmd_dmc (code arg : Nat) (d : Dev) : landCmd pgDMC code arg d = landDmc code arg d := rfl
theorem landCmd_sys (code arg : Nat) (d : Dev) : landCmd pgSYS code arg d = landSys code arg d := rfl
theorem landCmd_mfe (code arg : Nat) (d : Dev) : landCmd pgMFE code arg d = landMfe code arg d := rfl
theorem landCmd_cap (code arg : Nat) (d : Dev) : landCmd pgCAP code arg d = landCap code arg d := rfl
theorem landCmd_sgu (code arg : Nat) (d : Dev) : landCmd pgSGU code arg d = landSgu code arg d := rfl
theorem landCmd_tsu (code arg : Nat) (d : Dev) : landCmd pgTSU code arg d = noteCmd pgTSU code arg noDesc d := rfl
theorem landCmd_sea (code arg : Nat) (d : Dev) : landCmd pgSEA code arg d = noteCmd pgSEA code arg noDesc d := rfl
theorem landCmd_prf (code arg : Nat) (d : Dev) : landCmd pgPRF code arg d = noteCmd pgPRF code arg (d.moveDesc (arg % 256)) d := rfl

/-- The unit of a page of its own class. -/
theorem unit_of (m b : Nat) (x : Fin m) (h : 0 < m) : (⟨(b + x.val - b) % m, Nat.mod_lt _ h⟩ : Fin m) = x := by
  apply Fin.ext
  have := x.isLt
  simp only [Nat.add_sub_cancel_left]
  exact Nat.mod_eq_of_lt this

theorem landCmd_ring (r : RingId) (code arg : Nat) (d : Dev) : landCmd (pgRing r) code arg d = landRing r code arg d := by
  unfold landCmd
  rw [clsOf_ring]
  simp only [pgRing]
  rw [unit_of 4 0x10 r (by decide)]

theorem landCmd_cep (p : PairId) (code arg : Nat) (d : Dev) : landCmd (pgCep p) code arg d = landCep p code arg d := by
  unfold landCmd
  rw [clsOf_cep]
  simp only [pgCep]
  rw [unit_of 18 0x20 p (by decide)]

theorem landCmd_mfc (c : CoreId) (code arg : Nat) (d : Dev) : landCmd (pgMfc c) code arg d = landMfc c code arg d := by
  unfold landCmd
  rw [clsOf_mfc]
  simp only [pgMfc]
  rw [unit_of 4 0x41 c (by decide)]

theorem landCmd_capu (u : CapId) (code arg : Nat) (d : Dev) : landCmd (pgCapu u) code arg d = landCapu u code arg d := by
  unfold landCmd
  rw [clsOf_capu]
  simp only [pgCapu]
  rw [unit_of 16 0x50 u (by decide)]

theorem landCmd_fbu (c : FbuId) (code arg : Nat) (d : Dev) : landCmd (pgFbu c) code arg d = landFbu c code arg d := by
  unfold landCmd
  rw [clsOf_fbu]
  simp only [pgFbu]
  rw [unit_of 8 0x60 c (by decide)]

theorem landCmd_sgc (n : StepId) (code arg : Nat) (d : Dev) : landCmd (pgSgc n) code arg d = landSgc n code arg d := by
  unfold landCmd
  rw [clsOf_sgc]
  simp only [pgSgc]
  rw [unit_of 16 0x70 n (by decide)]

theorem landCmd_pgrp (g : GroupId) (code arg : Nat) (d : Dev) :
    landCmd (pgPgrp g) code arg d = noteCmd (pgPgrp g) code arg noDesc d := by
  simp only [landCmd, clsOf_pgrp]

theorem landCmd_axp (n : AxisId) (code arg : Nat) (d : Dev) : landCmd (pgAxp n) code arg d = landAxpCmd n code arg d := by
  unfold landCmd
  rw [clsOf_axp]
  simp only [pgAxp]
  rw [unit_of 256 0x100 n (by decide)]

/-- Writes of PCMD to a page outside the journalled classes are not journalled. -/
theorem not_journalled (page v : Nat) (c : Cls) (hc : clsOf page = some c)
    (h : c ≠ .axp ∧ c ≠ .prf ∧ c ≠ .pgrp ∧ c ≠ .sea ∧ c ≠ .tsu ∧ c ≠ .sgu ∧ (c = .saf → v % 2 ^ 8 ≠ 2)) :
    HostWrite.journalled ⟨page, 0, HDR.PCMD_CODE.off, BitVec.ofNat 32 v, none⟩ = false := by
  obtain ⟨h1, h2, h3, h4, h5, h6, h7⟩ := h
  unfold HostWrite.journalled
  rw [hc]
  cases c <;> simp_all

/-- A command of a page outside the journalled classes that is reached. -/
theorem pageCommand_reached (d : Dev) (p : Path) (page code : Nat) (c : Cls) (arg : BitVec 16) (hr : d.reaches p page)
    (hc : clsOf page = some c) (hcode : code < 256)
    (h : c ≠ .axp ∧ c ≠ .prf ∧ c ≠ .pgrp ∧ c ≠ .sea ∧ c ≠ .tsu ∧ c ≠ .sgu ∧ (c = .saf → code ≠ 2)) :
    pageCommand p page code arg d = answered p (landCmd page code arg.toNat d) := by
  refine pageCommand_lands d p page code c arg hr hc hcode ?_
  rw [not_journalled page _ c hc ⟨h.1, h.2.1, h.2.2.1, h.2.2.2.1, h.2.2.2.2.1, h.2.2.2.2.2.1, fun hs => by
    have := h.2.2.2.2.2.2 hs
    omega⟩]
  intro h
  cases h

end Sys2Proof.Machine
end

