-- ==== Sys2Proof/Laws/Memory.lean ====
section
/-! SUPPORT. Memory: what is read after a write, and that every memory operation keeps the canonical form. -/
namespace Sys2Proof.Machine

theorem memGet_filter_self (l : List Host.Cell) (a : Nat) :
    memGet (l.filter fun (x : Host.Cell) => x.1 != a) a = memDefault := by
  induction l with
  | nil => rfl
  | cons x l ih =>
    by_cases h : x.1 = a
    · rw [List.filter_cons_of_neg (by simp [h])]; exact ih
    · rw [List.filter_cons_of_pos (by simp [h])]; simp [memGet, h, ih]

theorem memGet_filter_keep (l : List Host.Cell) (p : Host.Cell → Bool) (a : Nat) (h : ∀ b, p (a, b) = true) :
    memGet (l.filter p) a = memGet l a := by
  induction l with
  | nil => rfl
  | cons x l ih =>
    obtain ⟨k, b⟩ := x
    by_cases hk : k = a
    · subst hk
      rw [List.filter_cons_of_pos (h b)]; simp [memGet]
    · by_cases hp : p (k, b) = true
      · rw [List.filter_cons_of_pos hp]; simp [memGet, hk, ih]
      · rw [List.filter_cons_of_neg hp]; simp [memGet, hk, ih]

theorem memGet_memInsert_self (a : Nat) (v : Byte) (l : List Host.Cell) (h : ∀ x ∈ l, x.1 ≠ a) :
    memGet (memInsert a v l) a = v := by
  induction l with
  | nil => simp [memInsert, memGet]
  | cons x l ih =>
    obtain ⟨k, b⟩ := x
    have hk : k ≠ a := h (k, b) (by simp)
    unfold memInsert
    split
    · simp [memGet]
    · simp [memGet, hk, ih fun x hx => h x (by simp [hx])]

theorem memGet_memInsert_ne (a a' : Nat) (v : Byte) (l : List Host.Cell) (h : a ≠ a') :
    memGet (memInsert a v l) a' = memGet l a' := by
  induction l with
  | nil => simp [memInsert, memGet, h]
  | cons x l ih =>
    obtain ⟨k, b⟩ := x
    unfold memInsert
    split
    · simp [memGet, h]
    · by_cases hk : k = a' <;> simp [memGet, hk, ih]

theorem memGet_memPut_self (l : List Host.Cell) (a : Nat) (v : Byte) : memGet (memPut l a v) a = v := by
  unfold memPut
  by_cases h : v = memDefault
  · simp [h, memGet_filter_self]
  · simp only [h, if_false]
    exact memGet_memInsert_self _ _ _ fun x hx => by simpa using (List.mem_filter.mp hx).2

theorem memGet_memPut_ne (l : List Host.Cell) (a a' : Nat) (v : Byte) (h : a ≠ a') :
    memGet (memPut l a v) a' = memGet l a' := by
  have hf := memGet_filter_keep l (fun (x : Host.Cell) => x.1 != a) a' fun b => by simpa using h.symm
  unfold memPut
  by_cases hv : v = memDefault
  · simp [hv, hf]
  · simp [hv, memGet_memInsert_ne _ _ _ _ h, hf]

/-! ## One byte, and bytes in a row -/

@[simp] theorem mem8_setMem8_self (d : Dev) (a : Nat) (v : Byte) : (d.setMem8 a v).mem8 a = v := memGet_memPut_self _ _ _

theorem mem8_setMem8_ne (d : Dev) (a a' : Nat) (v : Byte) (h : a ≠ a') : (d.setMem8 a v).mem8 a' = d.mem8 a' :=
  memGet_memPut_ne _ _ _ _ h

/-- Bytes outside the ones written keep their value. -/
theorem mem8_setMemBytes_out (bs : List Byte) : ∀ (d : Dev) (a a' : Nat), a' < a ∨ a + bs.length ≤ a' →
    (d.setMemBytes a bs).mem8 a' = d.mem8 a' := by
  induction bs with
  | nil => intro d a a' _; rfl
  | cons b bs ih =>
    intro d a a' h
    simp only [List.length_cons] at h
    rw [Dev.setMemBytes, ih _ _ _ (by omega), mem8_setMem8_ne _ _ _ _ (by omega)]

/-- The bytes written are read back. -/
theorem mem8_setMemBytes_in (bs : List Byte) : ∀ (d : Dev) (a i : Nat), i < bs.length →
    (d.setMemBytes a bs).mem8 (a + i) = bs.getD i 0 := by
  induction bs with
  | nil => intro d a i h; simp at h
  | cons b bs ih =>
    intro d a i h
    rw [Dev.setMemBytes]
    cases i with
    | zero => rw [mem8_setMemBytes_out _ _ _ _ (by omega), Nat.add_zero, mem8_setMem8_self]; rfl
    | succ i =>
      have := ih (d.setMem8 a b) (a + 1) i (by simpa using h)
      rw [show a + (i + 1) = a + 1 + i by omega, this]; rfl

theorem mem8_setMemLE_out (n : Nat) : ∀ (d : Dev) (a v a' : Nat), a' < a ∨ a + n ≤ a' →
    (d.setMemLE a n v).mem8 a' = d.mem8 a' := by
  induction n with
  | zero => intro d a v a' _; rfl
  | succ n ih =>
    intro d a v a' h
    rw [Dev.setMemLE, ih _ _ _ _ (by omega), mem8_setMem8_ne _ _ _ _ (by omega)]

/-! ## The canonical form -/

theorem wf_iff (l : List Host.Cell) :
    Memory.wf l = true ↔ (l.Pairwise fun (x y : Host.Cell) => x.1 < y.1) ∧ ∀ x ∈ l, x.2 ≠ memDefault := by
  induction l with
  | nil => simp [Memory.wf]
  | cons x l ih =>
    obtain ⟨k, b⟩ := x
    cases l with
    | nil => simp [Memory.wf]
    | cons y l =>
      obtain ⟨k', b'⟩ := y
      simp only [Memory.wf, Bool.and_eq_true, decide_eq_true_eq, bne_iff_ne, ne_eq, ih, List.pairwise_cons, List.mem_cons,
        forall_eq_or_imp]
      constructor
      · rintro ⟨⟨h0, h⟩, ⟨h1, h2⟩, h3, h4⟩
        exact ⟨⟨⟨h, fun a ha => lt_trans h (h1 a ha)⟩, h1, h2⟩, h0, h3, h4⟩
      · rintro ⟨⟨⟨h, _⟩, h1, h2⟩, h0, h3, h4⟩
        exact ⟨⟨h0, h⟩, ⟨h1, h2⟩, h3, h4⟩

theorem mem_memInsert (a : Nat) (v : Byte) (l : List Host.Cell) (x : Host.Cell) :
    x ∈ memInsert a v l ↔ x = (a, v) ∨ x ∈ l := by
  induction l with
  | nil => simp [memInsert]
  | cons y l ih =>
    obtain ⟨k, b⟩ := y
    unfold memInsert
    split
    · simp
    · simp [ih]; tauto

theorem memInsert_wf (a : Nat) (v : Byte) (hv : v ≠ memDefault) (l : List Host.Cell) (h : Memory.wf l = true)
    (hk : ∀ x ∈ l, x.1 ≠ a) : Memory.wf (memInsert a v l) = true := by
  rw [wf_iff] at h ⊢
  refine ⟨?_, fun x hx => ?_⟩
  · obtain ⟨h, hd⟩ := h
    induction l with
    | nil => simp [memInsert]
    | cons y l ih =>
      obtain ⟨k, b⟩ := y
      have h2 := List.pairwise_cons.mp h
      unfold memInsert
      split
      · rename_i hlt
        refine List.pairwise_cons.mpr ⟨fun x hx => ?_, h⟩
        rcases List.mem_cons.mp hx with rfl | hx
        · exact hlt
        · exact lt_trans hlt (h2.1 x hx)
      · rename_i hge
        have hka : k ≠ a := hk (k, b) (by simp)
        refine List.pairwise_cons.mpr ⟨fun x hx => ?_, ih (fun x hx => hk x (by simp [hx])) h2.2 fun x hx => hd x (by simp [hx])⟩
        rcases (mem_memInsert a v l x).mp hx with rfl | hx
        · show k < a; omega
        · exact h2.1 x hx
  · rcases (mem_memInsert a v l x).mp hx with rfl | hx
    · exact hv
    · exact h.2 x hx

theorem filter_wf (l : List Host.Cell) (p : Host.Cell → Bool) (h : Memory.wf l = true) : Memory.wf (l.filter p) = true := by
  rw [wf_iff] at h ⊢
  exact ⟨h.1.filter p, fun x hx => h.2 x (List.mem_filter.mp hx).1⟩

theorem memPut_wf (l : List Host.Cell) (a : Nat) (v : Byte) (h : Memory.wf l = true) : Memory.wf (memPut l a v) = true := by
  unfold memPut
  have hf := filter_wf l (fun (x : Host.Cell) => x.1 != a) h
  by_cases hv : v = memDefault
  · simpa [hv] using hf
  · simp only [hv, if_false]
    exact memInsert_wf a v hv _ hf fun x hx => by simpa using (List.mem_filter.mp hx).2

theorem reset_mem_wf : Memory.wf State.reset.dev.mem = true := rfl

theorem setMem8_wf (d : Dev) (a : Nat) (v : Byte) (h : Memory.wf d.mem = true) : Memory.wf (d.setMem8 a v).mem = true :=
  memPut_wf _ _ _ h

theorem setMemLE_wf (n : Nat) : ∀ (d : Dev) (a v : Nat), Memory.wf d.mem = true → Memory.wf (d.setMemLE a n v).mem = true := by
  induction n with
  | zero => intro d a v h; exact h
  | succ n ih => intro d a v h; exact ih _ _ _ (setMem8_wf _ _ _ h)

theorem setMemBytes_wf (bs : List Byte) : ∀ (d : Dev) (a : Nat), Memory.wf d.mem = true →
    Memory.wf (d.setMemBytes a bs).mem = true := by
  induction bs with
  | nil => intro d a h; exact h
  | cons b bs ih => intro d a h; exact ih _ _ (setMem8_wf _ _ _ h)

theorem setMemOpt_wf (bs : List (Option Byte)) : ∀ (d : Dev) (a : Nat), Memory.wf d.mem = true →
    Memory.wf (d.setMemOpt a bs).mem = true := by
  induction bs with
  | nil => intro d a h; exact h
  | cons b bs ih =>
    intro d a h
    cases b with
    | none => exact ih _ _ h
    | some b => exact ih _ _ (setMem8_wf _ _ _ h)

theorem clearMem_wf (d : Dev) (lo hi : Nat) (h : Memory.wf d.mem = true) : Memory.wf (d.clearMem lo hi).mem = true :=
  filter_wf _ _ h

theorem foldl_setMem8_wf (f : Host.Cell → Nat) (l : List Host.Cell) : ∀ d : Dev, Memory.wf d.mem = true →
    Memory.wf (l.foldl (fun (d : Dev) (c : Host.Cell) => d.setMem8 (f c) c.2) d).mem = true := by
  induction l with
  | nil => intro d h; exact h
  | cons c l ih => intro d h; exact ih _ (setMem8_wf _ _ _ h)

theorem copyMem_wf (d : Dev) (src dst len : Nat) (h : Memory.wf d.mem = true) :
    Memory.wf (d.copyMem src dst len).mem = true :=
  foldl_setMem8_wf (fun c => dst + (c.1 - src)) _ _ (clearMem_wf _ _ _ h)

end Sys2Proof.Machine
end

