-- ==== Sys2Proof/Laws/Regs.lean ====
section
/-! SUPPORT. Registers and fields: what is read after a write, the canonical form of the register file, and what a reset of
pages or windows leaves. -/
namespace Sys2Proof.Machine

/-! ## The register file as a list -/

theorem regGet_filter_self (l : List (Nat × Word)) (k : Nat) :
    regGet (l.filter fun (x : Nat × Word) => x.1 != k) k = none := by
  induction l with
  | nil => rfl
  | cons x l ih =>
    by_cases h : x.1 = k
    · rw [List.filter_cons_of_neg (by simp [h])]; exact ih
    · rw [List.filter_cons_of_pos (by simp [h])]; simp [regGet, h, ih]

theorem regGet_filter_ne (l : List (Nat × Word)) (k k' : Nat) (h : k ≠ k') :
    regGet (l.filter fun (x : Nat × Word) => x.1 != k) k' = regGet l k' := by
  induction l with
  | nil => rfl
  | cons x l ih =>
    by_cases hx : x.1 = k
    · have hk : x.1 ≠ k' := fun e => h (hx.symm.trans e)
      rw [List.filter_cons_of_neg (by simp [hx]), ih]; simp [regGet, hk]
    · rw [List.filter_cons_of_pos (by simp [hx])]; simp [regGet, ih]

theorem regGet_regInsert_self (k : Nat) (v : Word) (l : List (Nat × Word)) (h : regGet l k = none) :
    regGet (regInsert k v l) k = some v := by
  induction l with
  | nil => simp [regInsert, regGet]
  | cons x l ih =>
    obtain ⟨a, w⟩ := x
    have ha : a ≠ k := by intro e; simp [regGet, e] at h
    have hl : regGet l k = none := by simpa [regGet, ha] using h
    unfold regInsert
    split
    · simp [regGet]
    · simp [regGet, ha, ih hl]

theorem regGet_regInsert_ne (k k' : Nat) (v : Word) (l : List (Nat × Word)) (h : k ≠ k') :
    regGet (regInsert k v l) k' = regGet l k' := by
  induction l with
  | nil => simp [regInsert, regGet, h]
  | cons x l ih =>
    obtain ⟨a, w⟩ := x
    unfold regInsert
    split
    · simp [regGet, h]
    · by_cases ha : a = k' <;> simp [regGet, ha, ih]

/-- The value a key reads after it was set; `dflt` is what an unlisted key reads. -/
theorem regGet_regPut_self (dflt : Word) (l : List (Nat × Word)) (k : Nat) (v : Word) :
    (regGet (regPut dflt l k v) k).getD dflt = v := by
  unfold regPut
  by_cases h : v = dflt
  · simp [h, regGet_filter_self]
  · simp [h, regGet_regInsert_self _ _ _ (regGet_filter_self l k)]

theorem regGet_regPut_ne (dflt : Word) (l : List (Nat × Word)) (k k' : Nat) (v : Word) (h : k ≠ k') :
    regGet (regPut dflt l k v) k' = regGet l k' := by
  unfold regPut
  by_cases hv : v = dflt
  · simp [hv, regGet_filter_ne _ _ _ h]
  · simp [hv, regGet_regInsert_ne _ _ _ _ h, regGet_filter_ne _ _ _ h]

/-! ## Registers -/

/-- Keys of registers that exist are distinct. -/
theorem regKey_inj {p s o p' s' o' : Nat} (hp : p < 1024) (hp' : p' < 1024) (ho : o < 4096) (ho' : o' < 4096)
    (h : regKey p s o = regKey p' s' o') : p = p' ∧ s = s' ∧ o = o' := by
  unfold regKey at h
  omega

theorem reg_eq (d : Dev) (p s o : Nat) : d.reg p s o = (regGet d.regs (regKey p s o)).getD (resetWord d.conf p o) := by
  unfold Dev.reg
  cases regGet d.regs (regKey p s o) <;> rfl

@[simp] theorem reg_setReg_self (d : Dev) (p s o : Nat) (v : Word) : (d.setReg p s o v).reg p s o = v := by
  rw [reg_eq]
  exact regGet_regPut_self _ _ _ _

theorem reg_setReg_key (d : Dev) (p s o p' s' o' : Nat) (v : Word) (h : regKey p s o ≠ regKey p' s' o') :
    (d.setReg p s o v).reg p' s' o' = d.reg p' s' o' := by
  rw [reg_eq, reg_eq]
  show (regGet (regPut _ d.regs _ v) _).getD _ = _
  rw [regGet_regPut_ne _ _ _ _ _ h]
  rfl

/-- A write of one register leaves every other register of the map as it was. -/
theorem reg_setReg_ne (d : Dev) (p s o p' s' o' : Nat) (v : Word) (hp : p < 1024) (hp' : p' < 1024) (ho : o < 4096)
    (ho' : o' < 4096) (h : ¬(p = p' ∧ s = s' ∧ o = o')) : (d.setReg p s o v).reg p' s' o' = d.reg p' s' o' :=
  reg_setReg_key d p s o p' s' o' v fun e => h (regKey_inj hp hp' ho ho' e)

/-! ## Fields -/

theorem word_field (w l n v : Nat) (hw : w < 2 ^ 32) (h : l + n ≤ 32) :
    (BitVec.ofNat 32 (putBits w l n v)).toNat = putBits w l n v := by
  rw [BitVec.toNat_ofNat, Nat.mod_eq_of_lt (putBits_lt w l n v 32 hw h)]

theorem rdS_wrS_self (d : Dev) (p s : Nat) (f : Fld) (v : Nat) (h : f.lsb + f.width ≤ 32) :
    (d.wrS p s f v).rdS p s f = v % 2 ^ f.width := by
  unfold Dev.rdS Dev.wrS
  rw [reg_setReg_self, word_field _ _ _ _ (d.reg p s f.off).isLt h, bitsOf_putBits_same]

theorem rd_wr_self (d : Dev) (p : Nat) (f : Fld) (v : Nat) (h : f.lsb + f.width ≤ 32) :
    (d.wr p f v).rd p f = v % 2 ^ f.width := rdS_wrS_self d p 0 f v h

/-- A field of the same register that does not meet the one written keeps its value. -/
theorem rdS_wrS_beside (d : Dev) (p s : Nat) (f g : Fld) (v : Nat) (hf : f.lsb + f.width ≤ 32) (ho : f.off = g.off)
    (h : g.lsb + g.width ≤ f.lsb ∨ f.lsb + f.width ≤ g.lsb) : (d.wrS p s f v).rdS p s g = d.rdS p s g := by
  unfold Dev.rdS Dev.wrS
  rw [← ho, reg_setReg_self, word_field _ _ _ _ (d.reg p s f.off).isLt hf]
  rcases h with h | h
  · exact bitsOf_putBits_below _ _ _ _ _ _ h
  · exact bitsOf_putBits_above _ _ _ _ _ _ h

theorem rd_wr_beside (d : Dev) (p : Nat) (f g : Fld) (v : Nat) (hf : f.lsb + f.width ≤ 32) (ho : f.off = g.off)
    (h : g.lsb + g.width ≤ f.lsb ∨ f.lsb + f.width ≤ g.lsb) : (d.wr p f v).rd p g = d.rd p g :=
  rdS_wrS_beside d p 0 f g v hf ho h

/-- A field of another register keeps its value. -/
theorem reg_wrS_key (d : Dev) (p s : Nat) (f : Fld) (v p' s' o' : Nat) (h : regKey p s f.off ≠ regKey p' s' o') :
    (d.wrS p s f v).reg p' s' o' = d.reg p' s' o' := reg_setReg_key _ _ _ _ _ _ _ _ h

theorem rd_wr_key (d : Dev) (p : Nat) (f : Fld) (v p' : Nat) (g : Fld) (h : regKey p 0 f.off ≠ regKey p' 0 g.off) :
    (d.wr p f v).rd p' g = d.rd p' g := by
  unfold Dev.rd Dev.rdS Dev.wr
  rw [reg_wrS_key _ _ _ _ _ _ _ _ h]

/-! ## The canonical form of the register file -/

/-- Keys strictly rising. -/
def regsSorted : List (Nat × Word) → Bool
  | [] => true
  | _ :: [] => true
  | (k, _) :: (k', w') :: l => decide (k < k') && regsSorted ((k', w') :: l)

theorem regsSorted_pairwise (l : List (Nat × Word)) :
    regsSorted l = true ↔ l.Pairwise fun (x y : Nat × Word) => x.1 < y.1 := by
  induction l with
  | nil => simp [regsSorted]
  | cons x l ih =>
    cases l with
    | nil => simp [regsSorted]
    | cons y l =>
      obtain ⟨k, w⟩ := x
      obtain ⟨k', w'⟩ := y
      simp only [regsSorted, Bool.and_eq_true, decide_eq_true_eq, ih, List.pairwise_cons, List.mem_cons,
        forall_eq_or_imp]
      constructor
      · rintro ⟨h, h1, h2⟩
        exact ⟨⟨h, fun a ha => lt_trans h (h1 a ha)⟩, h1, h2⟩
      · rintro ⟨⟨h, _⟩, h1, h2⟩
        exact ⟨h, h1, h2⟩

theorem mem_regInsert (k : Nat) (v : Word) (l : List (Nat × Word)) (x : Nat × Word) :
    x ∈ regInsert k v l ↔ x = (k, v) ∨ x ∈ l := by
  induction l with
  | nil => simp [regInsert]
  | cons y l ih =>
    obtain ⟨a, w⟩ := y
    unfold regInsert
    split
    · simp
    · simp [ih]; tauto

theorem regInsert_sorted (k : Nat) (v : Word) (l : List (Nat × Word))
    (h : l.Pairwise fun (x y : Nat × Word) => x.1 < y.1) (hk : ∀ x ∈ l, x.1 ≠ k) :
    (regInsert k v l).Pairwise fun (x y : Nat × Word) => x.1 < y.1 := by
  induction l with
  | nil => simp [regInsert]
  | cons y l ih =>
    obtain ⟨a, w⟩ := y
    have h2 := List.pairwise_cons.mp h
    unfold regInsert
    split
    · rename_i hlt
      refine List.pairwise_cons.mpr ⟨fun x hx => ?_, h⟩
      rcases List.mem_cons.mp hx with rfl | hx
      · exact hlt
      · exact lt_trans hlt (h2.1 x hx)
    · rename_i hge
      have hak : a ≠ k := hk (a, w) (by simp)
      refine List.pairwise_cons.mpr ⟨fun x hx => ?_, ih h2.2 fun x hx => hk x (by simp [hx])⟩
      rcases (mem_regInsert k v l x).mp hx with rfl | hx
      · show a < k; omega
      · exact h2.1 x hx

/-- Setting a register keeps the keys strictly rising. -/
theorem regPut_sorted (dflt : Word) (l : List (Nat × Word)) (k : Nat) (v : Word) (h : regsSorted l = true) :
    regsSorted (regPut dflt l k v) = true := by
  rw [regsSorted_pairwise] at h ⊢
  have hf := h.filter fun (x : Nat × Word) => x.1 != k
  unfold regPut
  by_cases hv : v = dflt
  · simpa [hv] using hf
  · simp only [hv, if_false]
    exact regInsert_sorted k v _ hf fun x hx => by simpa using (List.mem_filter.mp hx).2

theorem setReg_sorted (d : Dev) (p s o : Nat) (v : Word) (h : regsSorted d.regs = true) :
    regsSorted (d.setReg p s o v).regs = true := regPut_sorted _ _ _ _ h

end Sys2Proof.Machine
end

