-- ==== Sys2Proof/Laws/State.lean ====
section
/-! SUPPORT. What the updates of the device leave as it was: one lemma per field and update, true by definition. -/
namespace Sys2Proof.Machine

@[simp] theorem setReg_conf (d : Dev) (p s o : Nat) (v : Word) : (d.setReg p s o v).conf = d.conf := rfl
@[simp] theorem setReg_st (d : Dev) (p s o : Nat) (v : Word) : (d.setReg p s o v).st = d.st := rfl
@[simp] theorem setReg_mem (d : Dev) (p s o : Nat) (v : Word) : (d.setReg p s o v).mem = d.mem := rfl
@[simp] theorem setReg_bad (d : Dev) (p s o : Nat) (v : Word) : (d.setReg p s o v).bad = d.bad := rfl
@[simp] theorem setReg_out (d : Dev) (p s o : Nat) (v : Word) : (d.setReg p s o v).out = d.out := rfl
@[simp] theorem setReg_free (d : Dev) (p s o : Nat) (v : Word) : (d.setReg p s o v).free = d.free := rfl
@[simp] theorem setReg_pairs (d : Dev) (p s o : Nat) (v : Word) : (d.setReg p s o v).pairs = d.pairs := rfl
@[simp] theorem setReg_mot (d : Dev) (p s o : Nat) (v : Word) : (d.setReg p s o v).mot = d.mot := rfl
@[simp] theorem setReg_tsu (d : Dev) (p s o : Nat) (v : Word) : (d.setReg p s o v).tsu = d.tsu := rfl
@[simp] theorem setReg_cap (d : Dev) (p s o : Nat) (v : Word) : (d.setReg p s o v).cap = d.cap := rfl
@[simp] theorem setReg_evt (d : Dev) (p s o : Nat) (v : Word) : (d.setReg p s o v).evt = d.evt := rfl
@[simp] theorem setReg_keep (d : Dev) (p s o : Nat) (v : Word) : (d.setReg p s o v).keep = d.keep := rfl
@[simp] theorem setReg_load (d : Dev) (p s o : Nat) (v : Word) : (d.setReg p s o v).load = d.load := rfl
@[simp] theorem setReg_safe (d : Dev) (p s o : Nat) (v : Word) : (d.setReg p s o v).safe = d.safe := rfl
@[simp] theorem setReg_io (d : Dev) (p s o : Nat) (v : Word) : (d.setReg p s o v).io = d.io := rfl
@[simp] theorem setReg_mfe (d : Dev) (p s o : Nat) (v : Word) : (d.setReg p s o v).mfe = d.mfe := rfl
@[simp] theorem setReg_ring (d : Dev) (p s o : Nat) (v : Word) : (d.setReg p s o v).ring = d.ring := rfl
@[simp] theorem setReg_time (d : Dev) (p s o : Nat) (v : Word) : (d.setReg p s o v).time = d.time := rfl
@[simp] theorem setReg_red (d : Dev) (p s o : Nat) (v : Word) : (d.setReg p s o v).red = d.red := rfl
@[simp] theorem setReg_host (d : Dev) (p s o : Nat) (v : Word) : (d.setReg p s o v).host = d.host := rfl

@[simp] theorem wrS_conf (d : Dev) (p s : Nat) (f : Fld) (v : Nat) : (d.wrS p s f v).conf = d.conf := rfl
@[simp] theorem wrS_st (d : Dev) (p s : Nat) (f : Fld) (v : Nat) : (d.wrS p s f v).st = d.st := rfl
@[simp] theorem wrS_mem (d : Dev) (p s : Nat) (f : Fld) (v : Nat) : (d.wrS p s f v).mem = d.mem := rfl
@[simp] theorem wrS_bad (d : Dev) (p s : Nat) (f : Fld) (v : Nat) : (d.wrS p s f v).bad = d.bad := rfl
@[simp] theorem wrS_out (d : Dev) (p s : Nat) (f : Fld) (v : Nat) : (d.wrS p s f v).out = d.out := rfl
@[simp] theorem wrS_free (d : Dev) (p s : Nat) (f : Fld) (v : Nat) : (d.wrS p s f v).free = d.free := rfl
@[simp] theorem wrS_pairs (d : Dev) (p s : Nat) (f : Fld) (v : Nat) : (d.wrS p s f v).pairs = d.pairs := rfl
@[simp] theorem wrS_mot (d : Dev) (p s : Nat) (f : Fld) (v : Nat) : (d.wrS p s f v).mot = d.mot := rfl
@[simp] theorem wrS_tsu (d : Dev) (p s : Nat) (f : Fld) (v : Nat) : (d.wrS p s f v).tsu = d.tsu := rfl
@[simp] theorem wrS_cap (d : Dev) (p s : Nat) (f : Fld) (v : Nat) : (d.wrS p s f v).cap = d.cap := rfl
@[simp] theorem wrS_evt (d : Dev) (p s : Nat) (f : Fld) (v : Nat) : (d.wrS p s f v).evt = d.evt := rfl
@[simp] theorem wrS_keep (d : Dev) (p s : Nat) (f : Fld) (v : Nat) : (d.wrS p s f v).keep = d.keep := rfl
@[simp] theorem wrS_load (d : Dev) (p s : Nat) (f : Fld) (v : Nat) : (d.wrS p s f v).load = d.load := rfl
@[simp] theorem wrS_safe (d : Dev) (p s : Nat) (f : Fld) (v : Nat) : (d.wrS p s f v).safe = d.safe := rfl
@[simp] theorem wrS_io (d : Dev) (p s : Nat) (f : Fld) (v : Nat) : (d.wrS p s f v).io = d.io := rfl
@[simp] theorem wrS_mfe (d : Dev) (p s : Nat) (f : Fld) (v : Nat) : (d.wrS p s f v).mfe = d.mfe := rfl
@[simp] theorem wrS_ring (d : Dev) (p s : Nat) (f : Fld) (v : Nat) : (d.wrS p s f v).ring = d.ring := rfl
@[simp] theorem wrS_time (d : Dev) (p s : Nat) (f : Fld) (v : Nat) : (d.wrS p s f v).time = d.time := rfl
@[simp] theorem wrS_red (d : Dev) (p s : Nat) (f : Fld) (v : Nat) : (d.wrS p s f v).red = d.red := rfl
@[simp] theorem wrS_host (d : Dev) (p s : Nat) (f : Fld) (v : Nat) : (d.wrS p s f v).host = d.host := rfl

@[simp] theorem wr_conf (d : Dev) (p : Nat) (f : Fld) (v : Nat) : (d.wr p f v).conf = d.conf := rfl
@[simp] theorem wr_st (d : Dev) (p : Nat) (f : Fld) (v : Nat) : (d.wr p f v).st = d.st := rfl
@[simp] theorem wr_mem (d : Dev) (p : Nat) (f : Fld) (v : Nat) : (d.wr p f v).mem = d.mem := rfl
@[simp] theorem wr_bad (d : Dev) (p : Nat) (f : Fld) (v : Nat) : (d.wr p f v).bad = d.bad := rfl
@[simp] theorem wr_out (d : Dev) (p : Nat) (f : Fld) (v : Nat) : (d.wr p f v).out = d.out := rfl
@[simp] theorem wr_free (d : Dev) (p : Nat) (f : Fld) (v : Nat) : (d.wr p f v).free = d.free := rfl
@[simp] theorem wr_pairs (d : Dev) (p : Nat) (f : Fld) (v : Nat) : (d.wr p f v).pairs = d.pairs := rfl
@[simp] theorem wr_mot (d : Dev) (p : Nat) (f : Fld) (v : Nat) : (d.wr p f v).mot = d.mot := rfl
@[simp] theorem wr_tsu (d : Dev) (p : Nat) (f : Fld) (v : Nat) : (d.wr p f v).tsu = d.tsu := rfl
@[simp] theorem wr_cap (d : Dev) (p : Nat) (f : Fld) (v : Nat) : (d.wr p f v).cap = d.cap := rfl
@[simp] theorem wr_evt (d : Dev) (p : Nat) (f : Fld) (v : Nat) : (d.wr p f v).evt = d.evt := rfl
@[simp] theorem wr_keep (d : Dev) (p : Nat) (f : Fld) (v : Nat) : (d.wr p f v).keep = d.keep := rfl
@[simp] theorem wr_load (d : Dev) (p : Nat) (f : Fld) (v : Nat) : (d.wr p f v).load = d.load := rfl
@[simp] theorem wr_safe (d : Dev) (p : Nat) (f : Fld) (v : Nat) : (d.wr p f v).safe = d.safe := rfl
@[simp] theorem wr_io (d : Dev) (p : Nat) (f : Fld) (v : Nat) : (d.wr p f v).io = d.io := rfl
@[simp] theorem wr_mfe (d : Dev) (p : Nat) (f : Fld) (v : Nat) : (d.wr p f v).mfe = d.mfe := rfl
@[simp] theorem wr_ring (d : Dev) (p : Nat) (f : Fld) (v : Nat) : (d.wr p f v).ring = d.ring := rfl
@[simp] theorem wr_time (d : Dev) (p : Nat) (f : Fld) (v : Nat) : (d.wr p f v).time = d.time := rfl
@[simp] theorem wr_red (d : Dev) (p : Nat) (f : Fld) (v : Nat) : (d.wr p f v).red = d.red := rfl
@[simp] theorem wr_host (d : Dev) (p : Nat) (f : Fld) (v : Nat) : (d.wr p f v).host = d.host := rfl

@[simp] theorem setMem8_regs (d : Dev) (a : Nat) (v : Byte) : (d.setMem8 a v).regs = d.regs := rfl
@[simp] theorem setMem8_conf (d : Dev) (a : Nat) (v : Byte) : (d.setMem8 a v).conf = d.conf := rfl
@[simp] theorem setMem8_st (d : Dev) (a : Nat) (v : Byte) : (d.setMem8 a v).st = d.st := rfl
@[simp] theorem setMem8_out (d : Dev) (a : Nat) (v : Byte) : (d.setMem8 a v).out = d.out := rfl
@[simp] theorem setMem8_free (d : Dev) (a : Nat) (v : Byte) : (d.setMem8 a v).free = d.free := rfl
@[simp] theorem setMem8_pairs (d : Dev) (a : Nat) (v : Byte) : (d.setMem8 a v).pairs = d.pairs := rfl
@[simp] theorem setMem8_mot (d : Dev) (a : Nat) (v : Byte) : (d.setMem8 a v).mot = d.mot := rfl
@[simp] theorem setMem8_tsu (d : Dev) (a : Nat) (v : Byte) : (d.setMem8 a v).tsu = d.tsu := rfl
@[simp] theorem setMem8_cap (d : Dev) (a : Nat) (v : Byte) : (d.setMem8 a v).cap = d.cap := rfl
@[simp] theorem setMem8_evt (d : Dev) (a : Nat) (v : Byte) : (d.setMem8 a v).evt = d.evt := rfl
@[simp] theorem setMem8_keep (d : Dev) (a : Nat) (v : Byte) : (d.setMem8 a v).keep = d.keep := rfl
@[simp] theorem setMem8_load (d : Dev) (a : Nat) (v : Byte) : (d.setMem8 a v).load = d.load := rfl
@[simp] theorem setMem8_safe (d : Dev) (a : Nat) (v : Byte) : (d.setMem8 a v).safe = d.safe := rfl
@[simp] theorem setMem8_io (d : Dev) (a : Nat) (v : Byte) : (d.setMem8 a v).io = d.io := rfl
@[simp] theorem setMem8_mfe (d : Dev) (a : Nat) (v : Byte) : (d.setMem8 a v).mfe = d.mfe := rfl
@[simp] theorem setMem8_ring (d : Dev) (a : Nat) (v : Byte) : (d.setMem8 a v).ring = d.ring := rfl
@[simp] theorem setMem8_time (d : Dev) (a : Nat) (v : Byte) : (d.setMem8 a v).time = d.time := rfl
@[simp] theorem setMem8_red (d : Dev) (a : Nat) (v : Byte) : (d.setMem8 a v).red = d.red := rfl
@[simp] theorem setMem8_host (d : Dev) (a : Nat) (v : Byte) : (d.setMem8 a v).host = d.host := rfl

@[simp] theorem emit_regs (d : Dev) (x : Out) : (d.emit x).regs = d.regs := rfl
@[simp] theorem emit_conf (d : Dev) (x : Out) : (d.emit x).conf = d.conf := rfl
@[simp] theorem emit_st (d : Dev) (x : Out) : (d.emit x).st = d.st := rfl
@[simp] theorem emit_mem (d : Dev) (x : Out) : (d.emit x).mem = d.mem := rfl
@[simp] theorem emit_bad (d : Dev) (x : Out) : (d.emit x).bad = d.bad := rfl
@[simp] theorem emit_free (d : Dev) (x : Out) : (d.emit x).free = d.free := rfl
@[simp] theorem emit_pairs (d : Dev) (x : Out) : (d.emit x).pairs = d.pairs := rfl
@[simp] theorem emit_mot (d : Dev) (x : Out) : (d.emit x).mot = d.mot := rfl
@[simp] theorem emit_tsu (d : Dev) (x : Out) : (d.emit x).tsu = d.tsu := rfl
@[simp] theorem emit_cap (d : Dev) (x : Out) : (d.emit x).cap = d.cap := rfl
@[simp] theorem emit_evt (d : Dev) (x : Out) : (d.emit x).evt = d.evt := rfl
@[simp] theorem emit_keep (d : Dev) (x : Out) : (d.emit x).keep = d.keep := rfl
@[simp] theorem emit_load (d : Dev) (x : Out) : (d.emit x).load = d.load := rfl
@[simp] theorem emit_safe (d : Dev) (x : Out) : (d.emit x).safe = d.safe := rfl
@[simp] theorem emit_io (d : Dev) (x : Out) : (d.emit x).io = d.io := rfl
@[simp] theorem emit_mfe (d : Dev) (x : Out) : (d.emit x).mfe = d.mfe := rfl
@[simp] theorem emit_ring (d : Dev) (x : Out) : (d.emit x).ring = d.ring := rfl
@[simp] theorem emit_time (d : Dev) (x : Out) : (d.emit x).time = d.time := rfl
@[simp] theorem emit_red (d : Dev) (x : Out) : (d.emit x).red = d.red := rfl
@[simp] theorem emit_host (d : Dev) (x : Out) : (d.emit x).host = d.host := rfl

@[simp] theorem openUsed_regs (d : Dev) : (d.openUsed).regs = d.regs := rfl
@[simp] theorem openUsed_conf (d : Dev) : (d.openUsed).conf = d.conf := rfl
@[simp] theorem openUsed_st (d : Dev) : (d.openUsed).st = d.st := rfl
@[simp] theorem openUsed_mem (d : Dev) : (d.openUsed).mem = d.mem := rfl
@[simp] theorem openUsed_bad (d : Dev) : (d.openUsed).bad = d.bad := rfl
@[simp] theorem openUsed_out (d : Dev) : (d.openUsed).out = d.out := rfl
@[simp] theorem openUsed_pairs (d : Dev) : (d.openUsed).pairs = d.pairs := rfl
@[simp] theorem openUsed_mot (d : Dev) : (d.openUsed).mot = d.mot := rfl
@[simp] theorem openUsed_tsu (d : Dev) : (d.openUsed).tsu = d.tsu := rfl
@[simp] theorem openUsed_cap (d : Dev) : (d.openUsed).cap = d.cap := rfl
@[simp] theorem openUsed_evt (d : Dev) : (d.openUsed).evt = d.evt := rfl
@[simp] theorem openUsed_keep (d : Dev) : (d.openUsed).keep = d.keep := rfl
@[simp] theorem openUsed_load (d : Dev) : (d.openUsed).load = d.load := rfl
@[simp] theorem openUsed_safe (d : Dev) : (d.openUsed).safe = d.safe := rfl
@[simp] theorem openUsed_io (d : Dev) : (d.openUsed).io = d.io := rfl
@[simp] theorem openUsed_mfe (d : Dev) : (d.openUsed).mfe = d.mfe := rfl
@[simp] theorem openUsed_ring (d : Dev) : (d.openUsed).ring = d.ring := rfl
@[simp] theorem openUsed_time (d : Dev) : (d.openUsed).time = d.time := rfl
@[simp] theorem openUsed_red (d : Dev) : (d.openUsed).red = d.red := rfl
@[simp] theorem openUsed_host (d : Dev) : (d.openUsed).host = d.host := rfl

@[simp] theorem emit_out (d : Dev) (x : Out) : (d.emit x).out = x :: d.out := rfl
@[simp] theorem setMem8_reg (d : Dev) (a : Nat) (v : Byte) (p s o : Nat) : (d.setMem8 a v).reg p s o = d.reg p s o := rfl
@[simp] theorem emit_reg (d : Dev) (x : Out) (p s o : Nat) : (d.emit x).reg p s o = d.reg p s o := rfl
@[simp] theorem openUsed_reg (d : Dev) (p s o : Nat) : d.openUsed.reg p s o = d.reg p s o := rfl

/-! A frame or an ordered set that leaves, or that HDUP holds back, changes the record of outputs alone. -/
@[simp] theorem transmit_regs (d : Dev) (x : Out) : (d.transmit x).regs = d.regs := by unfold Dev.transmit; split <;> rfl
@[simp] theorem transmit_conf (d : Dev) (x : Out) : (d.transmit x).conf = d.conf := by unfold Dev.transmit; split <;> rfl
@[simp] theorem transmit_st (d : Dev) (x : Out) : (d.transmit x).st = d.st := by unfold Dev.transmit; split <;> rfl
@[simp] theorem transmit_mem (d : Dev) (x : Out) : (d.transmit x).mem = d.mem := by unfold Dev.transmit; split <;> rfl
@[simp] theorem transmit_bad (d : Dev) (x : Out) : (d.transmit x).bad = d.bad := by unfold Dev.transmit; split <;> rfl
@[simp] theorem transmit_free (d : Dev) (x : Out) : (d.transmit x).free = d.free := by unfold Dev.transmit; split <;> rfl
@[simp] theorem transmit_pairs (d : Dev) (x : Out) : (d.transmit x).pairs = d.pairs := by unfold Dev.transmit; split <;> rfl
@[simp] theorem transmit_mot (d : Dev) (x : Out) : (d.transmit x).mot = d.mot := by unfold Dev.transmit; split <;> rfl
@[simp] theorem transmit_tsu (d : Dev) (x : Out) : (d.transmit x).tsu = d.tsu := by unfold Dev.transmit; split <;> rfl
@[simp] theorem transmit_cap (d : Dev) (x : Out) : (d.transmit x).cap = d.cap := by unfold Dev.transmit; split <;> rfl
@[simp] theorem transmit_evt (d : Dev) (x : Out) : (d.transmit x).evt = d.evt := by unfold Dev.transmit; split <;> rfl
@[simp] theorem transmit_keep (d : Dev) (x : Out) : (d.transmit x).keep = d.keep := by unfold Dev.transmit; split <;> rfl
@[simp] theorem transmit_load (d : Dev) (x : Out) : (d.transmit x).load = d.load := by unfold Dev.transmit; split <;> rfl
@[simp] theorem transmit_safe (d : Dev) (x : Out) : (d.transmit x).safe = d.safe := by unfold Dev.transmit; split <;> rfl
@[simp] theorem transmit_io (d : Dev) (x : Out) : (d.transmit x).io = d.io := by unfold Dev.transmit; split <;> rfl
@[simp] theorem transmit_mfe (d : Dev) (x : Out) : (d.transmit x).mfe = d.mfe := by unfold Dev.transmit; split <;> rfl
@[simp] theorem transmit_ring (d : Dev) (x : Out) : (d.transmit x).ring = d.ring := by unfold Dev.transmit; split <;> rfl
@[simp] theorem transmit_time (d : Dev) (x : Out) : (d.transmit x).time = d.time := by unfold Dev.transmit; split <;> rfl
@[simp] theorem transmit_red (d : Dev) (x : Out) : (d.transmit x).red = d.red := by unfold Dev.transmit; split <;> rfl
@[simp] theorem transmit_host (d : Dev) (x : Out) : (d.transmit x).host = d.host := by unfold Dev.transmit; split <;> rfl
@[simp] theorem transmit_reg (d : Dev) (x : Out) (p s o : Nat) : (d.transmit x).reg p s o = d.reg p s o := by
  unfold Dev.transmit; split <;> rfl
theorem transmit_hdup (d : Dev) (x : Out) (h : d.on pgSTG STG.HDUP = true) : d.transmit x = d := by simp [Dev.transmit, h]
theorem transmit_out (d : Dev) (x : Out) (h : d.on pgSTG STG.HDUP = false) : d.transmit x = d.emit x := by simp [Dev.transmit, h]

end Sys2Proof.Machine
end

