-- ==== Sys2Proof/Laws/Events.lean ====
section
/-! SUPPORT. What raising an event can change: its PEVT bit, the EVT, TSU and CAPU pages, the event log, the scheduler, the
capture units, the event unit and the outputs; nothing else. -/
namespace Sys2Proof.Machine

/-- A page that a posting may write: EVT, TSU, CAPU. -/
def eventPage (p : Nat) : Prop := p = pgEVT ∨ p = pgTSU ∨ (0x50 ≤ p ∧ p < 0x60)

/-- `d'` differs from `d` only by what raising events of `page` brings about. -/
structure Posted (page : Nat) (d d' : Dev) : Prop where
  conf : d'.conf = d.conf
  st : d'.st = d.st
  free : d'.free = d.free
  pairs : d'.pairs = d.pairs
  mot : d'.mot = d.mot
  keep : d'.keep = d.keep
  load : d'.load = d.load
  safe : d'.safe = d.safe
  io : d'.io = d.io
  mfe : d'.mfe = d.mfe
  ring : d'.ring = d.ring
  time : d'.time = d.time
  red : d'.red = d.red
  host : d'.host = d.host
  reg : ∀ p sel off, p < 1024 → off < 4096 → ¬ eventPage p → (p = page → off ≠ HDR.PEVT.off) → d'.reg p sel off = d.reg p sel off
  mem : ∀ a, a < dramLog ∨ dramLog + 0x4000 ≤ a → d'.mem8 a = d.mem8 a

theorem Posted.refl (page : Nat) (d : Dev) : Posted page d d := by constructor <;> intros <;> rfl

theorem Posted.trans {page : Nat} {d d' d'' : Dev} (h : Posted page d d') (h' : Posted page d' d'') : Posted page d d'' where
  conf := h'.conf.trans h.conf
  st := h'.st.trans h.st
  free := h'.free.trans h.free
  pairs := h'.pairs.trans h.pairs
  mot := h'.mot.trans h.mot
  keep := h'.keep.trans h.keep
  load := h'.load.trans h.load
  safe := h'.safe.trans h.safe
  io := h'.io.trans h.io
  mfe := h'.mfe.trans h.mfe
  ring := h'.ring.trans h.ring
  time := h'.time.trans h.time
  red := h'.red.trans h.red
  host := h'.host.trans h.host
  reg := fun p sel off hp ho he hn => (h'.reg p sel off hp ho he hn).trans (h.reg p sel off hp ho he hn)
  mem := fun a ha => (h'.mem a ha).trans (h.mem a ha)

theorem eventPage_tsu : eventPage pgTSU := Or.inr (Or.inl rfl)
theorem eventPage_evt : eventPage pgEVT := Or.inl rfl
theorem eventPage_capu (u : Fin 16) : eventPage (pgCapu u) := by
  have := u.isLt
  exact Or.inr (Or.inr ⟨by unfold pgCapu; omega, by unfold pgCapu; omega⟩)

theorem eventPage_lt (p : Nat) (h : eventPage p) : p < 1024 := by
  obtain h | h | h := h
  · rw [h]; decide
  · rw [h]; decide
  · omega

/-- A write of a register of an event page. -/
theorem Posted.setReg (page p sel off : Nat) (v : Word) (d : Dev) (hp : eventPage p) (ho : off < 4096) :
    Posted page d (d.setReg p sel off v) where
  conf := rfl
  st := rfl
  free := rfl
  pairs := rfl
  mot := rfl
  keep := rfl
  load := rfl
  safe := rfl
  io := rfl
  mfe := rfl
  ring := rfl
  time := rfl
  red := rfl
  host := rfl
  reg := fun p' sel' off' hp' ho' he _ => by
    apply reg_setReg_key
    intro h
    obtain ⟨h1, _, _⟩ := regKey_inj (eventPage_lt p hp) hp' ho ho' h
    exact he (h1 ▸ hp)
  mem := fun _ _ => rfl

theorem Posted.wrS (page p sel : Nat) (f : Fld) (v : Nat) (d : Dev) (hp : eventPage p) (ho : f.off < 4096) :
    Posted page d (d.wrS p sel f v) := Posted.setReg page p sel f.off _ d hp ho

theorem Posted.wr (page p : Nat) (f : Fld) (v : Nat) (d : Dev) (hp : eventPage p) (ho : f.off < 4096) :
    Posted page d (d.wr p f v) := Posted.wrS page p 0 f v d hp ho

/-- A write of a PEVT register of the page itself. -/
theorem Posted.pevt (page v : Nat) (d : Dev) (hpg : page < 1024) : Posted page d (d.wr page HDR.PEVT v) where
  conf := rfl
  st := rfl
  free := rfl
  pairs := rfl
  mot := rfl
  keep := rfl
  load := rfl
  safe := rfl
  io := rfl
  mfe := rfl
  ring := rfl
  time := rfl
  red := rfl
  host := rfl
  reg := fun p' sel' off' hp' ho' he hn => by
    apply reg_setReg_key
    intro h
    obtain ⟨h1, _, h3⟩ := regKey_inj hpg hp' (by decide : HDR.PEVT.off < 4096) ho' h
    exact hn h1.symm h3.symm
  mem := fun _ _ => rfl

/-- A change of the scheduler, the capture units, the event unit or the outputs. -/
theorem Posted.units (page : Nat) (d : Dev) (t : Tsu) (c : Cap) (e : EvtUnit) (o : List Out) :
    Posted page d { d with tsu := t, cap := c, evt := e, out := o } := by
  constructor <;> intros <;> rfl

theorem Posted.log (page : Nat) (d : Dev) (a : Nat) (bs : List Byte) (h1 : dramLog ≤ a) (h2 : a + bs.length ≤ dramLog + 0x4000) :
    Posted page d (d.setMemBytes a bs) := by
  have hf : ∀ (bs : List Byte) (d : Dev) (a : Nat), d.setMemBytes a bs = { d with mem := (d.setMemBytes a bs).mem, bad := (d.setMemBytes a bs).bad } := by
    intro bs
    induction bs with
    | nil => intros; rfl
    | cons b bs ih => intro d a; simp only [Dev.setMemBytes]; rw [ih]; rfl
  have hmem : ∀ x, x < dramLog ∨ dramLog + 0x4000 ≤ x → (d.setMemBytes a bs).mem8 x = d.mem8 x := fun x hx =>
    mem8_setMemBytes_out bs d a x (by omega)
  rw [hf] at hmem ⊢
  constructor <;> intros <;> first | rfl | (apply hmem; assumption)

theorem Posted.foldl {α : Type} (page : Nat) (f : Dev → α → Dev) (h : ∀ d x, Posted page d (f d x)) (l : List α) :
    ∀ d, Posted page d (l.foldl f d) := by
  induction l with
  | nil => exact Posted.refl page
  | cons x l ih => exact fun d => (h d x).trans (ih _)

/-- What a raising function may do, for pages a posting raises events of in its turn. -/
def RaiseOk (page : Nat) (rz : Raise) : Prop :=
  ∀ p bit arg d, eventPage p → bit < 32 → Posted page d (rz p bit arg d)

/-- A change of the scheduler alone, of the capture units alone. -/
theorem Posted.tsu (page : Nat) (d : Dev) (t : Tsu) : Posted page d { d with tsu := t } := Posted.units page d t d.cap d.evt d.out
theorem Posted.cap (page : Nat) (d : Dev) (c : Cap) : Posted page d { d with cap := c } := Posted.units page d d.tsu c d.evt d.out
theorem Posted.evt (page : Nat) (d : Dev) (e : EvtUnit) : Posted page d { d with evt := e } := Posted.units page d d.tsu d.cap e d.out

theorem posted_showTask (page task : Nat) (d : Dev) : Posted page d (d.showTask task) :=
  Posted.wrS _ _ _ _ _ _ eventPage_tsu (by decide)

theorem posted_noteDepth (page q : Nat) (d : Dev) (hq : q < 16) : Posted page d (d.noteDepth q) := by
  unfold Dev.noteDepth
  refine (Posted.wr page pgTSU (TSU.DMAX.nth 4 q) _ d eventPage_tsu ?_).trans
    (Posted.wr page pgTSU TSU.OMAX _ _ eventPage_tsu (by decide))
  simp only [Fld.nth, TSU.DMAX]
  omega

/-- A priority is one of sixteen (R350). -/
theorem prio_lt (s : Tsu) (task : Nat) : s.prio task < 16 := by
  unfold Tsu.prio
  split
  · decide
  · split
    · decide
    · have : bitsOf (s.cfgOf task).tctl.toNat 1 4 < 2 ^ 4 := bitsOf_lt _ _ _
      omega

theorem posted_addInst (page : Nat) (i : Inst) (d : Dev) : Posted page d (d.addInst i) :=
  ((Posted.tsu page d _).trans (posted_noteDepth page _ _ (prio_lt _ _))).trans (posted_showTask page _ _)

theorem posted_noteTrigger (page task : Nat) (d : Dev) : Posted page d (noteTrigger task d) := by
  unfold noteTrigger
  extract_lets d'
  split
  · exact ((Posted.tsu page d _).trans (Posted.tsu page _ _)).trans (posted_showTask page task _)
  · exact Posted.tsu page d _

theorem posted_trigTask (page : Nat) (rz : Raise) (h : RaiseOk page rz) (task : Nat) (d : Dev) :
    Posted page d (trigTask rz task d) := by
  have w : ∀ (sel : Nat) (f : Fld) (v : Nat) (d : Dev), f.off < 4096 → Posted page d (d.wrS pgTSU sel f v) :=
    fun sel f v d ho => Posted.wrS page pgTSU sel f v d eventPage_tsu ho
  have i : ∀ (sel : Nat) (f : Fld) (d : Dev), f.off < 4096 → Posted page d (d.incS pgTSU sel f) :=
    fun sel f d ho => Posted.wrS page pgTSU sel f _ d eventPage_tsu ho
  unfold trigTask
  refine (posted_noteTrigger page task d).trans ?_
  generalize noteTrigger task d = d
  dsimp only
  split
  · split
    · exact Posted.refl page d
    · split
      · exact (w _ _ _ _ (by decide)).trans (posted_addInst page _ _)
      · split
        · exact (w _ _ _ _ (by decide)).trans (posted_addInst page _ _)
        · exact (i _ _ _ (by decide)).trans (h _ _ _ _ eventPage_tsu (by decide))
  · split
    · exact posted_addInst page _ _
    · split
      · exact i _ _ _ (by decide)
      · exact w _ _ _ _ (by decide)

theorem posted_flagTask (page : Nat) (rz : Raise) (h : RaiseOk page rz) (task : Nat) (a b c : Bool) (d : Dev) :
    Posted page d (flagTask rz task a b c d) := by
  unfold flagTask
  extract_lets cfg t aen ben cen old f met
  split
  · exact posted_trigTask page rz h task d
  · exact Posted.tsu page d _

theorem posted_tsuEvent (page : Nat) (rz : Raise) (h : RaiseOk page rz) (n : Nat) (d : Dev) :
    Posted page d (tsuEvent rz n d) := by
  unfold tsuEvent
  refine Posted.foldl page _ (fun d task => ?_) _ d
  dsimp only
  split
  · exact posted_flagTask page rz h task _ _ _ d
  · exact Posted.refl page d

theorem posted_wrCapu (page : Nat) (u : Fin 16) (f : Fld) (v : Nat) (d : Dev) (ho : f.off < 4096) :
    Posted page d (d.wr (pgCapu u) f v) := Posted.wr page _ f v d (eventPage_capu u) ho

theorem posted_capAccept (page : Nat) (rz : Raise) (h : RaiseOk page rz) (u : Fin 16) (t flag : Nat) (d : Dev) :
    Posted page d (capAccept rz u t flag d) := by
  have hu := eventPage_capu u
  unfold capAccept
  refine Posted.trans ?_ (h _ _ _ _ hu (by decide))
  refine Posted.trans ?_ (posted_wrCapu page u _ _ _ (by decide))
  refine Posted.trans ?_ (posted_wrCapu page u _ _ _ (by decide))
  refine Posted.trans ?_ (Posted.setReg page _ _ _ _ _ hu (by decide))
  refine Posted.trans ?_ (Posted.setReg page _ _ _ _ _ hu (by decide))
  exact Posted.cap page d _

theorem posted_capTrigger (page : Nat) (rz : Raise) (h : RaiseOk page rz) (u : Fin 16) (t flag : Nat) (d : Dev) :
    Posted page d (capTrigger rz u t flag d) := by
  unfold capTrigger
  dsimp only
  split
  · split
    · exact Posted.refl page d
    · exact posted_capAccept page rz h u t flag d
  · split
    · exact Posted.refl page d
    · exact (posted_wrCapu page u _ _ d (by decide)).trans (Posted.cap page _ _)
  · exact Posted.refl page d

theorem posted_capEvent (page : Nat) (rz : Raise) (h : RaiseOk page rz) (n : Nat) (d : Dev) :
    Posted page d (capEvent rz n d) := by
  unfold capEvent
  refine Posted.foldl page _ (fun d u => ?_) _ d
  split
  · exact posted_capTrigger page rz h u _ _ d
  · exact Posted.refl page d

theorem posted_msixRequest (page : Nat) (v : Fin 32) (d : Dev) : Posted page d (msixRequest v d) := by
  unfold msixRequest
  extract_lets clear
  split
  · exact Posted.units page d d.tsu d.cap _ _
  · exact Posted.evt page d _

theorem posted_wrEvt (page : Nat) (f : Fld) (v : Nat) (d : Dev) (ho : f.off < 4096) : Posted page d (d.wr pgEVT f v) :=
  Posted.wr page _ f v d eventPage_evt ho

theorem bytesLE_length (n v : Nat) : (bytesLE n v).length = n := by
  induction n generalizing v with
  | zero => rfl
  | succ n ih => simp [bytesLE, ih]

/-- The event unit, for an event number of the 256 there are. -/
theorem posted_eventUnit (page : Nat) (rz : Raise) (h : RaiseOk page rz) (n arg : Nat) (hn : n < 256) (d : Dev) :
    Posted page d (eventUnit rz n arg d) := by
  have hlog : ∀ d : Dev, d.rd pgEVT EVT.LOGW < 1024 := fun d => bitsOf_lt _ _ _
  unfold eventUnit
  extract_lets pend d1 ert d2
  have h1 : Posted page d d1 := posted_wrEvt page pend _ d (by simp only [pend, Fld.nth, EVT.EPEND]; omega)
  have h2 : Posted page d1 d2 := by
    show Posted page d1 (if _ then _ else _)
    split
    · exact posted_msixRequest page _ _
    · exact Posted.refl page _
  refine (h1.trans h2).trans ?_
  split
  · split
    · exact (posted_wrEvt page _ _ _ (by decide)).trans (h _ _ _ _ eventPage_evt (by decide))
    · have := hlog d2
      refine Posted.trans (Posted.trans (Posted.trans ?_ (Posted.evt page _ _)) (posted_wrEvt page _ _ _ (by decide)))
        (posted_wrEvt page _ _ _ (by decide))
      refine Posted.trans ?_ (posted_wrEvt page _ _ _ (by decide))
      refine Posted.log page _ _ _ (by omega) ?_
      have h3 : ∀ x y z w : Nat, (bytesLE 8 x ++ [BitVec.ofNat 8 y, 0] ++ bytesLE 2 z ++ bytesLE 4 w).length = 16 := by
        intro x y z w
        simp only [List.length_append, bytesLE_length, List.length_cons, List.length_nil]
      rw [h3]
      omega
  · exact Posted.refl page _

/-- The event numbers of the pages are below 256 (*Event numbers*). -/
theorem eventNo_lt (page bit : Nat) (hb : bit < 32) : eventNo page bit < 256 := by
  unfold eventNo
  split
  all_goals try omega
  all_goals
    rename_i h
    have h1 := List.find?_some h
    simp only [Bool.and_eq_true, decide_eq_true_eq] at h1
    simp only [Cls.base, Cls.count] at h1
    omega

theorem eventPage_isPage (p : Nat) (h : eventPage p) : p < 1024 := eventPage_lt p h

/-- Raising an event writes what `Posted` says. -/
theorem posted_raiseN (fuel : Nat) : ∀ (page p bit arg : Nat) (d : Dev), page < 1024 → (p = page ∨ eventPage p) → bit < 32 →
    Posted page d (raiseN fuel p bit arg d) := by
  have pevt : ∀ (page p v : Nat) (d : Dev), page < 1024 → (p = page ∨ eventPage p) → Posted page d (d.wr p HDR.PEVT v) := by
    intro page p v d hp h
    rcases h with h | h
    · exact h ▸ Posted.pevt p v d (h ▸ hp)
    · exact Posted.wr page p _ v d h (by decide)
  induction fuel with
  | zero => exact fun page p bit arg d hp h _ => pevt page p _ d hp h
  | succ fuel ih =>
    intro page p bit arg d hp h hb
    have hn := eventNo_lt p bit hb
    have hr : RaiseOk page (raiseN fuel) := fun q b a d' hq hb' => ih page q b a d' hp (Or.inr hq) hb'
    have h0 : RaiseOk page (fun _ _ _ d => d) := fun _ _ _ d' _ _ => Posted.refl page d'
    unfold raiseN
    extract_lets d1 n d2
    have h1 : Posted page d d1 := pevt page p _ d hp h
    refine h1.trans ?_
    split
    · refine Posted.trans ?_ (posted_capEvent page _ hr n _)
      refine Posted.trans ?_ (posted_tsuEvent page _ hr n _)
      refine posted_eventUnit page _ ?_ n arg hn d1
      split
      · exact h0
      · exact hr
    · exact Posted.refl page _

/-- Raising an event of a page changes only its PEVT, the EVT, TSU and CAPU pages, the event log, and the units behind them. -/
theorem posted_raise (page bit arg : Nat) (d : Dev) (hp : page < 1024) (hb : bit < 32) : Posted page d (raise page bit arg d) := by
  unfold raise
  split
  · exact posted_raiseN 40 page page bit arg d hp (Or.inl rfl) hb
  · exact Posted.evt page d _

/-- Within an evaluation, an event waits for the commit behind those before it (R43). -/
theorem raise_held (page bit arg : Nat) (d : Dev) (l : List (Nat × Nat × Nat)) (h : d.evt.hold = some l) :
    raise page bit arg d = { d with evt := { d.evt with hold := some (l ++ [(page, bit, arg)]) } } := by
  simp only [raise, h]

/-- Outside an evaluation, an event is raised at once. -/
theorem raise_now (page bit arg : Nat) (d : Dev) (h : d.evt.hold = none) : raise page bit arg d = raiseN 40 page bit arg d := by
  simp only [raise, h]

/-- A register outside what raising an event may write keeps its value. -/
theorem reg_raise (page bit arg p sel off : Nat) (d : Dev) (hp : page < 1024) (hb : bit < 32) (hp' : p < 1024) (ho : off < 4096)
    (he : ¬ eventPage p) (hn : p = page → off ≠ HDR.PEVT.off) : (raise page bit arg d).reg p sel off = d.reg p sel off :=
  (posted_raise page bit arg d hp hb).reg p sel off hp' ho he hn

theorem rd_raise (page bit arg p : Nat) (f : Fld) (d : Dev) (hp : page < 1024) (hb : bit < 32) (hp' : p < 1024)
    (ho : f.off < 4096) (he : ¬ eventPage p) (hn : p = page → f.off ≠ HDR.PEVT.off) :
    (raise page bit arg d).rd p f = d.rd p f := by
  unfold Dev.rd Dev.rdS
  rw [reg_raise page bit arg p 0 f.off d hp hb hp' ho he hn]

/-- The PEVT bit of an event that was raised at once is set, and the other bits of PEVT stand, on a page that postings do not
write. -/
theorem pevt_raise (page bit arg : Nat) (d : Dev) (hp : page < 1024) (hb : bit < 32) (he : ¬ eventPage page)
    (hh : d.evt.hold = none) : (raise page bit arg d).rd page HDR.PEVT = d.rd page HDR.PEVT ||| 2 ^ bit := by
  have hlt : d.rd page HDR.PEVT ||| 2 ^ bit < 2 ^ 32 :=
    Nat.or_lt_two_pow (bitsOf_lt _ _ _) (Nat.pow_lt_pow_right (by decide) hb)
  have h1 : (d.wr page HDR.PEVT (d.rd page HDR.PEVT ||| 2 ^ bit)).rd page HDR.PEVT = d.rd page HDR.PEVT ||| 2 ^ bit := by
    rw [rd_wr_self _ _ _ _ (by decide)]
    exact Nat.mod_eq_of_lt hlt
  have hr : RaiseOk pgEVT (raiseN 39) := fun q b a d' hq hb' => posted_raiseN 39 pgEVT q b a d' (by decide) (Or.inr hq) hb'
  have h0 : RaiseOk pgEVT (fun _ _ _ d => d) := fun _ _ _ d' _ _ => Posted.refl pgEVT d'
  have hn := eventNo_lt page bit hb
  rw [raise_now page bit arg d hh]
  unfold raiseN
  extract_lets d1 n d2
  have h2 : d1.rd page HDR.PEVT = d.rd page HDR.PEVT ||| 2 ^ bit := h1
  split
  · have h3 : Posted pgEVT d1 d2 := by
      refine posted_eventUnit pgEVT _ ?_ n arg hn d1
      split
      · exact h0
      · exact hr
    have h4 := (h3.trans (posted_tsuEvent pgEVT _ hr n _)).trans (posted_capEvent pgEVT _ hr n _)
    unfold Dev.rd Dev.rdS at h2 ⊢
    rw [h4.reg page 0 _ hp (by decide) he (fun h => absurd (Or.inl h) he), h2]
  · exact h2

/-- Raising an event leaves the stage alone. -/
theorem stage_raise (page bit arg : Nat) (d : Dev) (hp : page < 1024) (hb : bit < 32) :
    (raise page bit arg d).stage = d.stage :=
  rd_raise page bit arg pgSTG STG.STAGE d hp hb (by decide) (by decide) (by unfold eventPage; decide)
    (fun _ => by decide)

/-- An event that its page does not post, or that the KEEPER stage holds back, only sets its PEVT bit (R593, R598). -/
theorem raise_silent (page bit arg : Nat) (d : Dev) (hh : d.evt.hold = none)
    (h : bitOf (d.rd page HDR.PEVE) bit = false ∨ d.on page HDR.EVO = false ∨ d.stage = 0) :
    raise page bit arg d = d.wr page HDR.PEVT (d.rd page HDR.PEVT ||| 2 ^ bit) := by
  have h1 : ∀ v, (d.wr page HDR.PEVT v).rd page HDR.PEVE = d.rd page HDR.PEVE := fun v =>
    rd_wr_key _ _ _ _ _ _ (by unfold regKey HDR.PEVT HDR.PEVE; dsimp only; omega)
  have h2 : ∀ v, (d.wr page HDR.PEVT v).on page HDR.EVO = d.on page HDR.EVO := fun v => by
    unfold Dev.on
    rw [rd_wr_key _ _ _ _ _ _ (by unfold regKey HDR.PEVT HDR.EVO; dsimp only; omega)]
  have h3 : ∀ v, (d.wr page HDR.PEVT v).stage = d.stage := fun v =>
    rd_wr_key _ _ _ _ _ _ (by unfold regKey HDR.PEVT STG.STAGE pgSTG; dsimp only; omega)
  rw [raise_now page bit arg d hh]
  unfold raiseN
  dsimp only
  rw [h1, h2, h3]
  rcases h with h | h | h <;> simp [h]

end Sys2Proof.Machine
end

