-- ==== Sys2Proof/Laws/Rings.lean ====
section
/-! SUPPORT. What the receive side of a ring does with a frame before it is used: nothing without power or block lock,
forwarding and a count for a wrong header, and for a good frame of another station what `Dev.passed` says, then its use. -/
namespace Sys2Proof.Machine

theorem forwardFrame_myst (r : Fin 4) (f : RawFrame) (d : Dev) : (forwardFrame r f d).myst = d.myst := by
  unfold forwardFrame
  dsimp only
  split
  · rfl
  · simp only [Dev.myst, Dev.rd, Dev.rdS, transmit_reg]

theorem receive_deaf (types : List Nat) (r : Fin 4) (f : RawFrame) (use : Dev → Dev) (d : Dev) (h : d.hears (.ring r f.port) = false) :
    receive types r f use d = d := by simp [receive, h]

theorem receive_badHeader (types : List Nat) (r : Fin 4) (f : RawFrame) (use : Dev → Dev) (d : Dev)
    (h : d.hears (.ring r f.port) = true) (hc : hcrcOk f.sof = false) :
    receive types r f use d =
      (d.transmit (.frame (.ring r (match f.port with | .e => .w | .w => .e)) f.sof f.data f.crc)).inc (pgRing r) RING.HCRC := by
  simp only [receive, h, hc, forwardFrame, Bool.not_true, Bool.not_false, Bool.false_and, Bool.false_eq_true, if_true, if_false] <;> rfl

/-- A good frame of another station, of a type the event takes: `use` on what it leaves. -/
theorem receive_good (types : List Nat) (r : Fin 4) (f : RawFrame) (t : Nat) (use : Dev → Dev) (d : Dev)
    (ht : types.contains t = true) (h : d.getsFrame r f t) : receive types r f use d = use (d.passed r f) := by
  obtain ⟨h1, h2, h3, h4, h5⟩ := h
  simp only [receive, h1, h2, h3, ht, h5, Dev.passed]
  have hm := forwardFrame_myst r f (Dev.mapRg r (fun g => { g with listen := (d.at f.tag).st }) (d.at f.tag))
  have hd : (Dev.mapRg r (fun g => { g with listen := (d.at f.tag).st }) (d.at f.tag)).myst = d.myst := rfl
  simp [hm, hd, h4]

/-- The first copy of a frame in the window of its slot: `use` on what `Dev.noted` says. -/
theorem receiveSync_accepts (types : List Nat) (r : Fin 4) (f : RawFrame) (t n : Nat) (use : Dev → Dev) (d : Dev)
    (ht : types.contains t = true) (h : d.getsFrame r f t) (ha : d.accepts r f n) :
    receiveSync types r f use d = use (d.noted r f n) := by
  obtain ⟨a1, a2, a3, a4⟩ := ha
  rw [receiveSync, receive_good types r f t _ d ht h]
  have a3' : (hdrOf f.sof).src ∉ ((d.passed r f).rg r).muted := by simpa using a3
  have a4' : n ∉ ((d.passed r f).rg r).accepted := by simpa using a4
  simp [a1, acceptCopy, a2, a3', a4', Dev.noted, RingDyn.hearing]

end Sys2Proof.Machine
end

