-- ==== Sys2Proof/WellFormed.lean ====
section
/-! DEFINITION. Which commands are well formed: the operands that no type bounds lie in the range the spec gives the thing they
stand for. A command that is not well formed is still given a meaning by `exec`. -/
namespace Sys2Proof

/-- A frame payload of at most 511 blocks, in whole 64-bit words. -/
def frameFits (f : RawFrame) : Bool := decide (f.data.length ≤ 4088) && f.data.length % 8 == 0

/-- A word of a page (R562, R564). -/
def registerOffset (off : Nat) : Bool := decide (off < 0x1000) && off % 4 == 0

/-- A word of the calibration set (R547). -/
def setWord (off : Nat) : Bool := registerOffset off && decide (0x080 ≤ off) && decide (off ≤ 0x100)

def bytesFit (n : Nat) (l : List Byte) : Bool := decide (l.length ≤ n)

/-- A request of BAR0 or of the SPI port: an SPI frame carries a 32-bit address and one whole word (R564, R589). -/
def accessFits (p : Path) (addr len be : Nat) : Bool :=
  match p with
  | .pcie => decide (addr < 2 ^ 24) && decide (1 ≤ len)
  | .spi => decide (addr < 2 ^ 32) && len == 1 && be == 15

def writeFits (q : BusWrite) : Bool := accessFits q.path q.addr q.len q.be.toNat
def readFits (q : BusRead) : Bool := accessFits q.path q.addr q.len q.be.toNat

/-- A register of a page with a window selection. -/
def refFits (r : RegRef) : Bool := decide (r.page < 1024) && decide (r.sel < 4096) && registerOffset r.off

/-- A request within a BAR, of at most a page of 4 KB (R577). -/
def burstFits (size off n : Nat) : Bool := decide (off + n ≤ size) && decide (n ≤ 4096)

/-- A place that exists: a byte of the shared SRAM or of the DRAM. -/
def siteFits (s : EccSite) : Bool :=
  match s with
  | .pair _ _ => true
  | .shared off => decide (off < 0xB8_0000)
  | .dram off => decide (off < 0x1000_0000)

/-- The sections of an image: rings and pages within their tables. -/
def imageFits (c : ImageCfg) : Bool :=
  decide (c.rings.length ≤ 4) && (c.rings.all fun r => decide (r.slots.length ≤ 256)) && (c.pages.all fun x => refFits x.1) &&
  bytesFit 0x100_0000 c.cam && (match c.calu with
    | some l => l.length == 33
    | none => true)

/-- Is a command well formed? -/
def Instr.wf : Instr → Bool
  | .imageReadComplete img => bytesFit 0x100_0000 (img.getD [])
  | .imageAuthComplete cfg => imageFits cfg
  | .calValidationDone codes => decide (codes.length ≤ 4)
  | .calSetWrite _ off _ => setWord off
  | .axisFrameReceive _ f => frameFits f
  | .ioFrameReceive _ f => frameFits f
  | .syncFrameReceive _ f => frameFits f
  | .commandFrameReceive _ f => frameFits f
  | .coldstartFrameReceive _ f => frameFits f
  | .mirrorFrameReceive _ f => frameFits f
  | .asyncFrameReceive _ f => frameFits f
  | .rangingReplyReceive _ f => frameFits f
  | .sysSyncFrameReceive _ f => frameFits f
  | .sysAsyncFrameReceive _ f => frameFits f
  | .axpWrite _ _ off _ => registerOffset off
  | .uncorrectableEcc site => siteFits site
  | .ringCompareWrite _ off _ => registerOffset off && decide (0x0A0 ≤ off) && decide (off ≤ 0x0BC)
  | .registerWrite q => writeFits q
  | .parityScrub bad => bad.all refFits
  | .bar2Write off bytes => burstFits 0x1000_0000 off.toNat bytes.length
  | .bar4Write off bytes => burstFits 0x100_0000 off.toNat bytes.length
  | .dmaDescriptor _ desc data _ => desc.length == 32 && decide (data.length < 2 ^ 24)
  | .spiRead mosi => mosi.headD 0 == 1
  | .spiWrite mosi => mosi.headD 0 == 2
  | .spiFrameAbort mosi => decide (mosi.length < (if mosi.headD 0 = 2 then 10 else 6))
  | .registerRead q => readFits q
  | .repairInstall _ blk => blk.length == 32
  | .porstAssert | .porstRelease _ _ _ | .vkeepLoss | .perstAssert | .trstAssert | .supplyOutOfRange
  | .pllLossOfLock | .presenceDebounced | .presenceLost | .keeperExit | .lanternPowerupDone
  | .selfTestComplete _ _ _ | .imageReadTimeout | .programComplete | .goFull _ _ | .fullEntry | .goLantern _ _
  | .load _ _ | .unload _ _ | .stgLantern _ _ | .park _ _ | .srst _ _ | .stgClrcnt _ _ | .watchdogKick _ _
  | .watchdogWarn | .watchdogExpire | .watchdogRestart | .wdrunClear | .restoreFactory _ _ | .validate _ _
  | .progkey _ _ | .bumpver _ _ | .otpProgramDone _ | .tick _ | .endOfUpstreamWindow | .beaconMissLimit
  | .ringPoolDisagree _ | .slotMute _ _ | .ownSlotViolated _ | .cwd | .heldRequestExpire | .nitStart
  | .asyncWindowStart | .setrate _ _ | .rateSwitch | .timClrcnt _ _ | .pixctlAcq _ | .pixctlPub _
  | .blockLockAcquire _ | .blockLockLoss _ | .breakDetect _ _ | .healSend _ _ | .mirrorSlotEnd | .rejoin _ _
  | .stopOsReceive _ _ | .breakOsReceive _ _ | .healOsReceive _ _ | .unknownOsReceive _ _ _
  | .frameTransmit _ _ _ _ | .range _ _ _ | .rangingComplete _ | .geoAct _ | .resettleTimeout _ | .grant _ _ _
  | .withdraw _ _ _ | .ringClrcnt _ _ _ | .insertByGrant _ | .insertLowerByWithdraw _ | .pdxReceive _ _
  | .sysSyncAcquire | .sysSyncLoss _ | .sysClrcnt _ _ | .listenTimeout _ | .coldstartComplete _
  | .integrateToSync _ | .headRingTakeover _ | .axisTaskRun _ _ | .msixHoldExpire _ | .enable _ _ _
  | .disable _ _ _ | .axpHalt _ _ _ | .start _ _ _ | .swap _ _ _ | .clear _ _ _ | .moor _ _ _ | .axpClrcnt _ _ _
  | .deferredEvaluation _ | .learn _ _ | .freeze _ _ | .seaOff _ _ | .seaReset _ _ | .copy _ _ | .seaClrcnt _ _
  | .seaDone _ | .move _ _ | .queue _ _ | .flush _ _ | .home _ _ | .prfClrcnt _ _ | .gstart _ _ _ | .ghold _ _ _
  | .gresume _ _ _ | .gabort _ _ _ | .pgrpClrcnt _ _ _ | .nop _ _ | .mac _ _ | .msu _ _ | .mpy _ _ | .ftap _ _
  | .adda _ _ | .suba _ _ | .clra _ _ | .add _ _ | .sub _ _ | .and _ _ | .or _ _ | .xor _ _ | .ash _ _ | .lsh _ _
  | .mov _ _ | .cmp _ _ | .min _ _ | .max _ _ | .abs _ _ | .sat _ _ | .lda _ _ | .sta _ _ | .sha _ _ | .expa _ _
  | .rnda _ _ | .sata _ _ | .ldaw _ _ | .staw _ _ | .sincos _ _ | .divi _ _ | .divs _ _ | .divf _ _ | .drem _ _
  | .mova _ _ | .movs _ _ | .rdt _ _ | .jmp _ _ | .call _ _ | .ret _ _ | .rep _ _ | .brkl _ _ | .yield _ _
  | .done _ _ | .post _ _ | .bkpt _ _ | .ld _ _ | .st _ _ | .pairFault _ _ | .cepHalt _ _ _ | .step _ _ _
  | .cepResume _ _ _ | .bist _ _ _ | .inject _ _ _ | .revive _ _ _ | .cepClrcnt _ _ _ | .bistComplete _ _
  | .cwdatAccess _ _ _ _ | .taskDispatch _ _ | .taskResume _ | .replayTask _ | .trigger _ _ | .cancel _ _
  | .tsuClrcnt _ _ | .tsuWriteAdopt _ | .fbuCountStep _ _ _ _ _ | .comparePulseEnd _ _ _ | .lineFault _ _
  | .serialFrame _ _ _ | .indexEdge _ _ | .latchEdge _ _ _ | .latchLevelDebounce _ _ | .cvalWrite _ _ _ _
  | .fbuConfigWrite _ _ _ _ | .larm _ _ _ | .ldisarm _ _ _ | .cdisarm _ _ _ | .clrerr _ _ _ | .fbuClrcnt _ _ _
  | .rdisarm _ _ | .sguClrcnt _ _ | .stepPulse _ _ | .sgcClrcnt _ _ _ | .pulseInputEdge _ _ _ _
  | .safeInputDemand _ _ _ | .safeDiscrepancy _ | .stoFbMismatch _ | .stoDelayExpire _ | .trip _ _ | .release _ _
  | .safClrcnt _ _ | .mfcTrigger _ _ | .scanStart _ _ | .settleEnd _ _ | .apertureEnd _ _ | .rundownComplete _ _ _
  | .burnoutTestComplete _ _ _ | .overloadTrip _ _ _ | .dumpComplete _ _ | .wakeStart _ _ | .wakeComplete _ _
  | .lineCrossing _ | .lineLost _ | .mfeDieFault _ | .mfeFaultRecovery | .conv _ _ _ | .mfcAbort _ _ _
  | .mfcClrcnt _ _ _ | .mfeClrcnt _ _ | .edgeProbeEdge _ _ _ | .autoTimeout _ _ | .rearmDone _ _ | .arm _ _ _
  | .capuStop _ _ _ | .force _ _ _ | .capuReset _ _ _ | .capuClrcnt _ _ _ | .capClrcnt _ _ | .rcntWrite _ _ _
  | .hrelWrite _ _ _ | .throttle | .journalledWrite _ _ _ | .repairTimeout _ | .handover _ _ | .silence _ _
  | .resync _ _ | .mandate _ _ | .clrreq _ _ | .redClrcnt _ _ | .mgmtHintWrite _ _ | .joinComplete _
  | .bulkPassEnd | .snapshotComplete | .replayCatchUp | .checkComplete | .resyncTimeout | .rcRead _ _
  | .pairLowRead _ _ | .pairLowWrite _ _ _ | .heldLowWordTimeout _ | .aliasSet _ _ _ | .aliasClr _ _ _
  | .aliasTog _ _ _ | .dmaTransfer _ _ | .dmcResume _ _ | .dmcClrcnt _ _ | .mailboxTimeout _ | .rxrWrite _ _
  | .txwWrite _ _ | .hifClrcnt _ _ | .mbreset _ _ | .safownWrite _ _ | .logrWrite _ _ | .evtClrcnt _ _
  | .logreset _ _ | .glbClrcnt _ _ | .spmClrcnt _ _ | .imageReadStart | .safeInputOk _ _ _ | .stoFbMatch _
  | .lineFaultEnd _ _ | .presentNChange _ | .perstRelease | .compareFiringInTurn _ _ _ => true

end Sys2Proof
end

