-- ==== Sys2Proof/Tests/Slice0.lean ====
section
/-! SUPPORT. Tests on small states: the checks of WellFormed, examples of the spec, and, for every statement with hypotheses,
states and operands that meet them (`meets_<statement>`). -/
open Sys2Proof Sys2Proof.Machine
namespace Sys2Proof.Tests
set_option maxRecDepth 20000

/-- A device with PORST_N and PERST_N high, in a stage, with fields of registers set. -/
def mk (stage : Nat) (l : List (Nat × Fld × Nat)) : State :=
  { State.reset with
    dev := l.foldl (fun (d : Dev) (x : Nat × Fld × Nat) => d.wr x.1 x.2.1 x.2.2)
      ({ Dev.reset 0 with keep := { Keep.reset with porst := false, perst := false } }.wr pgSTG STG.STAGE stage) }

/-- The same with more of the device changed. -/
def mkf (stage : Nat) (l : List (Nat × Fld × Nat)) (f : Dev → Dev) : State :=
  { mk stage l with dev := f (mk stage l).dev }

/-! ## Ill-formed commands -/

/-- A frame of `n` zero bytes. -/
def zeros (n : Nat) : RawFrame := { port := .e, sof := 0, data := List.replicate n 0, crc := 0, bad := false, tag := 0 }

theorem test_wf_good : Instr.wf (.axpWrite .spi 3 0x040 1) = true ∧ Instr.wf (.axisFrameReceive 0 (zeros 8)) = true ∧
    Instr.wf (.registerWrite ⟨.pcie, 0x1040, 1, 0xF, 0⟩) = true ∧ Instr.wf (.spiRead [1]) = true := by decide
theorem test_wf_frame : Instr.wf (.axisFrameReceive 0 (zeros 7)) = false ∧ Instr.wf (.mirrorFrameReceive 0 (zeros 9)) = false ∧
    Instr.wf (.sysSyncFrameReceive .e (zeros 1)) = false := by decide
theorem test_wf_offset : Instr.wf (.axpWrite .spi 3 0x042 1) = false ∧ Instr.wf (.axpWrite .spi 3 0x1000 1) = false ∧
    Instr.wf (.calSetWrite .spi 0x07C 1) = false ∧ Instr.wf (.calSetWrite .spi 0x104 1) = false ∧
    Instr.wf (.ringCompareWrite .spi 0x09C 0) = false := by decide
theorem test_wf_lists : Instr.wf (.repairInstall 0 []) = false ∧ Instr.wf (.calValidationDone [[], [], [], [], []]) = false ∧
    Instr.wf (.dmaDescriptor 0 [] [] false) = false := by decide
theorem test_wf_access : Instr.wf (.registerWrite ⟨.pcie, 2 ^ 24, 1, 0xF, 0⟩) = false ∧
    Instr.wf (.registerWrite ⟨.spi, 0, 2, 0xF, 0⟩) = false ∧ Instr.wf (.registerRead ⟨.spi, 0, 1, 0x3⟩) = false ∧
    Instr.wf (.registerRead ⟨.pcie, 0, 0, 0xF⟩) = false := by decide
theorem test_wf_site : Instr.wf (.uncorrectableEcc (.shared 0xB80000)) = false ∧
    Instr.wf (.uncorrectableEcc (.dram 0x10000000)) = false ∧ Instr.wf (.parityScrub [⟨1024, 0, 0⟩]) = false ∧
    Instr.wf (.parityScrub [⟨0, 0, 2⟩]) = false := by decide
theorem test_wf_burst : Instr.wf (.bar2Write 0xFFFFFFF [none, none]) = false ∧
    Instr.wf (.bar4Write 0xFFFFFF [none, none]) = false := by decide
theorem test_wf_spi : Instr.wf (.spiRead [2]) = false ∧ Instr.wf (.spiWrite [1]) = false ∧
    Instr.wf (.spiFrameAbort [1, 0, 0, 0, 0, 0]) = false := by decide
theorem test_wf_image : Instr.wf (.imageAuthComplete
    { program := [], xdata := [], ydata := [], paired := false, ncfg := 0, sysHop := 0, routes := [], rings := [], axes := [],
      pages := [(⟨0, 0, 2⟩, 0)], osize := 0, mimg := [], gpimg := 0, limg := [], calu := none, cam := [], steps := [] }) = false :=
  by decide

/-! ## Queue and decoder -/

theorem test_no_word : decodeTableWord 32 0 = none ∧ State.reset.withFetchWord 32 5 = State.reset := ⟨rfl, rfl⟩
theorem meets_StepRunsFront : ({ State.reset with pending := [.tick 0, .cwd] } : State).pending = .tick 0 :: [.cwd] := rfl
theorem meets_StepIdles : State.reset.pending = [] := rfl
theorem test_step_front : step { State.reset with pending := [.tick 0] } = .next State.reset := rfl

/-! ## Examples of the spec -/

/-- *SPI frames*: a READ of GLB.IDENT in KEEPER, both CRC-8 values and the MISO bytes. -/
theorem test_spi_ident_request : crc8 [0x01, 0x00, 0x00, 0x00, 0x40] = 0xA5 := by decide
theorem test_spi_ident_response :
    (spiReadAt 14 0x40 (mk 0 []).dev).out = [.miso
      [0xFF, 0xFF, 0xFF, 0xFF, 0xFF, 0xFF, 0xFF, 0xFF, 0x00, 0x41, 0x28, 0xB1, 0x00, 0xC5]] := by decide
/-- *Ranging* of ring B: PTAB9, de[12] and what follows from the geometry. -/
def ringB : List Word := rangedPtab 0 77140 [(9, -20000, 1520), (12, 4000, 1552)]
theorem test_ranging_ptab : ringB.getD 9 0 = 0x5F006CA2 ∧ (ringB.getD 12 0).toNat % 2 ^ 20 = 39794 := by decide
theorem test_ranging_geometry : let g := geoOf ringB
    g.tloop = 78676 ∧ g.pe 0 9 = some 27810 ∧ g.pe 9 0 = some 47810 ∧ g.pe 9 12 = some 10464 ∧ g.pe 12 9 = some 65140 := by decide
/-- *Correction per double cycle* of head 0: offsets and rates. -/
theorem test_fta_offsets : fta [24, 30, -16, 8, 14, 380, 0] = 15 := by decide
theorem test_fta_rates : fta [4, 3, 4, 5, 5, 10, 0] = 4 := by decide
/-- The third line of the biquad, word 0x0454_0050_1005_E100. -/
theorem test_biquad_word : fmtP 0x0454_0050_1005_E100 =
    ⟨0, 5, 4, 0, 0, 0, ⟨1, 4, 0, 1, 0, 0, 0⟩, ⟨1, 7, 4, 1, 0, 0, 0⟩⟩ ∧ 0x0454_0050_1005_E100 / 2 ^ 58 = 1 := by decide
/-- PIXO.TAKEN of cycle 3,200,018. -/
theorem test_taken : (outputSwap 3200018 (mk 1 [(pgTIM, TIM.FRESH, 1), (pgTIM, TIM.PEND, 1)]).dev).rd pgTIM TIM.TAKEN = 0xD412 := by
  decide
/-- A second holder of an IO slot meets the first where bases agree in the smaller factor (R51). -/
theorem test_slot_sharing : (1 % 4 ≠ 3 % 4) ∧ (1 % 2 = 1 % 2) := by decide

/-! ## Hypotheses of the statements: general, stage, commands of the units -/

/-- All working pairs tested and idle, FULLOK, READY in LANTERN. -/
def ready : State :=
  let l := (List.range 16).flatMap fun p => [(pgCep p, CEP.BISTOK, 1), (pgCep p, CEP.PSTATE, 1)]
  let s := mk 1 ([(pgSTG, STG.LSTEP, 6), (pgSTG, STG.FULLOK, 1)] ++ l)
  { s with dev := s.dev.setReg pgSTG 0 STG.IMGCRC.off (BitVec.ofNat 32 s.dev.imgCrc) }

theorem meets_FusesOnlyForward : State.reset.fuse.follows Fuse.reset ∧ step State.reset = .next State.reset :=
  ⟨by unfold Fuse.follows; decide, rfl⟩
theorem meets_CommandsKeepQueueAndFuses : ∀ ok, Instr.tick 0 ≠ .otpProgramDone ok := by
  intro ok h; cases h
theorem meets_StageCommandsCarriedOut :
    (ready.dev.takes .spi pgSTG ∧ ready.dev.takes .pcie pgSTG ∧ ready.dev.fullOk = true) ∧
    (let s := mk 2 []; s.dev.takes .pcie pgSTG ∧ s.dev.stage = 2 ∧ s.dev.insertsLow = true) ∧
    (let s := mk 1 [(pgSTG, STG.LSTEP, 3)]; s.dev.takes .spi pgSTG ∧ s.dev.stage = 1 ∧ s.dev.lstep = 3 ∧ s.dev.insertsLow = true ∧
      s.dev.on pgSYS SYS.INS = false ∧ (2#16).toNat ≤ 2) ∧
    (let s := mk 1 [(pgSTG, STG.LSTEP, 6)]; s.dev.takes .pcie pgSTG ∧ s.dev.stage = 1 ∧ s.dev.lstep = 6 ∧ s.dev.role = roNONE ∧
      s.dev.insertsLow = true ∧ s.dev.on pgSYS SYS.INS = false) ∧
    (let s := mk 1 [(pgRED, RED.ROLE, 3)]; s.dev.takes .pcie pgSTG ∧ s.dev.stage = 1 ∧ s.dev.role = roSILENT ∧
      s.dev.insertsLow = true) ∧
    (let s := mk 0 []; s.dev.takes .spi pgSTG ∧ s.dev.stage = 0) := by
  (repeat' apply And.intro) <;> decide
theorem meets_StageCommandsRefused :
    (let s := mk 1 [(pgRing 0, RING.INS, 1)]; s.dev.takes .spi pgSTG ∧ s.dev.fullOk = false ∧ s.dev.stage ≠ 2 ∧
      s.dev.insertsLow = false ∧ s.dev.stage ≠ 0) ∧
    (let s := mk 1 [(pgSTG, STG.LSTEP, 7)]; s.dev.takes .pcie pgSTG ∧ s.dev.stage = 1 ∧ s.dev.lstep = 7 ∧ s.dev.insertsLow = true ∧
      s.dev.on pgSYS SYS.INS = false ∧ 2 < (3#16).toNat) ∧
    (let s := mk 2 [(pgRED, RED.ROLE, 1)]; s.dev.takes .pcie pgSTG ∧ s.dev.stage ≠ 1 ∧ s.dev.role ≠ roNONE ∧ s.dev.role ≠ roSILENT) := by
  (repeat' apply And.intro) <;> decide
theorem meets_CalibrationAndFuseCommands :
    (let s := mk 1 [(pgOTP, OTP.FCRCOK, 1), (pgAxp 255, AXP.STATE, 1)]; s.dev.takes .spi pgCAL ∧ s.dev.stage = 1 ∧
      (∀ n ∈ s.dev.activeAxes, s.dev.axState n = axMOORED) ∧ s.dev.activeAxes = [255] ∧ s.dev.on pgOTP OTP.FCRCOK = true ∧
      s.dev.on pgCAL HDR.LOCK = false) ∧
    (let s := mk 2 []; s.dev.takes .pcie pgCAL ∧ s.dev.stage ≠ 1) ∧
    (let s := mk 1 [(pgSTG, STG.LSTEP, 7), (pgOTP, OTP.KSET, 0), (pgOTP, ⟨OTP.KSTG.off + 28, 0, 32⟩, 1)]; s.dev.takes .spi pgOTP ∧
      s.dev.stage = 1 ∧ s.dev.lstep = 7 ∧ s.dev.on pgOTP OTP.KSET = false ∧ s.dev.reg pgOTP 0 (OTP.KSTG.off + 4 * 7) ≠ 0) ∧
    (let s := mk 2 [(pgSTG, STG.LSTEP, 6), (pgSTG, STG.VERSION, 1)]; s.dev.takes .spi pgOTP ∧ s.dev.stage ≠ 0 ∧ s.dev.lstep = 6 ∧
      s.dev.rd pgOTP OTP.MINVER < s.dev.rd pgSTG STG.VERSION) ∧
    (let s := mk 1 [(pgOTP, OTP.KSET, 1), (pgOTP, OTP.BUSY, 1)]; s.dev.takes .spi pgOTP ∧ s.dev.on pgOTP OTP.KSET = true ∧
      s.dev.on pgOTP OTP.BUSY = true ∧ s.dev.rd pgSTG STG.VERSION ≤ s.dev.rd pgOTP OTP.MINVER) := by
  (repeat' apply And.intro) <;> decide
theorem meets_ResetPins : let s := mk 1 []; s.dev.keep.perst = false ∧ s.dev.stage ≠ 0 ∧ pgDMC < 1024 ∧ pgDMC ≠ pgHIF ∧
    (pgSTG, 0, 0xFFC) ≠ (pgSTG, 0, STG.PERSTCNT.off) := by
  (repeat' apply And.intro) <;> decide
theorem meets_DropsToKeeper : let s := mk 2 [(pgSTG, STG.WDEN, 1)]; s.dev.stage ≠ 0 ∧ s.dev.on pgSTG STG.WDEN = true ∧
    isKept pgRED = false ∧ 1023 < 1024 := by
  (repeat' apply And.intro) <;> decide
theorem meets_DropsToLantern : (mk 2 []).dev.stage = 2 ∧ (mk 1 []).dev.stage = 1 ∧ 7 ≤ 8 ∧ 8 ≤ 10 ∧ 7 ≤ 10 := by
  (repeat' apply And.intro) <;> decide
theorem meets_PresenceAndKeeperExit :
    State.reset.dev.keep.porst = true ∧
    (let s := mkf 0 [] fun d => { d with keep := { d.keep with present := true } };
      s.dev.keep.present = true ∧ s.dev.keep.porst = false ∧ s.dev.stage = 0) ∧
    (mk 0 [(pgSTG, STG.PRES, 1), (pgSTG, STG.KHOLD, 0), (pgSTG, STG.WDRUN, 2)]).dev.mayLeave = true ∧
    (mk 0 [(pgSTG, STG.PRES, 1), (pgSTG, STG.WDRUN, 3)]).dev.mayLeave = false ∧
    (let s := mkf 0 [(pgSTG, STG.WDAUTO, 1)] fun d => { d with keep := { d.keep with wdWait := true } };
      s.dev.stage = 0 ∧ s.dev.keep.wdWait = true ∧ s.dev.on pgSTG STG.WDAUTO = true) ∧ (mk 2 []).dev.stage = 2 := by
  (repeat' apply And.intro) <;> decide
theorem meets_StageWatchdog :
    (let s := mk 1 [(pgSTG, STG.WDSRC, 3), (pgSTG, STG.WDEN, 1)]; s.dev.reaches .pcie pgSTG ∧ s.dev.rd pgSTG STG.WDSRC = 3 ∧
      (0x100A5#32).toNat % 256 = 0xA5 ∧ s.dev.wdRuns = true) ∧
    (let s := mk 1 [(pgSTG, STG.WDSRC, 1)]; s.dev.reaches .spi pgSTG ∧ s.dev.rd pgSTG STG.WDSRC = 1) ∧
    (let s := mk 1 [(pgSTG, STG.WDSRC, 2)]; s.dev.reaches .pcie pgSTG ∧ s.dev.rd pgSTG STG.WDSRC = 2) := by
  (repeat' apply And.intro) <;> decide
/-- An image that configures nothing. -/
def emptyCfg : ImageCfg :=
  { program := [], xdata := [], ydata := [], paired := false, ncfg := 0, sysHop := 0, routes := [], rings := [], axes := [],
    pages := [], osize := 0, mimg := [], gpimg := 0, limg := [], calu := none, cam := [], steps := [] }
theorem meets_LanternSteps :
    (let s := mk 1 []; s.dev.stage = 1 ∧ s.dev.lstep = 0) ∧
    (let s := mk 1 [(pgSTG, STG.LSTEP, 1)]; s.dev.stage = 1 ∧ s.dev.lstep = 1 ∧ s.dev.load.tested = false ∧
      s.dev.on pgSTG STG.BSRC = false) ∧
    (let s := mk 1 [(pgSTG, STG.LSTEP, 2)]; s.dev.stage = 1 ∧ s.dev.lstep = 2 ∧ s.dev.load.source ≠ 1) ∧
    (let s := mkf 1 [(pgSTG, STG.LSTEP, 2)] fun d => { d with load := { d.load with source := 1 } };
      s.dev.stage = 1 ∧ s.dev.lstep = 2 ∧ s.dev.load.source = 1 ∧ s.dev.load.byCmd = false) ∧
    (let s := mk 1 [(pgSTG, STG.LSTEP, 4)]; s.dev.stage = 1 ∧ s.dev.lstep = 4 ∧ imageCheck emptyCfg s.dev ≠ 0 ∧
      s.dev.load.source ≠ 1) ∧
    (let s := mkf 1 [(pgSTG, STG.LSTEP, 5)] fun d => { d with load := { d.load with cfg := some emptyCfg, tested := true } };
      s.dev.load.cfg = some emptyCfg ∧ s.dev.stage = 1 ∧ s.dev.lstep = 5 ∧ s.dev.load.tested = true) := by
  (repeat' apply And.intro) <;> decide
theorem meets_ValidationAndFullEntry :
    (mk 1 []).dev.on pgCAL CAL.VBUSY = false ∧ (mk 1 [(pgCAL, CAL.VBUSY, 1)]).dev.on pgCAL CAL.VBUSY = true ∧
    (let d := { ready.dev with load := { ready.dev.load with goFull := true } }; d.load.goFull = true ∧ d.fullOk = true ∧ d.imageStands = true) ∧
    (let d := { (mk 1 []).dev with load := { Load.reset with goFull := true } }; d.load.goFull = true ∧ d.fullOk = false) := by
  (repeat' apply And.intro) <;> decide
theorem meets_CountersCleared : let s := mk 1 [];
    s.dev.takes .spi pgTIM ∧ s.dev.takes .spi (pgRing 3) ∧ s.dev.takes .pcie pgSYS ∧ s.dev.takes .spi (pgCep 17) ∧
    s.dev.takes .spi (pgFbu 7) ∧ s.dev.takesJ .spi pgSGU ∧ s.dev.takes .spi (pgSgc 15) ∧ s.dev.takes .pcie pgSAF ∧
    s.dev.takes .spi (pgMfc 3) ∧ s.dev.takes .spi pgMFE ∧ s.dev.takes .spi (pgCapu 15) ∧ s.dev.takes .spi pgCAP ∧
    s.dev.takes .spi pgDMC ∧ s.dev.takes .spi pgHIF ∧ s.dev.takes .pcie pgEVT ∧ s.dev.takes .spi pgGLB ∧ s.dev.takes .spi pgSPM ∧
    s.dev.takes .spi pgRED := by
  (repeat' apply And.intro) <;> decide
theorem meets_LogMailboxDmaRateCommands :
    (let s := mk 1 [(pgAxp 0, AXP.STATE, 1)]; s.dev.takes .spi pgEVT ∧ s.dev.takes .spi pgHIF ∧ s.dev.on pgHIF HIF.RXEN = false ∧
      s.dev.on pgHIF HIF.TXEN = false ∧ s.dev.takes .pcie pgDMC ∧ s.dev.on pgDMC (DMC.HALT.nth 0x20 3) = false ∧
      s.dev.takes .spi pgTIM ∧ s.dev.stage = 1 ∧ (∀ n ∈ s.dev.activeAxes, s.dev.axState n = axMOORED) ∧ (3#16).toNat ≤ 3 ∧
      s.dev.rateFits 3 = true) ∧
    (let s := mk 2 [(pgHIF, HIF.TXEN, 1), (pgDMC, DMC.HALT.nth 0x20 3, 1)]; s.dev.takes .spi pgHIF ∧ s.dev.on pgHIF HIF.TXEN = true ∧
      s.dev.takes .spi pgDMC ∧ s.dev.on pgDMC (DMC.HALT.nth 0x20 3) = true ∧ s.dev.takes .spi pgTIM ∧ s.dev.stage ≠ 1) := by
  (repeat' apply And.intro) <;> decide
theorem meets_RingCommands :
    (let s := mk 1 [(pgRED, RED.ROLE, 4), (pgRing 1, RING.RSTATE, 4), (pgRing 1, RING.HOTINS, 1)];
      s.dev.takes .spi (pgRing 1) ∧ s.dev.commanding = true ∧ s.dev.rstate 1 = rsSYNC ∧ s.dev.on (pgRing 1) RING.HOTINS = true ∧
      s.dev.on (pgRing 1) RING.BROKEN = false ∧ s.dev.on (pgRing 1) RING.GPEND = false ∧ (63#16).toNat ≠ s.dev.myst ∧
      (64#16).toNat ≠ s.dev.myst ∧ 63 < (64#16).toNat) ∧
    (let s := mk 1 []; s.dev.takes .spi (pgRing 0) ∧ s.dev.commanding = false) := by
  (repeat' apply And.intro) <;> decide
theorem meets_PairCommands :
    (let s := mk 1 [(pgCep 17, CEP.PSTATE, 1)]; s.dev.takes .spi (pgCep 17) ∧ s.dev.stage = 1 ∧ s.dev.pstate 17 = 1) ∧
    (let s := mk 1 [(pgCep 0, CEP.PSTATE, 3)]; s.dev.takes .spi (pgCep 0) ∧ s.dev.pstate 0 = 3) ∧
    (let s := mk 2 [(pgCep 0, CEP.PSTATE, 4)]; s.dev.takes .spi (pgCep 0) ∧ s.dev.pstate 0 = 4 ∧ s.dev.stage ≠ 1) := by
  (repeat' apply And.intro) <;> decide
theorem meets_LocalChannelCommands :
    (let s := mk 1 []; s.dev.takes .spi (pgFbu 0) ∧ (1#16).toNat = (1 : Fin 2).val ∧ 2 ≤ (2#16).toNat ∧
      s.dev.on (pgFbu 0) FBU.LF = false ∧ s.dev.takesJ .pcie pgSGU ∧ (15#16).toNat < 16 ∧ 16 ≤ (16#16).toNat) ∧
    (let s := mk 1 [(pgFbu 7, FBU.LF, 4)]; s.dev.takes .spi (pgFbu 7) ∧ s.dev.on (pgFbu 7) FBU.LF = true) := by
  (repeat' apply And.intro) <;> decide
theorem meets_SafeChainCommands :
    (let s := mk 1 []; s.dev.takes .spi pgSAF ∧ s.dev.takesJ .pcie pgSAF ∧ s.dev.stage ≠ 0 ∧ s.dev.on pgSAF SAF.HOLD = true) ∧
    (let s := mk 2 [(pgSAF, SAF.HOLD, 0)]; s.dev.takes .spi pgSAF ∧ s.dev.stage ≠ 0 ∧ s.dev.on pgSAF SAF.HOLD = false) ∧
    (let s := mk 0 []; s.dev.takes .spi pgSAF ∧ s.dev.takesJ .spi pgSAF ∧ s.dev.stage = 0) := by
  (repeat' apply And.intro) <;> decide
theorem meets_MeasurementAndCaptureCommands :
    (let s := mk 1 [(pgMfc 3, MFC.CSTATE, 2), (pgMfc 3, MFC.PEND, 1)]; s.dev.takes .spi (pgMfc 3) ∧ s.dev.stage ≠ 0 ∧
      s.dev.cstate 3 ≠ 0 ∧ s.dev.contRuns 3 = false ∧ s.dev.cstate 3 < 3 ∧ s.dev.on (pgMfc 3) MFC.PEND = true) ∧
    (let s := mkf 1 [(pgMfc 3, MFC.CSTATE, 4)] (Dev.wrS (pgMfc 3) (adopted 0) MFC.CONT 1); s.dev.takes .spi (pgMfc 3) ∧ s.dev.cstate 3 = 4 ∧
      s.dev.validating 3 = false ∧ s.dev.contRuns 3 = true) ∧
    (let s := mk 1 []; s.dev.takes .spi (pgMfc 0) ∧ s.dev.cstate 0 = 0 ∧ s.dev.on (pgMfc 0) MFC.PEND = false) ∧
    (let s := mk 1 [(pgMfc 0, MFC.CSTATE, 3)]; s.dev.takes .pcie (pgMfc 0) ∧ s.dev.cstate 0 = 3) ∧
    (let s := mk 1 [(pgMfc 0, MFC.CSTATE, 5)]; s.dev.takes .pcie (pgMfc 0) ∧ s.dev.cstate 0 = 5) ∧
    (let s := mkf 1 [(pgMfc 3, MFC.CSTATE, 4), (pgCAL, CAL.VBUSY, 1)] fun d => d.mapCore 3 fun x => { x with phase := 3 };
      s.dev.takes .spi (pgMfc 3) ∧ s.dev.validating 3 = true) ∧
    (let s := mk 1 [(pgCapu 15, CAPU.USTATE, 4), (pgCapu 15, CAPU.BSIZE, 1), (pgCapu 15, CAPU.POST, 1)];
      s.dev.takes .spi (pgCapu 15) ∧ s.dev.rd (pgCapu 15) CAPU.USTATE = 4 ∧ armParam 15 s.dev = true ∧ capFits 15 s.dev = true ∧
      s.dev.rd (pgCapu 15) CAPU.NPP = 0) ∧
    (let s := mk 1 [(pgCapu 15, CAPU.BSIZE, 1), (pgCapu 15, CAPU.POST, 1), (pgCapu 15, CAPU.WCNT, 64), (pgCapu 15, CAPU.NPP, 1)];
      s.dev.takes .spi (pgCapu 15) ∧ s.dev.rd (pgCapu 15) CAPU.USTATE = 0 ∧ armParam 15 s.dev = true ∧
      s.dev.rd (pgCapu 15) CAPU.NPP ≠ 0) ∧
    (let s := mk 1 [(pgCapu 15, CAPU.BSIZE, 1), (pgCapu 15, CAPU.POST, 1000), (pgCapu 15, CAPU.WCNT, 65536 - 64)];
      s.dev.takes .spi (pgCapu 15) ∧ s.dev.rd (pgCapu 15) CAPU.USTATE = 0 ∧ armParam 15 s.dev = true ∧ capFits 15 s.dev = false) ∧
    (let s := mk 1 [(pgCapu 0, CAPU.BSIZE, 0)]; s.dev.takes .spi (pgCapu 0) ∧ s.dev.rd (pgCapu 0) CAPU.USTATE = 0 ∧ armParam 0 s.dev = false) ∧
    (let s := mk 1 [(pgCapu 0, CAPU.USTATE, 3)]; s.dev.takes .spi (pgCapu 0) ∧ s.dev.rd (pgCapu 0) CAPU.USTATE = 3 ∧
      (s.dev.capUnit 0).reserved = false) ∧
    (let s := mkf 1 [(pgCapu 0, CAPU.USTATE, 3)] fun d => d.setCapUnit 0 { d.capUnit 0 with reserved := true };
      s.dev.takes .spi (pgCapu 0) ∧ s.dev.rd (pgCapu 0) CAPU.USTATE = 3 ∧ (s.dev.capUnit 0).reserved = true) ∧
    (let s := mk 1 [(pgCapu 0, CAPU.USTATE, 2)]; s.dev.takes .spi (pgCapu 0) ∧ s.dev.rd (pgCapu 0) CAPU.USTATE = 2) ∧
    (let s := mk 1 [(pgCapu 0, CAPU.USTATE, 1)]; s.dev.takes .spi (pgCapu 0) ∧ s.dev.rd (pgCapu 0) CAPU.USTATE = 1) := by
  (repeat' apply And.intro) <;> decide
theorem meets_HeadPairCommands :
    (let s := mk 1 [(pgRED, RED.ROLE, 2)]; s.dev.takes .spi pgRED ∧ s.dev.role = roSTANDBY ∧ s.dev.mayJoin = false ∧
      s.dev.redOk 0x01 = false ∧ s.dev.redOk 0x04 = false) ∧
    (let s := mk 1 [(pgRED, RED.ROLE, 1), (pgRED, RED.INSTEP, 1), (pgRED, RED.NCFG, 1), (pgRED, RED.PREACH, 1)];
      s.dev.takes .spi pgRED ∧ s.dev.commanding = true ∧ s.dev.role ≠ roSTANDBY ∧
      (∀ n ∈ s.dev.activeAxes, s.dev.axState n = axMOORED) ∧ s.dev.redOk 0x01 = true ∧ s.dev.contradicted 0x01 = false) ∧
    (let s := mk 1 [(pgRED, RED.ROLE, 1), (pgRED, RED.INSTEP, 1)];
      s.dev.takes .spi pgRED ∧ s.dev.redOk 0x01 = true ∧ s.dev.contradicted 0x01 = true) ∧
    (let s := mkf 1 [(pgRED, RED.ROLE, 3), (pgRED, RED.PROLE, 4), (pgRED, RED.REACH, 1), (pgRED, RED.NCFG, 1)] fun d =>
        { d with red := { d.red with noCmdr := 64 } };
      s.dev.takes .spi pgRED ∧ s.dev.role ≠ roSTANDBY ∧ s.dev.commanding = false ∧ s.dev.mayJoin = true ∧
      s.dev.redOk 0x04 = true ∧ s.dev.contradicted 0x04 = false) := by
  (repeat' apply And.intro) <;> decide

/-! ## Hypotheses of the statements: motion, access -/

theorem meets_MotionCommandsWait : let s := mk 2 [(pgRED, RED.ROLE, 3)];
    s.dev.takesJ .spi (pgAxp 255) ∧ s.dev.takesJ .pcie pgSEA ∧ s.dev.takesJ .spi pgPRF ∧ s.dev.takesJ .spi (pgPgrp 7) ∧
    s.dev.takesJ .pcie pgTSU := by
  (repeat' apply And.intro) <;> decide
theorem meets_BusyPageLosesCommand : let s := mk 1 [(pgTIM, HDR.BUSY, 1)];
    s.dev.reaches .spi pgTIM ∧ s.dev.on pgTIM HDR.BUSY = true ∧ s.dev.landsNow ∧ 255 < 256 := by
  (repeat' apply And.intro) <;> decide
theorem meets_StandbyHoldsRequests : let s := mk 2 [(pgRED, RED.ROLE, 2)];
    s.dev.reaches .pcie (pgAxp 255) ∧ s.dev.reaches .spi pgPRF ∧ s.dev.reaches .spi (pgPgrp 7) ∧ s.dev.reaches .spi pgSEA ∧
    s.dev.reaches .spi pgTSU ∧ s.dev.reaches .spi pgSGU ∧ s.dev.role = roSTANDBY ∧ clsOf (pgAxp 255) = some .axp ∧
    clsOf pgPRF = some .prf ∧ clsOf (pgPgrp 7) = some .pgrp ∧ clsOf pgSEA = some .sea ∧ clsOf pgTSU = some .tsu ∧
    clsOf pgSGU = some .sgu ∧ s.dev.on (pgAxp 255) HDR.BUSY = false := by
  (repeat' apply And.intro) <;> decide
theorem meets_JournalTakesCommands :
    (let s := mk 2 [(pgRED, RED.ROLE, 1)]; s.dev.reaches .pcie (pgAxp 0) ∧ s.dev.role ≠ roSTANDBY ∧ s.dev.journalRuns = true ∧
      s.dev.host.held = [] ∧ s.dev.red.wait.length < 1024) ∧
    (let s := mk 2 [(pgRED, RED.ROLE, 4), (pgRED, RED.RPH, 2)]; s.dev.reaches .spi pgSGU ∧ s.dev.role ≠ roSTANDBY ∧
      s.dev.journalRuns = true) := by
  (repeat' apply And.intro) <;> decide

/-- A part in FULL, alone, with table 3 configured and its task READY on a pair that works. -/
def axisState (st : Nat) (l : List (Nat × Fld × Nat)) : State :=
  mkf 2 ([(pgRED, RED.ROLE, 4), (pgAxp 3, AXP.STATE, st)] ++ ((List.range 18).map fun p => (pgCep p, CEP.PSTATE, 1)) ++ l) fun d =>
    (d.mapAx 3 fun x => { x with ready := true, seen := true })
/-- MOOR, waiting for table 3 since cycle 0. -/
def moorDue : DueCmd := ⟨pgAxp 3, 0x07, 0, 0, noDesc⟩

theorem meets_DeferredCommandEvaluated :
    (mk 1 []).dev.taskRunnable 0 = false ∧
    (let d := { (axisState 1 []).dev with mot := { (axisState 1 []).dev.mot with
        ahead := [⟨3, 0, [], AxDyn.reset, Season.reset, Prof.reset, [], []⟩] } };
      (d.aheadFor 3 d.cyc).isSome = true) ∧
    (let d := { (axisState 1 []).dev with mot := { (axisState 1 []).dev.mot with cmds := [moorDue] } };
      d.taskRunnable 3 = true ∧ d.aheadFor 3 d.cyc = none ∧ (∀ w ∈ d.mot.writes, DueWrite.forTask 3 d.cyc w = false) ∧
      d.mot.cmds.filter (fun x => DueCmd.forTask 3 d.cyc x) = [moorDue]) := by
  (repeat' apply And.intro) <;> decide
theorem meets_AxisCommandEvaluation :
    (let d := (axisState 1 [(pgSAF, SAF.HOLD, 0)]).dev; d.axState 3 = axMOORED ∧ d.on (pgAxp 3) AXP.FLATCH = false ∧ d.stage = 2 ∧
      d.on pgSAF SAF.HOLD = false ∧ (d.ax 3).seen = true ∧ d.enableOk 3 = false ∧ d.axState 3 ≠ axRUN ∧ d.axState 3 ≠ axREADY ∧
      d.axState 3 ≠ axDISABLED ∧ d.axState 4 = axDISABLED ∧ d.axState 4 ≠ axMOORED ∧ d.clearOk 3 7 = false) ∧
    (let d := (axisState 1 [(pgSAF, SAF.HOLD, 0), (pgAxp 3, AXP.HDEC, 1), (pgAxp 3, AXP.MKIND, 0)]).dev; d.enableOk 3 = true ∧
      d.axState 3 = axMOORED ∧ d.on pgSAF SAF.HOLD = false) ∧
    (let d := (axisState 2 [(pgAxp 3, AXP.GDEN, 1)]).dev.wrS (pgAxp 3) (adopted 0) AXP.SPSRC 1; d.axState 3 = axREADY ∧ d.par 3 AXP.SPSRC = 1 ∧
      d.rd (pgAxp 3) AXP.GDEN ≠ 0) ∧
    (axisState 3 []).dev.axState 3 = axRUN ∧ (axisState 4 []).dev.axState 3 = axSTOPPING ∧
    (let d := (axisState 1 [(pgSAF, SAF.HOLD, 0), (pgAxp 3, AXP.FLATCH, 1), (pgAxp 3, AXP.FCODE, 1)]).dev.mapAx 3 fun x =>
        { x with arrived := true, fresh := true, rcd := { x.rcd with seq := 7 } };
      d.axState 3 = axMOORED ∧ d.on (pgAxp 3) AXP.FLATCH = true ∧ d.clearOk 3 7 = true) := by
  (repeat' apply And.intro) <;> decide

theorem meets_RegisterWritesLand :
    (let s := mk 1 []; s.dev.reaches .spi pgEVT ∧ pgEVT < 1024 ∧ s.dev.landsNow ∧ pairHalf pgEVT 0x040 ≠ 1 ∧
      s.dev.writeCause .spi pgEVT (s.dev.selAhead pgEVT 0x040) 0 0x040 0 = none ∧
      s.dev.writeCause .pcie pgEVT (s.dev.selAhead pgEVT 0x040) 1 0x040 1 = none ∧
      s.dev.writeCause .spi pgEVT (s.dev.selAhead pgEVT 0x040) 2 0x040 1 = none ∧
      s.dev.writeCause .spi pgEVT (s.dev.selAhead pgEVT 0x040) 3 0x040 1 = none) ∧
    (let s := mk 2 []; s.dev.reaches .pcie (pgAxp 255) ∧ s.dev.landsNow ∧ pairHalf (pgAxp 255) AXP.HDEC.off ≠ 1 ∧
      s.dev.writeCause .pcie (pgAxp 255) (s.dev.selAhead (pgAxp 255) AXP.HDEC.off) 0 AXP.HDEC.off 5 = none) := by
  (repeat' apply And.intro) <;> decide
theorem meets_LandedWriteSetsItsRegister : let d := (mk 1 []).dev;
    (clsOf pgGLB = some .glb ∧ (regRow .glb GLB.PEEK.off).isSome = true ∧ d.refusedNow ⟨pgGLB, 0, GLB.PEEK.off, 1, none⟩ = false) ∧
    (clsOf pgOTP = some .otp ∧ (regRow .otp (OTP.KSTG.off + 28)).isSome = true ∧
      d.refusedNow ⟨pgOTP, 1, OTP.KSTG.off + 28, 1, none⟩ = false) ∧
    (clsOf (pgRing 3) = some .ring ∧ d.refusedNow ⟨pgRing 3, 0, RING.SLTHI_HOLDER.off, 1, none⟩ = false) ∧
    (clsOf pgSYS = some .sys ∧ d.refusedNow ⟨pgSYS, 3, SYS.PRIM.off, 1, none⟩ = false) ∧
    (clsOf pgDMC = some .dmc ∧ d.refusedNow ⟨pgDMC, 0, DMC.DBASELO.off, 0x1000, none⟩ = false) ∧
    (clsOf pgCAP = some .cap ∧ d.refusedNow ⟨pgCAP, 0, CAP.SRC.off, 1, none⟩ = false ∧ 0x100 ≤ CAP.SRC.off ∧ CAP.KIND.off < 0x100 ∧ d.refusedNow ⟨pgCAP, 2, CAP.KIND.off, 1, none⟩ = false) ∧
    (clsOf (pgSgc 15) = some .sgc ∧ d.refusedNow ⟨pgSgc 15, 0, SGC.SPW.off, 1, none⟩ = false) := by
  (repeat' apply And.intro) <;> decide
theorem meets_ViewsActOnBits : let r : RegRow := ⟨0x40, 0, 1, 0, 0xFFFF, 0x8000_0000, 0, 0, 0, 0⟩;
    0xFFFF_FFFF < 2 ^ 32 ∧ r.rw < 2 ^ 32 ∧ r.rc < 2 ^ 32 := by
  (repeat' apply And.intro) <;> decide
theorem meets_PairHalvesLandTogether :
    (let s := mk 2 []; s.dev.serves .pcie = true ∧ s.dev.answers (pgAxp 3) = true ∧ (s.dev.latch .pcie).held = none ∧
      pairHalf (pgAxp 3) AXP.PLIMLOLO.off = 1 ∧
      s.dev.writeCause .pcie (pgAxp 3) (s.dev.selAhead (pgAxp 3) AXP.PLIMLOLO.off) 0 AXP.PLIMLOLO.off 5 = none) ∧
    (let d := setHeld .spi (some (pgAxp 3, AXP.PLIMLOLO.off, 5)) (mk 2 []).dev; d.serves .spi = true ∧ d.answers (pgAxp 3) = true ∧
      (d.latch .spi).held = some (pgAxp 3, AXP.PLIMLOLO.off, 5) ∧ d.landsNow ∧ AXP.PLIMLOLO.off + 4 < 0x1000 ∧
      pairHalf (pgAxp 3) (AXP.PLIMLOLO.off + 4) = 2 ∧
      d.writeCause .spi (pgAxp 3) (d.selAhead (pgAxp 3) (AXP.PLIMLOLO.off + 4)) 0 (AXP.PLIMLOLO.off + 4) 1 = none) := by
  (repeat' apply And.intro) <;> decide
theorem meets_JournalledWritesWait :
    (let s := mk 2 [(pgRED, RED.ROLE, 1)]; s.dev.reaches .pcie (pgAxp 255) ∧ pairHalf (pgAxp 255) AXP.HDEC.off = 0 ∧
      s.dev.writeCause .pcie (pgAxp 255) (s.dev.selAhead (pgAxp 255) AXP.HDEC.off) 0 AXP.HDEC.off 5 = none ∧
      s.dev.role ≠ roSTANDBY ∧ s.dev.journalRuns = true ∧ s.dev.host.held = [] ∧ s.dev.red.wait.length < 1024) ∧
    (let s := mk 2 [(pgRED, RED.ROLE, 2)]; s.dev.reaches .spi (pgAxp 0) ∧ s.dev.role = roSTANDBY ∧
      s.dev.writeCause .spi (pgAxp 0) (s.dev.selAhead (pgAxp 0) AXP.HDEC.off) 0 AXP.HDEC.off 5 = none) := by
  (repeat' apply And.intro) <;> decide
theorem meets_MotionRegisterWrites : let s := mk 2 [];
    (s.dev.landsNow ∧ s.dev.reaches .pcie (pgAxp 255) ∧ pairHalf (pgAxp 255) AXP.HDEC.off = 0 ∧
      s.dev.writeCause .pcie (pgAxp 255) (s.dev.selAhead (pgAxp 255) AXP.HDEC.off) 0 AXP.HDEC.off 5 = none) ∧
    (s.dev.reaches .spi (pgFbu 7) ∧ s.dev.on (pgFbu 7) HDR.LOCK = false ∧ s.dev.fbuInUse 7 = false ∧
      (s.dev.reg (pgFbu 7) 0 FBU.MODE.off).toNat % 16 = (0x10#32).toNat % 16 ∧
      (s.dev.reg (pgFbu 7) 0 FBU.MODE.off).toNat % 16 ≠ (1#32).toNat % 16) ∧
    (s.dev.reaches .spi pgSGU ∧ 0xA0 ≤ SGU.RNUM.off ∧ pairHalf pgSGU SGU.RNUM.off = 0 ∧
      s.dev.writeCause .spi pgSGU (s.dev.selAhead pgSGU SGU.RNUM.off) 0 SGU.RNUM.off 2 = none) := by
  (repeat' apply And.intro) <;> decide
theorem meets_PointerWrites :
    (let s := mk 1 [(pgTIM, TIM.NEW, 1)]; s.dev.reaches .pcie pgTIM ∧ s.dev.on pgTIM TIM.NEW = true ∧ s.dev.landsNow) ∧
    (let s := mk 1 [(pgHIF, HIF.RXW, 0x40), (pgEVT, EVT.NENT, 2)]; s.dev.reaches .pcie pgTIM ∧ s.dev.on pgTIM TIM.NEW = false ∧
      s.dev.reaches .spi pgHIF ∧ s.dev.on pgHIF HDR.LOCK = false ∧
      inSpan (s.dev.rd pgHIF HIF.RXR) (s.dev.rd pgHIF HIF.RXW) 0x40 = true ∧
      inSpan (s.dev.rd pgHIF HIF.TXW) (s.dev.rd pgHIF HIF.TXR + mailSize) 0x40_0000 = true ∧
      s.dev.reaches .pcie pgHIF ∧ (0x41#32).toNat % 64 ≠ 0 ∧
      s.dev.reaches .spi (pgCapu 15) ∧ s.dev.on (pgCapu 15) HDR.LOCK = false ∧ rcntOk 15 0 s.dev = true ∧ hrelOk 15 0 s.dev = true ∧
      s.dev.reaches .pcie (pgCapu 15) ∧ rcntOk 15 64 s.dev = false ∧
      s.dev.reaches .spi pgEVT ∧ s.dev.on pgEVT HDR.LOCK = false ∧
      ((2#32).toNat + 1024 - s.dev.rd pgEVT EVT.LOGR) % 1024 ≤ s.dev.logUnread ∧
      s.dev.reaches .spi pgSPM ∧ s.dev.reaches .pcie pgSPM ∧ s.dev.on pgSPM HDR.LOCK = false ∧ s.dev.on pgSPM SPM.SAFOWN = false ∧
      s.dev.reaches .spi pgRED ∧ s.dev.on pgRED HDR.LOCK = false) ∧
    (let s := mk 1 [(pgSPM, SPM.SAFOWN, 1)]; s.dev.reaches .spi pgSPM ∧ s.dev.on pgSPM HDR.LOCK = false ∧
      s.dev.on pgSPM SPM.SAFOWN = true) := by
  (repeat' apply And.intro) <;> decide
theorem meets_BusErrorsHaveNoSideEffect : let s := mk 1 [];
    (s.dev.serves .pcie = true ∧ s.dev.writeFault ⟨.pcie, 0xFFFFFC, 1, 0xF, 0⟩ = some 1) ∧
    (s.dev.serves .spi = true ∧ s.dev.writeFault ⟨.spi, 0, 1, 0xF, 0⟩ = some 4) ∧
    s.dev.readFault ⟨.pcie, 0xFFFFFC, 1, 0xF⟩ = some 1 ∧ s.dev.readFault ⟨.spi, 2, 1, 0xF⟩ = some 2 ∧ s.dev.stage ≠ 0 ∧
    byteCause s.dev.bar2 0 = some 1 ∧ byteCause s.dev.bar2 0xF80_3FFF = some 4 := by
  (repeat' apply And.intro) <;> decide
theorem meets_ReadsReturnAndClear :
    (let s := mk 1 [(pgGLB, GLB.PEEK, 1)]; s.dev.serves .pcie = true ∧ (regRow .glb HDR.PEVT.off).isSome = true ∧
      s.dev.readFault ⟨.pcie, addrOf pgGLB 0 HDR.PEVT.off, 1, 0xF⟩ = none ∧ s.dev.host.pcie.high = none ∧
      pairHalf pgGLB HDR.PEVT.off = 0 ∧ s.dev.freeRead pgGLB HDR.PEVT.off = false ∧ s.dev.on pgGLB GLB.PEEK = true) ∧
    (let s := mk 1 []; ((regRow .glb HDR.PEVT.off).any fun r => r.rc != 0) = true ∧ s.dev.on pgGLB GLB.PEEK = false) ∧
    (let s := mk 1 []; ((regRow .stg STG.STAGE.off).any fun r => r.rc == 0) = true ∧
      s.dev.readFault ⟨.pcie, addrOf pgSTG 0 STG.STAGE.off, 1, 0xF⟩ = none ∧ s.dev.freeRead pgSTG STG.STAGE.off = false) ∧
    (let s := mk 1 []; ((regRow .axp AXP.PACTLO.off).any fun r => r.rc == 0) = true ∧ clsOf (pgAxp 255) = some .axp ∧ pgAxp 255 ≠ pgTIM ∧
      s.dev.readFault ⟨.pcie, addrOf (pgAxp 255) 0 AXP.PACTLO.off, 1, 0xF⟩ = none ∧ pairHalf (pgAxp 255) AXP.PACTLO.off = 1 ∧
      s.dev.freeRead (pgAxp 255) AXP.PACTLO.off = false) ∧
    (let d := { (mk 1 []).dev with host := { HostIf.reset with pcie := ⟨some (pgAxp 0, AXP.PACTHI.off, 7), none, 0⟩ } };
      d.serves .pcie = true ∧ d.readFault ⟨.pcie, addrOf (pgAxp 0) 0 AXP.PACTHI.off, 1, 0xF⟩ = none ∧
      d.host.pcie.high = some (pgAxp 0, AXP.PACTHI.off, 7)) := by
  (repeat' apply And.intro) <;> decide
theorem meets_SpiFrames : let rd : List Byte := [1, 0, 0, 0, 0x40, 0xA5, 0, 0, 0, 0, 0, 0, 0, 0];
    let wrt : List Byte := [2, 0, 0, 0, 0x44, 0, 0, 0, 1, BitVec.ofNat 8 (crc8 [2, 0, 0, 0, 0x44, 0, 0, 0, 1]), 0, 0, 0, 0];
    (mk 0 []).dev.pathUp .spi = true ∧
    (rd.length = 14 ∧ rd.headD 0 = 1 ∧ crc8 (rd.take 5) = (rd.getD 5 0).toNat) ∧
    (rd.length = 14 ∧ crc8 (rd.take 5) ≠ ((rd.set 5 0).getD 5 0).toNat) ∧
    (wrt.length = 14 ∧ wrt.headD 0 = 2 ∧ crc8 (wrt.take 9) = (wrt.getD 9 0).toNat) ∧
    (wrt.length = 14 ∧ crc8 (wrt.take 9) ≠ ((wrt.set 9 1).getD 9 0).toNat) ∧
    ([3, 0, 0, 0, 0, 0] : List Byte).headD 0 ≠ 1 ∧ ([1, 0, 0, 0, 0] : List Byte).length < 6 := by
  (repeat' apply And.intro) <;> decide
theorem meets_BarDataAndDma :
    (let s := mk 1 []; s.dev.serves .pcie = true ∧ s.dev.discardsData = false ∧ s.dev.journalRuns = false ∧
      (0xCFF_FFFF#28).toNat < 0xD00_0000 ∧ 0xC0_0000 ≤ (0xC0_0000#24).toNat ∧ s.dev.dmaReady 3 = false ∧ s.dev.streamBytes 0 = 0) ∧
    (let s := mk 1 [(pgDMC, DMC.EN.nth 0x20 3, 1), (pgDMC, DMC.DTAIL.nth 0x20 3, 1)];
      let desc : List Byte := List.replicate 8 0 ++ bytesLE 4 0xC00_0000 ++ bytesLE 4 8 ++ List.replicate 16 0;
      s.dev.dmaReady 3 = true ∧ s.dev.dmaError desc false = 0 ∧ bitOf (desc.getD 16 0).toNat 2 = false ∧
      s.dev.dmaError (List.replicate 32 0) false ≠ 0 ∧ s.dev.dmaError desc true ≠ 0) ∧
    (let s := mk 1 [(pgCapu 15, CAPU.DRAIN, 1), (pgCapu 15, CAPU.DSEL, 3), (pgCapu 15, CAPU.ACNT, 64), (pgCapu 15, CAPU.HLOG, 12)];
      s.dev.pathUp .pcie = true ∧ s.dev.streams 3 15 = true ∧ s.dev.streamBytes 15 ≠ 0 ∧ (s.dev.capUnit 15).toCopy = []) := by
  (repeat' apply And.intro) <;> decide
theorem meets_ScrubberVectorsAndMailboxTime :
    (let s := mk 0 []; s.dev.keep.porst = false) ∧
    (let s := mk 1 []; s.dev.keep.porst = false ∧ HIF.RTMO.off < 4096 ∧ s.dev.on pgHIF HDR.V = false ∧
      (s.dev.incW pgGLB GLB.PASSES).reports ⟨pgHIF, 0, HIF.RTMO.off⟩ = true) ∧
    (let d := { (mk 1 []).dev with evt := { EvtUnit.reset with lastMsg := (Vector.replicate 32 none).set 31 (some 5) } };
      d.stage ≠ 0 ∧ d.evt.lastMsg.get 31 = some 5 ∧ d.evt.msgPending.get 31 = false) ∧
    (let d := { (mk 1 [(pgHIF, ⟨0x80C + 16 * 31, 0, 1⟩, 0)]).dev with evt := { EvtUnit.reset with
        lastMsg := (Vector.replicate 32 none).set 31 (some 5), msgPending := (Vector.replicate 32 false).set 31 true } };
      d.evt.lastMsg.get 31 = some 5 ∧ d.evt.msgPending.get 31 = true ∧ d.msixMasked 31 = false) ∧
    (let m : Reasm := ⟨⟨1, 2, 3⟩, 0, 0, 0, 0, [], none⟩;
      let d := { (mk 1 [(pgHIF, HIF.RTMO, 0)]).dev with host := { HostIf.reset with mail := [m] } };
      d.host.mail.find? (fun (x : Reasm) => x.key == m.key) = some m ∧ m.cycle + d.rd pgHIF HIF.RTMO ≤ d.cyc) ∧
    (let m : Reasm := ⟨⟨1, 2, 3⟩, 0, 0, 0, 0, [], none⟩;
      let d := { (mk 1 [(pgHIF, HIF.RTMO, 1)]).dev with host := { HostIf.reset with mail := [m] } };
      d.host.mail.find? (fun (x : Reasm) => x.key == m.key) = some m ∧ d.cyc < m.cycle + d.rd pgHIF HIF.RTMO) ∧
    (let s := mk 1 [(pgCep 17, CEP.PSTATE, 3)]; s.dev.serves .spi = true ∧ s.dev.answers (pgCep 17) = true ∧ s.dev.cwOpen 17 = true ∧
      s.dev.on (pgCep 17) HDR.LOCK = false ∧ (s.dev.latch .spi).held = none) ∧
    (let d := setHeld .pcie (some (pgCep 0, CEP.CWDATLO.off, 9)) (mk 1 []).dev; d.serves .pcie = true ∧ d.answers (pgCep 0) = true ∧
      d.cwOpen 0 = true ∧ (d.latch .pcie).held = some (pgCep 0, CEP.CWDATLO.off, 9)) := by
  (repeat' apply And.intro) <;> decide

/-! ## Hypotheses of the statements: engine -/

/-- Pair 17 in RUN, task 300 in its first instance, with the engine given. -/
def running (l : List (Nat × Fld × Nat)) (e : Eng) : State :=
  mkf 1 ((pgCep 17, CEP.PSTATE, 2) :: l) fun d => d.setPair 17 { d.pair 17 with running := .task 300 1, eng := e }
/-- No move, format P of all zeros. -/
def noMove : MoveField := ⟨0, 0, 0, 0, 0, 0, 0⟩
def zeroP : FmtP := ⟨0, 0, 0, 0, 0, 0, noMove, noMove⟩
def zeroR : FmtR := ⟨0, 0, 0, 0, 0, 0, false, false, false, 0⟩
def zeroC : FmtC := ⟨0, false, 0, 0, 0, 0⟩
/-- An engine with A0 and A4 at a data address. -/
def atX (a : Nat) : Eng := { Eng.zero with A := (Eng.zero.A.set 0 (BitVec.ofNat 32 a)).set 4 (BitVec.ofNat 32 a) }

theorem meets_FormatPInstructions : let s := running [] Eng.zero;
    s.runs 17 300 1 ∧ (s.dev.eng 17).movesRun (s.dev.taskEnv 17 300) zeroP ∧
    (Eng.zero).movesRun (s.dev.taskEnv 17 300) { zeroP with acd := 3, acs := 3, sa := 15, sb := 15, sm := 3 } := by
  (repeat' apply And.intro) <;> decide
theorem meets_DelayLineTap : let s := running [] (atX 0x1_8000); let e := s.dev.eng 17; let env := s.dev.taskEnv 17 300;
    let w : FmtP := { zeroP with ymv := { noMove with mop := 1, ar := 4 } };
    s.runs 17 300 1 ∧ (e.aReg w.ymv.ar).toNat = 0x1_8000 ∧ moveLegal w.xmv = true ∧ moveTrap env e false w.xmv = none ∧
    moveTrap env e true w.ymv = none ∧ mayAccess env.code (0x1_8000 + 4) 4 true = true ∧ 0x1_8000 + 8 ≤ 0x2_0000 := by
  (repeat' apply And.intro) <;> decide
theorem meets_IntegerInstructions : (running [] Eng.zero).runs 17 300 1 ∧ zeroR.rsvd = 0 := by
  (repeat' apply And.intro) <;> decide
theorem meets_AccumulatorInstructions : (running [] Eng.zero).runs 17 300 1 ∧ zeroR.rsvd = 0 ∧
    ({ zeroR with dd := 14 } : FmtR).dd.getLsbD 0 = false := by
  (repeat' apply And.intro) <;> decide
theorem meets_SpecialRegisterMoves :
    (let s := running [] Eng.zero; s.runs 17 300 1 ∧ (7#4).toNat < 8 ∧ ({ zeroR with sh := 11, mod := true } : FmtR).sh.toNat ≤ 11 ∧
      (s.dev.taskEnv 17 300).nondet = false) ∧
    (let s := running [] Eng.zero; let d := { s.dev with tsu := { s.dev.tsu with cfg := [(300, ⟨BitVec.ofNat 32 (2 ^ TSU.NDET.lsb), 0, 0, 0⟩)] } };
      (d.taskEnv 17 300).nondet = true ∧ ({ s with dev := d } : State).runs 17 300 1) := by
  (repeat' apply And.intro) <;> decide
theorem meets_ReadOnlySpecialRegistersTrap : (running [] Eng.zero).runs 17 300 1 ∧
    (3 ≤ (3#6).toNat ∧ (11#6).toNat ≤ 11 ∧ 11 < (12#6).toNat) := by
  (repeat' apply And.intro) <;> decide
theorem meets_DivisionSequence :
    (let s := running [] { Eng.zero with D := (Eng.zero.D.set 1 0x10000000).set 2 0x40000000 }; s.runs 17 300 1 ∧
      ((s.dev.eng 17).dReg 1).toInt.natAbs < ((s.dev.eng 17).dReg 2).toInt.natAbs ∧ ((s.dev.eng 17).dReg 2).toInt ≠ 0 ∧
      ((s.dev.eng 17).dReg 3).toInt = 0 ∧ ((s.dev.eng 17).dReg 1).toInt.natAbs ≤ ((s.dev.eng 17).dReg 2).toInt.natAbs) ∧
    (let s := running [] { Eng.zero with div := { Eng.zero.div with rem := 2 ^ 31, dvs := 2 ^ 31 }, SR := BitVec.ofNat 32 (2 ^ srDZ) };
      s.runs 17 300 1 ∧ (s.dev.eng 17).div.rem < 2 ^ 32 ∧ (s.dev.eng 17).SR.getLsbD srDZ = true ∧
      (s.dev.eng 17).div.dvs ≤ 2 * (s.dev.eng 17).div.rem) := by
  (repeat' apply And.intro) <;> decide
theorem meets_ControlInstructions :
    (let s := running [] Eng.zero; let e := s.dev.eng 17; s.runs 17 300 1 ∧ e.atEnd = false ∧ e.holds 0 = true ∧ e.holds 1 = false ∧
      (0x3FFF#16).toNat < 0x4000 ∧ e.leaves 0x3FFF = false ∧ e.calls.length < 8 ∧ e.loops.length < 4 ∧ e.loops = [] ∧
      (0#32).toNat / 2 ^ 5 % 2 ^ 11 = 0 ∧ s.dev.on (pgCep 17) CEP.BKPTEN = false) ∧
    (let s := running [(pgCep 17, CEP.BKPTEN, 1)] { Eng.zero with calls := [5], loops := [⟨1, 0x3FFF, 2, 0, false⟩] };
      let e := s.dev.eng 17; s.runs 17 300 1 ∧ e.atEnd = false ∧ e.calls = 5 :: [] ∧
      e.loops.head? = some ⟨1, 0x3FFF, 2, 0, false⟩ ∧ (0 : Nat) ≠ e.calls.length ∧ s.dev.stage = 1 ∧
      s.dev.on (pgCep 17) CEP.BKPTEN = true) := by
  (repeat' apply And.intro) <;> decide
theorem meets_MemoryInstructions : let s := running [] (atX 0x8000); let e := s.dev.eng 17; let w : FmtM := ⟨0, 0, 0, 0, 0, 0, 0⟩;
    s.runs 17 300 1 ∧ (e.aReg w.ar + w.disp).toNat = 0x8000 ∧ szBytes w.sz = 4 ∧ legalM w = true ∧
    mayAccess .user 0x8000 4 false = true ∧ mayAccess .user 0x8000 4 true = true ∧ 0x8000 % 4 = 0 ∧
    mayAccess .user 0xFFFF_FFFC 4 false = false ∧ mayAccess .user 0xFFFF_FFFC 4 true = false ∧
    mayAccess .user 0x8002 4 false = true ∧ mayAccess .user 0x8002 4 true = true ∧ 0x8002 % 4 ≠ 0 ∧
    legalM { w with rsvd := 1 } = false := by
  (repeat' apply And.intro) <;> decide

/-! ## Hypotheses of the statements: cycle, rings, the head pair -/

theorem meets_CycleEvents :
    (mk 0 []).dev.stage = 0 ∧ (mk 2 []).dev.stage ≠ 0 ∧ (mk 2 [(pgSAF, SAF.HOLD, 1)]).dev.on pgSAF SAF.HOLD = true ∧
    (mk 2 [(pgSAF, SAF.HOLD, 0)]).dev.on pgSAF SAF.HOLD = false ∧ (mk 2 [(pgSTG, STG.HDUP, 1)]).dev.on pgSTG STG.HDUP = true ∧
    (mk 1 []).dev.on pgSTG STG.HDUP = false ∧ (mk 1 []).dev.fitted (.sys .e) = true ∧
    ({ (mk 1 []).dev with conf := 6 } : Dev).fitted (.sys .e) = false ∧ (mk 2 [(pgRED, RED.ROLE, 1)]).dev.commanding = true ∧
    (mk 2 [(pgRED, RED.ROLE, 2)]).dev.commanding = false ∧ (mk 2 [(pgRED, RED.ROLE, 2)]).dev.role = roSTANDBY ∧
    (let d := (mk 2 [(pgRED, RED.ROLE, 3), (pgRED, RED.RPH, 1)]).dev; d.commanding = false ∧ d.joining = true) ∧
    (let d := (mk 2 [(pgRED, RED.ROLE, 3)]).dev; d.commanding = false ∧ d.role ≠ roSTANDBY ∧ d.joining = false) := by
  (repeat' apply And.intro) <;> decide
theorem meets_DeadlineOutcomesAndBanks :
    (let d := { (axisState 3 []).dev with tsu := { (axisState 3 []).dev.tsu with ended := [3] } }; d.endedNow 3 = true) ∧
    (let d := (axisState 3 []).dev; d.endedNow 3 = false ∧ d.configured 3 = true ∧ (d.ax 3).wasMoored = false ∧
      d.rd (pgAxp 3) AXP.MISSN = 0) ∧
    (let d := (axisState 3 [(pgAxp 3, AXP.MISSN, 1)]).dev; d.endedNow 3 = false ∧ d.configured 3 = true ∧ (d.ax 3).wasMoored = false ∧
      d.rd (pgAxp 3) AXP.MISSN ≠ 0) ∧
    (let d := (mk 1 [(pgTIM, TIM.FRESH, 1)]).dev; let h := d.rd pgTIM TIM.PIXO_HOST; let p := d.rd pgTIM TIM.PEND;
      h < 3 ∧ p < 3 ∧ h ≠ p ∧ d.on pgTIM TIM.FRESH = true) ∧
    (mk 1 [(pgTIM, TIM.FRESH, 0)]).dev.on pgTIM TIM.FRESH = false ∧
    (let d := (mk 1 []).dev; let h := d.rd pgTIM TIM.PIXI_HOST; let n := d.rd pgTIM TIM.NEWEST; h < 3 ∧ n < 3 ∧ h ≠ n) := by
  (repeat' apply And.intro) <;> decide

/-- The device with one ring changed. -/
def ringState (stage : Nat) (l : List (Nat × Fld × Nat)) (f : RingDyn → RingDyn) : State := mkf stage l fun d => d.mapRg 0 f
/-- Ring A with two slots, the first the own SYNC slot, the second an AXIS slot of station 2, and a geometry of stations 0 and 2. -/
def twoSlots : List (Nat × Fld × Nat) :=
  [(pgRing 0, RING.NSLOT, 2), (pgRing 0, RING.TYPE, 4), (pgRing 0, RING.TYPE.nth 8 1, 2), (pgRing 0, RING.SLTLO_HOLDER.nth 8 1, 2),
   (pgRing 0, RING.LEN.nth 8 1, 1), (pgRing 0, RING.DE, 10000), (pgRing 0, RING.FWD, 1536), (pgRing 0, RING.DE.nth 4 2, 4000),
   (pgRing 0, RING.FWD.nth 4 2, 1536)]
/-- The time base changed. -/
def timeState (l : List (Nat × Fld × Nat)) (f : TimeBase → TimeBase) : State := mkf 1 l fun d => d.timeMap f

theorem meets_TimeBaseEvents :
    (State.reset.dev.time.rateAt = none) ∧
    (let s := timeState [] fun t => { t with rateAt := some 1 }; s.dev.time.rateAt = some 1 ∧ s.dev.stage ≠ 0 ∧
      s.dev.st + s.dev.period < 1 * 128000000) ∧
    (let s := timeState [] fun t => { t with rateAt := some 0 };
      let y := (s.dev.wr pgTIM TIM.RPEND 0).timeMap fun t => { t with rateAt := none };
      s.dev.time.rateAt = some 0 ∧ s.dev.stage ≠ 0 ∧ 0 * 128000000 ≤ s.dev.st ∧
      y.assignOk (s.dev.rd pgTIM TIM.NRATE) s.dev.tsu.work = true) ∧
    (let s := timeState [(pgTIM, TIM.AMAP, 1), (pgAxp 3, AXP.PAIR, 17), (pgAxp 3, AXP.STATE, 1)] fun t => { t with rateAt := some 0 };
      let y := (s.dev.wr pgTIM TIM.RPEND 0).timeMap fun t => { t with rateAt := none };
      s.dev.time.rateAt = some 0 ∧ 0 * 128000000 ≤ s.dev.st + s.dev.period ∧
      y.assignOk (s.dev.rd pgTIM TIM.NRATE) s.dev.tsu.work = false) ∧
    (let d := { (timeState [] fun t => { t with rateAt := some 1 }).dev with st := 127_999_000 }; d.time.rateAt = some 1 ∧
      d.st < 1 * 128000000 ∧ 1 * 128000000 ≤ d.st + d.period) ∧
    (let s := timeState [(pgRED, RED.ROLE, 2)] fun t => { t with miss := 8 }; 8 ≤ s.dev.time.miss ∧ s.dev.role = roSTANDBY) ∧
    ((mk 1 []).dev.time.miss < 8) ∧
    (let s := mk 1 [(pgRED, RED.RV, 1), (pgRED, RED.RAGE, 256)]; s.dev.on pgRED RED.RV = true ∧ 256 ≤ s.dev.rd pgRED RED.RAGE) ∧
    (let s := mk 1 [(pgRED, RED.RV, 1), (pgRED, RED.RAGE, 255)]; s.dev.rd pgRED RED.RAGE < 256) ∧
    (let s := ringState 1 [(pgRing 0, RING.RSTATE, 4)] fun g => { g with disagree := 3, ownViol := 3 };
      3 ≤ (s.dev.rg 0).disagree ∧ s.dev.rstate 0 = rsSYNC ∧ 3 ≤ (s.dev.rg 0).ownViol ∧ s.dev.ringFollows 0 = true) ∧
    (let s := mk 1 []; (s.dev.rg 0).disagree < 3 ∧ s.dev.rstate 0 ≠ rsSYNC ∧ s.dev.ringFollows 0 = false ∧ s.dev.commanding = false) ∧
    (let s := ringState 1 ((pgRED, RED.ROLE, 4) :: twoSlots) fun g => { g with viol := [(1, 3)] };
      s.dev.commanding = true ∧ (∃ c ∈ [3], ((1#8).toNat, c) ∈ (s.dev.rg 0).viol ∧ 3 ≤ c) ∧ (s.dev.slot 0 1).holder = 2 ∧
      2 ∉ (s.dev.rg 0).muted) ∧
    (let s := mkf 1 ((pgRing 0, RING.RSTATE, 1) :: twoSlots) fun d => { d with st := 160000000, time := d.time }; let due := 160000000;
      due = (s.dev.rg 0).listen + (if s.dev.myst = 0 then 160000000 else 176000000) ∧ s.dev.stage ≠ 0 ∧ s.dev.rstate 0 = rsLISTEN ∧
      s.dev.mayStart 0 = true ∧ s.dev.tickSt + s.dev.period ≤ due ∧ s.dev.time.sysOff = none) ∧
    (let d := putCycle 400000 (mk 1 ((pgRing 0, RING.RSTATE, 1) :: twoSlots)).dev;
      (d.rg 0).listen + (if d.myst = 0 then 160000000 else 176000000) < d.tickSt + d.period ∧ d.mayStart 0 = true ∧
      d.rstate 0 = rsLISTEN) ∧
    (let s := timeState ((pgRing 0, RING.RSTATE, 1) :: twoSlots) fun t => { t with sysOff := some 1 };
      (∀ q : RingId, q ≠ 0 → s.dev.rstate q ≠ rsSYNC) ∧ s.dev.time.sysOff = some 1 ∧ (0 : Int) < 1) ∧
    ((mk 1 []).dev.ringUsed 0 = false ∧ ∃ q : RingId, q ≠ 0 ∧ (mk 1 [(pgRing 1, RING.RSTATE, 4)]).dev.rstate q = rsSYNC) ∧
    ((mk 0 []).dev.stage = 0) ∧
    (let d := putCycle 8 (ringState 1 [(pgRing 0, RING.RSTATE, 2)] fun g => { g with csSent := 8 }).dev;
      d.rstate 0 = rsCOLDSTART ∧ 8 ≤ (d.rg 0).csSent ∧ (d.rg 0).coldFrom + 8 ≤ d.cyc ∧ (d.rg 0).yields = false) ∧
    (let s := ringState 1 [(pgRing 0, RING.RSTATE, 2)] fun g => { g with csSent := 8 };
      s.dev.rstate 0 = rsCOLDSTART ∧ s.dev.cyc < (s.dev.rg 0).coldFrom + 8) ∧
    (let s := ringState 1 [(pgRing 0, RING.RSTATE, 3), (pgRing 0, RING.INS, 1)] fun g => { g with goodRun := 4 };
      s.dev.rstate 0 = rsINTEGRATE ∧ 4 ≤ (s.dev.rg 0).goodRun ∧ s.dev.inserted 0 = true) ∧
    (let s := ringState 1 ((pgRing 1, RING.RSTATE, 4) :: (pgRing 0, RING.RSTATE, 1) :: twoSlots) fun g => { g with role0 := 64 };
      (∃ q, q < 4 ∧ s.dev.ringSync q = true) ∧ 64 ≤ (s.dev.rg 0).role0 ∧ s.dev.mayStart 0 = true ∧
      (s.dev.rstate 0 == rsLISTEN || s.dev.rstate 0 == rsINTEGRATE || (s.dev.ringSync 0 && !s.dev.inserted 0)) = true) ∧
    (let s := ringState 1 [] fun g => { g with takeover := true }; (s.dev.rg 0).takeover = true ∧ (s.dev.rg 0).brokenE = false ∧
      (s.dev.rg 0).brokenW = false ∧ (s.dev.rg 0).insert = none) ∧
    (let s := mk 1 [(pgRED, RED.ROLE, 4), (pgRing 0, RING.NSLOT, 1), (pgRing 0, RING.RSTATE, 4)]; s.dev.isLighthouse = true) ∧
    (let s := mk 1 [(pgSYS, SYS.SSYNC, 1)]; s.dev.isLighthouse = false ∧ s.dev.parent = none ∧ s.dev.on pgSYS SYS.SSYNC = true) ∧
    (let s := timeState [(pgSYS, SYS.SSYNC, 1)] fun t => { t with e := { t.e with age := 64 }, w := { t.w with age := 64 } };
      s.dev.isLighthouse = false ∧ s.dev.parent = none ∧ 64 ≤ s.dev.time.e.age ∧ 64 ≤ s.dev.time.w.age ∧
      s.dev.on pgSYS SYS.SSYNC = true) ∧
    (let s := timeState [(pgSYS, SYS.PRIM, 2), (pgSYS, SYS.SSYNC, 1)] fun t => { t with w := { t.w with hops := 0, age := 64 } };
      s.dev.parent = some .w ∧ 64 ≤ (s.dev.sysPort .w).age) ∧
    (let s := timeState [(pgSYS, SYS.PRIM, 1), (pgSYS, SYS.SSYNC, 1)] fun t => { t with beyond := 4, within := 8, e := { t.e with hops := 0, age := 63 } };
      s.dev.parent = some .e ∧ s.dev.on pgSYS SYS.SSYNC = true ∧ 4 ≤ s.dev.time.beyond ∧ 8 ≤ s.dev.time.within ∧
      (s.dev.sysPort .e).age < 64) := by
  (repeat' apply And.intro) <;> decide

theorem meets_LinkAndRingManagement :
    (let s := mk 0 []; s.dev.stage = 0 ∧ s.dev.fitted (.ring 3 .e) = true ∧ s.dev.sends (.ring 0 .e) = false ∧ s.dev.hears (.sys .w) = false) ∧
    (let d := { (mk 1 []).dev with conf := 6 }; d.fitted (.ring 2 .e) = false ∧ d.fitted (.sys .e) = false) ∧
    (let s := mk 1 []; s.dev.sends (.sys .e) = true ∧ s.dev.locked (.sys .e) = false ∧ s.dev.sends (.ring 3 .w) = true ∧
      s.dev.locked (.ring 0 .e) = false ∧ (s.dev.rg 0).lostAt .e = false ∧ (s.dev.rg 0).brokenAt .e = false ∧
      (s.dev.rg 0).ranging = none ∧ (s.dev.rg 0).geo = none ∧ s.dev.on (pgRing 0) RING.RESETTLE = false ∧
      (s.dev.rg 0).insg ≠ some (s.dev.myst, false) ∧ s.dev.commanding = false) ∧
    (let d := setLock (.ring 0 .e) true (setLock (.ring 0 .w) true (setLock (.sys .w) true (ringState 1 [(pgRing 0, RING.STOPRX, 1)]
        fun g => { g with brokenE := true, brokenW := true }).dev)); d.hears (.ring 0 .e) = true ∧ d.locked (.ring 0 .w) = true ∧
      d.hears (.sys .w) = true ∧ (d.rg 0).brokenAt .e = true ∧ (d.rg 0).brokenAt .w = true ∧ d.on (pgRing 0) RING.STOPRX = true ∧
      (5#48).toNat % 64 ≠ d.myst ∧ (64#48).toNat % 64 = d.myst ∧ (5#48).toNat % 64 ≠ d.deviceNo % 64 ∧
      (64#48).toNat % 64 = d.deviceNo % 64 ∧ 3 < (4#8).toNat) ∧
    (let d := setLock (.ring 0 .e) true (mk 1 []).dev; d.hears (.ring 0 .e) = true ∧ d.on (pgRing 0) RING.STOPRX = false) ∧
    (let s := ringState 1 [] fun g => { g with lostE := true }; s.dev.locked (.ring 0 .e) = false ∧ (s.dev.rg 0).lostAt .e = true) ∧
    (let s := ringState 1 [] fun g => { g with ranging := some ⟨1, 0, some 11536, none, []⟩ };
      (s.dev.rg 0).ranging = some ⟨1, 0, some 11536, none, []⟩) ∧
    (let s := ringState 1 [] fun g => { g with ranging := some ⟨1, 0, some 11536, some 11536, []⟩ };
      let ptab := rangedPtab s.dev.myst ((11536 + 11536) / 2) []; (s.dev.rg 0).ranging = some ⟨1, 0, some 11536, some 11536, []⟩ ∧
      scheduleOk (geoOf ptab) s.dev.rate (s.dev.slots 0) = true) ∧
    (let s := ringState 1 [(pgRing 0, RING.NSLOT, 1), (pgRing 0, RING.TYPE, 2), (pgRing 0, RING.LEN, 1)] fun g => { g with
        ranging := some ⟨1, 0, some 11536, some 11536, []⟩ };
      let ptab := rangedPtab s.dev.myst ((11536 + 11536) / 2) []; (s.dev.rg 0).ranging = some ⟨1, 0, some 11536, some 11536, []⟩ ∧
      scheduleOk (geoOf ptab) s.dev.rate (s.dev.slots 0) = false) ∧
    (let s := ringState 1 [] fun g => { g with geo := some ⟨0, 0, 0, true, []⟩ }; (s.dev.rg 0).geo = some ⟨0, 0, 0, true, []⟩ ∧
      (s.dev.rg 0).geoOld = false ∧ (s.dev.cyc + 2 ^ 32 - 0) % 2 ^ 32 < 2 ^ 31 ∧ 2 ^ 31 ≤ (s.dev.cyc + 2 ^ 32 - 1) % 2 ^ 32) ∧
    (let s := ringState 1 [] fun g => { g with geo := some ⟨0, 0, 0, false, []⟩, geoOld := true };
      (s.dev.rg 0).geo = some ⟨0, 0, 0, false, []⟩ ∧ (s.dev.rg 0).geoOld = true) ∧
    (let s := ringState 1 [(pgRing 0, RING.RESETTLE, 1)] fun g => { g with resettleN := 256 };
      s.dev.on (pgRing 0) RING.RESETTLE = true ∧ 256 ≤ (s.dev.rg 0).resettleN ∧ (s.dev.rg 0).geo = none) ∧
    (let s := ringState 1 [(pgRing 0, RING.RESETTLE, 1)] fun g => { g with resettleN := 256, geo := some ⟨0, 0, 0, true, []⟩ };
      (s.dev.rg 0).geo ≠ none ∧ (s.dev.rg 0).geoOld = false) ∧
    (let s := ringState 1 [(pgRing 0, RING.RSTATE, 4)] fun g => { g with insg := some (0, false) };
      (s.dev.rg 0).insg = some (s.dev.myst, false) ∧ s.dev.inserted 0 = false ∧ s.dev.ringSync 0 = true ∧
      s.dev.on pgSTG STG.HDUP = false) ∧
    (let s := ringState 1 [(pgRing 0, RING.INS, 1)] fun g => { g with insg := some (0, true) };
      (s.dev.rg 0).insg = some (s.dev.myst, true) ∧ s.dev.inserted 0 = true) ∧
    (let s := ringState 1 [(pgRED, RED.ROLE, 4), (pgRing 0, RING.RSTATE, 4)] fun g => { g with muted := [63] };
      s.dev.commanding = true ∧ s.dev.ringSync 0 = true ∧ (63#6).toNat ∈ (s.dev.rg 0).muted) := by
  (repeat' apply And.intro) <;> decide

/-- A whole frame of a type from a station, with its CRCs right. -/
def frameOf (t src : Nat) (data : List Byte) (tag : Nat) : RawFrame :=
  { port := .w, tag := tag, sof := (Hdr.mk t src 0 (data.length / 8) 0 false 0 0).bits, data := data,
    crc := BitVec.ofNat 32 (crc32c data), bad := false }
/-- Ring A in SYNC, its second slot of a type and holder. -/
def inSync (t h : Nat) (l : List (Nat × Fld × Nat)) : State :=
  mk 1 (((pgRing 0, RING.RSTATE, 4) :: (pgRing 0, RING.LOCKW, 1) :: twoSlots) ++ [(pgRing 0, RING.TYPE.nth 8 1, t), (pgRing 0, RING.SLTLO_HOLDER.nth 8 1, h)] ++ l)
def rcv (t src : Nat) : RawFrame := frameOf t src (List.replicate 8 0) 4464

/-- The nominal geometry of stations 0 and 2. -/
def nomTwo : List Word := (List.range 64).map fun i =>
  if i = 0 then BitVec.ofNat 32 (10000 + 1536 * 2 ^ 20) else if i = 2 then BitVec.ofNat 32 (4000 + 1536 * 2 ^ 20) else
  if i = 1 then BitVec.ofNat 32 (7000 + 1536 * 2 ^ 20) else 0x000FFFFF#32
theorem meets_FramesReceived :
    ((mk 1 []).dev.hears (.ring 0 (rcv ftAXIS 2).port) = false ∧ (mk 1 []).dev.hears (.sys .e) = false) ∧
    ((inSync 2 2 []).dev.hears (.ring 0 ({ rcv ftAXIS 2 with sof := 1 } : RawFrame).port) = true ∧ hcrcOk 1 = false) ∧
    (let s := mk 1 [(pgSYS, SYS.LOCKE, 1)]; s.dev.hears (.sys .e) = true ∧ hcrcOk 1 = false) ∧
    (let s := inSync 2 2 []; s.dev.getsFrame 0 (rcv ftAXIS 2) ftAXIS ∧ s.dev.accepts 0 (rcv ftAXIS 2) 1 ∧
      (s.dev.noted 0 (rcv ftAXIS 2) 1).axisNode 0 2 = false) ∧
    (let s := inSync 2 2 [(pgAxp 7, AXP.STATE, 1), (pgAxp 7, AXP.STA, 2)]; s.dev.accepts 0 (rcv ftAXIS 2) 1 ∧
      (s.dev.noted 0 (rcv ftAXIS 2) 1).axisNode 0 2 = true) ∧
    (let s := inSync 3 2 []; s.dev.getsFrame 0 (rcv ftIO 2) ftIO ∧ s.dev.accepts 0 (rcv ftIO 2) 1) ∧
    (let s := inSync 4 2 []; s.dev.getsFrame 0 (rcv ftSYNC 2) ftSYNC ∧ s.dev.accepts 0 (rcv ftSYNC 2) 1) ∧
    (let s := inSync 1 0 []; s.dev.getsFrame 0 (rcv ftCOMMAND 2) ftCOMMAND ∧ s.dev.accepts 0 (rcv ftCOMMAND 2) 1 ∧
      (hdrOf (rcv ftCOMMAND 2).sof).src ≠ 1 - (s.dev.noted 0 (rcv ftCOMMAND 2) 1).myst) ∧
    (let s := inSync 5 0 [(pgRing 0, RING.DE.nth 4 1, 4000), (pgRing 0, RING.FWD.nth 4 1, 1536)];
      s.dev.getsFrame 0 (rcv ftMIRROR 1) ftMIRROR ∧ s.dev.accepts 0 (rcv ftMIRROR 1) 1 ∧
      (hdrOf (rcv ftMIRROR 1).sof).src = 1 - (s.dev.noted 0 (rcv ftMIRROR 1) 1).myst) ∧
    (let s := inSync 6 2 []; let f := frameOf ftASYNC 2 [0xFF, 0xFF, 0, 0, 1, 0, 0x80, 0] 4464; s.dev.getsFrame 0 f ftASYNC ∧
      s.dev.accepts 0 f 1 ∧ (fragOf f).ch ≠ 0 ∧ (s.dev.noted 0 f 1).ownId (fragOf f).dst = true) ∧
    (let s := inSync 6 2 []; let f := rcv ftASYNC 2; s.dev.getsFrame 0 f ftASYNC ∧ s.dev.accepts 0 f 1 ∧ (fragOf f).ch = 0) ∧
    (let s := inSync 6 2 [(pgRED, RED.ROLE, 4)]; let f := frameOf ftASYNC 2 [0, 7, 0, 0, 1, 0, 0x80, 0] 4464; let x := s.dev.noted 0 f 1;
      s.dev.getsFrame 0 f ftASYNC ∧ s.dev.accepts 0 f 1 ∧ (fragOf f).ch ≠ 0 ∧ x.ownId (fragOf f).dst = false ∧
      (fragOf f).dst / 256 ≠ x.rd pgSYS SYS.SIDX ∧ x.commanding = true) ∧
    (let s := inSync 6 2 []; let f := frameOf ftASYNC 2 [0, 7, 0, 0, 1, 0, 0x80, 0] 4464; let x := s.dev.noted 0 f 1;
      s.dev.getsFrame 0 f ftASYNC ∧ s.dev.accepts 0 f 1 ∧ (fragOf f).ch ≠ 0 ∧ x.ownId (fragOf f).dst = false ∧
      x.commanding = false) ∧
    (let d := ((mk 1 ([(pgRing 0, RING.RSTATE, 1), (pgRing 0, RING.LOCKW, 1), (pgTIM, TIM.RATE, 0)] ++ twoSlots)).dev.mapRg 0
        fun g => { g with nom := nomTwo });
      let f := frameOf ftSYNC 2 (List.replicate 32 0) 4464; let x := d.passed 0 f; d.getsFrame 0 f ftSYNC ∧ x.ringFollows 0 = false ∧
      beaconFits 0 f x = true ∧ (x.nominalDev 0 f).isSome = true ∧ x.rstate 0 = rsLISTEN) ∧
    (let d := ((mk 1 ([(pgRing 0, RING.RSTATE, 1), (pgRing 0, RING.LOCKW, 1), (pgTIM, TIM.RATE, 0)] ++ twoSlots)).dev.mapRg 0
        fun g => { g with nom := nomTwo });
      let f := frameOf ftSYNC 2 (List.replicate 32 0) 4464; let x := d.passed 0 f; x.slotOf 0 ftSYNC 2 = none) ∧
    (let d := (mk 1 ([(pgRing 0, RING.RSTATE, 2), (pgRing 0, RING.LOCKW, 1), (pgTIM, TIM.RATE, 0)] ++ twoSlots ++
        [(pgRing 0, RING.TYPE.nth 8 1, 4)])).dev.mapRg 0 fun g => { g with nom := nomTwo };
      let f := frameOf ftSYNC 2 (List.replicate 32 0) 4464; let x := d.passed 0 f; d.getsFrame 0 f ftSYNC ∧ x.ringFollows 0 = false ∧
      beaconFits 0 f x = true ∧ x.nominalDev 0 f = some 0 ∧ x.rstate 0 = rsCOLDSTART ∧ (x.rg 0).yields = false ∧
      x.slotOf 0 ftSYNC 2 = some 1 ∧ 1 ∉ (x.rg 0).accepted) ∧
    (let d := (mk 1 ([(pgRing 0, RING.RSTATE, 2), (pgRing 0, RING.LOCKW, 1), (pgTIM, TIM.RATE, 0)] ++ twoSlots ++
        [(pgRing 0, RING.TYPE.nth 8 1, 4)])).dev.mapRg 0 fun g => { g with nom := nomTwo, accepted := [1] };
      let f := frameOf ftCOLDSTART 2 (List.replicate 32 0) 4464; let x := d.passed 0 f; d.getsFrame 0 f ftCOLDSTART ∧
      beaconFits 0 f x = true ∧ x.rstate 0 = rsCOLDSTART ∧ x.slotOf 0 ftCOLDSTART 2 = some 1 ∧ 1 ∈ (x.rg 0).accepted) ∧
    (let d := (inSync 2 2 []).dev; let f := frameOf ftAXIS 2 (List.replicate 8 0) 9999; let x := d.passed 0 f; d.getsFrame 0 f ftAXIS ∧
      x.ringFollows 0 = true ∧ x.slotFor 0 (hdrOf f.sof).type (hdrOf f.sof).src f.port f.tag = none) ∧
    (let d := (inSync 2 2 []).dev.mapRg 0 fun g => { g with accepted := [1] }; let f := rcv ftAXIS 2; let x := d.passed 0 f;
      x.slotFor 0 (hdrOf f.sof).type (hdrOf f.sof).src f.port f.tag = some 1 ∧ 1 ∈ (x.rg 0).accepted ∧
      (hdrOf f.sof).src ∉ (x.rg 0).muted) ∧
    (let q : Ranging := ⟨7, 0, none, none, [(3, 0, 0)]⟩; let d := (inSync 6 2 []).dev.mapRg 0 fun g => { g with ranging := some q };
      let f := frameOf ftRANGING 2 ([1, 0, 7, 0] ++ List.replicate 12 0) 4464; let x := d.passed 0 f; d.getsFrame 0 f ftRANGING ∧
      x.ringSync 0 = true ∧ (hdrOf f.sof).src ∉ (x.rg 0).muted ∧ x.rangingSlot 0 f = some 1 ∧ 1 ∉ (x.rg 0).accepted ∧
      field f 0 1 = 1 ∧ (x.rg 0).ranging = some q ∧ q.rid % 65536 = field f 2 2 ∧ (∀ e ∈ q.replies, e.1 ≠ (hdrOf f.sof).src)) ∧
    (let q : Ranging := ⟨7, 0, none, none, [(2, 0, 0)]⟩; let d := (inSync 6 2 []).dev.mapRg 0 fun g => { g with ranging := some q };
      let f := frameOf ftRANGING 2 ([1, 0, 7, 0] ++ List.replicate 12 0) 4464; let x := d.passed 0 f; d.getsFrame 0 f ftRANGING ∧
      x.rangingSlot 0 f = some 1 ∧ (x.rg 0).ranging = some q ∧ ∃ e ∈ q.replies, e.1 = (hdrOf f.sof).src) ∧
    (let d := (inSync 6 2 []).dev; let f := frameOf ftRANGING 2 (List.replicate 16 0) 9999; let x := d.passed 0 f;
      d.getsFrame 0 f ftRANGING ∧ x.rangingSlot 0 f = none) ∧
    (let d := (inSync 6 2 []).dev.mapRg 0 fun g => { g with accepted := [1] };
      let f := frameOf ftRANGING 2 ([1, 0, 7, 0] ++ List.replicate 12 0) 4464; let x := d.passed 0 f; d.getsFrame 0 f ftRANGING ∧
      x.rangingSlot 0 f = some 1 ∧ 1 ∈ (x.rg 0).accepted ∧ field f 0 1 = 1) ∧
    (let d := (inSync 6 1 [(pgRing 0, RING.DE.nth 4 1, 4000), (pgRing 0, RING.FWD.nth 4 1, 1536)]).dev;
      let f := frameOf ftRANGING 1 (List.replicate 16 0) 4464; let x := d.passed 0 f;
      d.getsFrame 0 f ftRANGING ∧ x.rangingSlot 0 f = some 1 ∧ field f 0 1 ≠ 1 ∧ (hdrOf f.sof).src = 1 - x.myst) ∧
    (let d := (inSync 6 2 []).dev.mapRg 0 fun g => { g with muted := [2] };
      let f := frameOf ftRANGING 2 (List.replicate 16 0) 4464; (hdrOf f.sof).src ∈ ((d.passed 0 f).rg 0).muted) ∧
    (let d := (inSync 4 2 [(pgRing 0, RING.RSTATE, 1)]).dev; let f := frameOf ftCOLDSTART 2 (List.replicate 9 0 ++ [2] ++ List.replicate 22 0) 4464;
      let x := d.passed 0 f; d.getsFrame 0 f ftCOLDSTART ∧ beaconFits 0 f x = false) ∧
    (let d := ((mk 1 ([(pgRing 0, RING.RSTATE, 1), (pgRing 0, RING.LOCKW, 1), (pgTIM, TIM.RATE, 0)] ++ twoSlots)).dev.mapRg 0
        fun g => { g with nom := nomTwo });
      let f := frameOf ftCOLDSTART 2 (List.replicate 32 0) 4464; let x := d.passed 0 f; d.getsFrame 0 f ftCOLDSTART ∧
      beaconFits 0 f x = true ∧ x.nominalDev 0 f = some 0 ∧ x.rstate 0 = rsLISTEN) ∧
    (let d := (mk 1 ([(pgRing 0, RING.RSTATE, 1), (pgRing 0, RING.LOCKW, 1), (pgTIM, TIM.RATE, 0)] ++ twoSlots)).dev;
      let f := frameOf ftCOLDSTART 2 (List.replicate 32 0) 4464; let x := d.passed 0 f; x.rstate 0 = rsLISTEN ∧
      x.nominalDev 0 f = none) ∧
    (let d := (mk 1 ([(pgRing 0, RING.RSTATE, 2), (pgRing 0, RING.LOCKW, 1), (pgTIM, TIM.RATE, 0), (pgSYS, SYS.HEAD, 1),
        (pgRing 1, RING.RSTATE, 4)] ++ twoSlots)).dev;
      let f := frameOf ftCOLDSTART 0 (List.replicate 32 0) 4464; let x := d.passed 0 f; d.getsFrame 0 f ftCOLDSTART ∧
      beaconFits 0 f x = true ∧ x.rstate 0 = rsCOLDSTART ∧ field f 8 1 = 0 ∧
      (hdrOf f.sof).src < x.myst ∧ (x.rg 0).yields = false ∧ (x.firstOf 0 f).isSome = true) ∧
    (let d := (mk 1 ([(pgRing 0, RING.RSTATE, 2), (pgRing 0, RING.LOCKW, 1), (pgTIM, TIM.RATE, 0), (pgSYS, SYS.HEAD, 1)] ++
        twoSlots)).dev.mapRg 0 fun g => { g with nom := nomTwo };
      let f := frameOf ftCOLDSTART 0 (List.replicate 32 0) 4464; let x := d.passed 0 f; x.nominalDev 0 f = some (-2536)) ∧
    (let d := ((mk 1 ([(pgRing 0, RING.RSTATE, 4), (pgRing 0, RING.LOCKW, 1), (pgTIM, TIM.RATE, 0), (pgSYS, SYS.HEAD, 1)] ++
        twoSlots)).dev.mapRg 0 fun g => { g with headless := 64, nom := nomTwo ++ [] });
      let f := frameOf ftCOLDSTART 0 (List.replicate 32 0) 4464; let x := d.passed 0 f; d.getsFrame 0 f ftCOLDSTART ∧
      beaconFits 0 f x = true ∧ x.rstate 0 = rsSYNC ∧ (hdrOf f.sof).src ≤ 1 ∧ 64 ≤ (x.rg 0).headless ∧ (x.rg 0).roleNow ≠ some true ∧
      ((leaveSync 0 5 x).nominalDev 0 f).isSome = true) ∧
    (let d := (mk 1 [(pgSYS, SYS.LOCKE, 1)]).dev; let f := frameOf ftSYNC 2 (List.replicate 8 0 ++ [4] ++ List.replicate 23 0) 0;
      let x := d.at f.tag; let y := x.mapSys .e (fun a => { a with
        m := some (beaconTime f / x.period, (f.tag : Int) - beaconTime f), nid := some (field f 12 2) });
      let z := y.timeMap (fun a => { a with sysOff := some ((a.hop : Int) - ((f.tag : Int) - beaconTime f)) });
      d.hears (.sys .e) = true ∧ hcrcOk f.sof = true ∧ payloadOk f = true ∧
      (hdrOf f.sof).src + 64 * (hdrOf f.sof).srcx ≠ d.deviceNo % 512 ∧ (hdrOf f.sof).type = ftSYNC ∧ field f 8 1 % 8 = rsSYNC ∧
      ((steerLimit (pairPdx .e z)).sysPort .e).pdxDue = false) ∧
    (let d := (mk 1 [(pgSYS, SYS.LOCKE, 1)]).dev; let f := rcv ftASYNC 2; d.hears (.sys .e) = true ∧ payloadOk f = true ∧
      (hdrOf f.sof).type ≠ ftSYNC ∧ crc32c f.data ≠ (f.crc + 1).toNat) ∧
    (let d := (mk 1 []).dev; let f := frameOf ftASYNC 2 [0, 0, 0, 0, 1, 0, 0x80, 0] 4464; (hdrOf f.sof).type = ftASYNC ∧
      (fragOf f).ch ≠ 0 ∧ (fragOf f).dst / 256 = (d.at f.tag).rd pgSYS SYS.SIDX ∧ (d.at f.tag).ownId (fragOf f).dst = true) ∧
    (let d := (mk 1 []).dev; let f := frameOf ftASYNC 2 [2, 0, 0, 0, 1, 0, 0x80, 0] 4464; (hdrOf f.sof).type = ftASYNC ∧
      (fragOf f).dst / 256 = (d.at f.tag).rd pgSYS SYS.SIDX ∧ (d.at f.tag).ownId (fragOf f).dst = false) ∧
    (let d := (mk 1 []).dev; let f := frameOf ftASYNC 2 [2, 7, 0, 0, 1, 0, 0x80, 0] 4464; (fragOf f).dst ≠ 0xFFFF ∧
      (fragOf f).dst / 256 ≠ (d.at f.tag).rd pgSYS SYS.SIDX) ∧
    (let d := (mk 1 [(pgSYS, SYS.LOCKE, 1), (pgSYS, SYS.PRIM.nth 4 7, 2), (pgSYS, SYS.ALT.nth 4 7, 1), (pgSYS, SYS.PRIM.nth 4 8, 1),
        (pgSYS, SYS.PRIM.nth 4 9, 0)]).dev;
      d.rd pgSYS (SYS.PRIM.nth 4 7) = 2 ∧ d.rd pgSYS (SYS.ALT.nth 4 7) = 1 ∧ d.hears (.sys .e) = true ∧ d.hears (.sys .w) = false ∧
      d.rd pgSYS (SYS.PRIM.nth 4 8) = 1 ∧ d.rd pgSYS (SYS.PRIM.nth 4 9) = 0) ∧
    (let d := (mk 1 [(pgSYS, SYS.LOCKW, 1), (pgSYS, SYS.PRIM.nth 4 7, 1), (pgSYS, SYS.ALT.nth 4 7, 2)]).dev;
      d.rd pgSYS (SYS.PRIM.nth 4 7) = 1 ∧ d.rd pgSYS (SYS.ALT.nth 4 7) = 2 ∧ d.hears (.sys .e) = false ∧ d.hears (.sys .w) = true ∧
      (mk 1 []).dev.hears (.sys .e) = false ∧ (mk 1 []).dev.hears (.sys .w) = false) ∧
    (let d := (mk 1 []).dev.mapSys .e fun a => { a with m := some (5, 100), theirs := some (5, 3300) };
      (d.sysPort .e).m = some (5, 100) ∧ (d.sysPort .e).theirs = some (5, 3300) ∧ 5 % 2 ^ 32 = 5 ∧ d.parentFar = false) ∧
    (let d := (mk 1 []).dev.mapSys .e fun a => { a with m := some (6, 100), theirs := some (5, 3300) }; 6 % 2 ^ 32 ≠ 5 ∧
      (d.sysPort .e).m = some (6, 100)) ∧
    (let d := (timeState [(pgSYS, SYS.PRIM, 1)] fun t => { t with e := { t.e with hops := 0, age := 0, o := some 1601 } }).dev;
      d.parentFar = true) := by
  (repeat' apply And.intro) <;> decide
theorem meets_FrameTransmit :
    (let s := mk 1 []; s.dev.inserted 0 = false) ∧
    (let s := ringState 1 ([(pgRing 0, RING.RSTATE, 4), (pgRing 0, RING.INS, 1), (pgRED, RED.ROLE, 4)] ++ twoSlots ++
        [(pgRing 0, RING.TYPE.nth 8 1, 1)]) fun g => { g with command := some [] };
      s.dev.stage ≠ 0 ∧ s.dev.on pgSTG STG.HDUP = false ∧ s.dev.inserted 0 = true ∧ (1#8).toNat < s.dev.rd (pgRing 0) RING.NSLOT ∧
      (s.dev.slot 0 1).turn s.dev.cyc = true ∧ (s.dev.slot 0 1).type = ftCOMMAND ∧ (s.dev.rg 0).command = some [] ∧
      s.dev.commanding = true ∧ s.dev.rstate 0 = rsSYNC ∧ (s.dev.rg 0).txWait = false ∧
      (s.dev.slot 0 0).type = ftSYNC ∧ (s.dev.slot 0 0).holder = s.dev.myst ∧ s.dev.role ≠ roNONE) ∧
    (let s := mk 1 ([(pgRing 0, RING.RSTATE, 2), (pgRing 0, RING.INS, 1)] ++ twoSlots ++ [(pgRing 0, RING.TYPE.nth 8 1, 5)]);
      (s.dev.slot 0 1).type = ftMIRROR ∧ s.dev.rstate 0 = rsCOLDSTART ∧ (s.dev.slot 0 0).turn s.dev.cyc = true ∧
      (s.dev.rg 0).coldFrom ≤ s.dev.cyc) ∧
    (let s := ringState 1 ([(pgRing 0, RING.RSTATE, 2), (pgRing 0, RING.INS, 1)] ++ twoSlots) fun g => { g with coldFrom := 1 };
      s.dev.rstate 0 = rsCOLDSTART ∧ s.dev.cyc < (s.dev.rg 0).coldFrom ∧ (s.dev.slot 0 0).type = ftSYNC) ∧
    (let s := mk 1 ([(pgRing 0, RING.RSTATE, 4), (pgRing 0, RING.INS, 1)] ++ twoSlots); (s.dev.slot 0 1).type ≠ ftCOMMAND ∧
      (s.dev.slot 0 1).type ≠ ftMIRROR ∧ (s.dev.slot 0 1).holder ≠ s.dev.myst) ∧
    (let s := mk 1 ([(pgRing 0, RING.INS, 1)] ++ twoSlots ++ [(pgRing 0, RING.TYPE, 6)]); (s.dev.slot 0 0).type = ftASYNC ∧
      (s.dev.slot 0 0).holder = s.dev.myst) := by
  (repeat' apply And.intro) <;> decide

/-! ## Hypotheses of the statements: tasks, pairs, local I/O, measurement, capture -/

/-- Pairs 0 to 15 working, 16 and 17 spare, all idle, the image loaded, with the scheduler changed. -/
def tasks (stage : Nat) (l : List (Nat × Fld × Nat)) (f : Tsu → Tsu) : State :=
  mkf stage ((pgCep 0, CEP.LOADED, 1) :: ((List.range 18).map fun p => (pgCep p, CEP.PSTATE, 1)) ++ l) fun d =>
    { d with tsu := f { d.tsu with work := List.range 16, spare := [16, 17] } }

/-- An enabled task that every pair may run. -/
def allPairs : TaskCfg := ⟨1, 0x3FFFF, 0, 0⟩

/-- Table 3 with a mismatch of cycle 0, kept for its replay on the spare pair 1, in a role. -/
def replayState (role : Nat) : State :=
  mkf 2 [(pgRED, RED.ROLE, role), (pgCep 1, CEP.PSTATE, 1), (pgAxp 3, AXP.PAIR, 17), (pgAxp 3, AXP.STATE, 1)] fun d =>
    let d := d.redMap fun r => { r with replay := some ⟨3, 0, 10195, none, none⟩, past := [⟨0, 0, d.regs, d.mot, []⟩] }
    { putCycle 1 d with tsu := { d.tsu with spare := [1] } }

theorem meets_TasksPairsAndHeadPair :
    ((axisState 1 []).dev.taskRunnable 3 = true ∧ (mk 1 []).dev.taskRunnable 3 = false ∧ ((mk 1 []).dev.sea 3).ends = none) ∧
    (let d := (mk 2 []).dev.mapSea 3 fun x => { x with ends := some 1 }; (d.sea 3).ends = some 1 ∧ d.cyc < 1) ∧
    (let d := (mk 2 []).dev.mapSea 3 fun x => { x with ends := some 0 }; (d.sea 3).ends = some 0 ∧ 0 ≤ d.cyc ∧ (d.sea 3).source = none) ∧
    (let d := (mk 2 []).dev.mapSea 3 fun x => { x with ends := some 0, source := some 4 }; (d.sea 3).source = some 4 ∧
      ∀ b ∈ d.bad, b < seaAddr 4 0 ∨ seaAddr 4 0 + 4 * d.seaN 3 ≤ b) ∧
    (let d := { (mk 2 []).dev.mapSea 3 (fun x => { x with ends := some 0, source := some 4 }) with bad := [seaAddr 4 0] };
      (d.sea 3).source = some 4 ∧
      d.bad.find? (fun b => decide (seaAddr 4 0 ≤ b) && decide (b < seaAddr 4 0 + 4 * d.seaN 3)) = some (seaAddr 4 0)) ∧
    (let i : Inst := ⟨300, 1, .ready, 0, none⟩; let s := tasks 1 [] fun t => { t with insts := [i], cfg := [(300, ⟨0, 0, 0, 0⟩)] };
      (s.dev.at 9).tsu.firstReady 300 = some i ∧ s.dev.tasksRun = true ∧
      (s.dev.at 9).place 300 = none) ∧
    (let i : Inst := ⟨300, 1, .ready, 0, none⟩; let s := tasks 1 [] fun t => { t with insts := [i], cfg := [(300, allPairs)] };
      (s.dev.at 9).tsu.firstReady 300 = some i ∧ (s.dev.at 9).place 300 = some 0 ∧ (s.dev.at 9).nextOn 0 i = true) ∧
    (let i : Inst := ⟨300, 1, .ready, 0, none⟩; let j : Inst := ⟨299, 1, .ready, 0, none⟩;
      let s := tasks 1 [] fun t => { t with insts := [i, j], cfg := [(300, allPairs), (299, allPairs)] };
      (s.dev.at 9).tsu.firstReady 300 = some i ∧ (s.dev.at 9).place 300 = some 0 ∧ (s.dev.at 9).nextOn 0 i = false) ∧
    (let i : Inst := ⟨300, 1, .preempted, 0, some 16⟩; let c : Context := ⟨300, 1, Eng.zero⟩;
      let s := tasks 2 [] fun t => { t with insts := [i], ctx := [c] };
      s.dev.tsu.insts.find? (fun i => i.task == 300 && i.state == .preempted) = some i ∧ i.pair = some 16 ∧
      s.dev.tsu.ctx.find? (fun c => c.task == 300 && c.seq == i.seq) = some c ∧ s.dev.pstate 16 = 1 ∧
      (s.dev.pair 16).running = .nothing ∧ s.dev.freeForTasks 16 = true ∧ s.dev.nextOn 16 i = true) ∧
    (let s := tasks 1 [] id; (∀ i ∈ s.dev.tsu.insts, i.task = 300 → i.state ≠ .ready) ∧
      s.dev.tsu.insts.find? (fun i => i.task == 300 && i.state == .preempted) = none) ∧
    (let s := tasks 1 [] fun t => { t with due := [⟨300, 0x40, 1, 0⟩] }; s.dev.tsu.idle 300 = true ∧
      ∃ x ∈ s.dev.tsu.due, x.task = 300 ∧ x.cycle ≤ s.dev.rd64 pgTIM 0 TIM.CYCLO.off) ∧
    (let s := tasks 1 [] fun t => { t with due := [⟨300, 0x40, 1, 1⟩] };
      ∀ x ∈ s.dev.tsu.due, x.task = 300 → s.dev.rd64 pgTIM 0 TIM.CYCLO.off < x.cycle) ∧
    (let s := tasks 1 [] fun t => { t with failed := [300] }; s.dev.tsu.idle 300 = false) ∧
    (let s := tasks 2 [(pgCep 4, CEP.PSTATE, 4)] id; s.dev.pstate 4 = 4 ∧ s.dev.pstate 17 ≠ 0 ∧ s.dev.pstate 17 ≠ 4 ∧
      17 ∉ s.dev.tsu.work ∧ 3 ∈ s.dev.tsu.work) ∧
    ((mk 0 []).dev.stage = 0 ∧ (mk 1 []).dev.stage ≠ 0 ∧ 0x30_0000 ≤ 0xB7_FFFF) ∧
    (let s := axisState 3 []; s.dev.stage ≠ 0 ∧ 0xBFFF / 0x3000 = (3 : AxisId).val ∧ s.dev.configured 3 = true ∧ 0x3FF_FFFF < dramImage ∧
      dramStaging ≤ 0xFFF_FFFF ∧ dramImage < dramStaging) ∧
    (let s := mk 1 []; s.dev.pstate 3 ≠ 5 ∧ s.dev.load.tested = false) ∧
    (let s := mkf 1 [(pgCep 3, CEP.PSTATE, 5)] fun d => { d with load := { d.load with tested := true } }; s.dev.pstate 3 = 5 ∧
      s.dev.load.tested = true ∧ (s.dev.pair 3).reviving = false) ∧
    (let s := mkf 1 [(pgCep 3, CEP.PSTATE, 5)] fun d => d.setPair 3 { d.pair 3 with reviving := true }; (s.dev.pair 3).reviving = true ∧
      (3 : PairId).val ∉ s.dev.tsu.spare) ∧
    (let s := mkf 2 [(pgRED, RED.ROLE, 2)] fun d => { (d.redMap fun r => { r with repairs := [(3, 0)], parts := [12, 13, 14, 15] }) with
        st := 256 * 16000 * 250 };
      s.dev.checks = true ∧ ((3 : AxisId).val, 0) ∈ s.dev.red.repairs ∧ s.dev.role = roSTANDBY ∧ s.dev.repairCame 3 = true ∧
      s.dev.red.repairs.find? (fun x => x.1 == (3 : AxisId).val) = some ((3 : AxisId).val, 0)) ∧
    (let s := mk 1 []; s.dev.checks = false ∧ s.dev.role ≠ roSTANDBY ∧ s.dev.red.replay = none ∧ s.dev.rd pgRED RED.RPH ≠ 1 ∧
      s.dev.rd pgRED RED.RPH ≠ 3 ∧ s.dev.rd pgRED RED.RPH ≠ 4 ∧ s.dev.rd pgRED RED.RPH ≠ 5 ∧ s.dev.commanding = false ∧
      s.dev.joining = false) ∧
    (let s := mkf 2 [(pgRED, RED.ROLE, 1)] fun d => d.redMap fun r => { r with replay := some ⟨3, 0, 0, none, none⟩ };
      s.dev.red.replay = some ⟨3, 0, 0, none, none⟩ ∧ s.dev.commanding = true ∧ s.dev.cyc ≤ 0) ∧
    (let s := mkf 2 [(pgRED, RED.ROLE, 2)] fun d => { (putCycle 1 d).redMap fun r => { r with replay := some ⟨3, 0, 0, none, none⟩ } with st := 0 };
      s.dev.commanding = false ∧ s.dev.checks = true ∧ s.dev.red.replay = some ⟨3, 0, 0, none, none⟩ ∧ 0 < s.dev.cyc ∧
      s.dev.replayDigest 3 0 = none) ∧
    (let s := replayState 1; s.dev.red.replay = some ⟨3, 0, 10195, none, none⟩ ∧ 0 < s.dev.cyc ∧ s.dev.commanding = true ∧
      s.dev.checks = false ∧ s.dev.replayDigest 3 0 = some 10195) ∧
    (let s := replayState 2; s.dev.red.replay = some ⟨3, 0, 10195, none, none⟩ ∧ 0 < s.dev.cyc ∧ s.dev.commanding = false ∧
      s.dev.checks = true ∧ s.dev.replayDigest 3 0 = some 10195) ∧
    (let s := replayState 3; s.dev.red.replay = some ⟨3, 0, 10195, none, none⟩ ∧ 0 < s.dev.cyc ∧ s.dev.commanding = false ∧
      s.dev.checks = false ∧ s.dev.replayDigest 3 0 = some 10195) ∧
    (let s := mk 2 [(pgRED, RED.ROLE, 4), (pgRED, RED.RPH, 1)]; s.dev.rd pgRED RED.RPH = 1 ∧ s.dev.commanding = true) ∧
    (let s := mk 2 [(pgRED, RED.ROLE, 3), (pgRED, RED.RPH, 1)]; s.dev.rd pgRED RED.RPH = 1 ∧ s.dev.role = roSILENT ∧ s.dev.red.same = none) ∧
    (let s := mkf 2 [(pgRED, RED.ROLE, 3), (pgRED, RED.RPH, 1)] fun d => d.redMap fun r => { r with same := some true };
      s.dev.rd pgRED RED.RPH = 1 ∧ s.dev.role = roSILENT ∧ s.dev.red.same = some true) ∧
    (let s := mkf 2 [(pgRED, RED.ROLE, 4), (pgRED, RED.RPH, 2)] fun d => d.redMap fun r => { r with cursor := 2 ^ 40, pass := 3 };
      s.dev.commanding = true ∧ s.dev.rd pgRED RED.RPH = 2 ∧ s.dev.bulkTotal ≤ s.dev.red.cursor ∧ s.dev.red.dirty.length ≤ 16384) ∧
    (let s := mkf 2 [(pgRED, RED.ROLE, 4), (pgRED, RED.RPH, 3)] fun d => d.redMap fun r => { r with captured := true };
      s.dev.rd pgRED RED.RPH = 3 ∧ s.dev.commanding = true ∧ s.dev.red.captured = true ∧ s.dev.red.bulk = []) ∧
    (let s := mk 2 [(pgRED, RED.ROLE, 3), (pgRED, RED.RPH, 3)]; s.dev.rd pgRED RED.RPH = 3 ∧ s.dev.role = roSILENT ∧ s.dev.blocksCame = true) ∧
    (let s := mk 2 [(pgRED, RED.ROLE, 3), (pgRED, RED.RPH, 3), (pgAxp 3, AXP.STATE, 1)]; s.dev.blocksCame = false) ∧
    (let s := mk 2 [(pgRED, RED.ROLE, 4), (pgRED, RED.RPH, 4)]; s.dev.rd pgRED RED.RPH = 4 ∧ s.dev.commanding = true) ∧
    (let s := mk 2 [(pgRED, RED.ROLE, 3), (pgRED, RED.RPH, 4)]; s.dev.rd pgRED RED.RPH = 4 ∧ s.dev.role = roSILENT ∧ s.dev.red.opened = none) ∧
    (let s := mkf 2 [(pgRED, RED.ROLE, 4), (pgRED, RED.RPH, 5)] fun d => d.redMap fun r => { r with clean := 128 };
      s.dev.rd pgRED RED.RPH = 5 ∧ s.dev.role = roALONE ∧ 128 ≤ s.dev.red.clean) ∧
    (let s := mkf 2 [(pgRED, RED.ROLE, 3), (pgRED, RED.RPH, 5)] fun d => { d with st := 160000000001 }; s.dev.joining = true ∧
      s.dev.red.since + 160000000000 < s.dev.st) := by
  (repeat' apply And.intro) <;> decide

theorem meets_TasksPairsAndHeadPair_rerun (n : AxisId) (c : Nat) (s : TableState) (d : Dev) :
    rerunFrom n 0 c s none d = (s, none, d) := rfl
theorem meets_TasksPairsAndHeadPair_pass : let s := mkf 2 [(pgRED, RED.ROLE, 4), (pgRED, RED.RPH, 2)] fun d => d.redMap fun r => { r with
      cursor := 2 ^ 40, pass := 2, dirty := List.replicate 16385 0 };
    s.dev.commanding = true ∧ s.dev.rd pgRED RED.RPH = 2 ∧ s.dev.bulkTotal ≤ s.dev.red.cursor ∧ s.dev.red.pass < 3 ∧
    16384 < s.dev.red.dirty.length := by
  refine ⟨by decide, by decide, by decide, by decide, ?_⟩
  exact Nat.lt_of_lt_of_eq (Nat.lt_succ_self 16384) (List.length_replicate (a := 0)).symm

theorem meets_LocalIoAndSafeChain :
    ((mk 0 []).dev.stage = 0) ∧
    (let s := mk 1 [(pgFbu 7, FBU.MODE, 1), (pgFbu 7, FBU.LFEN, 1), (pgFbu 7, FBU.LEDGE, 3), (pgFbu 7, FBU.LAUTO, 1), (pgFbu 7, FBU.LIEN, 1)];
      s.dev.stage ≠ 0 ∧ s.dev.rd (pgFbu 7) FBU.MODE = 1 ∧ s.dev.on (pgFbu 7) FBU.HYS = false ∧ s.dev.on (pgFbu 7) FBU.LIMEN = false ∧
      (s.dev.fbu 7).lost = 0 ∧ s.dev.on (pgFbu 7) FBU.LFEN = true ∧ lineUsed (s.dev.rd (pgFbu 7) FBU.MODE) 2 = true ∧
      s.dev.rdBit (pgFbu 7) FBU.LF 2 = false ∧ s.dev.rd (pgFbu 7) FBU.LEDGE = 3 ∧ s.dev.on (pgFbu 7) FBU.LAUTO = true ∧
      s.dev.on (pgFbu 7) FBU.LIEN = true) ∧
    (let s := mk 1 [(pgFbu 0, FBU.MODE, 2), (pgFbu 0, FBU.LFEN, 0), (pgFbu 0, FBU.LEDGE, 1), (pgFbu 0, FBU.LARMD, 1)]; s.dev.rd (pgFbu 0) FBU.MODE = 2 ∧
      s.dev.on (pgFbu 0) FBU.LFEN = false ∧ s.dev.rd (pgFbu 0) FBU.LEDGE = 1 ∧ s.dev.on (pgFbu 0) FBU.LAUTO = false ∧
      s.dev.on (pgFbu 0) FBU.LARMD = true ∧ s.dev.on (pgFbu 0) FBU.LIEN = false) ∧
    (let s := mk 1 [(pgFbu 0, FBU.MODE, 3), (pgFbu 0, FBU.LEDGE, 2), (pgFbu 0, FBU.EBIT, 0), (pgFbu 0, FBU.GRAY, 0)];
      s.dev.rd (pgFbu 0) FBU.MODE = 3 ∧ s.dev.rd (pgFbu 0) FBU.LEDGE = 2 ∧ s.dev.on (pgFbu 0) FBU.LARMD = false ∧
      s.dev.on (pgFbu 0) FBU.EBIT = false ∧ (s.dev.fbu 0).serial = none ∧ s.dev.on (pgFbu 0) FBU.GRAY = false ∧ 2000 < 2001) ∧
    (let s := mk 1 []; s.dev.rd (pgFbu 0) FBU.MODE ≠ 1 ∧ s.dev.rd (pgFbu 0) FBU.MODE ≠ 2 ∧ s.dev.rd (pgFbu 0) FBU.MODE ≠ 3 ∧
      s.dev.rd (pgFbu 0) FBU.LEDGE = 0 ∧ s.dev.rdC 0 1 FBU.CACT = 0 ∧ s.dev.cmpArmed 0 1 = false) ∧
    (let d := ((mk 1 []).dev.wrC 0 1 FBU.CACT 1); d.rdC 0 1 FBU.CACT ≠ 0) ∧
    (let d := (mk 1 []).dev.mapCmp 0 1 fun x => { x with active := true }; d.rdC 0 1 FBU.CACT = 0 ∧ ((d.fbu 0).cmp[1]).active = true ∧
      ((d.fbu 0).cmp[1]).last + d.pulseLsb 0 1 ≤ 1600 ∧ 0 < ((d.fbu 0).cmp[1]).last + d.pulseLsb 0 1) ∧
    (let d := (((mk 1 []).dev.wrC 0 1 FBU.ARMED 1).wrC 0 1 FBU.CMODE 2).mapCmp 0 1 fun x => { x with span := some (-5, 5) };
      ((d.fbu 0).cmp[1]).span = some (-5, 5) ∧ d.cmpArmed 0 1 = true ∧ d.rdC 0 1 FBU.CMODE = 2 ∧ d.passes 0 1 (-5) 5 = true ∧
      ((d.fbu 0).cmp[1]).last + 2 * d.pulseLsb 0 1 ≤ 10000000 ∧ 0 < ((d.fbu 0).cmp[1]).last + 2 * d.pulseLsb 0 1) ∧
    (let d := (mk 1 [(pgFbu 0, FBU.MODE, 1), (pgFbu 0, FBU.FILT, 3)]).dev.mapFbu 0 fun x => { x with held := [⟨0, true, 5⟩] };
      (d.fbu 0).held = [⟨0, true, 5⟩] ∧ 5 + d.filterOf 0 ≤ 10000 ∧ (∀ h ∈ (d.fbu 0).held, 0 < h.t + d.filterOf 0) ∧
      (d.fbu 0).closeEdge true false (tenNs + d.filterOf 0) 5 = false ∧
      stepOf (d.rd (pgFbu 0) FBU.QM) (d.fbu 0).a (d.fbu 0).b true false = some 1 ∧
      stepOf (d.rd (pgFbu 0) FBU.QM) (d.fbu 0).a (d.fbu 0).b false false = some 0 ∧
      stepOf (d.rd (pgFbu 0) FBU.QM) (d.fbu 0).a (d.fbu 0).b true true = none) ∧
    (let d := (mk 1 [(pgFbu 0, FBU.MODE, 1), (pgFbu 0, FBU.LSRC, 1)]).dev; (d.fbu 0).z ≠ true ∧
      ((incEdge 0 false false 5 d).mapFbu 0 fun x => { x with a := false, b := false, z := true }).on (pgFbu 0) FBU.LSRC = true ∧
      ((pinEdge (0x12 + 4 * 0) true 5 d).mapFbu 0 fun y => { y with z := true, held := [] }).on (pgFbu 0) FBU.LSRC = true) ∧
    (let d := (mk 1 []).dev.mapFbu 0 fun x => { x with edgeB := some 5 }; (d.fbu 0).closeEdge true false (tenNs + d.filterOf 0) 6 = true) ∧
    (let d := (mk 1 ((List.range 8).map fun c => (pgFbu c, FBU.LPIN, 7))).dev;
      let x := (pinEdge (0x30 + 2) true 5 (d.at 5)).mapFbu 2 (fun y => { y with pin := true }); ∀ c : FbuId, x.latchesOn c 2 = false) ∧
    (let d := (mk 1 (((List.range 8).map fun c => (pgFbu c, FBU.LPIN, 7)) ++ [(pgFbu 3, FBU.LPIN, 2), (pgFbu 3, FBU.LEDGE, 1)])).dev;
      let x := (pinEdge (0x30 + 2) true 5 (d.at 5)).mapFbu 2 (fun y => { y with pin := true }); x.latchesOn 3 2 = true ∧
      ∀ c' : FbuId, c' ≠ 3 → (latchSource 3 true 5 (settleFbu 3 (5 + x.filterOf 3) x)).latchesOn c' 2 = false ∧
        x.latchesOn c' 2 = false) ∧
    (let d := (mk 1 [(pgFbu 7, FBU.LIEN, 1)]).dev; (pinEdge (0x30 + 7) true d.st (d.mapFbu 7 fun y => { y with pin := true })).on (pgFbu 7)
      FBU.LIEN = true) ∧
    (let d := (mk 1 []).dev; (d.pulseIn 3).held = [] ∧ d.rd pgSGU (SGU.FILT.nth 0x10 3) = 0 ∧
      (∀ e, e < 64 → d.rd pgCAP (CAP.SRC.nth 4 e) ≠ 0x38 + 2 * 3 ∧ d.rd pgCAP (CAP.SRC.nth 4 e) ≠ 0x39 + 2 * 3) ∧
      (∀ e, e < 64 → d.rd pgCAP (CAP.SRC.nth 4 e) ≠ 0x50 + 15)) ∧
    ((mk 1 [(pgSGU, SGU.FILT.nth 0x10 3, 1)]).dev.rd pgSGU (SGU.FILT.nth 0x10 3) ≠ 0) ∧
    (let d := ((((mk 1 []).dev.wrC 0 1 FBU.ARMED 1).wrC 0 1 FBU.CMODE 2).wrC 0 1 FBU.BPOL 1).mapFbu 0 fun x => { x with
        change := some (0, true) }; d.rdC 0 1 FBU.BPOL = 1 ∧ d.cmpBehind 0 1 0 = true ∧ d.cmpArmed 0 1 = true) ∧
    (let s := mkf 1 [(pgSgc 15, SGC.SEN, 1)] fun d => { d with io := { d.io with stp := d.io.stp.set 15 ⟨true, 1, 0, 0, 0⟩ } };
      s.dev.on (pgSgc 15) SGC.SEN = true ∧ (s.dev.stp 15).i < (s.dev.stp 15).m ∧ (s.dev.stp 15).i + 1 = (s.dev.stp 15).m) ∧
    (let s := mk 1 [(pgSAF, SAF.SIEN, 0)]; s.dev.on (pgSgc 0) SGC.SEN = false ∧ s.dev.sien 0 = false ∧ (setSafePins 0 false true s.dev).sien 0 = false ∧ s.dev.stopA 0 = s.dev.stopB 0 ∧
      s.dev.safe.timer[(0 : Fin 4)] = false) ∧
    (let s := mk 1 [(pgSAF, SAF.SIEN, 15)]; (setSafePins 3 false true s.dev).sien 3 = true ∧ (setSafePins 3 false true s.dev).stopA 3 = true) ∧
    (let d := setSafePins 3 false true (mk 1 [(pgSAF, SAF.SIEN, 15)]).dev; d.sien 3 = true ∧ d.stopA 3 ≠ d.stopB 3) ∧
    (let s := mkf 1 [(pgSAF, SAF.HOLD, 1)] fun d => d.safeMap fun x => { x with timer := x.timer.set 3 true };
      s.dev.on pgSAF SAF.HOLD = true ∧ s.dev.safe.timer[(3 : Fin 4)] = true) ∧
    (let s := mk 1 [(pgSAF, SAF.HOLD, 0)]; s.dev.on pgSAF SAF.HOLD = false ∧ 7 < 8) := by
  (repeat' apply And.intro) <;> decide

/-- The device with one core of the measurement die changed. -/
def coreState (cs : Nat) (l : List (Nat × Fld × Nat)) (f : Core → Core) : State :=
  mkf 1 ((pgMfc 3, MFC.CSTATE, cs) :: l) fun d => d.mapCore 3 f
/-- The device with its line crossing changed. -/
def lineState (l : List (Nat × Fld × Nat)) (f : Mfe → Mfe) : State := mkf 1 ((pgMFE, MFE.LEN, 1) :: l) fun d => { d with mfe := f d.mfe }

theorem meets_MeasurementAndCapture :
    (let s := coreState 1 [(pgMfc 3, MFC.TSRC, 1), (pgMfc 3, MFC.PEND, 1)] id;
      s.dev.cstate 3 = 1 ∧ (∀ t0 ∈ (s.dev.core 3).due.head?, 0 + 320 < t0) ∧ s.dev.mfNow 3 MFC.CONT = 0 ∧ s.dev.trigAt 3 0 = true ∧ s.dev.on (pgMfc 3) MFC.PEND = true ∧ s.dev.cstate 3 ≠ 0) ∧
    (let s := coreState 3 [] id; (∀ t0 ∈ (s.dev.core 3).due, 0 ≤ t0) ∧
      s.dev.on (pgMfc 3) MFC.PEND = false ∧ s.dev.cstate 3 = 3) ∧
    (let s := coreState 1 [] fun x => { x with due := [5] }; s.dev.cstate 3 = 1 ∧ (s.dev.core 3).due = 5 :: [] ∧ 5 ≤ 0 + 320) ∧
    (let s := coreState 1 [] fun x => { x with due := [321] };
      (∀ t0 ∈ (s.dev.core 3).due.head?, 0 + 320 < t0) ∧ s.dev.on (pgMfc 3) MFC.PEND = false) ∧
    (let s := coreState 4 [] id; s.dev.cstate 3 = 4 ∧ (s.dev.core 3).phase = 0 ∧
      (s.dev.core 3).since + s.dev.chanScan 3 MFC.SETTLE * 16000 ≤ 10 ^ 9 + 160) ∧
    (let s := coreState 4 [] fun x => { x with phase := 1, capt := 10000 };
      s.dev.cstate 3 = 4 ∧ (s.dev.core 3).phase = 1 ∧ (s.dev.core 3).t0 + (s.dev.core 3).capt * 16 ≤ 160000 + 160 ∧
      0 + 160 < (s.dev.core 3).t0 + (s.dev.core 3).capt * 16) ∧
    (let s := coreState 4 [] fun x => { x with phase := 2, gain := 2 ^ 30 }; s.dev.cstate 3 = 4 ∧ (s.dev.core 3).phase = 2 ∧
      (s.dev.core 3).since + 4 * 16000 ≤ 64000 ∧ 63999 < (s.dev.core 3).since + 4 * 16000 ∧
      correctCode (s.dev.core 3).gain (s.dev.core 3).offs 5 = satS 24 (correctCode (s.dev.core 3).gain (s.dev.core 3).offs 5) ∧
      correctCode (s.dev.core 3).gain (s.dev.core 3).offs 16777215 ≠
        satS 24 (correctCode (s.dev.core 3).gain (s.dev.core 3).offs 16777215) ∧ s.dev.bomode 3 ≠ 2) ∧
    (let s := coreState 5 [] id; s.dev.cstate 3 = 5 ∧ (s.dev.core 3).since + max 300 (s.dev.mfScan 3 MFC.DUMPT) * 16000 ≤ 10 ^ 11 ∧
      0 < (s.dev.core 3).since + max 300 (s.dev.mfScan 3 MFC.DUMPT) * 16000) ∧ ((mk 1 []).dev.cstate 3 = 0) ∧ ((mk 1 []).dev.trigAt 3 5 = false) ∧
    (let s := coreState 2 [(pgMfc 3, MFC.TSRC, 0)] fun x => { x with due := [5] }; s.dev.cstate 3 = 2 ∧
      predictable (s.dev.mf 3 MFC.TSRC) = false ∧ (s.dev.core 3).due ≠ []) ∧
    (let s := coreState 2 [(pgMfc 3, MFC.TSRC, 1)] fun x => { x with due := [5] }; s.dev.cstate 3 = 2 ∧
      predictable (s.dev.mf 3 MFC.TSRC) = true ∧ s.dev.nextDue 3 0 ≤ 0 + 200 * 16000) ∧
    (let s := coreState 3 [] fun x => { x with due := [5] }; s.dev.cstate 3 = 3 ∧ (∃ t0 ∈ (s.dev.core 3).due.head?, t0 < 6) ∧
      ¬ ∃ t0 ∈ (s.dev.core 3).due.head?, t0 < 5) ∧
    (let s := coreState 4 [] fun x => { x with testing := true }; (s.dev.core 3).testing = true ∧ s.dev.cstate 3 = 4 ∧
      (s.dev.core 3).since + 50 * 16000 ≤ 800000) ∧
    (let s := coreState 5 [] fun x => { x with testing := true }; (s.dev.core 3).testing = true ∧ s.dev.cstate 3 ≠ 4 ∧
      (s.dev.entryNow 3).2 = false) ∧
    ((mk 0 []).dev.stage = 0 ∧ (mk 1 [(pgMFE, MFE.LEN, 0)]).dev.on pgMFE MFE.LEN = false) ∧
    (let s := lineState [] id; s.dev.stage ≠ 0 ∧ s.dev.on pgMFE MFE.LEN = true ∧ s.dev.mfe.crossing = none) ∧
    (let s := lineState [(pgMFE, MFE.LOCK, 1)] fun x => { x with crossing := some 0 }; s.dev.mfe.crossing = some 0 ∧
      periodOk (320000000 / 4 * 4 - 0) = true ∧ periodOk (4 / 4 * 4 - 0) = false ∧ s.dev.on pgMFE MFE.LOCK = true ∧
      s.dev.stage ≠ 0 ∧ 0 + 25000 * 16000 ≤ 400000000 ∧ 399999999 < 0 + 25000 * 16000) ∧
    (let s := lineState [] fun x => { x with crossing := some 0, periods := List.replicate 8 320000000 };
      steadyRun 8 ((320000000 :: s.dev.mfe.periods).take 9) = true ∧ s.dev.on pgMFE MFE.LOCK = false) ∧
    (steadyRun 8 [320000000] = false) ∧
    (let s := mk 1 []; s.dev.stage ≠ 0 ∧ s.dev.dieFitted = true ∧ (16#5) ≠ 0 ∧ s.dev.mfe.fault = false) ∧
    (let s := mkf 1 [(pgMfc 3, HDR.EN, 1)] fun d => { d with mfe := { d.mfe with fault := true } }; s.dev.mfe.fault = true ∧
      s.dev.on (pgMfc 3) HDR.EN = true ∧ s.dev.cstate 3 = 0 ∧ s.dev.on pgCAL CAL.VBUSY = false) ∧
    (let s := mk 1 [(pgCAP, CAP.SRC.nth 4 63, 0x8D)]; s.dev.stage ≠ 0 ∧ s.dev.edgeLevel (63#6).toNat ≠ true ∧
      edgeSrcOn (s.dev.rd pgCAP (CAP.SRC.nth 4 (63#6).toNat)) = false) ∧
    (let s := mk 1 [(pgCAP, CAP.SRC.nth 4 63, 0x8C)]; edgeSrcOn (s.dev.rd pgCAP (CAP.SRC.nth 4 (63#6).toNat)) = true) ∧
    (let s := mk 1 [(pgCapu 15, CAPU.MODE, 2), (pgCapu 15, CAPU.USTATE, 1), (pgCapu 15, CAPU.ATMO, 0)]; let x := s.dev.at 16000000;
      s.dev.rd (pgCapu 15) CAPU.MODE = 2 ∧ s.dev.rd (pgCapu 15) CAPU.USTATE = 1 ∧
      (s.dev.capUnit 15).armedAt + min 60000 (max 1 (s.dev.rd (pgCapu 15) CAPU.ATMO)) * 16000000 ≤ x.st ∧
      s.dev.st < (s.dev.capUnit 15).armedAt + min 60000 (max 1 (s.dev.rd (pgCapu 15) CAPU.ATMO)) * 16000000) ∧
    (let s := mk 1 [(pgCapu 15, CAPU.USTATE, 3), (pgCapu 15, CAPU.NPP, 7), (pgCapu 15, CAPU.BSIZE, 1)];
      s.dev.rd (pgCapu 15) CAPU.USTATE = 3 ∧
      (s.dev.capUnit 15).closedAt + s.dev.rd (pgCapu 15) CAPU.HOLD * 16000 ≤ s.dev.st ∧ (s.dev.capUnit 15).reserved = false ∧
      (capReserve 15 s.dev).rd (pgCapu 15) CAPU.NPP ≤ 7 ∧ capFits 15 s.dev = true) ∧
    (let s := mkf 1 [(pgCapu 15, CAPU.USTATE, 3), (pgCapu 15, CAPU.NPP, 8)] fun d => d.setCapUnit 15 { d.capUnit 15 with reserved := true };
      (s.dev.capUnit 15).reserved = true ∧ 7 < s.dev.rd (pgCapu 15) CAPU.NPP) ∧
    (let s := mk 1 [(pgCapu 15, CAPU.USTATE, 3), (pgCapu 15, CAPU.BSIZE, 0)]; capFits 15 s.dev = false ∧
      (s.dev.capUnit 15).reserved = false) := by
  (repeat' apply And.intro) <;> decide

/-- R560: FCRC is the CRC-32C of the factory set, laid out as CAL 0x080 + 4 × n. -/
theorem test_shipped_factory_crc :
    crc32c (Fuse.reset.fcal.toList.flatMap fun w => bytesLE 4 w.toNat) = Fuse.reset.fcrc.toNat := by decide

end Sys2Proof.Tests
end

section
/-! PROOFS. How a pair issues an instruction, the flags of SR, and what an instruction that goes on leaves of the pair: the layer
that the proofs about the instructions of the engine rest on (spec/08). -/
namespace Sys2Proof.Machine

/-! ## What a pair does with an instruction it issues -/

theorem act_withDev (s : State) (f : Dev → Dev) : s.act f = .next (s.withDev (f s.dev)) := rfl

theorem taskTrap_user {p : PairId} {t : Nat} (c : Nat) (d : Dev) (h : 288 ≤ t) :
    taskTrap p t c d = endTask p false
      ((raise (pgCep p) 1 p (recordTrap p c (d.pair p).eng.pc.toNat t 0 d)).wrS pgTSU t TSU.TRAPF 1) := by
  simp only [taskTrap, Nat.not_lt.mpr h, if_false]

/-- A pair that runs a user task takes the trap of the instruction it issues (R342). -/
theorem pairIssue_trap {s : State} {p : PairId} {t q : Nat} {f : IFun} {c : Nat} (h : s.runs p t q)
    (hf : f (s.dev.taskEnv p t) (s.dev.eng p) s.dev = .error c) : pairIssue p f s.dev = taskTrap p t c s.dev := by
  obtain ⟨hrun, htask, -⟩ := h
  have hi : issue (s.dev.taskEnv p t) f (s.dev.pair p).eng s.dev = .error c := by
    unfold Dev.eng at hf
    simp only [issue, hf]
  simp only [pairIssue, hrun, issueOn, htask, issueAs, hi, if_true]

/-- A pair that runs a user task issues an instruction that runs and goes on. -/
theorem pairIssue_next {s : State} {p : PairId} {t q : Nat} {f : IFun} {e : Eng} {d : Dev} {num : Bool}
    (h : s.runs p t q) (hf : f (s.dev.taskEnv p t) (s.dev.eng p) s.dev = .ok ⟨e, d, .next, num⟩)
    (hd : d.pairs = s.dev.pairs) : pairIssue p f s.dev = issued p e none num d := by
  obtain ⟨hrun, htask, -⟩ := h
  have hp : d.pair p = s.dev.pair p := by simp only [Dev.pair, hd]
  have hi : issue (s.dev.taskEnv p t) f (s.dev.pair p).eng s.dev =
      .ok ⟨(s.dev.pair p).eng.after e none, d, .next, num⟩ := by
    unfold Dev.eng at hf
    simp only [issue, hf, Eng.after]
  simp only [pairIssue, hrun, issueOn, htask, issueAs, hi, afterIssue, issued, hp, if_true]

/-! ## Flags of SR -/

theorem bitOf_eq_testBit (x i : Nat) : bitOf x i = x.testBit i := by
  rw [bitOf, Nat.testBit_eq_decide_div_mod_eq, Bool.eq_iff_iff]
  simp

theorem flag_eq_getLsbD (e : Eng) (i : Nat) : e.flag i = e.SR.getLsbD i := bitOf_eq_testBit _ _

theorem testBit_eq_bitsOf (x i : Nat) : x.testBit i = (bitsOf x i 1 == 1) := by
  rw [← bitOf_eq_testBit, bitOf, bitsOf, pow_one]

theorem testBit_putBits_one (x i j : Nat) (v : Bool) :
    (putBits x i 1 (b2n v)).testBit j = if j = i then v else x.testBit j := by
  simp only [testBit_eq_bitsOf]
  rcases Nat.lt_trichotomy j i with h | rfl | h
  · rw [bitsOf_putBits_below _ _ _ _ _ _ h, if_neg (by omega)]
  · rw [bitsOf_putBits_same, if_pos rfl]
    cases v <;> rfl
  · rw [bitsOf_putBits_above _ _ _ _ _ _ h, if_neg (by omega)]

/-- A flag that is written takes its value, and every other flag stands. -/
theorem getLsbD_setFlag (e : Eng) (i j : Nat) (v : Bool) (hj : j < 32) :
    (e.setFlag i v).SR.getLsbD j = if j = i then v else e.SR.getLsbD j := by
  simp only [Eng.setFlag, BitVec.getLsbD_ofNat, hj, decide_true, Bool.true_and, testBit_putBits_one]
  rfl

theorem getLsbD_stick (e : Eng) (i j : Nat) (v : Bool) (hj : j < 32) :
    (e.stick i v).SR.getLsbD j = if j = i then e.SR.getLsbD i || v else e.SR.getLsbD j := by
  cases v
  · by_cases h : j = i <;> simp [Eng.stick, h]
  · simp [Eng.stick, getLsbD_setFlag _ _ _ _ hj]

/-- Writing a flag writes SR alone. -/
theorem setFlag_eq (e : Eng) (i : Nat) (v : Bool) : e.setFlag i v = { e with SR := (e.setFlag i v).SR } := rfl

theorem stick_eq (e : Eng) (i : Nat) (v : Bool) : e.stick i v = { e with SR := (e.stick i v).SR } := by
  cases v <;> rfl

/-- What a list of flags gives a bit. -/
theorem getD_lookup_cons (i j : Nat) (v dflt : Bool) (fl : List (Nat × Bool)) :
    ((((j, v) :: fl).lookup i).getD dflt) = if i = j then v else (fl.lookup i).getD dflt := by
  by_cases h : i = j
  · simp [h]
  · simp [List.lookup_cons, beq_eq_false_iff_ne.mpr h, h]

/-- Z and N of a result that is written to DD. -/
theorem flagged_resultZN (e : Eng) (dd : BitVec 4) (v : Word) :
    (e.setD dd v).flagged (e.resultZN dd v) [(srZ, v == 0), (srN, v.msb)] := by
  refine ⟨rfl, fun i hi => ?_⟩
  simp only [Eng.resultZN, Eng.flagsZN, getLsbD_setFlag _ _ _ _ hi, getD_lookup_cons, List.lookup_nil, Option.getD_none]
  by_cases hz : i = srZ
  · rw [if_neg (by rw [hz]; decide), if_pos hz, if_pos hz]
  · rw [if_neg hz, if_neg hz]

/-- AZ, AN, AG and AOV of a result that is written to an accumulator (R316, R317). -/
theorem flagged_flagsAcc_stick (e : Eng) (v : BitVec 72) (out : Bool) :
    e.flagged ((e.flagsAcc v).stick srAOV out) [(srAZ, v == 0), (srAN, v.msb),
      (srAG, !(v.extractLsb' 63 9 == 0 || v.extractLsb' 63 9 == 511)), (srAOV, e.SR.getLsbD srAOV || out)] := by
  have htop : ∀ k : Nat, k < 512 → (bitsOf v.toNat 63 9 == k) = (v.extractLsb' 63 9 == BitVec.ofNat 9 k) := by
    intro k hk
    rw [Bool.eq_iff_iff, beq_iff_eq, beq_iff_eq, ← BitVec.toNat_inj, BitVec.extractLsb'_toNat, BitVec.toNat_ofNat,
      Nat.shiftRight_eq_div_pow, Nat.mod_eq_of_lt hk, bitsOf]
  refine ⟨by rw [stick_eq]; rfl, fun i hi => ?_⟩
  simp only [Eng.flagsAcc, getLsbD_stick _ _ _ _ hi, getLsbD_setFlag _ _ _ _ hi, getD_lookup_cons, List.lookup_nil,
    Option.getD_none, htop 0 (by decide), htop 511 (by decide), getLsbD_setFlag _ _ srAOV _ (by decide)]
  split_ifs <;> simp_all [srAZ, srAN, srAG, srAOV]

/-! ## The state after an instruction -/

theorem dReg_setD_same (e : Eng) (i : BitVec 4) (v : Word) : (e.setD i v).dReg i = v := by
  simp [Eng.dReg, Eng.setD]

theorem pair_setPair_same (d : Dev) (p : PairId) (x : Pair) : (d.setPair p x).pair p = x := by
  simp [Dev.pair, Dev.setPair]

theorem pair_issued (p : PairId) (new : Eng) (d : Dev) : (issued p new none false d).pair p =
    { d.pair p with eng := (d.pair p).eng.after new none, issued := (d.pair p).issued + 1 } :=
  pair_setPair_same d p _

theorem pstate_issued (p : PairId) (new : Eng) (d : Dev) : (issued p new none false d).pstate p = d.pstate p :=
  rd_wr_key _ _ _ _ _ _ (by unfold regKey CEP.PC CEP.PSTATE; dsimp only; omega)

/-- A pair that issued an instruction that goes on still runs its task. -/
theorem runs_issued {s : State} {p : PairId} {t q : Nat} (h : s.runs p t q) (new : Eng) :
    (s.withDev (issued p new none false s.dev)).runs p t q := by
  obtain ⟨hrun, htask, ht⟩ := h
  refine ⟨(pstate_issued p new s.dev).trans hrun, ?_, ht⟩
  show ((issued p new none false s.dev).pair p).running = _
  rw [pair_issued]
  exact htask

end Sys2Proof.Machine
end

section
/-! PROOFS. MOVS to a special register that is read-only or that does not exist (R310). -/
namespace Sys2Proof.Machine

theorem insMovs_illegal (w : FmtR) (h : (w.mod = false ∧ 3 ≤ w.sh.toNat ∧ w.sh.toNat ≤ 11) ∨ 11 < w.sh.toNat)
    (env : Env) (e : Eng) (d : Dev) : insMovs w env e d = .error 1 := by
  unfold insMovs
  rcases h with ⟨hmod, hlo, hhi⟩ | hover
  · simp only [Nat.not_lt.mpr hhi, hmod, if_false, Bool.false_eq_true]
    split
    case h_4 => rfl
    all_goals omega
  · simp only [hover, if_true]

/-- Settles O48: MOVS decides on its index before anything else (R310), and a user task takes the trap (R342). -/
theorem readOnlySpecialRegistersTrap : Obligations.ReadOnlySpecialRegistersTrap := by
  intro w h
  refine ⟨insMovs_illegal w h, fun s p t q hr => ?_⟩
  have hexec : exec (.movs p w) s = s.act (pairIssue p (insMovs w)) := rfl
  obtain ⟨-, -, htask⟩ := id hr
  rw [hexec, act_withDev, pairIssue_trap hr (insMovs_illegal w h _ _ _), taskTrap_user 1 s.dev htask]

end Sys2Proof.Machine
end

section
/-! PROOFS. FTAP (R322): accumulator results, data accesses, the address registers of a move, and the delay line. -/
namespace Sys2Proof.Machine

/-! ## Accumulator results -/

theorem stick_A (e : Eng) (i : Nat) (v : Bool) : (e.stick i v).A = e.A := by rw [stick_eq]

theorem satS_acc (x : Int) : satS 72 x = max (-(2 ^ 71)) (min (2 ^ 71 - 1) x) := by
  have hmin : smin 72 = -(2 ^ 71) := rfl
  have hmax : smax 72 = 2 ^ 71 - 1 := rfl
  rw [satS, clampI, hmin, hmax]
  split_ifs <;> omega

theorem clamp_of_inside {x : Int} (h : outsideAcc x = false) : max (-(2 ^ 71)) (min (2 ^ 71 - 1) x) = x := by
  simp only [outsideAcc, Bool.or_eq_false_iff, decide_eq_false_iff_not] at h
  omega

/-- The value stored is limited with ASAT alone (R317). -/
theorem accFit_val (asat : Bool) (x : Int) :
    (accFit asat x).1 = BitVec.ofInt 72 (if asat then max (-(2 ^ 71)) (min (2 ^ 71 - 1) x) else x) := by
  have hval : (accFit asat x).1 = BitVec.ofInt 72 (if outsideAcc x && asat then satS 72 x else x) := rfl
  rw [hval, satS_acc]
  cases hout : outsideAcc x
  · rw [clamp_of_inside hout, ite_self, ite_self]
  · rw [Bool.true_and]

theorem accGets_accOp (e : Eng) (ac : BitVec 2) (x : Int) : e.accGets (accOp ac x e).1 (accOp ac x e).2 ac x := by
  have hout : (accFit (e.flag srASAT) x).2 = outsideAcc x := rfl
  refine ⟨(accFit (e.flag srASAT) x).1, by rw [accFit_val, flag_eq_getLsbD], ?_, ?_⟩
  · rw [← hout]
    exact flagged_flagsAcc_stick (e.setAcc ac _) _ _
  · rw [← hout]
    simp only [accOp, flag_eq_getLsbD]

theorem accOp_A (e : Eng) (ac : BitVec 2) (x : Int) : (accOp ac x e).1.A = e.A :=
  stick_A ((e.setAcc ac _).flagsAcc _) srAOV _

/-! ## Data accesses -/

theorem engByte_lt (d : Dev) (p a : Nat) : d.engByte p a < 2 ^ 8 := by
  unfold Dev.engByte
  split
  · exact bitsOf_lt _ _ _
  · exact BitVec.isLt _

theorem engRead_lt (d : Dev) (p n : Nat) : ∀ a, d.engRead p a n < 2 ^ (8 * n) := by
  induction n with
  | zero => intro a; exact Nat.one_pos
  | succ n ih =>
    intro a
    have hb := engByte_lt d p a
    have hr := ih (a + 1)
    rw [Dev.engRead, Nat.mul_succ, pow_add]
    omega

theorem setMemLE_pairs (n : Nat) : ∀ (d : Dev) (a v : Nat), (d.setMemLE a n v).pairs = d.pairs := by
  induction n with
  | zero => intro d a v; rfl
  | succ n ih => intro d a v; rw [Dev.setMemLE, ih, setMem8_pairs]

theorem engPut_pairs (d : Dev) (p a v : Nat) : (d.engPut p a v).pairs = d.pairs := by
  unfold Dev.engPut Dev.putFields Dev.takeBits
  split
  · exact setReg_pairs _ _ _ _ _
  · exact setMem8_pairs _ _ _

@[simp] theorem engWrite_pairs (d : Dev) (p a n v : Nat) : (d.engWrite p a n v).pairs = d.pairs := by
  unfold Dev.engWrite
  split
  · induction List.range n using List.reverseRecOn with
    | nil => rfl
    | append_singleton l i ih => rw [List.foldl_append, List.foldl_cons, List.foldl_nil, engPut_pairs, ih]
  · exact setMemLE_pairs n d _ v

@[simp] theorem storeOf_pairs (env : Env) (e : Eng) (m : MoveField) (d : Dev) : (storeOf env e m d).pairs = d.pairs := by
  unfold storeOf
  split
  · exact engWrite_pairs _ _ _ _ _
  · rfl

/-! ## FTAP (R322) -/

theorem aReg_congr {e e' : Eng} (h : e.A = e'.A) (i : BitVec 3) : e.aReg i = e'.aReg i := by simp only [Eng.aReg, h]

theorem aReg_setA_ne (e : Eng) (i j : BitVec 3) (v : Word) (h : j ≠ i) : (e.setA j v).aReg i = e.aReg i := by
  have : j.toNat ≠ i.toNat := fun hn => h (BitVec.eq_of_toNat_eq hn)
  simp [Eng.aReg, Eng.setA, this]

theorem setA_aReg (e : Eng) (i : BitVec 3) : e.setA i (e.aReg i) = e := by
  simp [Eng.aReg, Eng.setA]

theorem moveStoreFlags_A (src : Eng) (m : MoveField) (e : Eng) : (moveStoreFlags src m e).A = e.A := by
  unfold moveStoreFlags
  split
  · exact stick_A e srSOV _
  · exact stick_A e srSOV _
  · rfl

/-- A move writes no address register but the one it updates. -/
theorem aReg_moveRegs (src e : Eng) (v : Nat) (m : MoveField) (i : BitVec 3) (h : m.mop ≠ 0 → m.ar ≠ i) :
    (moveRegs src v m e).aReg i = e.aReg i := by
  unfold moveRegs
  split
  · rfl
  · rename_i hmop
    extract_lets e1 l e2 e3 e4
    have h3 : e3.A = e.A := by
      rw [← moveStoreFlags_A src m e]
      simp only [e3, e2]
      split_ifs <;> rfl
    have h4 : e4.A = e.A := by
      simp only [e4]
      split_ifs
      · rw [stick_A, h3]
      · exact moveStoreFlags_A src m e
    split
    · exact aReg_congr h4 i
    · rw [aReg_setA_ne _ _ _ _ (h hmop), aReg_congr h4]

/-- The X move names none of A4 to A7 (R306). -/
theorem ar_lt_of_moveTrap_x {env : Env} {e : Eng} {m : MoveField} (h : moveTrap env e false m = none) (hm : m.mop ≠ 0) :
    m.ar.toNat < 4 := by
  by_contra hge
  rw [moveTrap, if_neg hm] at h
  simp [hge] at h

/-- The Y move names none of A0 to A3 (R306). -/
theorem ar_ge_of_moveTrap_y {env : Env} {e : Eng} {m : MoveField} (h : moveTrap env e true m = none) (hm : m.mop ≠ 0) :
    4 ≤ m.ar.toNat := by
  by_contra hlt
  rw [moveTrap, if_neg hm] at h
  simp [hlt] at h

/-- UPD 0 updates to the address as it stands. -/
theorem addrUpdate_none (e : Eng) (ar : BitVec 3) (n : Nat) : addrUpdate e ar 0 n = e.aReg ar := by
  simp [addrUpdate]

/-- FTAP is well formed and meets no trap (R305 to R307, R314, R322). -/
structure Eng.ftapRuns (e : Eng) (env : Env) (w : FmtP) : Prop where
  rsvd : w.rsvd = 0
  xLegal : moveLegal w.xmv = true
  xTrap : moveTrap env e false w.xmv = none
  mop : w.ymv.mop = 1
  reg : w.ymv.reg = 0
  sz : w.ymv.sz = 0
  bsc : w.ymv.bsc = 0
  yRsvd : w.ymv.rsvd = 0
  upd : w.ymv.upd ≠ 7
  yTrap : moveTrap env e true w.ymv = none
  access : mayAccess env.code ((e.aReg w.ymv.ar).toNat + 4) 4 true = true
  inside : (e.aReg w.ymv.ar).toNat + 8 ≤ 0x2_0000

/-- The X move of FTAP leaves the address register of its delay line, so an update by UPD 0 leaves the engine as it is. -/
theorem setA_addrUpdate_none {env : Env} {e : Eng} {w : FmtP} (h : e.ftapRuns env w) (h0 : w.ymv.upd = 0) (v : Nat)
    (new : Eng) (hnew : new.A = e.A) :
    (moveRegs e v w.xmv new).setA w.ymv.ar (addrUpdate e w.ymv.ar w.ymv.upd 4) = moveRegs e v w.xmv new := by
  have hy : 4 ≤ w.ymv.ar.toNat := ar_ge_of_moveTrap_y h.yTrap (by rw [h.mop]; decide)
  have hkeep : (moveRegs e v w.xmv new).aReg w.ymv.ar = e.aReg w.ymv.ar := by
    rw [aReg_moveRegs _ _ _ _ _ fun hm heq => by have := ar_lt_of_moveTrap_x h.xTrap hm; rw [heq] at this; omega]
    exact aReg_congr hnew _
  rw [h0, addrUpdate_none, ← hkeep, setA_aReg]

/-- What FTAP computes where it meets no trap. -/
theorem insFtap_runs {env : Env} {e : Eng} {w : FmtP} (h : e.ftapRuns env w) (d : Dev) (tap : Nat)
    (htap : tap = d.engRead env.pair (e.aReg w.ymv.ar).toNat 4) (x : Int)
    (hx : x = accVal (e.acc w.acd) + product w.sm (e.dReg w.sa) (BitVec.ofNat 32 tap)) :
    insFtap w env e d = .ok ⟨(moveRegs e (moveRead env d e w.xmv) w.xmv (accOp w.acd x e).1).setA w.ymv.ar
        (addrUpdate e w.ymv.ar w.ymv.upd 4),
      (storeOf env e w.xmv d).engWrite env.pair ((e.aReg w.ymv.ar).toNat + 4) 4 tap, .next, (accOp w.acd x e).2⟩ := by
  have hword : (BitVec.ofNat 32 tap).toNat = tap := by
    rw [BitVec.toNat_ofNat, Nat.mod_eq_of_lt (htap ▸ engRead_lt d env.pair 4 _)]
  have hform : (w.rsvd ≠ 0 || !moveLegal w.xmv || !(w.ymv.mop == 1 && w.ymv.reg == 0 && w.ymv.sz == 0 && w.ymv.bsc == 0 &&
      w.ymv.rsvd == 0 && w.ymv.upd != 7)) = false := by
    simp only [h.rsvd, h.xLegal, h.mop, h.reg, h.sz, h.bsc, h.yRsvd, bne_iff_ne.mpr h.upd]; decide
  simp only [insFtap, hform, h.yTrap, h.xTrap, h.access, h.inside, ← htap, ← hx, hword, decide_true, Bool.and_self,
    if_true, if_false, Bool.false_eq_true]
  by_cases h0 : w.ymv.upd = 0
  · rw [if_pos h0, setA_addrUpdate_none h h0 _ _ (accOp_A e w.acd x)]
    rfl
  · rw [if_neg h0]
    rfl

/-- Settles O44: the X move leaves A4 to A7, so that UPD 0 and the other updates read the same register. -/
theorem delayLineTap : Obligations.DelayLineTap := by
  unfold Obligations.DelayLineTap
  intro s p t q w hrun e he env henv a tap ha htap hrsvd hxl hxt hmop hreg hsz hbsc hyr hupd hyt hacc hin
  subst he henv ha
  have hruns : (s.dev.eng p).ftapRuns (s.dev.taskEnv p t) w :=
    ⟨hrsvd, hxl, hxt, hmop, hreg, hsz, hbsc, hyr, hupd, hyt, hacc, hin⟩
  have hexec : exec (.ftap p w) s = s.act (pairIssue p (insFtap w)) := rfl
  refine ⟨_, _, _, accGets_accOp (s.dev.eng p) w.acd _, rfl, ?_⟩
  rw [hexec, act_withDev, pairIssue_next hrun (insFtap_runs hruns s.dev tap htap _ rfl)
    (by rw [engWrite_pairs, storeOf_pairs])]
  rfl

end Sys2Proof.Machine
end

section
/-! PROOFS. The division sequence (R324). `computes` reduces the run of a sequence to a function of the engine's data;
`Eng.divides` is the invariant of the restoring division; the signs are put on at the end. -/
namespace Sys2Proof.Machine

/-! ## Instructions of format R in sequence -/

/-- Two engines hold the same data registers, the same SR and the same division state: all that an instruction of the
division sequence reads. -/
def Eng.sameData (e e' : Eng) : Prop := e.D = e'.D ∧ e.SR = e'.SR ∧ e.div = e'.div

theorem sameData_refl (e : Eng) : e.sameData e := ⟨rfl, rfl, rfl⟩

/-- What a sequence of instructions of a pair makes of the data of its engine: whatever else the engine holds, the pair issues
them all, still runs its task, and holds the data of `f e`. -/
def computes (p : PairId) (l : List Instr) (f : Eng → Eng) : Prop :=
  ∀ (s : State) (t q : Nat) (e : Eng), s.runs p t q → (s.dev.eng p).sameData e →
    ∃ u, execAll l s = .next u ∧ u.runs p t q ∧ (u.dev.eng p).sameData (f e)

/-- A pair issues an instruction of format R that only changes its engine. -/
theorem exec_runR {s : State} {p : PairId} {t q : Nat} {w : FmtR} (f : Eng → Eng) (i : Instr)
    (hexec : ∀ s : State, exec i s = s.act (pairIssue p (runR w f))) (h : s.runs p t q) (hr : w.rsvd = 0) :
    exec i s = .next (s.withDev (issued p (f (s.dev.eng p)) none false s.dev)) := by
  have hf : runR w f (s.dev.taskEnv p t) (s.dev.eng p) s.dev = .ok ⟨f (s.dev.eng p), s.dev, .next, false⟩ := by
    simp [runR, hr]
  rw [hexec, act_withDev, pairIssue_next h hf rfl]

/-- A MOVA that comes into effect, the loop levels and PC are no data. -/
theorem sameData_issued (s : State) (p : PairId) (new : Eng) :
    ((s.withDev (issued p new none false s.dev)).dev.eng p).sameData new := by
  have hp : (s.withDev (issued p new none false s.dev)).dev.pair p = _ := pair_issued p new s.dev
  have hm : ∀ m, (applyMova m new).sameData new := by
    intro m
    unfold applyMova
    split <;> exact sameData_refl new
  simp only [Dev.eng, hp]
  exact hm _

theorem execAll_singleton (i : Instr) (s : State) : execAll [i] s = exec i s := by
  simp only [execAll]
  cases exec i s <;> rfl

theorem execAll_append (l l' : List Instr) : ∀ {s u : State}, execAll l s = .next u →
    execAll (l ++ l') s = execAll l' u := by
  induction l with
  | nil =>
    intro s u h
    cases h
    rfl
  | cons i l ih =>
    intro s u h
    rw [List.cons_append, execAll]
    rw [execAll] at h
    cases hi : exec i s with
    | next v => rw [hi] at h; exact ih h
    | fault r => rw [hi] at h; cases h
    | refused r => rw [hi] at h; cases h

theorem computes_runR {p : PairId} {i : Instr} {w : FmtR} {f : Eng → Eng}
    (hexec : ∀ s : State, exec i s = s.act (pairIssue p (runR w f))) (hr : w.rsvd = 0)
    (hf : ∀ e e' : Eng, e.sameData e' → (f e).sameData (f e')) : computes p [i] f := by
  intro s t q e hs he
  refine ⟨_, (execAll_singleton i s).trans (exec_runR f i hexec hs hr), runs_issued hs _, ?_⟩
  obtain ⟨hD, hSR, hdiv⟩ := sameData_issued s p (f (s.dev.eng p))
  obtain ⟨hD', hSR', hdiv'⟩ := hf _ _ he
  exact ⟨hD.trans hD', hSR.trans hSR', hdiv.trans hdiv'⟩

theorem computes_append {p : PairId} {l l' : List Instr} {f g : Eng → Eng} (hl : computes p l f) (hl' : computes p l' g) :
    computes p (l ++ l') (g ∘ f) := by
  intro s t q e hs he
  obtain ⟨u, hu, hur, hue⟩ := hl s t q e hs he
  rw [execAll_append l l' hu]
  exact hl' u t q (f e) hur hue

theorem computes_replicate {p : PairId} {i : Instr} {f : Eng → Eng} (h : computes p [i] f) (n : Nat) :
    computes p (List.replicate n i) f^[n] := by
  induction n with
  | zero => exact fun s t q e hs he => ⟨s, rfl, hs, he⟩
  | succ n ih => exact computes_append h ih

/-! ## The instructions of the division (R324) on the data of an engine -/

/-- Is the quotient of `a` by `b` negative (R324)? That of `a` by 0 has the sign of `a`. -/
def quotNeg (a b : Int) : Bool := if b = 0 then decide (a < 0) else decide ((a < 0) ≠ (b < 0))

/-- DIVI on an engine. -/
def diviEng (w : FmtR) (e : Eng) : Eng :=
  let a := (e.dReg w.da).toInt
  let b := (e.dReg w.db).toInt
  if w.mod then
    { ((e.setFlag srDZ (decide (b = 0))).setFlag srDOV
        (decide (b ≠ 0) && !quotNeg a b && decide (2 ^ 31 ≤ a.natAbs / b.natAbs))) with
      div := ⟨0, b.natAbs, a.natAbs, true, quotNeg a b, decide (a < 0)⟩ }
  else
    { ((e.setFlag srDZ (decide (b = 0))).setFlag srDOV (decide (b.natAbs ≤ a.natAbs))).setD w.dd 0 with
      div := ⟨a.natAbs, b.natAbs, 0, false, quotNeg a b, decide (a < 0)⟩ }

/-- DIVS on an engine. -/
def divsEng (w : FmtR) (e : Eng) : Eng :=
  let inBit := if e.div.integer then e.div.dvd / 2 ^ 31 % 2 else 0
  let r := (2 * e.div.rem + inBit) % 2 ^ 33
  let hit := decide (e.div.dvs ≤ r)
  { e.setD w.dd (BitVec.ofNat 32 (2 * (e.dReg w.dd).toNat + b2n hit)) with
    div := { e.div with rem := if hit then r - e.div.dvs else r, dvd := 2 * e.div.dvd % 2 ^ 32 } }

/-- The value DIVF writes. -/
def quotient (w : FmtR) (e : Eng) : Word :=
  if e.flag srDZ || e.flag srDOV then (if e.div.qneg then 0x8000_0000#32 else 0x7FFF_FFFF#32)
  else if e.div.qneg then -(e.dReg w.dd) else e.dReg w.dd

/-- DIVF on an engine. -/
def divfEng (w : FmtR) (e : Eng) : Eng := e.resultZN w.dd (quotient w e)

/-- The value DREM writes. -/
def remainder (e : Eng) : Word := if e.div.aneg then -(BitVec.ofNat 32 e.div.rem) else BitVec.ofNat 32 e.div.rem

/-- DREM on an engine. -/
def dremEng (w : FmtR) (e : Eng) : Eng := e.resultZN w.dd (remainder e)

theorem exec_divi (p : PairId) (w : FmtR) (s : State) : exec (.divi p w) s = s.act (pairIssue p (runR w (diviEng w))) := rfl
theorem exec_divs (p : PairId) (w : FmtR) (s : State) : exec (.divs p w) s = s.act (pairIssue p (runR w (divsEng w))) := rfl
theorem exec_divf (p : PairId) (w : FmtR) (s : State) : exec (.divf p w) s = s.act (pairIssue p (runR w (divfEng w))) := rfl
theorem exec_drem (p : PairId) (w : FmtR) (s : State) : exec (.drem p w) s = s.act (pairIssue p (runR w (dremEng w))) := rfl

theorem sameData_dReg {e e' : Eng} (h : e.sameData e') (i : BitVec 4) : e.dReg i = e'.dReg i := by
  obtain ⟨hD, -, -⟩ := h
  simp only [Eng.dReg, hD]

theorem sameData_setD {e e' : Eng} (h : e.sameData e') (i : BitVec 4) (v : Word) : (e.setD i v).sameData (e'.setD i v) := by
  obtain ⟨hD, hSR, hdiv⟩ := h
  exact ⟨by simp only [Eng.setD, hD], hSR, hdiv⟩

theorem sameData_setFlag {e e' : Eng} (h : e.sameData e') (i : Nat) (v : Bool) :
    (e.setFlag i v).sameData (e'.setFlag i v) := by
  obtain ⟨hD, hSR, hdiv⟩ := h
  exact ⟨hD, by simp only [Eng.setFlag, hSR], hdiv⟩

theorem sameData_withDiv {e e' : Eng} (h : e.sameData e') {v v' : Divider} (hv : v = v') :
    Eng.sameData { e with div := v } { e' with div := v' } := by
  obtain ⟨hD, hSR, -⟩ := h
  exact ⟨hD, hSR, hv⟩

theorem sameData_resultZN {e e' : Eng} (h : e.sameData e') (dd : BitVec 4) {v v' : Word} (hv : v = v') :
    (e.resultZN dd v).sameData (e'.resultZN dd v') :=
  hv ▸ sameData_setFlag (sameData_setFlag (sameData_setD h dd v) srZ (v == 0)) srN v.msb

theorem sameData_diviEng (w : FmtR) {e e' : Eng} (h : e.sameData e') : (diviEng w e).sameData (diviEng w e') := by
  simp only [diviEng, sameData_dReg h]
  split
  · exact sameData_withDiv (sameData_setFlag (sameData_setFlag h _ _) _ _) rfl
  · exact sameData_withDiv (sameData_setD (sameData_setFlag (sameData_setFlag h _ _) _ _) _ _) rfl

theorem sameData_divsEng (w : FmtR) {e e' : Eng} (h : e.sameData e') : (divsEng w e).sameData (divsEng w e') := by
  obtain ⟨-, -, hdiv⟩ := id h
  simp only [divsEng, sameData_dReg h, hdiv]
  exact sameData_withDiv (sameData_setD h _ _) rfl

theorem quotient_congr (w : FmtR) {e e' : Eng} (h : e.sameData e') : quotient w e = quotient w e' := by
  obtain ⟨-, hSR, hdiv⟩ := id h
  simp only [quotient, Eng.flag, hSR, hdiv, sameData_dReg h]
  rfl

theorem remainder_congr {e e' : Eng} (h : e.sameData e') : remainder e = remainder e' := by
  obtain ⟨-, -, hdiv⟩ := h
  simp only [remainder, hdiv]

/-- The engine after DIVI and `n` DIVS. -/
def dividing (i d : FmtR) (n : Nat) (e : Eng) : Eng := (divsEng d)^[n] (diviEng i e)

/-- DIVI, `n` DIVS and DIVF as one function of the engine. -/
theorem computes_division (p : PairId) (i d f : FmtR) (hi : i.rsvd = 0) (hd : d.rsvd = 0) (hf : f.rsvd = 0) (n : Nat) :
    computes p ([.divi p i] ++ List.replicate n (.divs p d) ++ [.divf p f])
      (divfEng f ∘ dividing i d n) :=
  computes_append
    (computes_append (computes_runR (exec_divi p i) hi fun _ _ h => sameData_diviEng i h)
      (computes_replicate (computes_runR (exec_divs p d) hd fun _ _ h => sameData_divsEng d h) n))
    (computes_runR (exec_divf p f) hf fun _ _ h => sameData_resultZN h f.dd (quotient_congr f h))

theorem computes_drem (p : PairId) (w : FmtR) (hr : w.rsvd = 0) :
    computes p [.drem p w] (dremEng w) :=
  computes_runR (exec_drem p w) hr fun _ _ h => sameData_resultZN h w.dd (remainder_congr h)

theorem dReg_divfEng (w : FmtR) (e : Eng) : (divfEng w e).dReg w.dd = quotient w e := dReg_setD_same e w.dd _
theorem dReg_dremEng (w : FmtR) (e : Eng) : (dremEng w e).dReg w.dd = remainder e := dReg_setD_same e w.dd _
theorem remainder_divfEng (w : FmtR) (e : Eng) : remainder (divfEng w e) = remainder e := rfl

/-! ## DIVI -/

section
variable (w : FmtR) (e : Eng)

theorem getLsbD_dz_dov (x : Eng) (dz dov : Bool) (i : Nat) (hi : i < 32) :
    ((x.setFlag srDZ dz).setFlag srDOV dov).SR.getLsbD i =
      if i = srDOV then dov else if i = srDZ then dz else x.SR.getLsbD i := by
  rw [getLsbD_setFlag _ _ _ _ hi, getLsbD_setFlag _ _ _ _ hi]

theorem SR_diviEng : ∃ dov, (diviEng w e).SR = ((e.setFlag srDZ (decide ((e.dReg w.db).toInt = 0))).setFlag srDOV dov).SR ∧
    dov = if w.mod then decide ((e.dReg w.db).toInt ≠ 0) && !quotNeg (e.dReg w.da).toInt (e.dReg w.db).toInt &&
        decide (2 ^ 31 ≤ (e.dReg w.da).toInt.natAbs / (e.dReg w.db).toInt.natAbs)
      else decide ((e.dReg w.db).toInt.natAbs ≤ (e.dReg w.da).toInt.natAbs) := by
  refine ⟨_, ?_, rfl⟩
  unfold diviEng
  cases w.mod <;> rfl

theorem div_diviEng : (diviEng w e).div = ⟨if w.mod then 0 else (e.dReg w.da).toInt.natAbs, (e.dReg w.db).toInt.natAbs,
    if w.mod then (e.dReg w.da).toInt.natAbs else 0, w.mod, quotNeg (e.dReg w.da).toInt (e.dReg w.db).toInt,
    decide ((e.dReg w.da).toInt < 0)⟩ := by
  unfold diviEng
  cases w.mod <;> rfl

theorem D_diviEng : (diviEng w e).D = if w.mod then e.D else (e.setD w.dd 0).D := by
  unfold diviEng
  cases w.mod <;> rfl

end

/-! ## DIVS -/

theorem SR_divsEng (w : FmtR) (e : Eng) : (divsEng w e).SR = e.SR := rfl

/-- The partial remainder doubled, with the next dividend bit (R324). -/
def shiftedRem (v : Divider) : Nat := 2 * v.rem + (if v.integer then v.dvd / 2 ^ 31 % 2 else 0)

theorem shiftedRem_lt {v : Divider} (h : v.rem < 2 ^ 32) : shiftedRem v < 2 ^ 33 := by
  unfold shiftedRem
  split <;> omega

theorem divsEng_of_le (w : FmtR) (e : Eng) (h : e.div.rem < 2 ^ 32) (hle : e.div.dvs ≤ shiftedRem e.div) :
    divsEng w e = { e.setD w.dd (2 * e.dReg w.dd + 1) with
      div := { e.div with rem := shiftedRem e.div - e.div.dvs, dvd := 2 * e.div.dvd % 2 ^ 32 } } := by
  have hmod : (2 * e.div.rem + (if e.div.integer then e.div.dvd / 2 ^ 31 % 2 else 0)) % 2 ^ 33 = shiftedRem e.div :=
    Nat.mod_eq_of_lt (shiftedRem_lt h)
  have hq : BitVec.ofNat 32 (2 * (e.dReg w.dd).toNat + 1) = 2 * e.dReg w.dd + 1 := by bv_omega
  simp only [divsEng, hmod, hle, decide_true, b2n, if_true, hq]

theorem divsEng_of_lt (w : FmtR) (e : Eng) (h : e.div.rem < 2 ^ 32) (hlt : shiftedRem e.div < e.div.dvs) :
    divsEng w e = { e.setD w.dd (2 * e.dReg w.dd) with
      div := { e.div with rem := shiftedRem e.div, dvd := 2 * e.div.dvd % 2 ^ 32 } } := by
  have hmod : (2 * e.div.rem + (if e.div.integer then e.div.dvd / 2 ^ 31 % 2 else 0)) % 2 ^ 33 = shiftedRem e.div :=
    Nat.mod_eq_of_lt (shiftedRem_lt h)
  have hq : BitVec.ofNat 32 (2 * (e.dReg w.dd).toNat) = 2 * e.dReg w.dd := by bv_omega
  simp only [divsEng, hmod, Nat.not_le.mpr hlt, decide_false, b2n, if_false, Bool.false_eq_true, Nat.add_zero, hq]

/-! ## A division under way -/

/-- The restoring division of `x` by `m` with `j` bits of the quotient to come (R324): the partial remainder and DD are those of
`x / 2 ^ j`, and the dividend register holds the bits of `x` below; a fractional division has none there. -/
structure Eng.divides (e : Eng) (dd : BitVec 4) (x m j : Nat) : Prop where
  dvs : e.div.dvs = m
  rem : e.div.rem = x / 2 ^ j % m
  dvd : e.div.dvd = x * 2 ^ (32 - j) % 2 ^ 32
  frac : e.div.integer = false → e.div.dvd = 0
  quot : (e.dReg dd).toNat % 2 ^ (32 - j) = x / 2 ^ j / m % 2 ^ (32 - j)

theorem div_add_bit_of_le {n m b : Nat} (hm : 0 < m) (hb : b < 2) (h : m ≤ 2 * (n % m) + b) :
    (2 * n + b) / m = 2 * (n / m) + 1 ∧ (2 * n + b) % m = 2 * (n % m) + b - m := by
  have hlt := Nat.mod_lt n hm
  have hn := Nat.div_add_mod n m
  have hx : 2 * n + b = m * (2 * (n / m) + 1) + (2 * (n % m) + b - m) := by
    have : m * (2 * (n / m) + 1) = 2 * (m * (n / m)) + m := by ring
    omega
  have hr : 2 * (n % m) + b - m < m := by omega
  rw [hx]
  exact ⟨by rw [Nat.mul_add_div hm, Nat.div_eq_of_lt hr, Nat.add_zero], by rw [Nat.mul_add_mod, Nat.mod_eq_of_lt hr]⟩

theorem div_add_bit_of_lt {n m b : Nat} (hm : 0 < m) (h : 2 * (n % m) + b < m) :
    (2 * n + b) / m = 2 * (n / m) ∧ (2 * n + b) % m = 2 * (n % m) + b := by
  have hn := Nat.div_add_mod n m
  have hx : 2 * n + b = m * (2 * (n / m)) + (2 * (n % m) + b) := by
    have : m * (2 * (n / m)) = 2 * (m * (n / m)) := by ring
    omega
  rw [hx]
  exact ⟨by rw [Nat.mul_add_div hm, Nat.div_eq_of_lt h, Nat.add_zero], by rw [Nat.mul_add_mod, Nat.mod_eq_of_lt h]⟩

/-- The number a division has taken in grows by the bit below. -/
theorem div_two_pow_eq (x j : Nat) : x / 2 ^ j = 2 * (x / 2 ^ (j + 1)) + x / 2 ^ j % 2 := by
  rw [pow_succ, ← Nat.div_div_eq_div_mul, Nat.div_add_mod]

/-- The bit a DIVS takes in is the next bit of the dividend. -/
theorem shiftedRem_of_divides {e : Eng} {dd : BitVec 4} {x m j : Nat} (h : e.divides dd x m (j + 1)) (hj : j < 32) :
    shiftedRem e.div = 2 * (x / 2 ^ (j + 1) % m) + x / 2 ^ j % 2 := by
  have hbit : e.div.dvd / 2 ^ 31 % 2 = x / 2 ^ j % 2 := by
    have hp : (2 : Nat) ^ 31 = 2 ^ j * 2 ^ (32 - (j + 1)) := by rw [← pow_add]; congr 1; omega
    have hq : x * 2 ^ (32 - (j + 1)) / 2 ^ 31 = x / 2 ^ j := by rw [hp, Nat.mul_div_mul_right _ _ (by positivity)]
    rw [h.dvd, ← hq]
    omega
  rw [shiftedRem, h.rem]
  cases hint : e.div.integer
  · have h0 := h.frac hint
    rw [h0, Nat.zero_div, Nat.zero_mod] at hbit
    simp only [Bool.false_eq_true, if_false, ← hbit]
  · simp only [if_true, hbit]

/-- The low bits of a register that is shifted by one bit. -/
theorem shifted_mod {d c q n k : Nat} (h : d % 2 ^ k = q % 2 ^ k) (hk : k < 32) (hn : n = (2 * d + c) % 2 ^ 32) :
    n % 2 ^ (k + 1) = (2 * q + c) % 2 ^ (k + 1) := by
  have hm : 2 * d + c ≡ 2 * q + c [MOD 2 * 2 ^ k] := (Nat.ModEq.mul_left' 2 h).add_right c
  rw [hn, Nat.mod_mod_of_dvd _ (Nat.pow_dvd_pow 2 hk), pow_succ']
  exact hm

/-- A DIVS takes one bit more. -/
theorem divides_divsEng {w : FmtR} {e : Eng} {dd : BitVec 4} {x m j : Nat} (h : e.divides dd x m (j + 1)) (hj : j < 32)
    (hm : 0 < m) (hm' : m ≤ 2 ^ 31) (hw : w.dd = dd) : (divsEng w e).divides dd x m j := by
  subst hw
  have hs := shiftedRem_of_divides h hj
  have hrem : e.div.rem < 2 ^ 32 := by have := Nat.mod_lt (x / 2 ^ (j + 1)) hm; rw [h.rem]; omega
  have hk : 32 - j = (32 - (j + 1)) + 1 := by omega
  have hdvd : 2 * e.div.dvd % 2 ^ 32 = x * 2 ^ (32 - j) % 2 ^ 32 := by
    have hp : x * 2 ^ (32 - j) = 2 * (x * 2 ^ (32 - (j + 1))) := by rw [hk, pow_succ]; ring
    rw [h.dvd, hp]
    omega
  have hfrac : e.div.integer = false → 2 * e.div.dvd % 2 ^ 32 = 0 := fun hi => by rw [h.frac hi, Nat.mul_zero, Nat.zero_mod]
  have hx := div_two_pow_eq x j
  rcases Nat.lt_or_ge (shiftedRem e.div) m with hlt | hle
  · obtain ⟨hq, hr⟩ := div_add_bit_of_lt hm (hs ▸ hlt)
    rw [divsEng_of_lt w e hrem (by rwa [h.dvs])]
    refine ⟨h.dvs, by rw [hx, hr, ← hs], hdvd, hfrac, ?_⟩
    rw [hx, hq, hk]
    exact shifted_mod (c := 0) h.quot (by omega) (by
      show ((e.setD w.dd (2 * e.dReg w.dd)).dReg w.dd).toNat = _
      rw [dReg_setD_same]
      bv_omega)
  · obtain ⟨hq, hr⟩ := div_add_bit_of_le hm (Nat.mod_lt _ (by decide)) (hs ▸ hle)
    rw [divsEng_of_le w e hrem (by rwa [h.dvs])]
    refine ⟨h.dvs, by rw [hx, hr, ← hs, h.dvs], hdvd, hfrac, ?_⟩
    rw [hx, hq, hk]
    exact shifted_mod (c := 1) h.quot (by omega) (by
      show ((e.setD w.dd (2 * e.dReg w.dd + 1)).dReg w.dd).toNat = _
      rw [dReg_setD_same]
      bv_omega)

/-- As many DIVS as the quotient has bits to come leave the quotient in DD and the remainder. -/
theorem divides_iterate {w : FmtR} {dd : BitVec 4} {x m : Nat} (hm : 0 < m) (hm' : m ≤ 2 ^ 31) (hw : w.dd = dd) (j : Nat) :
    ∀ {e : Eng}, j ≤ 32 → e.divides dd x m j → ((divsEng w)^[j] e).divides dd x m 0 := by
  induction j with
  | zero => exact fun _ h => h
  | succ j ih => exact fun hj h => ih (by omega) (divides_divsEng h (by omega) hm hm' hw)

/-- DIVS leaves SR and the signs. -/
theorem iterate_divsEng_keeps (w : FmtR) (n : Nat) : ∀ e : Eng, ((divsEng w)^[n] e).SR = e.SR ∧
    ((divsEng w)^[n] e).div.qneg = e.div.qneg ∧ ((divsEng w)^[n] e).div.aneg = e.div.aneg := by
  induction n with
  | zero => exact fun e => ⟨rfl, rfl, rfl⟩
  | succ n ih => exact fun e => ih (divsEng w e)

/-! ## The result -/

theorem natAbs_toInt_le (v : Word) : v.toInt.natAbs ≤ 2 ^ 31 := by
  have := BitVec.le_toInt v
  have := BitVec.toInt_lt (x := v)
  omega

/-- DIVI with MOD = 0 starts the division of |DA| × 2^31, of which it has taken in |DA|. -/
theorem divides_diviEng_frac (i : FmtR) (e : Eng) (hmod : i.mod = false)
    (hlt : (e.dReg i.da).toInt.natAbs < (e.dReg i.db).toInt.natAbs) :
    (diviEng i e).divides i.dd ((e.dReg i.da).toInt.natAbs * 2 ^ 31) (e.dReg i.db).toInt.natAbs 31 := by
  have hD : (diviEng i e).dReg i.dd = 0 := by
    rw [← dReg_setD_same e i.dd 0]
    simp only [Eng.dReg, D_diviEng, hmod, Bool.false_eq_true, if_false]
  have hdiv := div_diviEng i e
  simp only [hmod, Bool.false_eq_true, if_false] at hdiv
  have hx : (e.dReg i.da).toInt.natAbs * 2 ^ 31 / 2 ^ 31 = (e.dReg i.da).toInt.natAbs := Nat.mul_div_cancel _ (by decide)
  refine ⟨by rw [hdiv], by rw [hdiv, hx, Nat.mod_eq_of_lt hlt], ?_, fun _ => by rw [hdiv], ?_⟩
  · rw [hdiv]
    show 0 = _
    omega
  · rw [hD, hx, Nat.div_eq_of_lt hlt]
    rfl

/-- DIVI with MOD = 1 starts the division of |DA|, of which it has taken in nothing. -/
theorem divides_diviEng_int (i : FmtR) (e : Eng) (hmod : i.mod = true) :
    (diviEng i e).divides i.dd (e.dReg i.da).toInt.natAbs (e.dReg i.db).toInt.natAbs 32 := by
  have ha := natAbs_toInt_le (e.dReg i.da)
  have hx : (e.dReg i.da).toInt.natAbs / 2 ^ 32 = 0 := Nat.div_eq_of_lt (by omega)
  have hdiv := div_diviEng i e
  simp only [hmod, if_true] at hdiv
  refine ⟨by rw [hdiv], by rw [hdiv, hx, Nat.zero_mod], ?_, fun h => ?_,
    by rw [Nat.sub_self, pow_zero, Nat.mod_one, Nat.mod_one]⟩
  · rw [hdiv, Nat.sub_self, pow_zero, Nat.mul_one, Nat.mod_eq_of_lt (by omega)]
  · rw [hdiv] at h
    cases h

/-- A number of 32 bits with the sign DIVF or DREM gives it. -/
theorem toInt_signed (neg : Bool) (q : Word) (hpos : neg = false → q.toNat < 2 ^ 31) (hneg : q.toNat ≤ 2 ^ 31) :
    (if neg then -q else q).toInt = if neg then -(q.toNat : Int) else q.toNat := by
  cases neg
  · have := hpos rfl
    simp only [Bool.false_eq_true, if_false, BitVec.toInt_eq_toNat_cond]
    omega
  · simp only [if_true, BitVec.toInt_eq_toNat_cond, BitVec.toNat_neg]
    omega

/-- The quotient toward zero is that of the absolute values with its sign. -/
theorem tdiv_eq_quotNeg (a b : Int) (hb : b ≠ 0) :
    a.tdiv b = if quotNeg a b then -((a.natAbs / b.natAbs : Nat) : Int) else ((a.natAbs / b.natAbs : Nat) : Int) := by
  have hq : quotNeg a b = decide ((a < 0) ≠ (b < 0)) := by rw [quotNeg, if_neg hb]
  rw [hq, Int.ofNat_tdiv]
  rcases Int.lt_or_le a 0 with ha | ha <;> rcases Int.lt_or_le b 0 with hb | hb
  · rw [Int.ofNat_natAbs_of_nonpos ha.le, Int.ofNat_natAbs_of_nonpos hb.le, Int.neg_tdiv_neg]
    simp [ha, hb]
  · rw [Int.ofNat_natAbs_of_nonpos ha.le, Int.natAbs_of_nonneg hb, Int.neg_tdiv]
    simp [ha, hb]
  · rw [Int.natAbs_of_nonneg ha, Int.ofNat_natAbs_of_nonpos hb.le, Int.tdiv_neg]
    simp [ha, hb]
  · rw [Int.natAbs_of_nonneg ha, Int.natAbs_of_nonneg hb]
    simp [ha.not_gt, hb.not_gt]

/-- The remainder has the sign of the dividend. -/
theorem tmod_eq_natAbs (a b : Int) :
    a.tmod b = if a < 0 then -((a.natAbs % b.natAbs : Nat) : Int) else ((a.natAbs % b.natAbs : Nat) : Int) := by
  rw [← Int.natAbs_tmod]
  split
  · rename_i ha
    rw [Int.ofNat_natAbs_of_nonpos (by rw [← neg_nonneg, ← Int.neg_tmod]; exact Int.tmod_nonneg _ (by omega)), neg_neg]
  · rename_i ha
    rw [Int.natAbs_of_nonneg (Int.tmod_nonneg _ (by omega))]

theorem quotNeg_mul_two_pow (a b : Int) : quotNeg (a * 2 ^ 31) b = quotNeg a b := by
  have h : a * 2 ^ 31 < 0 ↔ a < 0 := by omega
  simp only [quotNeg, h]

/-- The flags and the signs of a division under way are those of its DIVI. -/
theorem flags_dividing (i d : FmtR) (n : Nat) (e : Eng) (a b : Int) (ha : a = (e.dReg i.da).toInt)
    (hb : b = (e.dReg i.db).toInt) :
    (dividing i d n e).flag srDZ = decide (b = 0) ∧
    (dividing i d n e).flag srDOV = (if i.mod then decide (b ≠ 0) && !quotNeg a b && decide (2 ^ 31 ≤ a.natAbs / b.natAbs)
      else decide (b.natAbs ≤ a.natAbs)) ∧
    (dividing i d n e).div.qneg = quotNeg a b ∧ (dividing i d n e).div.aneg = decide (a < 0) := by
  subst ha hb
  obtain ⟨hSR, hq, ha⟩ := iterate_divsEng_keeps d n (diviEng i e)
  obtain ⟨dov, hsr, rfl⟩ := SR_diviEng i e
  rw [dividing, flag_eq_getLsbD, flag_eq_getLsbD, hSR, hsr, hq, ha, div_diviEng, getLsbD_dz_dov _ _ _ _ (by decide),
    getLsbD_dz_dov _ _ _ _ (by decide)]
  exact ⟨rfl, rfl, rfl, rfl⟩

/-- With DZ or DOV, DIVF writes the limit of the sign of the quotient. -/
theorem quotient_limit (f : FmtR) (e : Eng) (h : e.flag srDZ = true ∨ e.flag srDOV = true) :
    quotient f e = if e.div.qneg then 0x8000_0000 else 0x7FFF_FFFF := by
  rw [quotient, if_pos (by simpa using h)]
  rfl

theorem quotient_signed (f : FmtR) (e : Eng) (hz : e.flag srDZ = false) (ho : e.flag srDOV = false) :
    quotient f e = if e.div.qneg then -(e.dReg f.dd) else e.dReg f.dd := by
  rw [quotient, hz, ho]
  rfl

/-- The quotient in DD when no bit is to come. -/
theorem toNat_dReg_of_divides {e : Eng} {dd : BitVec 4} {x m : Nat} (h : e.divides dd x m 0) (hlt : x / m < 2 ^ 32) :
    (e.dReg dd).toNat = x / m := by
  have hq := h.quot
  rw [pow_zero, Nat.div_one, Nat.sub_zero, Nat.mod_eq_of_lt hlt, Nat.mod_eq_of_lt (e.dReg dd).isLt] at hq
  exact hq

/-- The integer quotient is in range but for −2^31 by −1. -/
theorem natAbs_div_lt (a b : Int) (hb : b ≠ 0) (ha : a.natAbs ≤ 2 ^ 31) (ha' : a < 2 ^ 31)
    (hab : ¬(a = -(2 ^ 31) ∧ b = -1)) (hq : quotNeg a b = false) : a.natAbs / b.natAbs < 2 ^ 31 := by
  rw [Nat.div_lt_iff_lt_mul (by omega)]
  simp only [quotNeg, hb, if_false, decide_eq_false_iff_not, ne_eq, not_not, eq_iff_iff] at hq
  rcases Nat.lt_or_ge 1 b.natAbs with h2 | h1
  · omega
  · have : b = 1 ∨ b = -1 := by omega
    omega

/-- DIVI, 31 DIVS and DIVF: the fractional quotient (R324). -/
theorem toInt_quotient_frac (i d f : FmtR) (e : Eng) (hd : d.dd = i.dd) (hf : f.dd = i.dd) (hmod : i.mod = false) (a b : Int)
    (ha : a = (e.dReg i.da).toInt) (hb : b = (e.dReg i.db).toInt) (hlt : a.natAbs < b.natAbs) :
    (quotient f (dividing i d 31 e)).toInt = (a * 2 ^ 31).tdiv b := by
  obtain ⟨hz, ho, hneg, -⟩ := flags_dividing i d 31 e a b ha hb
  have hb0 : b ≠ 0 := by omega
  have hm : b.natAbs ≤ 2 ^ 31 := hb ▸ natAbs_toInt_le _
  have hx : a.natAbs * 2 ^ 31 / b.natAbs < 2 ^ 31 := by
    rw [Nat.div_lt_iff_lt_mul (by omega), Nat.mul_comm]
    omega
  have h0 : (diviEng i e).divides i.dd (a.natAbs * 2 ^ 31) b.natAbs 31 := by
    subst ha hb
    exact divides_diviEng_frac i e hmod hlt
  have hq : ((dividing i d 31 e).dReg f.dd).toNat = a.natAbs * 2 ^ 31 / b.natAbs :=
    hf ▸ toNat_dReg_of_divides (divides_iterate (by omega) hm hd 31 (by decide) h0) (by omega)
  rw [quotient_signed f _ (by rw [hz]; simpa using hb0) (by rw [ho, hmod]; simpa using hlt), hneg,
    toInt_signed _ _ (fun _ => hq ▸ hx) (by omega), hq, tdiv_eq_quotNeg _ _ hb0, quotNeg_mul_two_pow, Int.natAbs_mul]
  rfl

/-- DIVI with MOD = 1, 32 DIVS and DIVF: the integer quotient, and the remainder that DREM then gives (R324). -/
theorem toInt_quotient_int (i d f : FmtR) (e : Eng) (hd : d.dd = i.dd) (hf : f.dd = i.dd) (hmod : i.mod = true) (a b : Int)
    (ha : a = (e.dReg i.da).toInt) (hb : b = (e.dReg i.db).toInt) (hb0 : b ≠ 0) (hab : ¬(a = -(2 ^ 31) ∧ b = -1)) :
    (quotient f (dividing i d 32 e)).toInt = a.tdiv b ∧ (remainder (dividing i d 32 e)).toInt = a.tmod b := by
  obtain ⟨hz, ho, hneg, haneg⟩ := flags_dividing i d 32 e a b ha hb
  have hm : b.natAbs ≤ 2 ^ 31 := hb ▸ natAbs_toInt_le _
  have ham : a.natAbs ≤ 2 ^ 31 := ha ▸ natAbs_toInt_le _
  have hal : a < 2 ^ 31 := ha ▸ BitVec.toInt_lt
  have hx : a.natAbs / b.natAbs ≤ 2 ^ 31 := (Nat.div_le_self _ _).trans ham
  have hpos := natAbs_div_lt a b hb0 ham hal hab
  have h0 : (diviEng i e).divides i.dd a.natAbs b.natAbs 32 := by
    subst ha hb
    exact divides_diviEng_int i e hmod
  have hend : (dividing i d 32 e).divides i.dd a.natAbs b.natAbs 0 := divides_iterate (by omega) hm hd 32 (by decide) h0
  have hq : ((dividing i d 32 e).dReg f.dd).toNat = a.natAbs / b.natAbs := hf ▸ toNat_dReg_of_divides hend (by omega)
  have hmodlt : a.natAbs % b.natAbs < 2 ^ 31 := (Nat.mod_lt _ (by omega)).trans_le hm
  have hr : (BitVec.ofNat 32 (dividing i d 32 e).div.rem).toNat = a.natAbs % b.natAbs := by
    rw [hend.rem, pow_zero, Nat.div_one, BitVec.toNat_ofNat, Nat.mod_eq_of_lt (by omega)]
  have hdov : (dividing i d 32 e).flag srDOV = false := by
    rw [ho, hmod]
    cases hn : quotNeg a b
    · simp only [Nat.not_le.mpr (hpos hn), decide_false, Bool.and_false, if_true]
    · simp only [Bool.not_true, Bool.and_false, Bool.false_and, if_true]
  constructor
  · rw [quotient_signed f _ (by rw [hz]; simpa using hb0) hdov, hneg, toInt_signed _ _ (fun hn => hq ▸ hpos hn) (by omega), hq,
      tdiv_eq_quotNeg _ _ hb0]
  · rw [remainder, haneg, toInt_signed _ _ (fun _ => hr ▸ hmodlt) (by omega), hr, tmod_eq_natAbs]
    simp only [decide_eq_true_eq]

/-- The division sequence runs and leaves the value of DIVF in DD, and the remainder for DREM. -/
theorem execAll_division {s : State} {p : PairId} {t q : Nat} (hs : s.runs p t q) (i d f : FmtR) (hi : i.rsvd = 0)
    (hd : d.rsvd = 0) (hf : f.rsvd = 0) (hdd : f.dd = i.dd) (n : Nat) :
    ∃ u, execAll ([.divi p i] ++ List.replicate n (.divs p d) ++ [.divf p f]) s = .next u ∧ u.runs p t q ∧
      (u.dev.eng p).dReg i.dd = quotient f (dividing i d n (s.dev.eng p)) ∧
      remainder (u.dev.eng p) = remainder (dividing i d n (s.dev.eng p)) := by
  obtain ⟨u, hu, hur, hue⟩ := computes_division p i d f hi hd hf n s t q (s.dev.eng p) hs (sameData_refl _)
  exact ⟨u, hu, hur, by rw [sameData_dReg hue, ← hdd, Function.comp, dReg_divfEng],
    by rw [remainder_congr hue, Function.comp, remainder_divfEng]⟩

/-- With DZ or DOV of DIVI, the sequence leaves the limit of the sign of the quotient. -/
theorem execAll_division_limit {s : State} {p : PairId} {t q : Nat} (hs : s.runs p t q) (i d f : FmtR) (hi : i.rsvd = 0)
    (hd : d.rsvd = 0) (hf : f.rsvd = 0) (hdd : f.dd = i.dd) (n : Nat) (a b : Int)
    (ha : a = ((s.dev.eng p).dReg i.da).toInt) (hb : b = ((s.dev.eng p).dReg i.db).toInt)
    (hout : b = 0 ∨ (i.mod = false ∧ b.natAbs ≤ a.natAbs)) :
    ∃ u, execAll ([.divi p i] ++ List.replicate n (.divs p d) ++ [.divf p f]) s = .next u ∧
      (u.dev.eng p).dReg i.dd = if quotNeg a b then 0x8000_0000 else 0x7FFF_FFFF := by
  obtain ⟨hz, ho, hneg, -⟩ := flags_dividing i d n (s.dev.eng p) a b ha hb
  obtain ⟨u, hu, -, hq, -⟩ := execAll_division hs i d f hi hd hf hdd n
  refine ⟨u, hu, ?_⟩
  rw [hq, quotient_limit, hneg]
  rcases hout with h0 | ⟨hmod, hle⟩
  · exact .inl (by rw [hz]; simpa using h0)
  · exact .inr (by rw [ho, hmod]; simpa using hle)

/-- DIVI, DIVS and DIVF each by itself (R324). -/
theorem exec_divi_divs_divf {s : State} {p : PairId} {t q : Nat} (w : FmtR) (hs : s.runs p t q) (hr : w.rsvd = 0) :
    exec (.divi p w) s = .next (s.withDev (issued p (diviEng w (s.dev.eng p)) none false s.dev)) ∧
    exec (.divs p w) s = .next (s.withDev (issued p (divsEng w (s.dev.eng p)) none false s.dev)) ∧
    exec (.divf p w) s = .next (s.withDev (issued p (divfEng w (s.dev.eng p)) none false s.dev)) :=
  ⟨exec_runR _ _ (exec_divi p w) hs hr, exec_runR _ _ (exec_divs p w) hs hr, exec_runR _ _ (exec_divf p w) hs hr⟩

/-- DIVI writes no flag but DZ and DOV. -/
theorem getLsbD_diviEng (w : FmtR) (e : Eng) (i : Nat) (hi : i < 32) (ho : i ≠ srDOV) (hz : i ≠ srDZ) :
    (diviEng w e).SR.getLsbD i = e.SR.getLsbD i := by
  obtain ⟨dov, hsr, -⟩ := SR_diviEng w e
  rw [hsr, getLsbD_dz_dov _ _ _ _ hi, if_neg ho, if_neg hz]

/-- Settles O49, by the invariant `Eng.divides` of the restoring division. -/
theorem divisionSequence : Obligations.DivisionSequence := by
  unfold Obligations.DivisionSequence
  refine ⟨?_, ?_⟩
  · intro s p t q w hs hr e he a b ha hb
    subst he
    obtain ⟨hdivi, hdivs, hdivf⟩ := exec_divi_divs_divf w hs hr
    obtain ⟨hz, ho, -, -⟩ := flags_dividing w w 0 (s.dev.eng p) a b ha hb
    rw [flag_eq_getLsbD] at hz ho
    have hdiv := div_diviEng w (s.dev.eng p)
    have hD := D_diviEng w (s.dev.eng p)
    rw [← ha, ← hb] at hdiv
    refine ⟨fun hmod => ?_, fun hmod => ?_, ?_, ?_⟩
    · simp only [hmod, Bool.false_eq_true, if_false] at ho hdiv hD
      exact ⟨_, hdivi, ho, hz, by rw [hdiv], by rw [hdiv], hD, getLsbD_diviEng w _⟩
    · simp only [hmod, if_true] at hdiv hD
      exact ⟨_, hdivi, hz, by rw [hdiv], by rw [hdiv], by rw [hdiv], hD, getLsbD_diviEng w _⟩
    · refine ⟨_, hdivs, SR_divsEng w _, fun hrem r hrr => ⟨fun hle => ?_, fun hlt => ?_⟩⟩
      · rw [hrr] at hle ⊢
        rw [divsEng_of_le w _ hrem hle]
        exact ⟨rfl, rfl⟩
      · rw [hrr] at hlt ⊢
        rw [divsEng_of_lt w _ hrem hlt]
        exact ⟨rfl, rfl⟩
    · refine ⟨_, _, flagged_resultZN _ w.dd _, hdivf, fun h => ?_⟩
      simp only [← flag_eq_getLsbD] at h
      exact quotient_limit w _ h
  · intro s p t q i d f r hs hi hd hf hr hdd hfd a b ha hb
    refine ⟨fun hmod hlt => ?_, fun hmod hb0 hab => ?_, fun hb0 n => ?_, fun hmod hb0 hle n => ?_⟩
    · obtain ⟨u, hu, -, hq, -⟩ := execAll_division hs i d f hi hd hf hfd 31
      exact ⟨u, hu, by rw [hq, toInt_quotient_frac i d f _ hdd hfd hmod a b ha hb hlt]⟩
    · obtain ⟨u, hu, hur, hq, hrem⟩ := execAll_division hs i d f hi hd hf hfd 32
      obtain ⟨htdiv, htmod⟩ := toInt_quotient_int i d f (s.dev.eng p) hdd hfd hmod a b ha hb hb0 hab
      obtain ⟨v, hv, -, hve⟩ := computes_drem p r hr u t q _ hur (sameData_refl _)
      refine ⟨u, v, hu, by rw [hq, htdiv], by rw [← execAll_singleton, hv], ?_⟩
      rw [sameData_dReg hve, dReg_dremEng, hrem, htmod]
    · obtain ⟨u, hu, hq⟩ := execAll_division_limit hs i d f hi hd hf hfd n a b ha hb (.inl hb0)
      refine ⟨u, hu, hq.trans ?_⟩
      simp only [quotNeg, hb0, if_true, decide_eq_true_eq]
    · obtain ⟨u, hu, hq⟩ := execAll_division_limit hs i d f hi hd hf hfd n a b ha hb (.inr ⟨hmod, hle⟩)
      refine ⟨u, hu, hq.trans ?_⟩
      by_cases hsign : (a < 0) = (b < 0)
      · simp [quotNeg, hb0, hsign]
      · simp [quotNeg, hb0, hsign]

end Sys2Proof.Machine
end

section
/-! PROOFS. The step of the machine: every command answers a next state, keeps the queue, and leaves the fuses to
OTP_PROGRAM_DONE, which moves them only forward (spec/14); and the state after reset. -/
namespace Sys2Proof.Machine

/-- Settles O1: a step is one unfolding of `step`. -/
theorem stepRunsFront : Obligations.StepRunsFront := by
  intro s c rest h
  rw [step, h]

/-- Settles O2. -/
theorem stepIdles : Obligations.StepIdles := by
  intro s h
  rw [step, h]

/-- Every command but OTP_PROGRAM_DONE acts on the device alone. -/
theorem exec_withDev (c : Instr) (s : State) (h : ∀ ok, c ≠ .otpProgramDone ok) : ∃ d, exec c s = .next (s.withDev d) := by
  cases c
  case otpProgramDone ok => exact absurd rfl (h ok)
  all_goals exact ⟨_, rfl⟩

theorem exec_otpProgramDone (ok : Bool) (s : State) : exec (.otpProgramDone ok) s =
    .next { s with fuse := (otpProgramDone ok s.fuse s.dev).1, dev := (otpProgramDone ok s.fuse s.dev).2 } := rfl

/-- Settles O3. -/
theorem commandsKeepQueueAndFuses : Obligations.CommandsKeepQueueAndFuses := by
  intro c s
  by_cases h : ∀ ok, c ≠ .otpProgramDone ok
  · obtain ⟨d, hd⟩ := exec_withDev c s h
    exact ⟨_, hd, rfl, fun _ => rfl⟩
  · push Not at h
    obtain ⟨ok, rfl⟩ := h
    exact ⟨_, exec_otpProgramDone ok s, rfl, fun h => absurd rfl (h ok)⟩

/-! ## The fuses -/

theorem follows_refl (f : Fuse) : f.follows f := ⟨rfl, rfl, rfl, fun h => ⟨h, rfl⟩, le_rfl⟩

/-- Programming moves the fuses only forward: the key hash once, MINVER upward (R560, R561). -/
theorem follows_programFuse (code : Nat) (d : Dev) {f f0 : Fuse} (h : f.follows f0) : (programFuse code d f).follows f0 := by
  obtain ⟨hdie, hcal, hcrc, hkey, hver⟩ := h
  unfold programFuse
  split
  · split
    · exact ⟨hdie, hcal, hcrc, hkey, hver⟩
    · rename_i hset
      exact ⟨hdie, hcal, hcrc, fun h0 => absurd (hkey h0).1 hset, hver⟩
  · split
    · rename_i hlt
      have hv : d.rd pgSTG STG.VERSION < 2 ^ 6 := bitsOf_lt _ _ _
      refine ⟨hdie, hcal, hcrc, hkey, ?_⟩
      show f0.minver.toNat ≤ (BitVec.ofNat 6 (d.rd pgSTG STG.VERSION)).toNat
      rw [BitVec.toNat_ofNat, Nat.mod_eq_of_lt hv]
      omega
    · exact ⟨hdie, hcal, hcrc, hkey, hver⟩
  · exact ⟨hdie, hcal, hcrc, hkey, hver⟩

theorem follows_otpProgramDone (ok : Bool) (d : Dev) {f f0 : Fuse} (h : f.follows f0) :
    (otpProgramDone ok f d).1.follows f0 := by
  unfold otpProgramDone
  split
  · exact h
  · cases ok
    · exact h
    · exact follows_programFuse _ _ h

theorem follows_exec {c : Instr} {s t : State} {f0 : Fuse} (h : s.fuse.follows f0) (ht : exec c s = .next t) :
    t.fuse.follows f0 := by
  by_cases hc : ∀ ok, c ≠ .otpProgramDone ok
  · obtain ⟨d, hd⟩ := exec_withDev c s hc
    rw [hd] at ht
    cases ht
    exact h
  · push Not at hc
    obtain ⟨ok, rfl⟩ := hc
    rw [exec_otpProgramDone] at ht
    cases ht
    exact follows_otpProgramDone ok s.dev h

/-- Settles O5: no command but OTP_PROGRAM_DONE writes a fuse, and that one programs forward. -/
theorem fusesOnlyForward : Obligations.FusesOnlyForward := by
  intro f0 s s' h hs
  unfold step at hs
  split at hs
  · cases hs
    exact h
  · rename_i rest _
    exact follows_exec (s := { s with pending := rest }) h hs

/-! ## The state after reset -/

/-- Settles O4: the state after reset lists no register, so that each reads what its table gives. -/
theorem resetRegistersReadResetValues : Obligations.ResetRegistersReadResetValues := by
  refine ⟨rfl, rfl, rfl, fun page sel off => ?_, ?_, ?_, ?_, rfl, fun p => ?_⟩
  · rfl
  · decide
  · decide
  · decide
  · cases p <;> decide

/-- Settles O6. -/
theorem fusesFollowAtReset : Obligations.FusesFollowAtReset := ⟨follows_refl Fuse.reset, rfl⟩

end Sys2Proof.Machine
end

section
/-! PROOFS. Commands that a page evaluates at once (R570, R571): the way from the write of PCMD to the effect, and what is read
of a device that has recorded one. -/
namespace Sys2Proof.Machine

/-- A class whose commands land on arrival, journal or not (R494). -/
def Cls.direct (c : Cls) (code : Nat) : Bool :=
  match c with
  | .axp | .prf | .pgrp | .sea | .tsu | .sgu => false
  | .saf => code != 2
  | _ => true

theorem direct_spec {c : Cls} {code : Nat} (h : c.direct code = true) :
    c ≠ .axp ∧ c ≠ .prf ∧ c ≠ .pgrp ∧ c ≠ .sea ∧ c ≠ .tsu ∧ c ≠ .sgu ∧ (c = .saf → code ≠ 2) := by
  cases c <;> simp_all [Cls.direct]

/-- A command of a page that takes it, as it lands. -/
theorem act_pageCommand {s : State} {p : Path} {page code : Nat} {c : Cls} {arg : BitVec 16} (h : s.dev.takes p page)
    (hc : clsOf page = some c) (hcode : code < 256 := by decide) (hj : c.direct code = true := by decide) :
    s.act (pageCommand p page code arg) = .next (s.withDev (answered p (landCmd page code arg.toNat s.dev))) := by
  rw [act_withDev, pageCommand_reached s.dev p page code c arg h.1 hc hcode (direct_spec hj)]

/-- A command of a journalled page that takes it, as it lands where nothing holds it back. -/
theorem act_pageCommand_now {s : State} {p : Path} {page code : Nat} {c : Cls} {arg : BitVec 16} (h : s.dev.takesJ p page)
    (hc : clsOf page = some c) (hcode : code < 256 := by decide) :
    s.act (pageCommand p page code arg) = .next (s.withDev (answered p (landCmd page code arg.toNat s.dev))) := by
  rw [act_withDev, pageCommand_lands s.dev p page code c arg h.1.1 hc hcode fun _ => h.2]

/-- A command that its page carries out at once. -/
theorem landCmd_done {d : Dev} {page code : Nat} {arg : BitVec 16} {land : Nat → Nat → Dev → Dev} {check : Dev → Nat}
    {eff : Dev → Dev} (hb : d.on page HDR.BUSY = false) (hland : ∀ code arg d, landCmd page code arg d = land code arg d)
    (htake : land code arg.toNat d = takeCmd page code arg.toNat check eff d) (hok : check d = rOK) :
    landCmd page code arg.toNat d = eff (recorded page code arg d) := by
  rw [hland, htake, takeCmd_done _ _ _ _ _ _ hb hok]
  rfl

/-- A command that its page refuses with `res`. -/
theorem landCmd_refused {d : Dev} {page code res : Nat} {arg : BitVec 16} {land : Nat → Nat → Dev → Dev} {check : Dev → Nat}
    {eff : Dev → Dev} (hb : d.on page HDR.BUSY = false) (hland : ∀ code arg d, landCmd page code arg d = land code arg d)
    (htake : land code arg.toNat d = takeCmd page code arg.toNat check eff d) (hres : check d = res)
    (hne : res ≠ rOK := by decide) : landCmd page code arg.toNat d = refusedWith res page code arg d := by
  subst hres
  rw [hland, htake, takeCmd_refused _ _ _ _ _ _ hb hne]
  rfl

/-- A command carried out, from its row of the table to its answer. -/
theorem command_done {s : State} {p : Path} {page code : Nat} {c : Cls} {arg : BitVec 16} {land : Nat → Nat → Dev → Dev}
    {check : Dev → Nat} {eff : Dev → Dev} {d : Dev} (h : s.dev.takes p page) (hc : clsOf page = some c)
    (hland : ∀ code arg d, landCmd page code arg d = land code arg d)
    (htake : land code arg.toNat s.dev = takeCmd page code arg.toNat check eff s.dev) (hok : check s.dev = rOK)
    (heff : eff (recorded page code arg s.dev) = d := by rfl)
    (hcode : code < 256 := by decide) (hj : c.direct code = true := by decide) :
    s.act (pageCommand p page code arg) = .next (s.withDev (answered p d)) := by
  rw [act_pageCommand h hc hcode hj, landCmd_done h.2 hland htake hok, heff]

/-- A command refused, from its row of the table to its answer. -/
theorem command_refused {s : State} {p : Path} {page code res : Nat} {c : Cls} {arg : BitVec 16} {land : Nat → Nat → Dev → Dev}
    {check : Dev → Nat} {eff : Dev → Dev} (h : s.dev.takes p page) (hc : clsOf page = some c)
    (hland : ∀ code arg d, landCmd page code arg d = land code arg d)
    (htake : land code arg.toNat s.dev = takeCmd page code arg.toNat check eff s.dev) (hres : check s.dev = res)
    (hcode : code < 256 := by decide) (hj : c.direct code = true := by decide) (hne : res ≠ rOK := by decide) :
    s.act (pageCommand p page code arg) = .next (s.withDev (answered p (refusedWith res page code arg s.dev))) := by
  rw [act_pageCommand h hc hcode hj, landCmd_refused h.2 hland htake hres hne]

/-! ## What is read of a device with a register written -/

theorem off_ne_key {p s o p' s' o' : Nat} (h : o % 4096 ≠ o' % 4096) : regKey p s o ≠ regKey p' s' o' := by
  unfold regKey
  omega

/-- A register at another offset keeps its value, whatever its page. -/
theorem reg_setReg_off (d : Dev) (p s o p' s' o' : Nat) (v : Word) (h : o % 4096 ≠ o' % 4096) :
    (d.setReg p s o v).reg p' s' o' = d.reg p' s' o' := reg_setReg_key _ _ _ _ _ _ _ _ (off_ne_key h)

theorem rdS_setReg_off (d : Dev) (p s o : Nat) (v : Word) (p' s' : Nat) (g : Fld) (h : o % 4096 ≠ g.off % 4096) :
    (d.setReg p s o v).rdS p' s' g = d.rdS p' s' g := by
  unfold Dev.rdS
  rw [reg_setReg_off _ _ _ _ _ _ _ _ h]

theorem rd_wr_off (d : Dev) (p : Nat) (f : Fld) (v p' : Nat) (g : Fld) (h : f.off % 4096 ≠ g.off % 4096) :
    (d.wr p f v).rd p' g = d.rd p' g := rd_wr_key _ _ _ _ _ _ (off_ne_key h)

/-- A register of another page keeps its value. -/
theorem reg_setReg_page (d : Dev) (p s o p' s' o' : Nat) (v : Word) (hp : p < 1024) (hp' : p' < 1024) (ho : o < 4096)
    (ho' : o' < 4096) (h : p ≠ p') : (d.setReg p s o v).reg p' s' o' = d.reg p' s' o' :=
  reg_setReg_ne _ _ _ _ _ _ _ _ hp hp' ho ho' fun e => h e.1

/-! ## What stands beside the record of a command -/

@[simp] theorem recorded_conf (page code : Nat) (arg : BitVec 16) (d : Dev) : (recorded page code arg d).conf = d.conf := setReg_conf _ _ _ _ _
@[simp] theorem recorded_st (page code : Nat) (arg : BitVec 16) (d : Dev) : (recorded page code arg d).st = d.st := setReg_st _ _ _ _ _
@[simp] theorem recorded_pairs (page code : Nat) (arg : BitVec 16) (d : Dev) : (recorded page code arg d).pairs = d.pairs := setReg_pairs _ _ _ _ _
@[simp] theorem recorded_mem (page code : Nat) (arg : BitVec 16) (d : Dev) : (recorded page code arg d).mem = d.mem := setReg_mem _ _ _ _ _
@[simp] theorem recorded_mot (page code : Nat) (arg : BitVec 16) (d : Dev) : (recorded page code arg d).mot = d.mot := setReg_mot _ _ _ _ _
@[simp] theorem recorded_evt (page code : Nat) (arg : BitVec 16) (d : Dev) : (recorded page code arg d).evt = d.evt := setReg_evt _ _ _ _ _
@[simp] theorem recorded_load (page code : Nat) (arg : BitVec 16) (d : Dev) : (recorded page code arg d).load = d.load := setReg_load _ _ _ _ _
@[simp] theorem recorded_cap (page code : Nat) (arg : BitVec 16) (d : Dev) : (recorded page code arg d).cap = d.cap := setReg_cap _ _ _ _ _
@[simp] theorem recorded_mfe (page code : Nat) (arg : BitVec 16) (d : Dev) : (recorded page code arg d).mfe = d.mfe := setReg_mfe _ _ _ _ _
@[simp] theorem recorded_red (page code : Nat) (arg : BitVec 16) (d : Dev) : (recorded page code arg d).red = d.red := setReg_red _ _ _ _ _
@[simp] theorem recorded_host (page code : Nat) (arg : BitVec 16) (d : Dev) : (recorded page code arg d).host = d.host := setReg_host _ _ _ _ _

/-- What PCST records is read of no other register. -/
theorem reg_recordCmd (page code arg res : Nat) (busy : Bool) (d : Dev) (p s o : Nat)
    (h : HDR.PCST_CODE.off % 4096 ≠ o % 4096) : (recordCmd page code arg res busy d).reg p s o = d.reg p s o :=
  reg_setReg_off _ _ _ _ _ _ _ _ h

theorem rd_recorded (page code : Nat) (arg : BitVec 16) (d : Dev) (p : Nat) (f : Fld)
    (h : HDR.PCST_CODE.off % 4096 ≠ f.off % 4096) : (recorded page code arg d).rd p f = d.rd p f := by
  unfold Dev.rd Dev.rdS
  rw [recorded, reg_recordCmd _ _ _ _ _ _ _ _ _ h]

theorem on_recorded (page code : Nat) (arg : BitVec 16) (d : Dev) (p : Nat) (f : Fld)
    (h : HDR.PCST_CODE.off % 4096 ≠ f.off % 4096) : (recorded page code arg d).on p f = d.on p f := by
  unfold Dev.on
  rw [rd_recorded _ _ _ _ _ _ h]

theorem role_recorded (page code : Nat) (arg : BitVec 16) (d : Dev) : (recorded page code arg d).role = d.role :=
  rd_recorded _ _ _ _ _ _ (by decide)

theorem rd64_recorded (page code : Nat) (arg : BitVec 16) (d : Dev) (p s lo : Nat)
    (h : HDR.PCST_CODE.off % 4096 ≠ lo % 4096) (h' : HDR.PCST_CODE.off % 4096 ≠ (lo + 4) % 4096) :
    (recorded page code arg d).rd64 p s lo = d.rd64 p s lo := by
  unfold Dev.rd64
  rw [recorded, reg_recordCmd _ _ _ _ _ _ _ _ _ h, reg_recordCmd _ _ _ _ _ _ _ _ _ h']

end Sys2Proof.Machine
end

section
/-! PROOFS. The commands of STG (spec/14). -/
namespace Sys2Proof.Machine

/-- Settles O7. -/
theorem stageCommandsCarriedOut : Obligations.StageCommandsCarriedOut := by
  unfold Obligations.StageCommandsCarriedOut
  intro s p arg h
  refine ⟨fun hf => ?_, fun hs => ?_, fun hs hl hi hins harg => ?_, fun hs hl hr hi hins => ?_, fun hs => ?_,
    fun hs hr hi => ?_, fun hi => ?_, ?_⟩
  · have hland : landCmd pgSTG 1 arg.toNat s.dev =
        { waiting pgSTG 0x01 arg s.dev with load := { s.dev.load with goFull := true } } := by
      show cmdGoFull arg.toNat s.dev = _
      simp only [cmdGoFull, h.2, hf, Bool.false_eq_true, Bool.not_true, or_self, if_false, deferCmd_waits _ _ _ _ h.2]
      rfl
    rw [← hland]
    exact act_pageCommand h clsOf_stg
  · exact command_done h clsOf_stg landCmd_stg (by unfold landStg; rfl) (by simp [checks_ok, hs])
  · exact command_done h clsOf_stg landCmd_stg (by unfold landStg; rfl) (by simp [checks_ok, hs, hl, hi, hins, harg])
  · exact command_done h clsOf_stg landCmd_stg (by unfold landStg; rfl)
      (by simp [checks_ok, Dev.ready, hs, hl, hr, hi, hins])
  · exact command_done h clsOf_stg landCmd_stg (by unfold landStg; rfl) (by simp [checks_ok, hs])
  · exact command_done h clsOf_stg landCmd_stg (by unfold landStg; rfl) (by simp [checks_ok, hs, hr, hi])
  · exact command_done h clsOf_stg landCmd_stg (by unfold landStg; rfl) (by simp [checks_ok, hi])
  · exact command_done h clsOf_stg landCmd_stg (by unfold landStg; rfl) rfl

/-- Settles O8. -/
theorem stageCommandsRefused : Obligations.StageCommandsRefused := by
  unfold Obligations.StageCommandsRefused
  intro s p arg h
  refine ⟨fun hf => ?_, fun hs => ?_, fun hs => ?_, fun hs hl hi hins harg => ?_, fun hs => ?_, fun hs => ?_,
    fun hs => ?_, fun hi => ?_⟩
  · refine command_refused h clsOf_stg landCmd_stg (check := fun _ => rSTATE) (eff := id) ?_ rfl
    show cmdGoFull arg.toNat s.dev = _
    simp [cmdGoFull, hf]
  · exact command_refused h clsOf_stg landCmd_stg (by unfold landStg; rfl) (by simp [checks, hs])
  · exact command_refused h clsOf_stg landCmd_stg (by unfold landStg; rfl)
      (by rcases hs with hs | ⟨hl, hl'⟩ | hi | hins <;> simp [checks, *])
  · exact command_refused h clsOf_stg landCmd_stg (by unfold landStg; rfl) (by rcases hl with hl | hl <;> simp [checks, hs, hl, hi, hins, harg])
  · exact command_refused h clsOf_stg landCmd_stg (by unfold landStg; rfl)
      (by rcases hs with hs | hl | ⟨hr, hr'⟩ | hi | hins <;> simp [checks, Dev.ready, *])
  · exact command_refused h clsOf_stg landCmd_stg (by unfold landStg; rfl) (by simp [checks, hs])
  · exact command_refused h clsOf_stg landCmd_stg (by unfold landStg; rfl)
      (by rcases hs with hs | ⟨hr, hr'⟩ | hi <;> simp [checks, *])
  · exact command_refused h clsOf_stg landCmd_stg (by unfold landStg; rfl) (by simp [checks, hi])

end Sys2Proof.Machine
end

section
/-! PROOFS. CLRCNT of the pages that evaluate it at once, and the commands of EVT, HIF, DMC, TIM, RING, CEP, FBU, SGU, SAF
(spec/02, spec/03, spec/08, spec/10, spec/15). -/
namespace Sys2Proof.Machine

/-- A journalled page carries out at once a command that lands on arrival. -/
theorem command_done_now {s : State} {p : Path} {page code : Nat} {c : Cls} {arg : BitVec 16} {land : Nat → Nat → Dev → Dev}
    {check : Dev → Nat} {eff : Dev → Dev} {d : Dev} (h : s.dev.takesJ p page) (hc : clsOf page = some c)
    (hland : ∀ code arg d, landCmd page code arg d = land code arg d)
    (htake : land code arg.toNat s.dev = takeCmd page code arg.toNat check eff s.dev) (hok : check s.dev = rOK)
    (heff : eff (recorded page code arg s.dev) = d := by rfl) (hcode : code < 256 := by decide) :
    s.act (pageCommand p page code arg) = .next (s.withDev (answered p d)) := by
  rw [act_pageCommand_now h hc hcode, landCmd_done h.1.2 hland htake hok, heff]

/-- A journalled page refuses a command that lands on arrival. -/
theorem command_refused_now {s : State} {p : Path} {page code res : Nat} {c : Cls} {arg : BitVec 16}
    {land : Nat → Nat → Dev → Dev} {check : Dev → Nat} {eff : Dev → Dev} (h : s.dev.takesJ p page) (hc : clsOf page = some c)
    (hland : ∀ code arg d, landCmd page code arg d = land code arg d)
    (htake : land code arg.toNat s.dev = takeCmd page code arg.toNat check eff s.dev) (hres : check s.dev = res)
    (hcode : code < 256 := by decide) (hne : res ≠ rOK := by decide) :
    s.act (pageCommand p page code arg) = .next (s.withDev (answered p (refusedWith res page code arg s.dev))) := by
  rw [act_pageCommand_now h hc hcode, landCmd_refused h.1.2 hland htake hres hne]

/-- A page outside the KEEP domain answers only in LANTERN and FULL (R527). -/
theorem stage_ne_zero_of_answers {d : Dev} {page : Nat} (h : d.answers page = true) (hk : isKept page = false) :
    d.stage ≠ 0 := by
  unfold Dev.answers at h
  split at h
  · cases h
  · intro h0
    simp [hk, h0] at h

theorem stage_ne_zero_of_takes {d : Dev} {p : Path} {page : Nat} (h : d.takes p page) (hk : isKept page = false) :
    d.stage ≠ 0 := stage_ne_zero_of_answers h.1.2.1 hk

theorem isKept_of_lt {page : Nat} (h : 0x10 ≤ page) : isKept page = false := by
  unfold isKept pgGLB pgSTG pgSAF pgSPM
  simp only [Bool.or_eq_false_iff, beq_eq_false_iff_ne]
  omega

/-- Settles O17. -/
theorem countersCleared : Obligations.CountersCleared := by
  unfold Obligations.CountersCleared
  intro s p arg
  refine ⟨fun h => ?_, fun r h => ?_, fun h => ?_, fun c h => ?_, fun c h => ?_, fun h => ?_, fun n h => ?_, fun h => ?_,
    fun c h => ?_, fun h => ?_, fun u h => ?_, fun h => ?_, fun h => ?_, fun h => ?_, fun h => ?_, fun h => ?_, fun h => ?_,
    fun h => ?_⟩
  · exact command_done h clsOf_tim landCmd_tim (by unfold landTim; rfl) rfl
  · exact command_done h (clsOf_ring r) (landCmd_ring r) (by unfold landRing; rfl) rfl
  · exact command_done h clsOf_sys landCmd_sys (by unfold landSys; rfl) rfl
  · exact command_done h (clsOf_cep c) (landCmd_cep c) (by unfold landCep; rfl) rfl
  · exact command_done h (clsOf_fbu c) (landCmd_fbu c) (by unfold landFbu; rfl) rfl
  · exact command_done_now h clsOf_sgu landCmd_sgu (by unfold landSgu; rfl) rfl
  · exact command_done h (clsOf_sgc n) (landCmd_sgc n) (by unfold landSgc; rfl) rfl
  · exact command_done h clsOf_saf landCmd_saf (by unfold landSaf; rfl) rfl
  · have hs := stage_ne_zero_of_takes h (isKept_of_lt (by unfold pgMfc; omega))
    exact command_done h (clsOf_mfc c) (landCmd_mfc c) (by unfold landMfc; rfl) (by simp [checks, hs])
  · have hs := stage_ne_zero_of_takes h rfl
    exact command_done h clsOf_mfe landCmd_mfe (by unfold landMfe; rfl) (by simp [checks, hs])
  · exact command_done h (clsOf_capu u) (landCmd_capu u) (by unfold landCapu; rfl) rfl
  · exact command_done h clsOf_cap landCmd_cap (by unfold landCap; rfl) rfl
  · exact command_done h clsOf_dmc landCmd_dmc (by unfold landDmc; rfl) rfl
  · exact command_done h clsOf_hif landCmd_hif (by unfold landHif; rfl) rfl
  · exact command_done h clsOf_evt landCmd_evt (by unfold landEvt; rfl) rfl
  · exact command_done h clsOf_glb landCmd_glb (by unfold landGlb; rfl) rfl
  · exact command_done h clsOf_spm landCmd_spm (by unfold landSpm; rfl) rfl
  · exact command_done h clsOf_red landCmd_red (by unfold landRed; rfl) rfl

/-- Settles O18. -/
theorem logMailboxDmaRateCommands : Obligations.LogMailboxDmaRateCommands := by
  unfold Obligations.LogMailboxDmaRateCommands
  intro s p arg
  have moored : (∀ n ∈ s.dev.activeAxes, s.dev.axState n = axMOORED) → (s.dev.activeAxes.all fun (n : Fin 256) =>
      s.dev.axState n == axMOORED || s.dev.axState n == axDISABLED) = true := fun h =>
    List.all_eq_true.mpr fun n hn => by simp [h n hn]
  refine ⟨fun h => ?_, fun h hr ht => ?_, fun h hrt => ?_, fun h hh => ?_, fun h hh => ?_, fun h hs hm ha hf => ?_,
    fun h hs hm ha => ?_, fun h hs => ?_⟩
  · exact command_done h clsOf_evt landCmd_evt (by unfold landEvt; rfl) rfl (by rw [rd_recorded _ _ _ _ _ _ (by decide)]; rfl)
  · refine command_done h clsOf_hif landCmd_hif (by unfold landHif; rfl) (by simp [checks, hr, ht]) ?_
    rw [← rd_recorded pgHIF 0x02 arg s.dev pgHIF HIF.RXW (by decide), ← rd_recorded pgHIF 0x02 arg s.dev pgHIF HIF.TXR (by decide),
      ← recorded_host pgHIF 0x02 arg s.dev]
    rfl
  · exact command_refused h clsOf_hif landCmd_hif (by unfold landHif; rfl)
      (by rcases hrt with h | h <;> simp [checks, h])
  · exact command_done h clsOf_dmc landCmd_dmc (by unfold landDmc; rfl) (by simp [checks, hh])
  · exact command_refused h clsOf_dmc landCmd_dmc (by unfold landDmc; rfl) (by simp [checks, hh])
  · exact command_done h clsOf_tim landCmd_tim (by unfold landTim; rfl)
      (by simp [hs, moored hm, Nat.not_lt.mpr ha, hf])
  · exact command_refused h clsOf_tim landCmd_tim (by unfold landTim; rfl) (by simp [hs, moored hm, ha])
  · exact command_refused h clsOf_tim landCmd_tim (by unfold landTim; rfl) (by simp [hs])

/-! ## RING (R105, R106, R108) -/

theorem cyc_wr_off (d : Dev) (p : Nat) (f : Fld) (v : Nat) (h : f.off % 4096 ≠ TIM.CYCLO.off % 4096)
    (h' : f.off % 4096 ≠ (TIM.CYCLO.off + 4) % 4096) : (d.wr p f v).cyc = d.cyc := by
  show (d.wrS p 0 f v).rd64 _ _ _ = _
  unfold Dev.rd64 Dev.wrS
  rw [reg_setReg_off _ _ _ _ _ _ _ _ h, reg_setReg_off _ _ _ _ _ _ _ _ h']
  rfl

theorem cyc_recorded (page code : Nat) (arg : BitVec 16) (d : Dev) : (recorded page code arg d).cyc = d.cyc :=
  rd64_recorded _ _ _ _ _ _ _ (by decide) (by decide)

/-- The condition of GRANT and WITHDRAW that their argument does not share (R108; WITHDRAW by log entry 96). -/
theorem grant_state {d : Dev} {r : RingId} {arg : Nat} (hc : d.commanding = true) (hr : d.rstate r = rsSYNC)
    (hh : d.on (pgRing r) RING.HOTINS = true) (hb : d.on (pgRing r) RING.BROKEN = false)
    (hg : d.on (pgRing r) RING.GPEND = false) (ha : arg ≠ d.myst) :
    (d.commanding && d.rstate r == rsSYNC && d.on (pgRing r) RING.HOTINS && !d.on (pgRing r) RING.BROKEN &&
      !d.on (pgRing r) RING.GPEND && arg != d.myst) = true := by
  simp [hc, hr, hh, hb, hg, ha]

/-- Settles O19. -/
theorem ringCommands : Obligations.RingCommands := by
  unfold Obligations.RingCommands
  intro s p r arg h
  have cycle (x y z w : Nat) : ((((((recorded (pgRing r) x arg s.dev).wr (pgRing r) RING.GSTA y).wr (pgRing r) RING.GWD z).wr
      (pgRing r) RING.GPEND w).wr (pgRing r) RING.GDONE 0)).cyc = s.dev.cyc := by
    rw [cyc_wr_off, cyc_wr_off, cyc_wr_off, cyc_wr_off, cyc_recorded] <;> decide
  refine ⟨fun hc hs => ⟨?_, fun hh hb hg ha => ⟨fun h63 => ⟨?_, ?_⟩, fun h63 => ⟨?_, ?_⟩⟩⟩, fun hcs => ⟨?_, ?_, ?_⟩⟩
  · exact command_done h (clsOf_ring r) (landCmd_ring r) (by unfold landRing; rfl) (by simp [checks, hc, hs])
  · refine command_done h (clsOf_ring r) (landCmd_ring r) (by unfold landRing cmdGrant; rfl)
      ((checks_ok _ _).mpr ⟨grant_state hc hs hh hb hg ha, decide_eq_true h63⟩) ?_
    rw [← cycle 2 arg.toNat 0 1]
  · refine command_done h (clsOf_ring r) (landCmd_ring r) (by unfold landRing cmdGrant; rfl)
      ((checks_ok _ _).mpr ⟨grant_state hc hs hh hb hg ha, decide_eq_true h63⟩) ?_
    rw [← cycle 3 arg.toNat 1 1]
  · exact command_refused h (clsOf_ring r) (landCmd_ring r) (by unfold landRing cmdGrant; rfl)
      (by simp only [checks, grant_state hc hs hh hb hg ha]; simp [h63])
  · exact command_refused h (clsOf_ring r) (landCmd_ring r) (by unfold landRing cmdGrant; rfl)
      (by simp only [checks, grant_state hc hs hh hb hg ha]; simp [h63])
  · exact command_refused h (clsOf_ring r) (landCmd_ring r) (by unfold landRing; rfl)
      (by rcases hcs with hc | hs <;> simp [checks, *])
  · exact command_refused h (clsOf_ring r) (landCmd_ring r) (by unfold landRing cmdGrant; rfl)
      (by rcases hcs with hc | hs <;> simp [checks, *])
  · exact command_refused h (clsOf_ring r) (landCmd_ring r) (by unfold landRing cmdGrant; rfl)
      (by rcases hcs with hc | hs <;> simp [checks, *])

/-! ## CEP (R348) -/

theorem pair_recorded (page code : Nat) (arg : BitVec 16) (d : Dev) (c : PairId) : (recorded page code arg d).pair c = d.pair c := by
  simp only [Dev.pair, recorded_pairs]

/-- The program RAM of a pair is that of memory alone. -/
theorem pairCrc_recorded (page code : Nat) (arg : BitVec 16) (d : Dev) (n : Nat) :
    (recorded page code arg d).pairCrc n = d.pairCrc n := by
  simp only [Dev.pairCrc, Dev.memBytes, Dev.mem8, recorded_mem]

theorem pair_setReg (d : Dev) (page s o : Nat) (v : Word) (c : PairId) : (d.setReg page s o v).pair c = d.pair c := by
  simp only [Dev.pair, setReg_pairs]

/-- Settles O20. -/
theorem pairCommands : Obligations.PairCommands := by
  unfold Obligations.PairCommands
  intro s p c arg h
  have hstage := stage_ne_zero_of_takes h (isKept_of_lt (by unfold pgCep; omega))
  have cep := landCmd_cep c
  refine ⟨fun hs hp => ?_, fun hsp => ?_, fun hp => ⟨?_, ?_⟩, fun hp => ⟨?_, ?_⟩, fun hs hp => ⟨?_, ?_⟩, fun hsp => ⟨?_, ?_⟩,
    fun hp => ?_, fun hp => ?_⟩
  · refine command_done h (clsOf_cep c) cep (by unfold landCep; rfl) (by rcases hp with hp | hp <;> simp [checks, hs, hp]) ?_
    rw [← pair_recorded (pgCep c) 0x01 arg s.dev c]
    rfl
  · exact command_refused h (clsOf_cep c) cep (by unfold landCep; rfl)
      (by rcases hsp with hs | ⟨h1, h2⟩ <;> simp [checks, *])
  · exact command_done h (clsOf_cep c) cep (by unfold landCep; rfl) (by simp [checks, hp])
  · refine command_done h (clsOf_cep c) cep (by unfold landCep; rfl) (by simp [checks, hp]) ?_
    simp only [resumePair, pairCrc_recorded, pair_setReg, pair_recorded]
  · exact command_refused h (clsOf_cep c) cep (by unfold landCep; rfl) (by simp [checks, hp])
  · exact command_refused h (clsOf_cep c) cep (by unfold landCep; rfl) (by simp [checks, hp])
  · refine command_done h (clsOf_cep c) cep (by unfold landCep; rfl) (by simp [checks, hs, hp]) ?_
    rw [← pair_recorded (pgCep c) 0x04 arg s.dev c]
    rfl
  · exact command_done h (clsOf_cep c) cep (by unfold landCep; rfl) (by simp [checks, hs, hp])
  · exact command_refused h (clsOf_cep c) cep (by unfold landCep; rfl) (by rcases hsp with hs | hp <;> simp [checks, *])
  · exact command_refused h (clsOf_cep c) cep (by unfold landCep; rfl) (by rcases hsp with hs | hp <;> simp [checks, *])
  · refine command_done h (clsOf_cep c) cep (by unfold landCep; rfl) (by simp [checks, hstage, hp]) ?_
    rw [← pair_recorded (pgCep c) 0x06 arg s.dev c]
    rfl
  · exact command_refused h (clsOf_cep c) cep (by unfold landCep; rfl) (by simp [checks, hp])

/-! ## FBU and SGU (R391 to R401) -/

/-- Settles O21. -/
theorem localChannelCommands : Obligations.LocalChannelCommands := by
  refine ⟨fun s p c arg h => ⟨?_, ?_, fun u hu => ?_, fun hu => ?_, fun hl => ?_, fun hl => ?_⟩,
    fun s p arg h => ⟨fun ha => ?_, fun ha => ?_⟩⟩
  · exact command_done h (clsOf_fbu c) (landCmd_fbu c) (by unfold landFbu; rfl) rfl
  · exact command_done h (clsOf_fbu c) (landCmd_fbu c) (by unfold landFbu; rfl) rfl
  · refine command_done h (clsOf_fbu c) (landCmd_fbu c) (by unfold landFbu; rfl) (by simp [checks, hu]; omega) ?_
    have hunit : (⟨arg.toNat % 2, Nat.mod_lt _ (by decide)⟩ : Fin 2) = u := Fin.ext (by show arg.toNat % 2 = u; omega)
    show Dev.wrC c _ FBU.ARMED 0 _ = _
    rw [hunit]
  · exact command_refused h (clsOf_fbu c) (landCmd_fbu c) (by unfold landFbu; rfl) (by simp [checks]; omega)
  · exact command_done h (clsOf_fbu c) (landCmd_fbu c) (by unfold landFbu; rfl) (by simp [checks, hl])
  · exact command_refused h (clsOf_fbu c) (landCmd_fbu c) (by unfold landFbu; rfl) (by simp [checks, hl])
  · exact command_done_now h clsOf_sgu landCmd_sgu (by unfold landSgu; rfl) (by simp [checks, ha])
  · exact command_refused_now h clsOf_sgu landCmd_sgu (by unfold landSgu; rfl) (by simp [checks, Nat.not_lt.mpr ha])

/-! ## SAF (R411, R413, R414) -/

@[simp] theorem wrBit_st (p : Nat) (f : Fld) (i : Nat) (v : Bool) (d : Dev) : (d.wrBit p f i v).st = d.st := wr_st _ _ _ _

/-- A cause of the chain sets its bit alone while the chain holds (R411). -/
theorem safTrip_held {cause i : Nat} {f : Fld} {d : Dev} (h : (d.wrBit pgSAF f i true).on pgSAF SAF.HOLD = true) :
    safTrip cause f i d = d.wrBit pgSAF f i true := by
  simp only [safTrip, h, if_true]

/-- A cause of the released chain is a trip (R411, R412). -/
theorem safTrip_released {cause i : Nat} {f : Fld} {d : Dev} (h : (d.wrBit pgSAF f i true).on pgSAF SAF.HOLD = false) :
    safTrip cause f i d = raise pgSAF 0 cause (tripSto (sendStop ((((((d.wrBit pgSAF f i true).wr pgSAF SAF.HOLD 1).wr pgSAF
      SAF.CAUSE cause).wr64 pgSAF 0 SAF.STRIPLO.off d.st).incW pgSAF SAF.TRIPS)))) := by
  simp only [safTrip, h, Bool.false_eq_true, if_false, wr_st, wrBit_st]

/-- TRIP leaves HOLD as it is read. -/
theorem hold_tripped (arg : BitVec 16) (d : Dev) :
    ((recorded pgSAF 0x01 arg d).wrBit pgSAF SAF.TRIPC 0 true).on pgSAF SAF.HOLD = d.on pgSAF SAF.HOLD := by
  unfold Dev.on Dev.wrBit
  rw [rd_wr_off _ _ _ _ _ _ (by decide), rd_recorded _ _ _ _ _ _ (by decide)]

/-- Settles O22. -/
theorem safeChainCommands : Obligations.SafeChainCommands := by
  refine ⟨fun s p arg h => ⟨fun hs hh => ?_, fun hs hh => ?_, fun hs => ?_⟩, fun s p arg h => ⟨fun hs => ?_, fun hs => ?_⟩⟩
  · exact command_done h clsOf_saf landCmd_saf (by unfold landSaf; rfl) (by simp [checks, hs])
      (safTrip_held ((hold_tripped arg s.dev).trans hh))
  · exact command_done h clsOf_saf landCmd_saf (by unfold landSaf; rfl) (by simp [checks, hs])
      (by rw [safTrip_released ((hold_tripped arg s.dev).trans hh), recorded_st])
  · exact command_refused h clsOf_saf landCmd_saf (by unfold landSaf; rfl) (by simp [checks, hs])
  · have hland : landCmd pgSAF 0x02 arg.toNat s.dev =
        (waiting pgSAF 0x02 arg s.dev).safeMap fun x => { x with release := some s.dev.evalCycle } := by
      rw [landCmd_saf, landSaf, if_neg (by simp [h.1.2, hs]), deferCmd_waits _ _ _ _ h.1.2]
      rfl
    rw [← hland]
    exact act_pageCommand_now h clsOf_saf
  · refine command_refused_now h clsOf_saf landCmd_saf (check := fun _ => rSTATE) (eff := id) ?_ rfl
    rw [landSaf, if_pos (Or.inr hs)]

end Sys2Proof.Machine
end

section
/-! PROOFS. The commands of the measurement cores, the capture units and the head pair (spec/11, spec/12, spec/13). -/
namespace Sys2Proof.Machine

/-! ## What a recorded command leaves as it is read -/

theorem rdS_recorded (page code : Nat) (arg : BitVec 16) (d : Dev) (p s : Nat) (f : Fld)
    (h : HDR.PCST_CODE.off % 4096 ≠ f.off % 4096) : (recorded page code arg d).rdS p s f = d.rdS p s f := by
  unfold Dev.rdS
  rw [recorded, reg_recordCmd _ _ _ _ _ _ _ _ _ h]

theorem cstate_recorded (page code : Nat) (arg : BitVec 16) (d : Dev) (c : CoreId) :
    (recorded page code arg d).cstate c = d.cstate c := rd_recorded _ _ _ _ _ _ (by decide)

theorem core_recorded (page code : Nat) (arg : BitVec 16) (d : Dev) (c : CoreId) :
    (recorded page code arg d).core c = d.core c := by
  simp only [Dev.core, recorded_mfe]

theorem validating_recorded (page code : Nat) (arg : BitVec 16) (d : Dev) (c : CoreId) :
    (recorded page code arg d).validating c = d.validating c := by
  unfold Dev.validating
  rw [on_recorded _ _ _ _ _ _ (by decide), rd_recorded _ _ _ _ _ _ (by decide), recorded_mfe]

theorem contRuns_recorded (page code : Nat) (arg : BitVec 16) (d : Dev) (c : CoreId) :
    (recorded page code arg d).contRuns c = d.contRuns c := by
  unfold Dev.contRuns Dev.mfNow Dev.inScan Dev.mfScan Dev.mf
  rw [validating_recorded, core_recorded, rd_recorded _ _ _ _ _ _ (by decide), rd_recorded _ _ _ _ _ _ (by decide),
    on_recorded _ _ _ _ _ _ (by decide), rdS_recorded _ _ _ _ _ _ _ (by decide)]

theorem capUnit_recorded (page code : Nat) (arg : BitVec 16) (d : Dev) (u : CapId) :
    (recorded page code arg d).capUnit u = d.capUnit u := by
  simp only [Dev.capUnit, recorded_cap]

/-- PEND is read of no validation. -/
theorem validating_wr_pend (d : Dev) (c : CoreId) (v : Nat) :
    (d.wr (pgMfc c) MFC.PEND v).validating c = d.validating c := by
  unfold Dev.validating Dev.on
  rw [rd_wr_off _ _ _ _ _ _ (by decide), rd_wr_beside _ _ _ _ _ (by decide) (by decide) (by decide), wr_mfe]

/-- A validation shows SCAN (R551). -/
theorem cstate_of_validating {d : Dev} {c : CoreId} (h : d.validating c = true) : d.cstate c = 4 := by
  simp only [Dev.validating, Bool.and_eq_true, beq_iff_eq] at h
  exact h.1.1.2

theorem not_validating {d : Dev} {c : CoreId} (h : d.cstate c ≠ 4) : d.validating c = false := by
  by_contra hv
  exact h (cstate_of_validating (by simpa using hv))

/-! ## CONV and ABORT (R431, R451) -/

/-- What ABORT does, by the state of the core at its record. -/
def abortEffect (c : CoreId) (d : Dev) : Dev :=
  let s := d.cstate c
  let d := d.mfPut c MFC.PEND 0
  if d.validating c then d.mapCore c fun x => { x with due := [] }
  else if s = 5 then d.mapCore c fun x => { x with aborted := true }
  else if s = 4 ∨ s = 3 then
    let keep := s == 4 && d.chanScan c MFC.EXCC == 1
    coreFree c d.st (d.mapCore c fun x => { x with due := [], exc := if keep then x.exc else 0 })
  else d

theorem cmdMfcAbort_eq (c : CoreId) (arg : Nat) (d : Dev) : cmdMfcAbort c arg d = takeCmd (pgMfc c) 0x02 arg
    (fun d => checks (decide (3 ≤ d.cstate c) || d.on (pgMfc c) MFC.PEND) true) (abortEffect c) d := rfl

theorem validating_aborted (page code : Nat) (arg : BitVec 16) (d : Dev) (c : CoreId) :
    ((recorded page code arg d).mfPut c MFC.PEND 0).validating c = d.validating c :=
  (validating_wr_pend _ c 0).trans (validating_recorded page code arg d c)

/-- ABORT that is admitted: its effect on the device with PEND cleared. -/
theorem exec_mfcAbort {s : State} {p : Path} {c : CoreId} {arg : BitVec 16} {d : Dev} (h : s.dev.takes p (pgMfc c))
    (hok : 3 ≤ s.dev.cstate c ∨ s.dev.on (pgMfc c) MFC.PEND = true)
    (heff : abortEffect c (recorded (pgMfc c) 0x02 arg s.dev) = d) :
    exec (.mfcAbort p c arg) s = .next (s.withDev (answered p d)) :=
  command_done h (clsOf_mfc c) (landCmd_mfc c) (cmdMfcAbort_eq c arg.toNat s.dev)
    (by rcases hok with hok | hok <;> simp [checks, hok]) heff

/-- Settles the clauses of O23 about CONV and ABORT. -/
theorem measurementCommands (s : State) (p : Path) (c : CoreId) (arg : BitVec 16) (h : s.dev.takes p (pgMfc c))
    (hs : s.dev.stage ≠ 0) :
    (s.dev.cstate c ≠ 0 → exec (.conv p c arg) s = .next (s.withDev (answered p
      (if s.dev.contRuns c then recorded (pgMfc c) 0x01 arg s.dev
       else mfcTake c false s.dev.st (recorded (pgMfc c) 0x01 arg s.dev))))) ∧
    (s.dev.cstate c = 0 → exec (.conv p c arg) s =
      .next (s.withDev (answered p (refusedWith rSTATE (pgMfc c) 0x01 arg s.dev)))) ∧
    (∀ d, d = (recorded (pgMfc c) 0x02 arg s.dev).wr (pgMfc c) MFC.PEND 0 →
      (s.dev.cstate c < 3 → s.dev.on (pgMfc c) MFC.PEND = true → exec (.mfcAbort p c arg) s = .next (s.withDev (answered p d))) ∧
      (s.dev.cstate c = 3 → exec (.mfcAbort p c arg) s = .next (s.withDev (answered p
        (coreFree c d.st (d.mapCore c fun x => { x with due := [], exc := 0 }))))) ∧
      (s.dev.cstate c = 4 → s.dev.validating c = false → exec (.mfcAbort p c arg) s = .next (s.withDev (answered p
        (coreFree c d.st (d.mapCore c fun x =>
          { x with due := [], exc := if d.chanScan c MFC.EXCC = 1 then x.exc else 0 }))))) ∧
      (s.dev.validating c = true → exec (.mfcAbort p c arg) s = .next (s.withDev (answered p
        (d.mapCore c fun x => { x with due := [] })))) ∧
      (s.dev.cstate c = 5 → exec (.mfcAbort p c arg) s = .next (s.withDev (answered p
        (d.mapCore c fun x => { x with aborted := true }))))) ∧
    (s.dev.cstate c < 3 → s.dev.on (pgMfc c) MFC.PEND = false → exec (.mfcAbort p c arg) s =
      .next (s.withDev (answered p (refusedWith rSTATE (pgMfc c) 0x02 arg s.dev)))) := by
  have hval := validating_aborted (pgMfc c) 0x02 arg s.dev c
  have hcs := cstate_recorded (pgMfc c) 0x02 arg s.dev c
  refine ⟨fun hc => ?_, fun hc => ?_, ?_, fun hc hp => ?_⟩
  · exact command_done h (clsOf_mfc c) (landCmd_mfc c) (by unfold landMfc; rfl) (by simp [checks, hs, hc])
      (by rw [contRuns_recorded, recorded_st])
  · exact command_refused h (clsOf_mfc c) (landCmd_mfc c) (by unfold landMfc; rfl) (by simp [checks, hc])
  · rintro d rfl
    refine ⟨fun hc hp => ?_, fun hc => ?_, fun hc hv => ?_, fun hv => ?_, fun hc => ?_⟩
    · refine exec_mfcAbort h (Or.inr hp) ?_
      rw [abortEffect, hval, hcs, not_validating (by omega), if_neg (by decide), if_neg (by omega), if_neg (by omega)]
      rfl
    · refine exec_mfcAbort h (Or.inl (by omega)) ?_
      rw [abortEffect, hval, hcs, not_validating (by omega), if_neg (by decide), if_neg (by omega), if_pos (Or.inr hc), hc]
      rfl
    · refine exec_mfcAbort h (Or.inl (by omega)) ?_
      rw [abortEffect, hval, hcs, hv, if_neg (by decide), if_neg (by omega), if_pos (Or.inl hc), hc]
      simp only [beq_self_eq_true, Bool.true_and, beq_iff_eq]
      rfl
    · refine exec_mfcAbort h (Or.inl (by have := cstate_of_validating hv; omega)) ?_
      rw [abortEffect, hval, hv, if_pos rfl]
      rfl
    · refine exec_mfcAbort h (Or.inl (by omega)) ?_
      rw [abortEffect, hval, hcs, not_validating (by omega), if_neg (by decide), if_pos hc]
      rfl
  · refine command_refused h (clsOf_mfc c) (landCmd_mfc c) (by unfold landMfc; rfl) ?_
    simp [checks, Nat.not_le.mpr hc, hp]

/-! ## ARM, STOP, FORCE and RESET of a capture unit (R464 to R485) -/

/-- Settles O23. -/
theorem measurementAndCaptureCommands : Obligations.MeasurementAndCaptureCommands := by
  refine ⟨measurementCommands, fun s p u arg h => ⟨fun hu => ⟨?_, fun hp hf => ?_, fun hp => ?_, ?_, fun hn => ?_, ?_⟩, ?_,
    fun hu => ?_, fun hu => ?_⟩⟩
  · rintro d rfl hp hf
    exact command_done h (clsOf_capu u) (landCmd_capu u) (by unfold landCapu; rfl)
      (by rcases hu with hu | hu <;> simp [hu, hp, hf])
  · exact command_refused h (clsOf_capu u) (landCmd_capu u) (by unfold landCapu; rfl)
      (by rcases hu with hu | hu <;> simp [hu, hp, hf])
  · exact command_refused h (clsOf_capu u) (landCmd_capu u) (by unfold landCapu; rfl)
      (by rcases hu with hu | hu <;> simp [hu, hp])
  · rintro d rfl hn
    refine command_done h (clsOf_capu u) (landCmd_capu u) (by unfold landCapu; rfl)
      (by rcases hu with hu | hu <;> simp [checks, hu, hn]) ?_
    rw [← rd_recorded (pgCapu u) 0x04 arg s.dev (pgCapu u) CAPU.WCNT (by decide), ← capUnit_recorded (pgCapu u) 0x04 arg s.dev u]
    rfl
  · exact command_refused h (clsOf_capu u) (landCmd_capu u) (by unfold landCapu; rfl) (by simp [checks, hn])
  · exact command_refused h (clsOf_capu u) (landCmd_capu u) (by unfold landCapu; rfl)
      (by rcases hu with hu | hu <;> simp [checks, hu])
  · rintro d rfl
    have hst := rd_recorded (pgCapu u) 0x02 arg s.dev (pgCapu u) CAPU.USTATE (by decide)
    have hcu := capUnit_recorded (pgCapu u) 0x02 arg s.dev u
    refine ⟨fun hu => ?_, fun hu => ?_, fun hu hr => ?_⟩
    · refine command_done h (clsOf_capu u) (landCmd_capu u) (by unfold landCapu; rfl)
        (by rcases hu with hu | ⟨hu, -⟩ <;> simp [checks, hu]) ?_
      have h2 : s.dev.rd (pgCapu u) CAPU.USTATE ≠ 2 := by rcases hu with hu | ⟨hu, -⟩ <;> omega
      simp only [hst, hcu, h2, if_false]
      rw [if_pos (hu.imp_right And.right)]
    · refine command_done h (clsOf_capu u) (landCmd_capu u) (by unfold landCapu; rfl) (by simp [checks, hu]) ?_
      simp only [hst, hcu, hu, if_true]
    · refine command_done h (clsOf_capu u) (landCmd_capu u) (by unfold landCapu; rfl) (by simp [checks, hu]) ?_
      simp [hst, hcu, hu, hr]
  · exact command_done h (clsOf_capu u) (landCmd_capu u) (by unfold landCapu; rfl) (by simp [checks, hu])
  · exact command_refused h (clsOf_capu u) (landCmd_capu u) (by unfold landCapu; rfl) (by simp [checks, hu])

end Sys2Proof.Machine
end

section
/-! PROOFS. The commands of RED, and commands that wait, are lost, are held as requests or enter the journal (spec/13, spec/15). -/
namespace Sys2Proof.Machine

/-- What contradicts a request is read of no PCST. -/
theorem contradicted_recorded (page code : Nat) (arg : BitVec 16) (d : Dev) (x : Nat) :
    (recorded page code arg d).contradicted x = d.contradicted x := by
  unfold Dev.contradicted Dev.nodesN
  rw [recorded_red, rd_recorded _ _ _ _ _ _ (by decide), rd_recorded _ _ _ _ _ _ (by decide)]

/-- Settles O24. -/
theorem headPairCommands : Obligations.HeadPairCommands := by
  unfold Obligations.HeadPairCommands
  intro s p arg h
  refine ⟨fun hr => ?_, fun hc hr hm => ?_, fun hr hc => ?_, fun hj => ?_, fun hj => ?_, fun hok hc => ?_, fun hok hc => ?_,
    fun hok => ?_, fun hok hc => ?_, fun hok => ?_, ?_⟩
  · exact command_done h clsOf_red landCmd_red (by unfold landRed; rfl) (by simp [checks, hr])
      (by rw [role_recorded, if_pos hr])
  · have hall : (s.dev.activeAxes.all fun (n : Fin 256) => s.dev.axState n == axMOORED) = true :=
      List.all_eq_true.mpr fun n hn => by simp [hm n hn]
    exact command_done h clsOf_red landCmd_red (by unfold landRed; rfl) (by simp only [hc, hall]; simp [checks])
      (by rw [role_recorded, if_neg hr])
  · exact command_refused h clsOf_red landCmd_red (by unfold landRed; rfl) (by simp [checks, hr, hc])
  · exact command_done h clsOf_red landCmd_red (by unfold landRed; rfl) (by simp [checks, hj])
      (by rw [recorded_st])
  · exact command_refused h clsOf_red landCmd_red (by unfold landRed; rfl) (by simp [checks, hj])
  · exact command_done h clsOf_red landCmd_red (by unfold landRed cmdRequest; rfl) (by simp [checks, hok])
      (by simp only [contradicted_recorded, hc, Bool.false_eq_true, if_false])
  · exact command_done h clsOf_red landCmd_red (by unfold landRed cmdRequest; rfl) (by simp [checks, hok])
      (by simp only [contradicted_recorded, hc, if_true])
  · exact command_refused h clsOf_red landCmd_red (by unfold landRed cmdRequest; rfl) (by simp [checks, hok])
  · exact command_done h clsOf_red landCmd_red (by unfold landRed cmdRequest; rfl) (by simp [checks, hok])
      (by simp only [contradicted_recorded, hc, Bool.false_eq_true, if_false])
  · exact command_refused h clsOf_red landCmd_red (by unfold landRed cmdRequest; rfl) (by simp [checks, hok])
  · exact command_done h clsOf_red landCmd_red (by unfold landRed; rfl) rfl

/-! ## Commands that wait for cycle k + 2 (R212, R249, R268, R380) -/

/-- A page that has no command waiting keeps this one. -/
theorem noteCmd_queued {d : Dev} {page : Nat} (code : Nat) (arg : BitVec 16) (desc : MoveDesc) (hb : d.on page HDR.BUSY = false) :
    noteCmd page code arg.toNat desc d = queued page code arg desc d := by
  have hcyc : (recordCmd page code arg.toNat rOK true d).cyc = d.cyc := by
    show Dev.rd64 _ _ _ _ = Dev.rd64 _ _ _ _
    unfold Dev.rd64
    rw [reg_recordCmd _ _ _ _ _ _ _ _ _ (by decide), reg_recordCmd _ _ _ _ _ _ _ _ _ (by decide)]
  unfold noteCmd queued waiting Dev.evalCycle
  rw [hb, deferCmd_waits _ _ _ _ hb]
  simp only [Bool.false_eq_true, if_false, hcyc]
  rfl

/-- A command of a journalled page other than AXP and SGU, from PCMD to its queue. -/
theorem command_queued {s : State} {p : Path} {page code : Nat} {c : Cls} {arg : BitVec 16} {desc : MoveDesc}
    (h : s.dev.takesJ p page) (hc : clsOf page = some c)
    (hland : landCmd page code arg.toNat s.dev = noteCmd page code arg.toNat desc s.dev) (hcode : code < 256 := by decide) :
    s.act (pageCommand p page code arg) = .next (s.withDev (answered p (queued page code arg desc s.dev))) := by
  rw [act_pageCommand_now h hc hcode, hland, noteCmd_queued _ _ _ h.1.2]

/-- A command of an AXP page but SWAP. -/
theorem axp_queued {s : State} {p : Path} {n : AxisId} {code : Nat} {arg : BitVec 16} (h : s.dev.takesJ p (pgAxp n))
    (hcode : code < 256 := by decide) (hne : code ≠ 0x05 := by decide) :
    s.act (pageCommand p (pgAxp n) code arg) = .next (s.withDev (answered p (queued (pgAxp n) code arg noDesc s.dev))) :=
  command_queued h (clsOf_axp n) (by rw [landCmd_axp, landAxpCmd, if_neg fun e => hne e.1]) hcode

/-- Settles O25. -/
theorem motionCommandsWait : Obligations.MotionCommandsWait := by
  refine fun s p arg => ⟨fun n h => ⟨axp_queued h, axp_queued h, axp_queued h, axp_queued h, axp_queued h, axp_queued h,
    axp_queued h, ?_⟩, fun h => ?_, fun h => ?_, fun g h => ?_, fun h => ?_⟩
  · have hland : landCmd (pgAxp n) 0x05 arg.toNat s.dev = (queued (pgAxp n) 0x05 arg noDesc s.dev).wr (pgAxp n) AXP.SWPEND 1 := by
      rw [landCmd_axp, landAxpCmd, noteCmd_queued _ _ _ h.1.2, if_pos ⟨rfl, by simp [h.1.2]⟩]
    rw [← hland]
    exact act_pageCommand_now h (clsOf_axp n)
  · refine ⟨?_, ?_, ?_, ?_, ?_, ?_⟩ <;> exact command_queued h clsOf_sea (landCmd_sea _ _ _)
  · refine ⟨?_, ?_, ?_, ?_, ?_⟩ <;> exact command_queued h clsOf_prf (landCmd_prf _ _ _)
  · refine ⟨?_, ?_, ?_, ?_, ?_⟩ <;> exact command_queued h (clsOf_pgrp g) (landCmd_pgrp g _ _ _)
  · refine ⟨?_, ?_, ?_⟩ <;> exact command_queued h clsOf_tsu (landCmd_tsu _ _ _)

/-! ## A page with a command in work (R571) -/

theorem noteCmd_busy {d : Dev} {page : Nat} (code arg : Nat) (desc : MoveDesc) (hb : d.on page HDR.BUSY = true) :
    noteCmd page code arg desc d = d.wr page HDR.LOST 1 := by
  rw [noteCmd, if_pos hb]

theorem landStg_busy {d : Dev} (code arg : Nat) (hb : d.on pgSTG HDR.BUSY = true) :
    landStg code arg d = d.wr pgSTG HDR.LOST 1 := by
  unfold landStg
  split
  · rw [cmdGoFull, if_pos (Or.inl hb), takeCmd_busy _ _ _ _ _ _ hb]
  all_goals exact takeCmd_busy _ _ _ _ _ _ hb

theorem landSaf_busy {d : Dev} (code arg : Nat) (hb : d.on pgSAF HDR.BUSY = true) :
    landSaf code arg d = d.wr pgSAF HDR.LOST 1 := by
  unfold landSaf
  split
  case h_2 => rw [if_pos (Or.inl hb), takeCmd_busy _ _ _ _ _ _ hb]
  all_goals exact takeCmd_busy _ _ _ _ _ _ hb

theorem landOtp_busy {d : Dev} (code arg : Nat) (hb : d.on pgOTP HDR.BUSY = true) :
    landOtp code arg d = d.wr pgOTP HDR.LOST 1 := by
  unfold landOtp
  rw [if_neg (by simp [hb]), takeCmd_busy _ _ _ _ _ _ hb]

theorem landAxpCmd_busy {d : Dev} (n : AxisId) (code arg : Nat) (hb : d.on (pgAxp n) HDR.BUSY = true) :
    landAxpCmd n code arg d = d.wr (pgAxp n) HDR.LOST 1 := by
  unfold landAxpCmd
  rw [noteCmd_busy _ _ _ hb, if_neg (by simp [hb])]

/-- A page number of a class is that of one of its units. -/
theorem page_of_clsOf {page : Nat} {c : Cls} (h : clsOf page = some c) : c.base ≤ page ∧ page < c.base + c.count := by
  have h1 := List.find?_some h
  simpa only [Bool.and_eq_true, decide_eq_true_eq] using h1

theorem page_single {page : Nat} {c : Cls} (h : clsOf page = some c) (h1 : c.count = 1 := by rfl) : page = c.base := by
  have := page_of_clsOf h
  omega

theorem unit_of_page {page b m : Nat} (h : b ≤ page ∧ page < b + m) : ∃ x : Fin m, b + x.val = page :=
  ⟨⟨page - b, by omega⟩, by show b + (page - b) = page; omega⟩

/-- Every page that has a command in work loses the next (R571). -/
theorem landCmd_busy {d : Dev} {page : Nat} {c : Cls} (code arg : Nat) (hc : clsOf page = some c)
    (hb : d.on page HDR.BUSY = true) : landCmd page code arg d = d.wr page HDR.LOST 1 := by
  have hp := page_of_clsOf hc
  cases c
  case stg => obtain rfl : page = pgSTG := page_single hc; exact landStg_busy code arg hb
  case otp => obtain rfl : page = pgOTP := page_single hc; exact landOtp_busy code arg hb
  case saf => obtain rfl : page = pgSAF := page_single hc; exact landSaf_busy code arg hb
  case tsu => obtain rfl : page = pgTSU := page_single hc; exact noteCmd_busy code arg _ hb
  case sea => obtain rfl : page = pgSEA := page_single hc; exact noteCmd_busy code arg _ hb
  case prf => obtain rfl : page = pgPRF := page_single hc; exact noteCmd_busy code arg _ hb
  case pgrp =>
    obtain ⟨x, hx⟩ := unit_of_page hp
    obtain rfl : pgPgrp x = page := hx
    exact (landCmd_pgrp x _ _ _).trans (noteCmd_busy code arg _ hb)
  case axp =>
    obtain ⟨x, hx⟩ := unit_of_page hp
    obtain rfl : pgAxp x = page := hx
    exact (landCmd_axp x _ _ _).trans (landAxpCmd_busy x code arg hb)
  case ring =>
    obtain ⟨x, hx⟩ := unit_of_page hp
    obtain rfl : pgRing x = page := hx
    refine (landCmd_ring x _ _ _).trans ?_
    unfold landRing cmdGrant
    split <;> exact takeCmd_busy _ _ _ _ _ _ hb
  case cep =>
    obtain ⟨x, hx⟩ := unit_of_page hp
    obtain rfl : pgCep x = page := hx
    refine (landCmd_cep x _ _ _).trans ?_
    unfold landCep
    split <;> exact takeCmd_busy _ _ _ _ _ _ hb
  case mfc =>
    obtain ⟨x, hx⟩ := unit_of_page hp
    obtain rfl : pgMfc x = page := hx
    refine (landCmd_mfc x _ _ _).trans ?_
    unfold landMfc
    split <;> exact takeCmd_busy _ _ _ _ _ _ hb
  case capu =>
    obtain ⟨x, hx⟩ := unit_of_page hp
    obtain rfl : pgCapu x = page := hx
    refine (landCmd_capu x _ _ _).trans ?_
    unfold landCapu
    split <;> exact takeCmd_busy _ _ _ _ _ _ hb
  case fbu =>
    obtain ⟨x, hx⟩ := unit_of_page hp
    obtain rfl : pgFbu x = page := hx
    refine (landCmd_fbu x _ _ _).trans ?_
    unfold landFbu
    split <;> exact takeCmd_busy _ _ _ _ _ _ hb
  case sgc =>
    obtain ⟨x, hx⟩ := unit_of_page hp
    obtain rfl : pgSgc x = page := hx
    refine (landCmd_sgc x _ _ _).trans ?_
    unfold landSgc
    split <;> exact takeCmd_busy _ _ _ _ _ _ hb
  case glb =>
    obtain rfl : page = pgGLB := page_single hc
    rw [landCmd_glb]
    unfold landGlb
    split <;> exact takeCmd_busy _ _ _ _ _ _ hb
  case tim =>
    obtain rfl : page = pgTIM := page_single hc
    rw [landCmd_tim]
    unfold landTim
    split <;> exact takeCmd_busy _ _ _ _ _ _ hb
  case evt =>
    obtain rfl : page = pgEVT := page_single hc
    rw [landCmd_evt]
    unfold landEvt
    split <;> exact takeCmd_busy _ _ _ _ _ _ hb
  case hif =>
    obtain rfl : page = pgHIF := page_single hc
    rw [landCmd_hif]
    unfold landHif
    split <;> exact takeCmd_busy _ _ _ _ _ _ hb
  case spm =>
    obtain rfl : page = pgSPM := page_single hc
    rw [landCmd_spm]
    unfold landSpm
    split <;> exact takeCmd_busy _ _ _ _ _ _ hb
  case cal =>
    obtain rfl : page = pgCAL := page_single hc
    rw [landCmd_cal]
    unfold landCal
    split <;> exact takeCmd_busy _ _ _ _ _ _ hb
  case red =>
    obtain rfl : page = pgRED := page_single hc
    rw [landCmd_red]
    unfold landRed
    split <;> exact takeCmd_busy _ _ _ _ _ _ hb
  case dmc =>
    obtain rfl : page = pgDMC := page_single hc
    rw [landCmd_dmc]
    unfold landDmc
    split <;> exact takeCmd_busy _ _ _ _ _ _ hb
  case sys =>
    obtain rfl : page = pgSYS := page_single hc
    rw [landCmd_sys]
    unfold landSys
    split <;> exact takeCmd_busy _ _ _ _ _ _ hb
  case mfe =>
    obtain rfl : page = pgMFE := page_single hc
    rw [landCmd_mfe]
    unfold landMfe
    split <;> exact takeCmd_busy _ _ _ _ _ _ hb
  case cap =>
    obtain rfl : page = pgCAP := page_single hc
    rw [landCmd_cap]
    unfold landCap
    split <;> exact takeCmd_busy _ _ _ _ _ _ hb
  case sgu =>
    obtain rfl : page = pgSGU := page_single hc
    rw [landCmd_sgu]
    unfold landSgu
    split <;> exact takeCmd_busy _ _ _ _ _ _ hb

/-- Settles O26. -/
theorem busyPageLosesCommand : Obligations.BusyPageLosesCommand := by
  intro d p page code arg hr hb hl hcode
  obtain ⟨c, hc⟩ : ∃ c, clsOf page = some c := by
    have ha := hr.2.1
    unfold Dev.answers at ha
    split at ha
    · cases ha
    · exact ⟨_, ‹_›⟩
  rw [pageCommand_lands d p page code c arg hr hc hcode fun _ => hl, landCmd_busy code _ hc hb]

/-! ## Commands of a journalled page on a STANDBY and while the journal runs (R494, R496, R573) -/

/-- The write of PCMD that a command is. -/
def pcmdWrite (page code : Nat) (arg : BitVec 16) : HostWrite :=
  ⟨page, 0, HDR.PCMD_CODE.off, BitVec.ofNat 32 (code + arg.toNat * 2 ^ 16), none⟩

theorem pcmdWrite_value (page code : Nat) (arg : BitVec 16) (hcode : code < 256) :
    (pcmdWrite page code arg).value.toNat = code + arg.toNat * 2 ^ 16 := by
  have := arg.isLt
  simp only [pcmdWrite, BitVec.toNat_ofNat]
  omega

/-- A command of a page that is reached is submitted as a write of PCMD. -/
theorem pageCommand_submitted {d d' : Dev} {p : Path} {page code : Nat} {c : Cls} {arg : BitVec 16} (hr : d.reaches p page)
    (hc : clsOf page = some c) (hs : submit (pcmdWrite page code arg) d = (.done, d')) :
    pageCommand p page code arg d = answered p d' := by
  refine writeReg_delivered d _ p page 0 HDR.PCMD_CODE.off _ (clsOf_lt page c hc) (by decide) (by decide) (by decide) hr
    (writeCause_pcmd d p page _ _ c hr hc) (Or.inr (by rw [pairHalf_pcmd]; decide)) ?_
  have hk : HDR.PCMD_CODE.off ≠ STG.KEY.off := by decide
  have hq : HDR.PCMD_CODE.off ≠ TIM.ACQ.off := by decide
  unfold deliver
  simp only [hk, hq, and_false, if_false]
  exact hs

theorem pcmdWrite_journalled {page code : Nat} {arg : BitVec 16} {c : Cls} (hc : clsOf page = some c)
    (hj : c = .axp ∨ c = .prf ∨ c = .pgrp ∨ c = .sea ∨ c = .tsu ∨ c = .sgu) :
    (pcmdWrite page code arg).journalled = true := by
  unfold HostWrite.journalled pcmdWrite
  rcases hj with rfl | rfl | rfl | rfl | rfl | rfl <;> simp [hc]

/-- DISAGREE stands in another register than BUSY. -/
theorem on_busy_disagree (w : HostWrite) (d : Dev) (p : Nat) : (disagree w d).on p HDR.BUSY = d.on p HDR.BUSY := by
  have other (page s : Nat) (f : Fld) (h : f.off % 4096 ≠ HDR.BUSY.off % 4096) :
      (d.wrS page s f 1).on p HDR.BUSY = d.on p HDR.BUSY := by
    unfold Dev.on Dev.rd Dev.wrS
    rw [rdS_setReg_off _ _ _ _ _ _ _ _ h]
  unfold disagree
  split
  case h_9 => rfl
  all_goals exact other _ _ _ (by decide)

/-- Settles O27. -/
theorem standbyHoldsRequests : Obligations.StandbyHoldsRequests := by
  intro d p page code arg c hr hrole hcode hc hj hb
  refine pageCommand_submitted hr hc ?_
  have hsel : (pcmdWrite page code arg).selectsCompare = false := by
    simp [HostWrite.selectsCompare, pcmdWrite, HDR.PCMD_CODE, SGU.RSEL]
  have hv := pcmdWrite_value page code arg hcode
  have hreq : requestOnly (pcmdWrite page code arg) d = refusedWith rSTATE page code arg (disagree (pcmdWrite page code arg) d) := by
    unfold requestOnly refusedWith
    rw [if_pos (by rfl), hv, if_neg (by rw [on_busy_disagree]; simp [pcmdWrite, hb])]
    show recordCmd page _ _ _ _ _ = _
    congr 1 <;> omega
  simp only [submit, pcmdWrite_journalled hc hj, hrole, hsel, hreq, Bool.not_true, Bool.false_eq_true, if_false, if_true]
  rfl

/-- Settles O28. -/
theorem journalTakesCommands : Obligations.JournalTakesCommands := by
  intro d p page code arg c hr hrole hrun hheld hroom hcode hc hj
  refine pageCommand_submitted hr hc ?_
  simp only [submit, pcmdWrite_journalled hc hj, hrole, hrun, hheld, hroom, and_self, Bool.not_true, Bool.false_eq_true, if_false,
    if_true]
  rfl

end Sys2Proof.Machine
end

section
/-! PROOFS. Register writes that land: the four views, registers without more to them, and 64-bit pairs (spec/15). -/
namespace Sys2Proof.Machine

/-- A write of one whole word that no bus error stops and no journal takes up lands at its register (R565, R567). -/
theorem act_writeReg_lands {s : State} {p : Path} {page view off : Nat} {v : Word} (hr : s.dev.reaches p page)
    (hp : page < 1024) (hv : view < 4) (ho : off < 0x1000) (h4 : off % 4 = 0)
    (hf : s.dev.writeCause p page (s.dev.selAhead page off) view off v.toNat = none)
    (h0 : view ≠ 0 ∨ pairHalf page off ≠ 1) (hk : ¬ (page = pgSTG ∧ off = STG.KEY.off))
    (hq : ¬ (page = pgTIM ∧ off = TIM.ACQ.off))
    (hj : HostWrite.journalled ⟨page, view, off, v, none⟩ = true → s.dev.landsNow) :
    s.act (writeReg p page view off v) = .next (s.withDev (answered p (landWrite ⟨page, view, off, v, none⟩ s.dev))) := by
  rw [act_withDev, writeReg_delivered _ _ _ _ _ _ _ hp hv ho h4 hr hf h0]
  unfold deliver
  rw [if_neg hk, if_neg hq, submit_lands _ _ hj]

/-- The register an offset of BAR0 names, through another view of it. -/
theorem aliasWrite_addrOf (p : Path) {view page off : Nat} (v : Word) (hp : page < 1024) (ho : off < 0x1000) :
    aliasWrite p view (BitVec.ofNat 24 (addrOf page 0 off)) v = writeReg p page view off v := by
  have ha := addrOf_lt page 0 off hp (by decide) ho
  unfold aliasWrite
  rw [BitVec.toNat_ofNat, Nat.mod_eq_of_lt ha, pageOfAddr_addrOf _ _ _ (by decide) ho, offOfAddr_addrOf _ _ _ ho]

/-- A write request of one word is a write of its register. -/
theorem writeAccess_addrOf (p : Path) {page off : Nat} (v : Word) (hp : page < 1024) (ho : off < 0x1000) :
    writeAccess ⟨p, (BitVec.ofNat 24 (addrOf page 0 off)).toNat, 1, 0xF, v.setWidth 64⟩ = writeReg p page 0 off v := by
  rw [BitVec.toNat_ofNat, Nat.mod_eq_of_lt (addrOf_lt page 0 off hp (by decide) ho)]
  rfl

/-- Settles O31. -/
theorem registerWritesLand : Obligations.RegisterWritesLand := by
  intro s p page off v hr hp ho h4 _ hl h1 hk hq
  refine ⟨fun hf => ⟨?_, ?_⟩, fun hf => ?_, fun hf => ?_, fun hf => ?_⟩
  · exact act_writeReg_lands hr hp (by decide) ho h4 hf (Or.inr h1) hk hq fun _ => hl
  · show s.act (writeAccess _) = _
    rw [writeAccess_addrOf p v hp ho]
    exact act_writeReg_lands hr hp (by decide) ho h4 hf (Or.inr h1) hk hq fun _ => hl
  all_goals
    show s.act (aliasWrite _ _ _ _) = _
    rw [aliasWrite_addrOf p v hp ho]
    exact act_writeReg_lands hr hp (by decide) ho h4 hf (Or.inl (by decide)) hk hq fun _ => hl

/-- What a landed write of one register from 0x40 on leaves, where it is no window on a pair and no PIXCTL. -/
theorem landWrite_one {d : Dev} {page view off : Nat} {v : Word} (ho : 0x40 ≤ off) (hq : ¬ (page = pgTIM ∧ off = TIM.ACQ.off))
    (hr : d.refusedNow ⟨page, view, off, v, none⟩ = false) (hc : ¬ (clsOf page = some .cep ∧ CEP.CWDATLO.off ≤ off)) :
    landWrite ⟨page, view, off, v, none⟩ d = written page (d.selOf page off) off (d.reg page (d.selOf page off) off).toNat
      ((putReg page (d.selOf page off) view off v.toNat d).reg page (d.selOf page off) off).toNat
      (putReg page (d.selOf page off) view off v.toNat d) := by
  have hpcmd : off ≠ HDR.PCMD_CODE.off := by unfold HDR.PCMD_CODE; simp; omega
  have hen : off ≠ HDR.EN.off := by unfold HDR.EN; simp; omega
  unfold landWrite
  simp only [hpcmd, hq, hr, hc, hen, Nat.not_lt.mpr ho, HostWrite.words, List.foldl_cons, List.foldl_nil, List.map_cons,
    List.map_nil, Bool.false_eq_true, if_false]

/-- A register of a page whose writes have no more to them. -/
theorem putReg_row {d : Dev} {page sel view off v : Nat} {c : Cls} {r : RegRow} (hc : clsOf page = some c)
    (hr : regRow c off = some r) (hwo : r.wo = 0) (hw1 : r.w1p = 0) :
    putReg page sel view off v d = restoreParity ⟨page, sel, off⟩
      (d.setReg page sel off (BitVec.ofNat 32 (viewed r view (d.reg page sel off).toNat v))) := by
  unfold putReg
  simp only [hc, Option.bind_some, hr, hwo, hw1, ne_eq, not_true_eq_false, or_self, if_false]

/-- Settles O32. -/
theorem landedWriteSetsItsRegister : Obligations.LandedWriteSetsItsRegister := by
  intro d page off view v c r hc hcls ho _ hrow hwo hw1 href
  have hland := landWrite_one (v := v) (view := view) ho
    (fun h => by obtain ⟨rfl, -⟩ := h; rw [clsOf_tim] at hc; cases hc; simp at hcls) href
    (fun h => by rw [hc] at h; obtain ⟨h, -⟩ := h; cases h; simp at hcls)
  refine ⟨putReg page (d.selOf page off) view off v.toNat d, putReg_row hc hrow hwo hw1, fun h1 h2 => ?_, fun h1 h2 => ?_,
    fun h1 h2 => ?_⟩ <;> rw [hland] <;> unfold written <;> simp only [hc]
  · rcases hcls with rfl | rfl | rfl | rfl | rfl | rfl | rfl
    case' inr.inr.inr.inr.inr.inl => exact if_neg (Nat.not_le.mpr (h1.resolve_left fun h => h rfl))
    case' inr.inr.inr.inr.inr.inr => exact if_neg (by tauto)
    all_goals rfl
  · subst h1; exact if_pos h2
  · subst h1; exact if_pos h2

/-! ## Bits of the four views (R567) -/

/-- Numbers without a common bit add without carry. -/
theorem add_eq_or_of_and_eq_zero {a b : Nat} (h : a &&& b = 0) : a + b = a ||| b := by
  have hw : a + b < 2 ^ (a + b) := Nat.lt_two_pow_self
  have hor : a ||| b < 2 ^ (a + b) := Nat.or_lt_two_pow (by omega) (by omega)
  have hadd := BitVec.add_eq_or_of_and_eq_zero (BitVec.ofNat (a + b) a) (BitVec.ofNat (a + b) b)
    (by rw [← BitVec.ofNat_and, h])
  rw [← BitVec.ofNat_or, ← BitVec.ofNat_add] at hadd
  have := congrArg BitVec.toNat hadd
  rwa [BitVec.toNat_ofNat, BitVec.toNat_ofNat, Nat.mod_eq_of_lt hw, Nat.mod_eq_of_lt hor] at this

/-- Taking away bits that a number has clears them. -/
theorem testBit_sub_and (x m i : Nat) : (x - (x &&& m)).testBit i = (x.testBit i && !m.testBit i) := by
  have hsum : (x &&& m) + (x ^^^ (x &&& m)) = x := by
    rw [add_eq_or_of_and_eq_zero] <;> apply Nat.eq_of_testBit_eq <;> intro j <;>
      simp only [Nat.testBit_or, Nat.testBit_and, Nat.testBit_xor, Nat.zero_testBit] <;>
      cases x.testBit j <;> cases m.testBit j <;> rfl
  have hsub : x - (x &&& m) = x ^^^ (x &&& m) := by omega
  rw [hsub, Nat.testBit_xor, Nat.testBit_and]
  cases x.testBit i <;> cases m.testBit i <;> rfl

/-- Settles O33. -/
theorem viewsActOnBits : Obligations.ViewsActOnBits := by
  intro r old v i _ _ _ _
  refine ⟨?_, ?_, ?_, ?_⟩ <;> simp only [viewed]
  · have hand : (old - (old &&& r.rw)) &&& (v &&& r.rw) = 0 := by
      apply Nat.eq_of_testBit_eq
      intro j
      simp only [Nat.testBit_and, testBit_sub_and, Nat.zero_testBit]
      cases r.rw.testBit j <;> simp
    rw [add_eq_or_of_and_eq_zero hand, Nat.testBit_or, testBit_sub_and, Nat.testBit_and]
    cases r.rw.testBit i <;> simp
  · simp only [Nat.testBit_or, Nat.testBit_and]
  · simp only [testBit_sub_and, Nat.testBit_and, Nat.testBit_or]
  · simp only [Nat.testBit_xor, Nat.testBit_and]

end Sys2Proof.Machine
end

section
/-! PROOFS. Writes of one register by its row of the table: the bus error it may meet, and what follows where it lands
(spec/05, spec/10, spec/12 to spec/15). -/
namespace Sys2Proof.Machine

/-- No window is open at an offset that lies in none. -/
theorem selOf_plain {d : Dev} {page off : Nat} {c : Cls} (hc : clsOf page = some c) (hw : windowFld c off = none) :
    d.selOf page off = 0 ∧ d.selAhead page off = 0 := by
  simp only [Dev.selOf, Dev.selAhead, hc, hw, and_self]

/-- A whole-word write that meets no bus error has a row, and the state of the unit does not refuse it. -/
theorem row_of_writeCause {d : Dev} {p : Path} {page sel off v : Nat} {c : Cls} (hc : clsOf page = some c)
    (h : d.writeCause p page sel 0 off v = none) :
    ∃ r, regRow c off = some r ∧
      (r.rw ≠ 0 → d.stateCause page sel off (d.reg page sel off).toNat (viewed r 0 (d.reg page sel off).toNat v) = none) := by
  simp only [Dev.writeCause, hc] at h
  cases hrow : regRow c off with
  | none =>
    simp only [hrow] at h
    split_ifs at h
  | some r =>
    refine ⟨r, rfl, fun hrw => ?_⟩
    simp only [hrow, ne_eq, not_true_eq_false, false_and, if_false, reduceCtorEq] at h
    simp only [ite_eq_right_iff, reduceCtorEq, hrw, not_false_eq_true, true_and, if_false] at h
    grind

/-- A write that its own window selection admits is not refused where it lands. -/
theorem refusedNow_of_row {d : Dev} {page view off : Nat} {v : Word} {c : Cls} {r : RegRow} (hc : clsOf page = some c)
    (hrow : regRow c off = some r)
    (h : r.rw ≠ 0 → d.stateCause page (d.selOf page off) off (d.reg page (d.selOf page off) off).toNat
      (viewed r view (d.reg page (d.selOf page off) off).toNat v.toNat) = none) :
    d.refusedNow ⟨page, view, off, v, none⟩ = false := by
  simp only [Dev.refusedNow, HostWrite.words, List.any_cons, List.any_nil, Bool.or_false, hc, Option.bind_some, hrow]
  by_cases hrw : r.rw = 0
  · simp [hrw]
  · simp [h hrw]

/-- The bus error of a write of a register that is written as it stands: what the state of its unit says. -/
theorem writeCause_row {d : Dev} {p : Path} {page sel off v : Nat} {c : Cls} {r : RegRow} (hr : d.reaches p page)
    (hc : clsOf page = some c) (hrow : regRow c off = some r) (h4 : off % 4 = 0) (hlock : d.on page HDR.LOCK = false)
    (hspm : ¬ (page = pgSPM ∧ off = SPM.SAFOWN.off ∧ p = .pcie)) (hwo : r.wo = 0) (hw1 : r.w1p = 0) (hrw : r.rw ≠ 0) :
    d.writeCause p page sel 0 off v =
      d.stateCause page sel off (d.reg page sel off).toNat (viewed r 0 (d.reg page sel off).toNat v) := by
  obtain ⟨_, ha, _, hs⟩ := hr
  have hsaf : (page == pgSAF && p == .pcie && d.on pgSPM SPM.SAFOWN) = false := by
    by_cases hp : page = pgSAF
    · cases p
      · simp [hs hp rfl]
      · simp
    · simp [hp]
  unfold Dev.writeCause
  simp only [hc, ha, hrow, h4, hsaf, hlock, hspm, hwo, hw1, hrw]
  simp

/-- A write of a register without a window, from its bus request to what follows it in its unit. -/
theorem act_writeReg_row {s : State} {p : Path} {page off : Nat} {v : Word} {c : Cls} {r : RegRow} (hr : s.dev.reaches p page)
    (hc : clsOf page = some c) (hrow : regRow c off = some r) (hlock : s.dev.on page HDR.LOCK = false)
    (hst : s.dev.stateCause page 0 off (s.dev.reg page 0 off).toNat (viewed r 0 (s.dev.reg page 0 off).toNat v.toNat) = none)
    (hj : HostWrite.journalled ⟨page, 0, off, v, none⟩ = true → s.dev.landsNow)
    (hspm : ¬ (page = pgSPM ∧ off = SPM.SAFOWN.off ∧ p = .pcie))
    (hcls : c ≠ .stg ∧ c ≠ .tim ∧ c ≠ .cep := by decide) (hw : windowFld c off = none := by rfl) (ho : 0x40 ≤ off := by decide)
    (ho' : off < 0x1000 := by decide) (h4 : off % 4 = 0 := by decide) (hwo : r.wo = 0 := by rfl) (hw1 : r.w1p = 0 := by rfl)
    (hrw : r.rw ≠ 0 := by decide) (hpair : r.pair ≠ 1 := by decide) :
    s.act (writeReg p page 0 off v) = .next (s.withDev (answered p (written page 0 off (s.dev.reg page 0 off).toNat
      ((putReg page 0 0 off v.toNat s.dev).reg page 0 off).toNat (putReg page 0 0 off v.toNat s.dev)))) := by
  obtain ⟨hsel, hahead⟩ := selOf_plain (d := s.dev) hc hw
  have hpg (pg : Nat) (c' : Cls) (h : clsOf pg = some c') (hne : c ≠ c') : page ≠ pg := by
    rintro rfl
    exact hne (Option.some.inj (hc.symm.trans h))
  have hhalf : pairHalf page off = r.pair := by simp only [pairHalf, hc, Option.bind_some, hrow]
  have htim : ¬ (page = pgTIM ∧ off = TIM.ACQ.off) := fun h => hpg _ _ clsOf_tim hcls.2.1 h.1
  have href : s.dev.refusedNow ⟨page, 0, off, v, none⟩ = false :=
    refusedNow_of_row hc hrow (by rw [hsel]; exact fun _ => hst)
  rw [act_writeReg_lands hr (clsOf_lt page c hc) (by decide) ho' h4
    (by rw [hahead, writeCause_row hr hc hrow h4 hlock hspm hwo hw1 hrw, hst]) (Or.inr (by rw [hhalf]; exact hpair))
    (fun h => hpg _ _ clsOf_stg hcls.1 h.1) htim hj,
    landWrite_one ho htim href (by simp [hc, hcls.2.2]), hsel]

/-! ## What a register reads after a write of the page view -/

theorem viewed_full {r : RegRow} {old v : Nat} (hold : old < 2 ^ 32) (hv : v < 2 ^ 32) (h : r.rw = 2 ^ 32 - 1) :
    viewed r 0 old v = v := by
  simp only [viewed, h, Nat.and_two_pow_sub_one_eq_mod, Nat.mod_eq_of_lt hold, Nat.mod_eq_of_lt hv]
  omega

theorem viewed_low {r : RegRow} {old v n : Nat} (hv : v < 2 ^ n) (h : r.rw = 2 ^ n - 1) :
    viewed r 0 old v % 2 ^ n = v := by
  have hsub : old - old % 2 ^ n = 2 ^ n * (old / 2 ^ n) := by have := Nat.div_add_mod old (2 ^ n); omega
  simp only [viewed, h, Nat.and_two_pow_sub_one_eq_mod, hsub, Nat.mul_add_mod, Nat.mod_mod, Nat.mod_eq_of_lt hv]

/-- A field at bit 0 of its register. -/
theorem rd_low (d : Dev) (page : Nat) (f : Fld) (h : f.lsb = 0 := by rfl) :
    d.rd page f = (d.reg page 0 f.off).toNat % 2 ^ f.width := by
  unfold Dev.rd Dev.rdS bitsOf
  rw [h, pow_zero, Nat.div_one]

/-- A field of one bit, as a bit of its register. -/
theorem on_bit (d : Dev) (page : Nat) (f : Fld) (h : f.width = 1 := by rfl) :
    d.on page f = bitOf (d.reg page 0 f.off).toNat f.lsb := by
  unfold Dev.on Dev.rd Dev.rdS bitsOf bitOf
  rw [h, pow_one]
  rcases Nat.mod_two_eq_zero_or_one ((d.reg page 0 f.off).toNat / 2 ^ f.lsb) with h | h <;> rw [h] <;> rfl

/-- A whole register read as its field. -/
theorem rd_whole (d : Dev) (page : Nat) (f : Fld) (h : f.lsb = 0 := by rfl) (hw : f.width = 32 := by rfl) :
    d.rd page f = (d.reg page 0 f.off).toNat := by
  have := (d.reg page 0 f.off).isLt
  unfold Dev.rd Dev.rdS bitsOf
  rw [h, hw]
  omega

/-! ## Pointers, SAFOWN and HINT (R56, R57, R479, R480, R518, R584, R585) -/

/-- A write of PIXCTL that is reached acts at once or is journalled. -/
theorem act_pixctl {s : State} {p : Path} {v : Word} {d : Dev} (hr : s.dev.reaches p pgTIM)
    (hd : takePixctl v.toNat s.dev = (.done, d)) :
    s.act (writeReg p pgTIM 0 TIM.ACQ.off v) = .next (s.withDev (answered p d)) := by
  have hcause (sel : Nat) : s.dev.writeCause p pgTIM sel 0 TIM.ACQ.off v.toNat = none := by
    have hrow : regRow .tim TIM.ACQ.off = some ⟨124, 0, 1, 0, 0, 0, 0, 4294967295, 0, 3⟩ := rfl
    simp only [Dev.writeCause, clsOf_tim, hr.2.1, hrow]
    simp [pgTIM, pgSAF, pgSPM, TIM.ACQ]
  rw [act_withDev, writeReg_delivered _ _ _ _ _ _ _ (by decide) (by decide) (by decide) (by decide) hr (hcause _)
    (Or.inr (by decide))]
  unfold deliver
  rw [if_neg fun h => absurd (show pgTIM = pgSTG from h.1) (by decide), if_pos ⟨rfl, rfl⟩, hd]

/-- A write over PCI Express that meets a bus error (R568). -/
theorem act_writeReg_fault {s : State} {page off cause : Nat} {v : Word} (hr : s.dev.reaches .pcie page) (hp : page < 1024)
    (ho : off < 0x1000) (h4 : off % 4 = 0)
    (hf : s.dev.writeCause .pcie page (s.dev.selAhead page off) 0 off v.toNat = some cause) :
    s.act (writeReg .pcie page 0 off v) = .next (s.withDev (busError .pcie 0 (addrOf page 0 off) true cause s.dev)) := by
  have hfault := writeFault_word s.dev .pcie page 0 off v hp (by decide) ho h4 hr.2.1
  rw [act_withDev]
  unfold writeReg writeAccess hostWrite
  rw [hfault, hf]
  simp only [hr.1, Bool.not_true, Bool.false_eq_true, if_false, Nat.not_le.mpr (addrOf_lt page 0 off hp (by decide) ho)]

/-- A register that a write through the page view left reads the value written, as far as its field at bit 0 goes. -/
theorem putReg_low {d : Dev} {page off : Nat} {v : Word} {c : Cls} {r : RegRow} {n : Nat} (hc : clsOf page = some c)
    (hrow : regRow c off = some r) (hv : v.toNat < 2 ^ n) (hrw : r.rw = 2 ^ n - 1) (hn : n ≤ 32) (hwo : r.wo = 0 := by rfl)
    (hw1 : r.w1p = 0 := by rfl) : ((putReg page 0 0 off v.toNat d).reg page 0 off).toNat % 2 ^ n = v.toNat := by
  rw [putReg_row hc hrow hwo hw1]
  show ((d.setReg page 0 off _).reg page 0 off).toNat % _ = _
  rw [reg_setReg_self, BitVec.toNat_ofNat, Nat.mod_mod_of_dvd _ (Nat.pow_dvd_pow 2 hn), viewed_low hv hrw]

/-- RXR and TXW of HIF (R584, R585): a pointer within its span, written as it stands. -/
theorem act_hifPointer {s : State} {p : Path} {v : Word} {f : Fld} {r : RegRow} (hr : s.dev.reaches p pgHIF)
    (hlock : s.dev.on pgHIF HDR.LOCK = false) (hrow : regRow .hif f.off = some r)
    (hst : s.dev.stateCause pgHIF 0 f.off (s.dev.reg pgHIF 0 f.off).toNat v.toNat = none)
    (hf : f.off = HIF.RXR.off ∨ f.off = HIF.TXW.off) (hrw : r.rw = 2 ^ 32 - 1 := by rfl) (hwo : r.wo = 0 := by rfl)
    (hw1 : r.w1p = 0 := by rfl) (hpair : r.pair ≠ 1 := by decide) :
    s.act (writeReg p pgHIF 0 f.off v) = .next (s.withDev (answered p (putReg pgHIF 0 0 f.off v.toNat s.dev))) := by
  rw [← viewed_full (old := (s.dev.reg pgHIF 0 f.off).toNat) (BitVec.isLt _) v.isLt hrw] at hst
  have hoff : f.off = 92 ∨ f.off = 96 := hf
  have hj : HostWrite.journalled ⟨pgHIF, 0, f.off, v, none⟩ = true → s.dev.landsNow := fun h => absurd h (by
    simp [HostWrite.journalled, clsOf_hif])
  rw [act_writeReg_row hr clsOf_hif hrow hlock hst hj (fun h => absurd h.1 (by decide)) (ho := by omega) (ho' := by omega)
    (h4 := by omega) (hwo := hwo) (hw1 := hw1) (hrw := by rw [hrw]; decide) (hpair := hpair)]
  simp only [written, clsOf_hif]
  rw [if_neg (by unfold HIF.MBCH; simp only; omega), if_neg (by omega)]

/-- RCNT and HREL of a capture unit (R479, R480). -/
theorem act_capuPointer {s : State} {p : Path} {u : CapId} {v : Word} {f : Fld} {r : RegRow} (hr : s.dev.reaches p (pgCapu u))
    (hlock : s.dev.on (pgCapu u) HDR.LOCK = false) (hrow : regRow .capu f.off = some r)
    (hst : s.dev.stateCause (pgCapu u) 0 f.off (s.dev.reg (pgCapu u) 0 f.off).toNat v.toNat = none)
    (hf : f.off = CAPU.RCNT.off ∨ f.off = CAPU.HREL.off) (hrw : r.rw = 2 ^ 32 - 1 := by rfl) (hwo : r.wo = 0 := by rfl)
    (hw1 : r.w1p = 0 := by rfl) (hpair : r.pair ≠ 1 := by decide) :
    s.act (writeReg p (pgCapu u) 0 f.off v) = .next (s.withDev (answered p (putReg (pgCapu u) 0 0 f.off v.toNat s.dev))) := by
  rw [← viewed_full (old := (s.dev.reg (pgCapu u) 0 f.off).toNat) (BitVec.isLt _) v.isLt hrw] at hst
  have hoff : f.off = 160 ∨ f.off = 140 := hf
  have hj : HostWrite.journalled ⟨pgCapu u, 0, f.off, v, none⟩ = true → s.dev.landsNow := fun h => absurd h (by
    simp [HostWrite.journalled, clsOf_capu])
  rw [act_writeReg_row hr (clsOf_capu u) hrow hlock hst hj
    (fun h => absurd h.1 (by unfold pgCapu pgSPM; omega)) (ho := by omega) (ho' := by omega)
    (h4 := by omega) (hwo := hwo) (hw1 := hw1) (hrw := by rw [hrw]; decide) (hpair := hpair)]
  simp only [written, clsOf_capu]

/-- What the state of a capture unit says of its two pointers. -/
theorem stateCause_rcnt (d : Dev) (u : CapId) (old v : Nat) : d.stateCause (pgCapu u) 0 CAPU.RCNT.off old v =
    if rcntOk u v d then none else some 6 := by
  unfold Dev.stateCause
  rw [clsOf_capu]
  refine (if_pos rfl).trans ?_
  rw [show (⟨(pgCapu u - 0x50) % 16, Nat.mod_lt _ (by decide)⟩ : Fin 16) = u from unit_of 16 0x50 u (by decide)]

theorem stateCause_hrel (d : Dev) (u : CapId) (old v : Nat) : d.stateCause (pgCapu u) 0 CAPU.HREL.off old v =
    if hrelOk u v d then none else some 6 := by
  have hne : CAPU.HREL.off ≠ CAPU.RCNT.off := by decide
  unfold Dev.stateCause
  rw [clsOf_capu]
  refine (if_neg hne).trans ((if_pos rfl).trans ?_)
  rw [show (⟨(pgCapu u - 0x50) % 16, Nat.mod_lt _ (by decide)⟩ : Fin 16) = u from unit_of 16 0x50 u (by decide)]

theorem stateCause_rxr (d : Dev) (old v : Nat) : d.stateCause pgHIF 0 HIF.RXR.off old v =
    if v % 64 = 0 ∧ inSpan old (d.rd pgHIF HIF.RXW) v then none else some 6 := by
  unfold Dev.stateCause
  rw [clsOf_hif]
  exact if_pos rfl

theorem stateCause_txw (d : Dev) (old v : Nat) : d.stateCause pgHIF 0 HIF.TXW.off old v =
    if v % 64 = 0 ∧ inSpan old (d.rd pgHIF HIF.TXR + mailSize) v then none else some 6 := by
  have hne : HIF.TXW.off ≠ HIF.RXR.off := by decide
  unfold Dev.stateCause
  rw [clsOf_hif]
  exact (if_neg hne).trans (if_pos rfl)

/-- Settles O37. -/
theorem pointerWrites : Obligations.PointerWrites := by
  intro s p v
  refine ⟨fun hr hn => ?_, fun hr hn => ?_, fun hr hl => ?_, fun hr hlock => ⟨fun h64 hs => ?_, fun h64 hs => ?_⟩,
    fun hr hlock h64 => ?_, fun u hr hlock => ⟨fun hok => ?_, fun hok => ?_⟩, fun u hr hlock hok => ?_,
    fun hr hlock hv hu => ?_, fun hr hlock => ⟨fun ho => ?_, fun ho => ?_⟩, fun hr hlock => ?_, fun hr hlock hv => ?_⟩
  · exact act_pixctl (v := 1) hr (by simp [takePixctl, pixAcq, bitOf, hn])
  · exact act_pixctl (v := 1) hr (by simp [takePixctl, pixAcq, bitOf, hn])
  · exact act_pixctl (v := 2) hr (by simp [takePixctl, pixPub, bitOf, hl.1, hl.2])
  · rw [rd_whole _ _ HIF.RXR] at hs
    exact act_hifPointer hr hlock rfl (by rw [stateCause_rxr, if_pos ⟨h64, hs⟩]) (Or.inl rfl)
  · rw [rd_whole _ _ HIF.TXW] at hs
    exact act_hifPointer hr hlock rfl (by rw [stateCause_txw, if_pos ⟨h64, hs⟩]) (Or.inr rfl)
  · refine act_writeReg_fault hr (by decide) (by decide) (by decide) ?_
    rw [writeCause_row hr clsOf_hif rfl (by decide) hlock (fun h => absurd h.1 (by decide)) rfl rfl (by decide),
      viewed_full (BitVec.isLt _) v.isLt rfl, (selOf_plain clsOf_hif rfl).2, stateCause_rxr, if_neg fun h => h64 h.1]
  · exact act_capuPointer hr hlock rfl (by rw [stateCause_rcnt, if_pos hok]) (Or.inl rfl)
  · exact act_capuPointer hr hlock rfl (by rw [stateCause_hrel, if_pos hok]) (Or.inr rfl)
  · have hp : pgCapu u < 1024 := by unfold pgCapu; omega
    refine act_writeReg_fault hr hp (by decide) (by decide) ?_
    rw [(selOf_plain (clsOf_capu u) rfl).2, writeCause_row hr (clsOf_capu u) rfl (by decide) hlock
      (fun h => absurd h.1 (by unfold pgCapu pgSPM; omega)) rfl rfl (by decide), viewed_full (BitVec.isLt _) v.isLt rfl,
      stateCause_rcnt, hok]
    rfl
  · have hx := viewed_low (r := ⟨72, 0, 1, 0, 1023, 0, 0, 0, 0, 1023⟩) (old := (s.dev.reg pgEVT 0 EVT.LOGR.off).toNat) (n := 10)
      hv rfl
    rw [rd_low _ _ EVT.LOGR] at hu ⊢
    have hst (w : Nat) (hw : w % 1024 = v.toNat) : s.dev.stateCause pgEVT 0 EVT.LOGR.off (s.dev.reg pgEVT 0 EVT.LOGR.off).toNat w
        = none := by
      unfold Dev.stateCause
      rw [clsOf_evt]
      refine (if_pos rfl).trans (if_pos ?_)
      rw [hw]
      exact hu
    have hnew := putReg_low (d := s.dev) (n := 10) clsOf_evt (show regRow .evt EVT.LOGR.off = some _ from rfl) hv rfl (by decide)
    have hunread : (putReg pgEVT 0 0 EVT.LOGR.off v.toNat s.dev).logUnread = s.dev.logUnread := by
      rw [putReg_row clsOf_evt (show regRow .evt EVT.LOGR.off = some _ from rfl) rfl rfl]
      exact rdS_setReg_off _ _ _ _ _ _ _ _ (by decide)
    rw [show exec (.logrWrite p v) s = s.act (writeReg p pgEVT 0 EVT.LOGR.off v) from rfl,
      act_writeReg_row hr clsOf_evt rfl hlock (hst _ hx) (fun h => by cases h) (fun h => absurd h.1 (by decide))]
    unfold written
    rw [clsOf_evt]
    simp only [if_true]
    rw [hunread, show (1024 : Nat) = 2 ^ 10 from rfl, hnew]
    rfl
  · rw [show exec (.safownWrite .spi v) s = s.act (writeReg .spi pgSPM 0 SPM.SAFOWN.off v) from rfl,
      act_writeReg_row hr clsOf_spm rfl hlock rfl (fun h => by cases h) (fun h => by cases h.2.2)]
    have hold : bitOf (s.dev.reg pgSPM 0 SPM.SAFOWN.off).toNat 0 = false :=
      (on_bit _ _ SPM.SAFOWN).symm.trans ho
    unfold written
    rw [clsOf_spm]
    simp only [hold]
    rfl
  · rw [show exec (.safownWrite .spi v) s = s.act (writeReg .spi pgSPM 0 SPM.SAFOWN.off v) from rfl,
      act_writeReg_row hr clsOf_spm rfl hlock rfl (fun h => by cases h) (fun h => by cases h.2.2)]
    have hold : bitOf (s.dev.reg pgSPM 0 SPM.SAFOWN.off).toNat 0 = true :=
      (on_bit _ _ SPM.SAFOWN).symm.trans ho
    unfold written
    rw [clsOf_spm]
    simp only [hold]
    rfl
  · refine act_writeReg_fault hr (by decide) (by decide) (by decide) ?_
    have hrow : regRow .spm SPM.SAFOWN.off = some ⟨68, 0, 1, 0, 1, 0, 0, 0, 0, 1⟩ := rfl
    simp only [Dev.writeCause, clsOf_spm, hr.2.1, hrow, hlock]
    simp [pgSPM, pgSAF, SPM.SAFOWN]
  · have hnew := putReg_low (d := s.dev) (n := 2) clsOf_red (show regRow .red RED.HINT.off = some _ from rfl) hv rfl (by decide)
    rw [show exec (.mgmtHintWrite p v) s = s.act (writeReg p pgRED 0 RED.HINT.off v) from rfl,
      act_writeReg_row hr clsOf_red rfl hlock rfl (fun h => by cases h) (fun h => absurd h.1 (by decide))]
    unfold written
    rw [clsOf_red]
    simp only [if_true]
    rw [show (4 : Nat) = 2 ^ 2 from rfl, hnew]
    rfl

end Sys2Proof.Machine
end

section
/-! PROOFS. 64-bit pairs, journalled registers, and writes of the motion and feedback registers (spec/05, spec/10, spec/13,
spec/15). -/
namespace Sys2Proof.Machine

/-- A write request of one whole word that no bus error stops and that is taken. -/
theorem act_writeReg_taken {s : State} {p : Path} {page off : Nat} {v : Word} {d : Dev} (hs : s.dev.serves p = true)
    (ha : s.dev.answers page = true) (hp : page < 1024) (ho : off < 0x1000) (h4 : off % 4 = 0)
    (hf : s.dev.writeCause p page (s.dev.selAhead page off) 0 off v.toNat = none)
    (hw : writeWord p page 0 off v s.dev = (.done, d)) :
    s.act (writeReg p page 0 off v) = .next (s.withDev (thanks p d)) := by
  rw [act_withDev, writeReg_word _ _ _ _ _ _ hp (by decide) ho h4 hs ha hf (by rw [hw]; intro _ h; cases h), hw]

/-- Settles O34. -/
theorem pairHalvesLandTogether : Obligations.PairHalvesLandTogether := by
  intro s p page off hp ho h4 _ hs ha
  refine ⟨fun v hh h1 hf => ?_, fun lo hi hh hl ho' h2 hstg htim hf => ?_, fun lo hh hl => ?_⟩
  · show s.act (writeAccess _) = _
    rw [writeAccess_addrOf p v hp ho]
    refine act_writeReg_taken hs ha hp ho h4 hf ?_
    simp only [writeWord, Dev.ownPair, hh, h1, and_self, if_true]
  · refine act_writeReg_taken (page := page) (off := off + 4) hs ha hp ho' (by omega) hf ?_
    simp only [writeWord, Dev.ownPair, Dev.completes, hh, h2, deliver, hstg, htim, false_and, and_self, if_false,
      submit_lands _ _ fun _ => hl, beq_self_eq_true, Bool.or_true, Bool.and_self, if_true]
    rfl
  · have hpath : s.dev.pathUp p = true := by
      simp only [Dev.serves, Bool.and_eq_true] at hs
      exact hs.1
    have hheld (t : Nat) : ((s.dev.at t).latch p).held = some (page, off, lo) := by rw [← hh]; cases p <;> rfl
    show s.act (heldTimeout p) = _
    rw [act_withDev, heldTimeout, if_pos (by simp [hpath, hh])]
    simp only [flushHeld, hheld]
    rw [submit_lands (s.dev.at _) _ fun _ => hl]

/-- A journalled write that is reached, as the journal or the STANDBY takes it. -/
theorem act_writeReg_submitted {s : State} {p : Path} {page off : Nat} {v : Word} {d : Dev} (hr : s.dev.reaches p page)
    (hp : page < 1024) (ho : off < 0x1000) (h4 : off % 4 = 0)
    (hf : s.dev.writeCause p page (s.dev.selAhead page off) 0 off v.toNat = none) (h1 : pairHalf page off ≠ 1)
    (hstg : page ≠ pgSTG) (htim : page ≠ pgTIM) (hs : submit ⟨page, 0, off, v, none⟩ s.dev = (.done, d)) :
    s.act (writeReg p page 0 off v) = .next (s.withDev (answered p d)) := by
  rw [act_withDev, writeReg_delivered _ _ _ _ _ _ _ hp (by decide) ho h4 hr hf (Or.inr h1)]
  unfold deliver
  rw [if_neg fun h => hstg h.1, if_neg fun h => htim h.1, hs]

theorem pgAxp_ne (n : AxisId) : pgAxp n < 1024 ∧ pgAxp n ≠ pgSTG ∧ pgAxp n ≠ pgTIM ∧ pgAxp n ≠ pgSGU := by
  unfold pgAxp pgSTG pgTIM pgSGU
  omega

/-- Settles O35. -/
theorem journalledWritesWait : Obligations.JournalledWritesWait := by
  intro s p n off v hr ho ho' h4 h0 hf
  obtain ⟨hp, hstg, htim, hsgu⟩ := pgAxp_ne n
  have hj : HostWrite.journalled ⟨pgAxp n, 0, off, v, none⟩ = true := by simp only [HostWrite.journalled, clsOf_axp]
  have hoff : off % 0x1000 = off := Nat.mod_eq_of_lt ho'
  have write {d : Dev} (hs : submit ⟨pgAxp n, 0, off, v, none⟩ s.dev = (.done, d)) :
      s.act (writeReg p (pgAxp n) 0 off v) = .next (s.withDev (answered p d)) :=
    act_writeReg_submitted hr hp ho' h4 hf (by rw [h0]; decide) hstg htim hs
  refine ⟨fun hrole hrun hheld hroom => ?_, fun hrole => ?_⟩
  · have hs : submit ⟨pgAxp n, 0, off, v, none⟩ s.dev =
        (.done, pushEntry (.write ⟨pgAxp n, 0, off, v, none⟩) s.dev) := by
      simp [submit, hj, hrole, hrun, hheld, hroom]
    refine ⟨?_, ?_⟩
    · show s.act (writeAccess _) = _
      rw [writeAccess_addrOf p v hp ho', write hs]
    · show s.act (writeReg p (pgAxp n) 0 (off % 0x1000) v) = _
      rw [hoff, write hs]
  · show s.act (writeReg p (pgAxp n) 0 (off % 0x1000) v) = _
    rw [hoff]
    refine write ?_
    have hsel : HostWrite.selectsCompare ⟨pgAxp n, 0, off, v, none⟩ = false := by simp [HostWrite.selectsCompare, hsgu]
    have hpcmd : off ≠ HDR.PCMD_CODE.off := by unfold HDR.PCMD_CODE; simp; omega
    simp only [submit, hj, hrole, hsel, requestOnly, hpcmd, disagree, clsOf_axp, Bool.not_true, Bool.false_eq_true, if_false,
      if_true]

/-- A write that meets no bus error, to a register whose refusal does not depend on its window, lands. -/
theorem act_writeReg_written {s : State} {p : Path} {page off : Nat} {v : Word} {c : Cls} (hr : s.dev.reaches p page)
    (hc : clsOf page = some c) (hcls : c ≠ .stg ∧ c ≠ .tim ∧ c ≠ .cep) (ho : 0x40 ≤ off) (ho' : off < 0x1000) (h4 : off % 4 = 0)
    (h1 : pairHalf page off ≠ 1) (hl : s.dev.landsNow)
    (hf : s.dev.writeCause p page (s.dev.selAhead page off) 0 off v.toNat = none)
    (hsel : s.dev.selAhead page off = s.dev.selOf page off ∨ ∀ sel old v, s.dev.stateCause page sel off old v = none) :
    s.act (writeReg p page 0 off v) = .next (s.withDev (answered p (written page (s.dev.selOf page off) off
      (s.dev.reg page (s.dev.selOf page off) off).toNat
      ((putReg page (s.dev.selOf page off) 0 off v.toNat s.dev).reg page (s.dev.selOf page off) off).toNat
      (putReg page (s.dev.selOf page off) 0 off v.toNat s.dev)))) := by
  have hpg (pg : Nat) (c' : Cls) (h : clsOf pg = some c') (hne : c ≠ c') : page ≠ pg := by
    rintro rfl
    exact hne (Option.some.inj (hc.symm.trans h))
  have htim : ¬ (page = pgTIM ∧ off = TIM.ACQ.off) := fun h => hpg _ _ clsOf_tim hcls.2.1 h.1
  obtain ⟨r, hrow, hst⟩ := row_of_writeCause hc hf
  have href : s.dev.refusedNow ⟨page, 0, off, v, none⟩ = false := by
    refine refusedNow_of_row hc hrow fun hrw => ?_
    rcases hsel with hsel | hsel
    · rw [← hsel]; exact hst hrw
    · exact hsel _ _ _
  rw [act_writeReg_lands hr (clsOf_lt page c hc) (by decide) ho' h4 hf (Or.inr h1) (fun h => hpg _ _ clsOf_stg hcls.1 h.1) htim
    fun _ => hl, landWrite_one ho htim href (by simp [hc, hcls.2.2])]

/-- The feedback unit of a page. -/
theorem fbu_of_page (c : FbuId) : (⟨(pgFbu c - 0x60) % 8, Nat.mod_lt _ (by decide)⟩ : Fin 8) = c := unit_of 8 0x60 c (by decide)

theorem pgFbu_ne_spm (c : FbuId) : pgFbu c ≠ pgSPM := by unfold pgFbu pgSPM; omega

/-- The state of a feedback unit refuses only its configuration, in use. -/
theorem stateCause_fbu {d : Dev} {c : FbuId} {off : Nat} (h : d.fbuInUse c = false ∨ off ≠ FBU.MODE.off ∧ off ≠ FBU.NBITS.off)
    (sel old v : Nat) : d.stateCause (pgFbu c) sel off old v = none := by
  unfold Dev.stateCause
  rw [clsOf_fbu]
  simp only [fbu_of_page]
  rcases h with h | ⟨h1, h2⟩
  · simp [h]
  · rw [if_neg (by tauto)]

/-- A write of a register of a feedback unit, by its row. -/
theorem act_writeReg_fbu {s : State} {p : Path} {c : FbuId} {off : Nat} {v : Word} {r : RegRow} (hr : s.dev.reaches p (pgFbu c))
    (hlock : s.dev.on (pgFbu c) HDR.LOCK = false) (hrow : regRow .fbu off = some r)
    (hst : s.dev.fbuInUse c = false ∨ off ≠ FBU.MODE.off ∧ off ≠ FBU.NBITS.off) (ho : 0x40 ≤ off := by decide)
    (ho' : off < 0x1000 := by decide) (h4 : off % 4 = 0 := by decide) (hwo : r.wo = 0 := by rfl) (hw1 : r.w1p = 0 := by rfl)
    (hrw : r.rw ≠ 0 := by decide) (hpair : r.pair ≠ 1 := by decide) :
    s.act (writeReg p (pgFbu c) 0 off v) = .next (s.withDev (answered p (written (pgFbu c) 0 off
      (s.dev.reg (pgFbu c) 0 off).toNat ((putReg (pgFbu c) 0 0 off v.toNat s.dev).reg (pgFbu c) 0 off).toNat
      (putReg (pgFbu c) 0 0 off v.toNat s.dev)))) :=
  act_writeReg_row hr (clsOf_fbu c) hrow hlock (stateCause_fbu hst _ _ _)
    (fun h => absurd h (by simp only [HostWrite.journalled, clsOf_fbu]; decide)) (fun h => pgFbu_ne_spm c h.1)
    (ho := ho) (ho' := ho') (h4 := h4) (hwo := hwo) (hw1 := hw1) (hrw := hrw) (hpair := hpair)

/-- Settles O36. -/
theorem motionRegisterWrites : Obligations.MotionRegisterWrites := by
  intro s p v hl
  refine ⟨fun n off hr ho ho' h4 h0 hf => ⟨_, rfl, ?_⟩, fun c u hr hlock => ?_, fun c hr hlock huse => ⟨?_, _, rfl, ?_⟩,
    fun off hr ho ho' h4 h0 hf => ⟨_, _, rfl, rfl, ?_⟩⟩
  · obtain ⟨hsel, hahead⟩ := selOf_plain (d := s.dev) (off := off) (clsOf_axp n) rfl
    show s.act (writeReg p (pgAxp n) 0 (off % 0x1000) v) = _
    rw [Nat.mod_eq_of_lt ho', act_writeReg_written hr (clsOf_axp n) (by decide) ho ho' h4 (by rw [h0]; decide) hl hf
      (Or.inl (hahead.trans hsel.symm)), hsel]
    unfold written
    rw [clsOf_axp]
    have hn : axisNo (pgAxp n - 0x100) = n := unit_of 256 0x100 n (by decide)
    simp only [hn, BitVec.ofNat_toNat, BitVec.setWidth_eq]
  · match u with
    | 0 =>
      refine (act_writeReg_fbu (off := FBU.CVAL.off) hr hlock rfl (Or.inr (by decide))).trans ?_
      unfold written
      rw [clsOf_fbu]
      simp only [fbu_of_page]
      rw [if_neg (by decide), if_neg (by decide), if_pos trivial]
      rfl
    | 1 =>
      refine (act_writeReg_fbu (off := FBU.CVAL.off + 0x20) hr hlock rfl (Or.inr (by decide))).trans ?_
      unfold written
      rw [clsOf_fbu]
      simp only [fbu_of_page]
      rw [if_neg (by decide), if_neg (by decide), if_neg (by decide), if_pos trivial]
      rfl
  · refine (act_writeReg_fbu (off := FBU.NBITS.off) hr hlock rfl (Or.inl huse)).trans ?_
    unfold written
    rw [clsOf_fbu]
    simp only [fbu_of_page]
    rw [if_neg (by decide), if_neg (by decide), if_neg (by decide), if_neg (by decide), if_neg (by decide), if_neg (by decide)]
  · refine (act_writeReg_fbu (off := FBU.MODE.off) hr hlock rfl (Or.inl huse)).trans ?_
    unfold written
    rw [clsOf_fbu]
    simp only [fbu_of_page, if_true]
  · have hnone (sel old v : Nat) : s.dev.stateCause pgSGU sel off old v = none := rfl
    have hsel : s.dev.selOf pgSGU off = s.dev.rd pgSGU SGU.RSEL := by
      simp only [Dev.selOf, clsOf_sgu, windowFld, ho, if_true]
    show s.act (writeReg p pgSGU 0 (off % 0x1000) v) = _
    rw [Nat.mod_eq_of_lt ho', act_writeReg_written hr clsOf_sgu (by decide) (by omega) ho' h4 (by rw [h0]; decide) hl hf
      (Or.inr hnone), hsel]
    unfold written
    rw [clsOf_sgu]
    simp only [ho, if_true, BitVec.ofNat_toNat, BitVec.setWidth_eq]

/-! ## The stage watchdog (R535) -/

/-- A write of KEY that is reached. -/
theorem act_kick {s : State} {p : Path} {v : Word} (hr : s.dev.reaches p pgSTG) :
    s.act (writeReg p pgSTG 0 STG.KEY.off v) = .next (s.withDev (answered p (watchdogKick p v.toNat s.dev))) := by
  have hcause (sel : Nat) : s.dev.writeCause p pgSTG sel 0 STG.KEY.off v.toNat = none := by
    have hrow : regRow .stg STG.KEY.off = some ⟨76, 0, 1, 0, 0, 0, 4294967295, 0, 0, 255⟩ := rfl
    simp only [Dev.writeCause, clsOf_stg, hr.2.1, hrow]
    simp [pgSTG, pgSAF, pgSPM, STG.KEY]
  rw [act_withDev, writeReg_delivered _ _ _ _ _ _ _ (by decide) (by decide) (by decide) (by decide) hr (hcause _)
    (Or.inr (by decide))]
  unfold deliver
  rw [if_pos ⟨rfl, rfl⟩]

/-- Settles O14. -/
theorem stageWatchdog : Obligations.StageWatchdog := by
  refine ⟨fun s p v hr => ⟨fun hv hsrc => ?_, fun hsrc hp => ?_, fun hsrc hp => ?_, fun hv => ?_⟩, fun s hrun => ?_⟩
  · rw [show exec (.watchdogKick p v) s = s.act (writeReg p pgSTG 0 STG.KEY.off v) from rfl, act_kick hr]
    unfold watchdogKick
    rw [if_pos ⟨hv, by rcases hsrc with h | h <;> cases p <;> simp [h, bitOf]⟩]
    rfl
  · subst hp
    exact (act_kick hr).trans (by unfold watchdogKick; rw [if_neg (by simp [hsrc, bitOf])])
  · subst hp
    exact (act_kick hr).trans (by unfold watchdogKick; rw [if_neg (by simp [hsrc, bitOf])])
  · exact (act_kick hr).trans (by unfold watchdogKick; rw [if_neg (by simp [hv])])
  · show s.act watchdogWarn = _
    rw [act_withDev, watchdogWarn, if_pos hrun]

/-! ## CAL and OTP (R548, R549, R559 to R561) -/

/-- Rows of the words of the active set. -/
theorem regRow_calSet (i : Fin 33) : ∃ r, regRow .cal (CAL.GAIN0.off + 4 * i.val) = some r ∧ r.wo = 0 ∧ r.w1p = 0 ∧ r.rw ≠ 0 ∧
    r.pair ≠ 1 := by
  have h : ∀ i : Fin 33, ((regRow .cal (CAL.GAIN0.off + 4 * i.val)).any fun r =>
      r.wo == 0 && r.w1p == 0 && r.rw != 0 && r.pair != 1) = true := by decide
  have hb := h i
  cases hrow : regRow .cal (CAL.GAIN0.off + 4 * i.val) with
  | none => simp [hrow] at hb
  | some r =>
    simp only [hrow, Option.any_some, Bool.and_eq_true, beq_iff_eq, bne_iff_ne] at hb
    obtain ⟨⟨⟨hwo, hw1⟩, hrw⟩, hp⟩ := hb
    exact ⟨r, rfl, hwo, hw1, hrw, hp⟩

theorem act_calSetWrite {s : State} {p : Path} (i : Fin 33) {v : Word} (hr : s.dev.reaches p pgCAL) (hs : s.dev.stage = 1)
    (hlock : s.dev.on pgCAL HDR.LOCK = false) :
    s.act (writeReg p pgCAL 0 (CAL.GAIN0.off + 4 * i.val) v) =
      .next (s.withDev (answered p (calWritten (putReg pgCAL 0 0 (CAL.GAIN0.off + 4 * i.val) v.toNat s.dev)))) := by
  obtain ⟨r, hrow, hwo, hw1, hrw, hp⟩ := regRow_calSet i
  have hge : CAL.GAIN0.off ≤ CAL.GAIN0.off + 4 * i.val := Nat.le_add_right _ _
  have hst (sel old w : Nat) : s.dev.stateCause pgCAL sel (CAL.GAIN0.off + 4 * i.val) old w = none := by
    unfold Dev.stateCause
    rw [clsOf_cal]
    refine (if_pos hge).trans ?_
    rw [hs]
    rfl
  have hoff : CAL.GAIN0.off = 0x80 := rfl
  rw [act_writeReg_row hr clsOf_cal hrow hlock (hst _ _ _) (fun h => by cases h) (fun h => absurd h.1 (by decide))
    (ho := by omega) (ho' := by omega) (h4 := by omega) (hwo := hwo) (hw1 := hw1) (hrw := hrw) (hpair := hp)]
  unfold written
  rw [clsOf_cal]
  simp only [if_pos hge]

/-- The fuses are programmed by what stands beside BUSY. -/
theorem programFuse_settled (d : Dev) (code : Nat) (f : Fuse) :
    programFuse code (settleCmd pgOTP rOK (d.wr pgOTP OTP.BUSY 0)) f = programFuse code d f := by
  have hreg (p s o : Nat) (h1 : HDR.RESULT.off % 4096 ≠ o % 4096) (h2 : OTP.BUSY.off % 4096 ≠ o % 4096) :
      (settleCmd pgOTP rOK (d.wr pgOTP OTP.BUSY 0)).reg p s o = d.reg p s o := by
    unfold settleCmd Dev.wr Dev.wrS
    rw [reg_setReg_off _ _ _ HDR.BUSY.off _ _ _ _ h1, reg_setReg_off _ _ _ _ _ _ _ _ h1, reg_setReg_off _ _ _ _ _ _ _ _ h2]
  have hver : (settleCmd pgOTP rOK (d.wr pgOTP OTP.BUSY 0)).rd pgSTG STG.VERSION = d.rd pgSTG STG.VERSION := by
    unfold Dev.rd Dev.rdS
    rw [hreg _ _ _ (by decide) (by decide)]
  have hkey (i : Fin 8) : (settleCmd pgOTP rOK (d.wr pgOTP OTP.BUSY 0)).reg pgOTP 0 (OTP.KSTG.off + 4 * i.val) =
      d.reg pgOTP 0 (OTP.KSTG.off + 4 * i.val) :=
    hreg _ _ _ (by revert i; decide) (by revert i; decide)
  unfold programFuse
  rw [hver]
  simp only [hkey]

/-- Settles O9. -/
theorem calibrationAndFuseCommands : Obligations.CalibrationAndFuseCommands := by
  refine ⟨fun s p arg h => ⟨fun hs hm hf => ?_, fun hsf => ?_, fun hs => ?_, fun hs => ?_⟩, fun s p i v hr hs hlock => ?_,
    fun s p arg h => ⟨fun hs hl hk hkey => ?_, fun hs hl hv => ?_, fun hk => ?_, fun hv => ?_⟩, fun s hb => ⟨⟨_, rfl, rfl, ?_⟩, ?_⟩⟩
  · have hall : (s.dev.activeAxes.all fun (n : Fin 256) => s.dev.axState n == axMOORED) = true :=
      List.all_eq_true.mpr fun n hn => by simp [hm n hn]
    exact command_done h clsOf_cal landCmd_cal (by unfold landCal; rfl) (by simp only [hall]; simp [checks, hs, hf])
  · exact command_refused h clsOf_cal landCmd_cal (by unfold landCal; rfl) (by rcases hsf with h | h <;> simp [checks, h])
  · exact command_done h clsOf_cal landCmd_cal (by unfold landCal; rfl) (by simp [checks, hs])
  · exact command_refused h clsOf_cal landCmd_cal (by unfold landCal; rfl) (by simp [checks, hs])
  · have hoff : (CAL.GAIN0.off + 4 * i.val) % 0x1000 = CAL.GAIN0.off + 4 * i.val :=
      Nat.mod_eq_of_lt (by have : CAL.GAIN0.off = 0x80 := rfl; omega)
    show s.act (writeReg p pgCAL 0 ((CAL.GAIN0.off + 4 * i.val) % 0x1000) v) = _
    rw [hoff, act_calSetWrite i hr hs hlock]
  · have hl' : (s.dev.lstep == 3 || s.dev.lstep == 7) = true := by rcases hl with h | h <;> simp [h]
    have hany : ((List.range 8).any fun i => s.dev.reg pgOTP 0 (OTP.KSTG.off + 4 * i) != 0) = true :=
      List.any_eq_true.mpr (by obtain ⟨i, hi, hn⟩ := hkey; exact ⟨i, List.mem_range.mpr hi, by simpa using hn⟩)
    have hland : landCmd pgOTP 0x01 arg.toNat s.dev = (waiting pgOTP 0x01 arg s.dev).wr pgOTP OTP.BUSY 1 := by
      rw [landCmd_otp]
      unfold landOtp
      simp only [hs, hl', hk, hany]
      rw [if_pos ⟨rfl, by simp [h.2]⟩, deferCmd_waits _ _ _ _ h.2]
      rfl
    rw [← hland]
    exact act_pageCommand h clsOf_otp
  · have hland : landCmd pgOTP 0x02 arg.toNat s.dev = (waiting pgOTP 0x02 arg s.dev).wr pgOTP OTP.BUSY 1 := by
      rw [landCmd_otp]
      unfold landOtp
      simp only
      rw [if_pos ⟨(checks_ok _ _).mpr ⟨by simp [hs, hv, Dev.ready, hl], rfl⟩, by simp [h.2]⟩, deferCmd_waits _ _ _ _ h.2]
      rfl
    rw [← hland]
    exact act_pageCommand h clsOf_otp
  · refine command_refused h clsOf_otp landCmd_otp (check := fun _ => rSTATE) (eff := id) ?_ rfl
    unfold landOtp
    simp only [hk, Bool.not_true, Bool.and_false, checks]
    rfl
  · refine command_refused h clsOf_otp landCmd_otp (check := fun _ => rSTATE) (eff := id) ?_ rfl
    unfold landOtp
    simp only [decide_eq_false (Nat.not_lt.mpr hv), Bool.and_false, checks]
    rfl
  · show (otpProgramDone true s.fuse s.dev).1 = _
    unfold otpProgramDone
    rw [if_neg (by simp [hb])]
    exact programFuse_settled _ _ _
  · have hdev : otpProgramDone false s.fuse s.dev = (s.fuse, raise pgOTP 1 (s.dev.rd pgOTP HDR.PCST_CODE)
        (settleCmd pgOTP rOK (s.dev.wr pgOTP OTP.BUSY 0))) := by
      unfold otpProgramDone
      rw [if_neg (by simp [hb])]
      rfl
    rw [exec_otpProgramDone, hdev]
    rfl

/-! ## The commands of an axis as they are evaluated (R212, R225) -/

/-- Settles O30. -/
theorem axisCommandEvaluation : Obligations.AxisCommandEvaluation := by
  intro n k d
  have states : axMOORED ≠ axREADY ∧ axMOORED ≠ axRUN ∧ axMOORED ≠ axSTOPPING ∧ axMOORED ≠ axDISABLED ∧ axMOORED ≠ axFAULT := by
    decide
  obtain ⟨h1, h2, h3, h4, h5⟩ := states
  refine ⟨?_, ?_, ?_, ?_, ?_, ?_, ?_, ?_, ?_, ?_, ?_, ?_, ?_, ?_, ?_⟩ <;> unfold evalAxp
  case refine_1 => intro hm hf hs hh hr he; simp [hm, hf, hs, hh, hr, he]
  case refine_2 => intro hm hf hs hh hr he; simp [hm, hf, hs, hh, hr, he]
  case refine_3 => intro hm; simp [hm]
  case refine_4 => intro h; simp [h]
  case refine_5 => intro hm; simp [hm, h1, h2, h3]
  case refine_6 => intro h; simp [h]
  case refine_7 => intro h; simp [h]
  case refine_8 => intro h hp hg; simp [h, hp, hg]
  case refine_9 => intro h; simp [h]
  case refine_10 => intro hm; simp [hm, h4, h5]
  case refine_11 => intro hm hf hc; simp [hm, hf, hc]
  case refine_12 => intro hm hc; simp [hc]
  case refine_13 => intro h; simp [h]
  case refine_14 => intro h; simp [h]
  case refine_15 => rfl

end Sys2Proof.Machine
end

section
/-! PROOFS. Bus errors, reads, SPI frames, the data of BAR2 and BAR4, DMA, the scrubber and MSI-X (spec/15). -/
namespace Sys2Proof.Machine

/-! ## Bus errors (R568, R569) -/

/-- A register of another page keeps its value when a field is written. -/
theorem reg_wr_page (d : Dev) (p : Nat) (f : Fld) (v p' s o : Nat) (hp : p < 1024) (hp' : p' < 1024) (hf : f.off < 4096)
    (ho : o < 4096) (h : p ≠ p') : (d.wr p f v).reg p' s o = d.reg p' s o :=
  reg_setReg_page _ _ _ _ _ _ _ _ hp hp' hf ho h

/-- What HIF holds of a bus error before BUSERR is raised. -/
def busRecord (p : Path) (space adr : Nat) (wr : Bool) (cause : Nat) (d : Dev) : Dev :=
  (((((d.wr pgHIF HIF.OFS adr).wr pgHIF HIF.SPACE space).wr pgHIF HIF.WR (b2n wr)).wr pgHIF HIF.PATH
    (match p with | .pcie => 0 | .spi => 1)).wr pgHIF HIF.CAUSE cause).inc pgHIF HIF.BECNT

theorem busError_eq {d : Dev} (p : Path) (space adr : Nat) (wr : Bool) (cause : Nat) (h : d.stage ≠ 0) :
    busError p space adr wr cause d = raise pgHIF 0 0 (busRecord p space adr wr cause d) := by
  unfold busError
  rw [if_neg h]
  rfl

theorem notEvent_hif : ¬ eventPage pgHIF := by unfold eventPage; decide

/-- A field of HIF that BUSERR leaves as recorded. -/
theorem rd_busError {d : Dev} (p : Path) (space adr : Nat) (wr : Bool) (cause : Nat) (f : Fld) (h : d.stage ≠ 0)
    (hf : f.off < 4096) (hn : f.off ≠ HDR.PEVT.off) :
    (busError p space adr wr cause d).rd pgHIF f = (busRecord p space adr wr cause d).rd pgHIF f := by
  rw [busError_eq _ _ _ _ _ h, rd_raise _ _ _ _ _ _ (by decide) (by decide) (by decide) hf notEvent_hif fun _ => hn]

theorem busRecord_cause (p : Path) (space adr : Nat) (wr : Bool) (cause : Nat) (d : Dev) (hc : cause < 8) :
    (busRecord p space adr wr cause d).rd pgHIF HIF.CAUSE = cause := by
  unfold busRecord Dev.inc
  rw [rd_wr_beside _ _ _ _ _ (by decide) (by decide) (by decide), rd_wr_self _ _ _ _ (by decide)]
  exact Nat.mod_eq_of_lt (show cause < 16 by omega)

theorem busRecord_wr (p : Path) (space adr : Nat) (wr : Bool) (cause : Nat) (d : Dev) :
    (busRecord p space adr wr cause d).rd pgHIF HIF.WR = b2n wr := by
  unfold busRecord Dev.inc
  rw [rd_wr_off _ _ _ _ _ _ (by decide), rd_wr_off _ _ _ _ _ _ (by decide),
    rd_wr_beside _ _ _ _ _ (by decide) (by decide) (by decide), rd_wr_self _ _ _ _ (by decide)]
  cases wr <;> rfl

/-- A bus error is recorded in HIF alone. -/
theorem reg_busRecord (p : Path) (space adr : Nat) (wr : Bool) (cause : Nat) (d : Dev) (page sel off : Nat) (hp : page < 1024)
    (ho : off < 4096) (h : page ≠ pgHIF) : (busRecord p space adr wr cause d).reg page sel off = d.reg page sel off := by
  have w (d : Dev) (f : Fld) (v : Nat) (hf : f.off < 4096) : (d.wr pgHIF f v).reg page sel off = d.reg page sel off :=
    reg_wr_page d pgHIF f v page sel off (by decide) hp hf ho h.symm
  unfold busRecord Dev.inc
  rw [w _ _ _ (by decide), w _ _ _ (by decide), w _ _ _ (by decide), w _ _ _ (by decide), w _ _ _ (by decide),
    w _ _ _ (by decide)]

theorem busRecord_evt (p : Path) (space adr : Nat) (wr : Bool) (cause : Nat) (d : Dev) :
    (busRecord p space adr wr cause d).evt = d.evt := by
  unfold busRecord Dev.inc
  rw [wr_evt, wr_evt, wr_evt, wr_evt, wr_evt, wr_evt]

theorem busRecord_mem (p : Path) (space adr : Nat) (wr : Bool) (cause : Nat) (d : Dev) :
    (busRecord p space adr wr cause d).mem = d.mem := by
  unfold busRecord Dev.inc
  rw [wr_mem, wr_mem, wr_mem, wr_mem, wr_mem, wr_mem]

theorem bitOf_or_pow (x i : Nat) : bitOf (x ||| 2 ^ i) i = true := by
  rw [bitOf_eq_testBit, Nat.testBit_or, Nat.testBit_two_pow_self, Bool.or_true]

/-- Settles O38. -/
theorem busErrorsHaveNoSideEffect : Obligations.BusErrorsHaveNoSideEffect := by
  refine ⟨fun s q c hs ha hf => ?_, fun s q c hs ha hbe hf hp => ?_, fun s q c hs hf hp => ?_, fun d p space adr cause wr hst hc =>
    ⟨?_, ?_, fun hh => ?_, fun page sel off hpg ho h1 h2 h3 h4 => ?_, fun a ha => ?_⟩, fun s off b c hs hc => ?_⟩
  · show s.act (writeAccess q) = _
    obtain ⟨path, addr, len, be, data⟩ := q
    rw [act_withDev]
    unfold writeAccess hostWrite
    rw [hf, hs]
    cases path
    · simp only [Bool.not_true, Bool.false_eq_true, if_false, Nat.not_le.mpr ha]
    · simp only [Bool.not_true, Bool.false_eq_true, if_false]
  · show s.act (readAccess q) = _
    obtain ⟨path, addr, len, be⟩ := q
    subst hp
    rw [act_withDev]
    unfold readAccess pcieRead
    rw [hf, hs]
    simp only [Bool.not_true, Bool.false_eq_true, if_false, Nat.not_le.mpr ha, hbe, and_false]
  · show s.act (readAccess q) = _
    obtain ⟨path, addr, len, be⟩ := q
    subst hp
    rw [act_withDev]
    simp only [readAccess, spiReadAt, spiReadCore, hf, hs, Bool.not_true, Bool.false_eq_true, if_false]
    rfl
  · rw [rd_busError _ _ _ _ _ _ hst (by decide) (by decide), busRecord_cause _ _ _ _ _ _ hc]
  · rw [rd_busError _ _ _ _ _ _ hst (by decide) (by decide), busRecord_wr]
  · rw [busError_eq _ _ _ _ _ hst, pevt_raise pgHIF 0 _ _ (by decide) (by decide) notEvent_hif (by rw [busRecord_evt, hh]), bitOf_or_pow]
  · rw [busError_eq _ _ _ _ _ hst, reg_raise _ _ _ _ _ _ _ (by decide) (by decide) hpg ho
      (by unfold eventPage; tauto) (fun h => absurd h h1), reg_busRecord _ _ _ _ _ _ _ _ _ hpg ho h1]
  · rw [busError_eq _ _ _ _ _ hst, (posted_raise pgHIF 0 0 _ (by decide) (by decide)).mem a (Or.inl ha)]
    unfold Dev.mem8
    rw [busRecord_mem]
  · show s.act (barWrite 1 off.toNat [some b]) = _
    rw [act_withDev]
    have hcells : enabledBytes off.toNat [some b] = [(off.toNat, b)] := rfl
    have hbar : byteCause (s.dev.bar 1) off.toNat = some c := hc
    simp only [barWrite, hs, hcells, List.filterMap_cons, List.filterMap_nil, hbar, List.head?_cons, Bool.not_true,
      Bool.false_eq_true, if_false]

/-! ## Reads (R565, R566) -/

/-- A read of one whole word over PCI Express that meets no bus error. -/
theorem act_readAccess {s : State} {page off : Nat} (hp : page < 1024) (ho : off < 0x1000) (hs : s.dev.serves .pcie = true)
    (hf : s.dev.readFault ⟨.pcie, addrOf page 0 off, 1, 0xF⟩ = none) :
    s.act (readAccess ⟨.pcie, addrOf page 0 off, 1, 0xF⟩) = .next (s.withDev
      ((readWord .pcie true page off s.dev).2.emit (.completion (some [(readWord .pcie true page off s.dev).1])))) := by
  have ha := addrOf_lt page 0 off hp (by decide) ho
  rw [act_withDev]
  unfold readAccess pcieRead
  simp only [hs, hf, readWords, pageOfAddr_addrOf _ _ _ (show 0 < 4 by decide) ho, offOfAddr_addrOf _ _ _ ho, Nat.not_le.mpr ha,
    Bool.not_true, Bool.false_eq_true, if_false, Nat.reduceEqDiff]
  rfl

theorem readAt_addrOf (p : Path) {page off : Nat} (hp : page < 1024) (ho : off < 0x1000) :
    readAt p (BitVec.ofNat 24 (addrOf page 0 off)).toNat = readAccess ⟨p, addrOf page 0 off, 1, 0xF⟩ := by
  rw [BitVec.toNat_ofNat, Nat.mod_eq_of_lt (addrOf_lt page 0 off hp (by decide) ho)]
  rfl

theorem latchedHigh_none {d : Dev} (h : d.host.pcie.high = none) (page off : Nat) : d.latchedHigh .pcie page off = none := by
  have hl : (d.latch .pcie).high = none := h
  simp only [Dev.latchedHigh, hl]

/-- A read of a register that shows what the model fixes, outside the time base. -/
theorem readReg_plain {d : Dev} {page off : Nat} (hfree : d.freeRead page off = false)
    (htim : ¬ (page = pgTIM ∧ off = TIM.STLO.off)) : readReg true page off d =
      (d.shown page (d.selOf page off) off, clearOnRead page (d.selOf page off) off (d.shown page (d.selOf page off) off) d) := by
  have hcor : (d.corrections page off).isSome = false := by
    unfold Dev.freeRead at hfree
    exact (Bool.or_eq_false_iff.mp hfree).1
  unfold readReg
  simp only [hcor, hfree, htim, Bool.false_eq_true, if_false, if_true]

/-- What a read clears of a register with a row. -/
theorem clearOnRead_row {d : Dev} {page sel off : Nat} {v : Word} {c : Cls} {r : RegRow} (hc : clsOf page = some c)
    (hr : regRow c off = some r) : clearOnRead page sel off v d =
      if r.rc = 0 ∨ d.on pgGLB GLB.PEEK = true then d
      else d.setReg page sel off (d.reg page sel off &&& ~~~(v &&& BitVec.ofNat 32 r.rc)) := by
  simp only [clearOnRead, hc, Option.bind_some, hr]

/-- Settles O39. -/
theorem readsReturnAndClear : Obligations.ReadsReturnAndClear := by
  refine ⟨fun s page off c r hp ho _ hs hc hr hf hh h0 hfree => ?_,
    fun s page off c r hp ho _ htim hs hc hr hrc hf hh h1 hfree => ?_, fun s page off w hp ho _ hs hf hh => ?_⟩
  · have htim : ¬ (page = pgTIM ∧ off = TIM.STLO.off) := fun h => by
      obtain ⟨rfl, rfl⟩ := h
      exact absurd h0 (by decide)
    have hread : readWord .pcie true page off s.dev = (s.dev.shown page (s.dev.selOf page off) off,
        if r.rc = 0 ∨ s.dev.on pgGLB GLB.PEEK = true then s.dev
        else s.dev.setReg page (s.dev.selOf page off) off (s.dev.reg page (s.dev.selOf page off) off &&&
          ~~~(s.dev.shown page (s.dev.selOf page off) off &&& BitVec.ofNat 32 r.rc))) := by
      unfold readWord
      simp only [latchedHigh_none hh, readReg_plain hfree htim, clearOnRead_row hc hr, h0, Nat.reduceEqDiff, if_false]
    refine ⟨fun hrc => ?_, fun hrc hpeek => ?_⟩
    · exact (act_readAccess hp ho hs hf).trans (by rw [hread, if_pos hrc])
    · show s.act (readAt _ _) = _
      rw [readAt_addrOf _ hp ho, act_readAccess hp ho hs hf, hread, if_neg (by simp [hrc, hpeek])]
  · have hread : readReg true page off s.dev = (s.dev.shown page (s.dev.selOf page off) off, s.dev) := by
      rw [readReg_plain hfree fun h => htim h.1, clearOnRead_row hc hr, if_pos (Or.inl hrc)]
    show s.act (readAt _ _) = _
    rw [readAt_addrOf _ hp ho, act_readAccess hp ho hs hf]
    unfold readWord
    simp only [latchedHigh_none hh, hread, h1, if_true]
    rfl
  · have hl : s.dev.latchedHigh .pcie page off = some w := by
      have : (s.dev.latch .pcie).high = some (page, off, w) := hh
      simp only [Dev.latchedHigh, this, and_self, if_true]
    refine (act_readAccess hp ho hs hf).trans ?_
    unfold readWord
    simp only [hl]
    rfl

/-! ## SPI frames (R589 to R591) -/

theorem next_congr {s : State} {d d' : Dev} (h : d = d') :
    (.next (s.withDev d) : Host.Outcome State Fault Refusal) = .next (s.withDev d') := by rw [h]

/-- A frame that is not cut short, by its command (R589). -/
theorem spiFrame_read {mosi : List Byte} {d : Dev} (hup : d.pathUp .spi = true) (hs : spiShort mosi = false)
    (h : mosi.headD 0 = 1) : spiFrame mosi d =
      if crc8 (mosi.take 5) != (mosi.getD 5 0).toNat then
        spiRespond mosi.length 8 2 (bytesBE 4 0) (raise pgSPM 0 0 (d.inc pgSPM SPM.CRCERR))
      else spiReadAt mosi.length (numBE ((mosi.drop 1).take 4)) d := by
  unfold spiFrame
  rw [hup, hs, h]
  rfl

theorem spiFrame_write {mosi : List Byte} {d : Dev} (hup : d.pathUp .spi = true) (hs : spiShort mosi = false)
    (h : mosi.headD 0 = 2) : spiFrame mosi d =
      if crc8 (mosi.take 9) != (mosi.getD 9 0).toNat then
        spiRespond mosi.length 12 2 [] (raise pgSPM 0 0 (d.inc pgSPM SPM.CRCERR))
      else spiWriteAt mosi.length (numBE ((mosi.drop 1).take 4)) (BitVec.ofNat 32 (numBE ((mosi.drop 5).take 4))) d := by
  unfold spiFrame
  rw [hup, hs, h]
  rfl

theorem spiFrame_unknown {mosi : List Byte} {d : Dev} (hup : d.pathUp .spi = true) (hs : spiShort mosi = false)
    (h1 : mosi.headD 0 ≠ 1) (h2 : mosi.headD 0 ≠ 2) :
    spiFrame mosi d = spiRespond mosi.length 8 4 (bytesBE 4 0) (d.inc pgSPM SPM.CMDERR) := by
  unfold spiFrame
  simp only [hup, hs, Bool.not_true, Bool.false_eq_true, if_false]
  split
  next h => exact absurd (BitVec.eq_of_toNat_eq h) h1
  next h => exact absurd (BitVec.eq_of_toNat_eq h) h2
  next => rfl

/-- Settles O40. -/
theorem spiFrames : Obligations.SpiFrames := by
  intro s mosi hup
  have long (n : Nat) (h : mosi.length = n) (h14 : 10 ≤ n) : spiShort mosi = false := by
    unfold spiShort
    split <;> simp [h] <;> omega
  refine ⟨fun hn h1 hc => ?_, fun hn h1 hc => ?_, fun hn h2 hc => ?_, fun hn h2 hc => ?_, fun hn h1 h2 => ?_, fun hn => ?_⟩
  · show s.act (spiFrame mosi) = _
    rw [act_withDev, spiFrame_read hup (long 14 hn (by decide)) h1, hn]
    exact next_congr (if_neg (Bool.eq_false_iff.mp (bne_eq_false_iff_eq.mpr hc)))
  · show s.act (spiFrame mosi) = _
    rw [act_withDev, spiFrame_read hup (long 14 hn (by decide)) h1, hn]
    exact next_congr (if_pos (bne_iff_ne.mpr hc))
  · show s.act (spiFrame mosi) = _
    rw [act_withDev, spiFrame_write hup (long 14 hn (by decide)) h2, hn]
    exact next_congr (if_neg (Bool.eq_false_iff.mp (bne_eq_false_iff_eq.mpr hc)))
  · show s.act (spiFrame mosi) = _
    rw [act_withDev, spiFrame_write hup (long 14 hn (by decide)) h2, hn]
    exact next_congr (if_pos (bne_iff_ne.mpr hc))
  · have hs : spiShort mosi = false := by
      unfold spiShort
      rw [if_neg h2]
      simp [hn]
    show s.act (spiFrame mosi) = _
    rw [act_withDev]
    exact next_congr (spiFrame_unknown hup hs h1 h2)
  · have hs : spiShort mosi = true := by
      unfold spiShort
      split <;> simp <;> omega
    show s.act (spiCut mosi) = _
    rw [act_withDev]
    unfold spiCut spiFrame
    simp only [hs, hup, Bool.not_true, Bool.false_eq_true, if_false, if_true]
    rfl

/-! ## BAR2 and BAR4 (R577 to R580, R497, R498) -/

/-- One byte written to a region that takes it. -/
theorem barWrite_byte {d : Dev} {space off : Nat} {b : Byte} {r : BarRegion} (hs : d.serves .pcie = true)
    (hr : regionAt (d.bar space) off = some r) (hw : r.write = none) (hd : (d.discardsData && r.data) = false) :
    barWrite space off [some b] d = barByte (d.bar space) off b d := by
  have hcells : enabledBytes off [some b] = [(off, b)] := rfl
  have hcause : byteCause (d.bar space) off = none := by simp only [byteCause, hr, hw]
  have hdisc : discarded (d.bar space) off = r.data := by simp only [discarded, hr]
  simp only [barWrite, barLand, hs, hcells, hcause, hdisc, hd, List.filterMap_cons, List.filterMap_nil, List.head?_nil, List.any_cons,
    List.any_nil, Bool.or_false, List.foldl_cons, List.foldl_nil, Bool.not_true, Bool.false_eq_true, if_false]

/-- The cam region of BAR2. -/
theorem regionAt_cam {d : Dev} {off : Nat} (h1 : 0xC00_0000 ≤ off) (h2 : off < 0xD00_0000) :
    regionAt (d.bar 1) off = some ⟨0xC00_0000, 0xD00_0000, dramCam, none, true, 0xD00_0000⟩ := by
  show regionAt d.bar2 off = _
  unfold regionAt Dev.bar2
  rw [List.find?_cons_of_neg (by simp; omega), List.find?_cons_of_neg (by simp; omega),
    List.find?_cons_of_pos (by simp [h1, h2])]

/-- The transmit mailbox of BAR4. -/
theorem regionAt_mailTx {d : Dev} {off : Nat} (h1 : 0xC0_0000 ≤ off) (h2 : off < 0x100_0000) :
    regionAt (d.bar 2) off = some ⟨0xC0_0000, 0x100_0000, dramMailTx, none, false, 0x100_0000⟩ := by
  have ho : d.outputSize ≤ 0x8_0000 := Nat.min_le_left _ _
  show regionAt d.bar4 off = _
  unfold regionAt Dev.bar4
  rw [List.find?_cons_of_neg (by simp; omega), List.find?_cons_of_neg (by simp; omega), List.find?_cons_of_neg (by simp; omega),
    List.find?_cons_of_neg (by simp; omega), List.find?_cons_of_neg (by simp; omega), List.find?_cons_of_neg (by simp; omega),
    List.find?_cons_of_neg (by simp; omega), List.find?_cons_of_pos (by simp [h1, h2])]

/-! ## DMA (R480, R586 to R588) -/

/-- A streaming transfer sends its bytes out and leaves registers, memory and units alone until its counts advance. -/
theorem ringOut_eq (base size w : Nat) (bs : List Byte) (d : Dev) :
    ∃ o, ringOut base size w bs d = { d with out := o } := by
  unfold ringOut
  dsimp only
  split <;> exact ⟨_, rfl⟩

/-- Without a record under way nothing is reported of the bytes. -/
theorem streamEcc_none {u : CapId} {d : Dev} (h : (d.capUnit u).toCopy = []) (before n : Nat) : streamEcc u before n d = d := by
  have hf (l : List Nat) : l.filterMap (fun _ => (none : Option (Nat × Nat))) = [] := by
    induction l with
    | nil => rfl
    | cons x l ih => exact ih
  simp only [streamEcc, h, List.find?_nil, hf, List.map_nil, List.eraseDups_nil, List.foldl_nil]

theorem streamRecords_none {u : CapId} {d : Dev} (h : (d.capUnit u).toCopy = []) (before n : Nat) :
    streamRecords u before n d = d.setCapUnit u { d.capUnit u with toCopy := [] } := by
  simp only [streamRecords, h, List.filter_nil, List.foldl_nil]

theorem capUnit_wr (d : Dev) (p : Nat) (f : Fld) (v : Nat) (u : CapId) : (d.wr p f v).capUnit u = d.capUnit u := by
  simp only [Dev.capUnit, wr_cap]

/-- A transfer without records under way. -/
theorem dmaTransfer_plain {d : Dev} {e : DmaId} {u : CapId} (hp : d.pathUp .pcie = true) (hs : d.streams e u = true)
    (hn : d.streamBytes u ≠ 0) (h : (d.capUnit u).toCopy = []) : ∃ o x, dmaTransfer e u d = Dev.setCapUnit u x
      ((({ d with out := o } : Dev).wr (pgCapu u) CAPU.HWCNT (d.rd (pgCapu u) CAPU.HWCNT + d.streamBytes u)).wr (pgCapu u) CAPU.RCNT
        (d.rd (pgCapu u) CAPU.RCNT + d.streamBytes u)) := by
  obtain ⟨o, ho⟩ := ringOut_eq (d.hostRing u) (2 ^ d.rd (pgCapu u) CAPU.HLOG) (d.rd (pgCapu u) CAPU.HWCNT)
    (d.capBytes u (d.rd (pgCapu u) CAPU.RCNT) (d.streamBytes u)) d
  have hrun : dmaTransfer e u d = streamRecords u (d.rd (pgCapu u) CAPU.RCNT) (d.streamBytes u)
      ((({ d with out := o } : Dev).wr (pgCapu u) CAPU.HWCNT (d.rd (pgCapu u) CAPU.HWCNT + d.streamBytes u)).wr (pgCapu u) CAPU.RCNT
        (d.rd (pgCapu u) CAPU.RCNT + d.streamBytes u)) := by
    unfold dmaTransfer
    rw [if_neg (by simp [hp, hs, hn])]
    dsimp only
    rw [ho, streamEcc_none (d := { d with out := o }) h]
  exact ⟨o, _, hrun.trans (streamRecords_none (by rw [capUnit_wr, capUnit_wr]; exact h) _ _)⟩

theorem setCapUnit_mem (u : CapId) (x : CapUnit) (d : Dev) : (d.setCapUnit u x).mem = d.mem := rfl

theorem rd_setCapUnit (u : CapId) (x : CapUnit) (d : Dev) (p : Nat) (f : Fld) : (d.setCapUnit u x).rd p f = d.rd p f := rfl

/-- Settles O41. -/
theorem barDataAndDma : Obligations.BarDataAndDma := by
  refine ⟨fun s off b hs hd hj h1 h2 => ?_, fun s off b hs h1 => ?_, fun s e desc data h => ⟨fun hr => ?_, fun hr he hi => ?_,
    fun hr he => ⟨_, rfl, ?_⟩⟩, fun s e u => ⟨fun hn => ?_, fun hp hst hn hc => ?_⟩⟩
  · have hreg := regionAt_cam (d := s.dev) h1 h2
    have haddr : dramCam + (off.toNat - 0xC00_0000) = off.toNat := by unfold dramCam; omega
    have hjr : (s.dev.setMem8 off.toNat b).journalRuns = false := hj
    show s.act (barWrite 1 off.toNat [some b]) = _
    rw [act_withDev, barWrite_byte hs hreg rfl (by rw [hd]; rfl)]
    simp only [barByte, hreg, haddr, markBlocks, hjr, Bool.not_false, true_or, if_true]
  · have hreg := regionAt_mailTx (d := s.dev) h1 off.isLt
    show s.act (barWrite 2 off.toNat [some b]) = _
    rw [act_withDev, barWrite_byte hs hreg rfl (Bool.and_false _)]
    simp only [barByte, hreg, Bool.false_eq_true, if_false]
  · show s.act (dmaDescriptor e desc data h) = _
    rw [act_withDev, dmaDescriptor, if_pos (by simp [hr])]
    rfl
  · show s.act (dmaDescriptor e desc data h) = _
    rw [act_withDev, dmaDescriptor, if_neg (by simp [hr])]
    simp only [he, hi, ne_eq, not_true_eq_false, if_false, Bool.false_eq_true]
  · show s.act (dmaDescriptor e desc data h) = _
    rw [act_withDev, dmaDescriptor, if_neg (by simp [hr])]
    simp only [if_pos he]
  · show s.act (dmaTransfer e u) = _
    rw [act_withDev, dmaTransfer, if_pos (Or.inr (Or.inr hn))]
    rfl
  · obtain ⟨o, x, hx⟩ := dmaTransfer_plain hp hst hn hc
    refine ⟨s.withDev (dmaTransfer e u s.dev), rfl, ?_⟩
    show (dmaTransfer e u s.dev).rd _ _ = _ ∧ (dmaTransfer e u s.dev).rd _ _ = _ ∧ (dmaTransfer e u s.dev).mem = _
    rw [hx]
    refine ⟨?_, ?_, by rw [setCapUnit_mem, wr_mem, wr_mem]⟩
    · rw [rd_setCapUnit, rd_wr_off _ _ _ _ _ _ (by decide), rd_wr_self _ _ _ _ (by decide)]
      rfl
    · rw [rd_setCapUnit, rd_wr_self _ _ _ _ (by decide)]
      rfl

/-! ## The scrubber, MSI-X, the mailbox and the window on a pair (R347, R575, R582, R595) -/

theorem memLE_lt (n : Nat) : ∀ (d : Dev) (a : Nat), d.memLE a n < 2 ^ (8 * n) := by
  induction n with
  | zero => intro d a; exact Nat.one_pos
  | succ n ih =>
    intro d a
    have h1 := (d.mem8 a).isLt
    have h2 := ih d (a + 1)
    rw [Dev.memLE, show 2 ^ (8 * (n + 1)) = 2 ^ 8 * 2 ^ (8 * n) by rw [← pow_add]; ring_nf]
    omega

theorem windowRead_lt (e : Eng) (i : Nat) : e.windowRead i < 2 ^ 64 := by
  have word (w : Word) : w.toNat < 2 ^ 64 := by have := w.isLt; omega
  unfold Eng.windowRead
  split_ifs
  · exact word _
  · have := (e.A.toList.getD (i - 16) 0).isLt; omega
  · have := (e.M.toList.getD (i - 24) 0).isLt; omega
  · have := (e.L.toList.getD (i - 32) 0).isLt; omega
  · exact Nat.mod_lt _ (by decide)
  · have := (e.AC.toList.getD ((i - 40) / 2) 0).isLt; dsimp only; omega
  · split
    · exact word _
    · have : toBits 32 (sxt 6 e.SCL.toNat) < 2 ^ 32 := by
        unfold toBits
        omega
      omega
    · exact word _
    · have := e.pc.isLt; omega
    · decide

theorem cwRead_lt (d : Dev) (c : PairId) : d.cwRead c < 2 ^ 64 := by
  unfold Dev.cwRead
  split
  · exact memLE_lt 8 _ _
  · exact lt_trans (memLE_lt 4 d (xBase c + 4 * d.rd (pgCep c) CEP.WADR)) (by decide)
  · exact lt_trans (memLE_lt 4 d (yBase c + 4 * d.rd (pgCep c) CEP.WADR)) (by decide)
  · exact windowRead_lt _ _

/-- A word of CWDAT written through the page view is written as it stands. -/
theorem cwViewed_page (d : Dev) (c : PairId) {off v : Nat} (hoff : off = CEP.CWDATLO.off ∨ off = CEP.CWDATHI.off)
    (hv : v < 2 ^ 32) : d.cwViewed c 0 off v = v := by
  have hlt := cwRead_lt d c
  unfold Dev.cwViewed
  rcases hoff with rfl | rfl
  · exact viewed_full (Nat.mod_lt _ (by decide)) hv rfl
  · exact viewed_full (Nat.div_lt_of_lt_mul (by simpa using hlt)) hv rfl

theorem pgCep_ne (c : PairId) : pgCep c < 1024 ∧ pgCep c ≠ pgSTG ∧ pgCep c ≠ pgTIM ∧ pgCep c ≠ pgSPM ∧ pgCep c ≠ pgSAF := by
  unfold pgCep pgSTG pgTIM pgSPM pgSAF
  omega

theorem pair_of_page (c : PairId) : (⟨(pgCep c - 0x20) % 18, Nat.mod_lt _ (by decide)⟩ : Fin 18) = c :=
  unit_of 18 0x20 c (by decide)

/-- CWDAT of an open pair is not refused. -/
theorem stateCause_cwdat {d : Dev} {c : PairId} {off : Nat} (hc : d.cwOpen c = true) (sel old v : Nat)
    (hoff : off = CEP.CWDATLO.off ∨ off = CEP.CWDATHI.off) : d.stateCause (pgCep c) sel off old v = none := by
  unfold Dev.stateCause
  rw [clsOf_cep]
  refine (if_pos hoff).trans ?_
  rw [pair_of_page, hc]
  rfl

theorem writeCause_cwdat {d : Dev} {p : Path} {c : PairId} {off sel v : Nat} (ha : d.answers (pgCep c) = true)
    (hc : d.cwOpen c = true) (hlock : d.on (pgCep c) HDR.LOCK = false) (hoff : off = CEP.CWDATLO.off ∨ off = CEP.CWDATHI.off) :
    d.writeCause p (pgCep c) sel 0 off v = none := by
  obtain ⟨-, -, -, hspm, hsaf⟩ := pgCep_ne c
  have hsaf' : (pgCep c == pgSAF) = false := beq_eq_false_iff_ne.mpr hsaf
  unfold Dev.writeCause
  rcases hoff with rfl | rfl
  · have hrow : ∃ r, regRow .cep CEP.CWDATLO.off = some r ∧ r.rw ≠ 0 := ⟨_, rfl, by decide⟩
    obtain ⟨r, hrow, hrw⟩ := hrow
    simp only [clsOf_cep, ha, hrow]
    simp [hsaf', hlock, hspm, hrw, stateCause_cwdat hc, CEP.CWDATLO]
  · have hrow : ∃ r, regRow .cep CEP.CWDATHI.off = some r ∧ r.rw ≠ 0 := ⟨_, rfl, by decide⟩
    obtain ⟨r, hrow, hrw⟩ := hrow
    simp only [clsOf_cep, ha, hrow]
    simp [hsaf', hlock, hspm, hrw, stateCause_cwdat hc, CEP.CWDATHI]

/-- Both words of CWDAT land at CWSEL, low word first. -/
theorem landWrite_cwdat {d : Dev} {c : PairId} (lo hi : Word) (hc : d.cwOpen c = true) :
    landWrite ⟨pgCep c, 0, CEP.CWDATLO.off, lo, some hi⟩ d = cwHalf c true hi.toNat (cwHalf c false lo.toNat d) := by
  have htim : ¬ (pgCep c = pgTIM ∧ CEP.CWDATLO.off = TIM.ACQ.off) := fun h => (pgCep_ne c).2.2.1 h.1
  have href : d.refusedNow ⟨pgCep c, 0, CEP.CWDATLO.off, lo, some hi⟩ = false := by
    have hlo (r : RegRow) (h : regRow .cep CEP.CWDATLO.off = some r) (sel old v : Nat) :
        (r.rw != 0 && (d.stateCause (pgCep c) sel CEP.CWDATLO.off old v).isSome) = false := by
      rw [stateCause_cwdat hc _ _ _ (Or.inl rfl)]; simp
    have hhi (r : RegRow) (h : regRow .cep CEP.CWDATHI.off = some r) (sel old v : Nat) :
        (r.rw != 0 && (d.stateCause (pgCep c) sel CEP.CWDATHI.off old v).isSome) = false := by
      rw [stateCause_cwdat hc _ _ _ (Or.inr rfl)]; simp
    unfold Dev.refusedNow HostWrite.words
    simp only [List.any_cons, List.any_nil, Bool.or_false, clsOf_cep, Option.bind_some, Bool.or_eq_false_iff]
    exact ⟨hlo _ rfl _ _ _, hhi _ rfl _ _ _⟩
  unfold landWrite
  rw [if_neg (show CEP.CWDATLO.off ≠ HDR.PCMD_CODE.off by decide), if_neg htim, href, if_neg (by decide),
    if_pos ⟨clsOf_cep c, Nat.le_refl _⟩]
  simp only [HostWrite.words, List.foldl_cons, List.foldl_nil, pair_of_page]
  rw [cwViewed_page _ _ (Or.inl rfl) lo.isLt, cwViewed_page (off := CEP.CWDATLO.off + 4) _ _ (Or.inr rfl) hi.isLt]
  rfl

/-- Settles O42. -/
theorem scrubberVectorsAndMailboxTime : Obligations.ScrubberVectorsAndMailboxTime := by
  refine ⟨fun s hp => ?_, fun s off hp ho hv hr => ?_, fun s v t0 hst hl => ⟨fun hm => ?_, fun hm hk => ?_⟩,
    fun s key m hm => ⟨fun ht => ?_, fun ht => ?_⟩, fun s p c v hs ha hc hlock => ⟨fun hh => ?_, fun lo hh => ?_⟩⟩
  · show s.act (parityScrub []) = _
    rw [act_withDev, parityScrub, if_neg (by simp [hp])]
    rfl
  · have hV : ({ s.dev.incW pgGLB GLB.PASSES with host := { (s.dev.incW pgGLB GLB.PASSES).host with
        reported := ⟨pgHIF, 0, off⟩ :: (s.dev.incW pgGLB GLB.PASSES).host.reported } } : Dev).on pgHIF HDR.V = false := by
      rw [← hv]
      unfold Dev.on Dev.incW
      exact congrArg (· != 0) (rd_wr_key s.dev pgGLB GLB.PASSES _ pgHIF HDR.V (by decide))
    show s.act (parityScrub [⟨pgHIF, 0, off⟩]) = _
    rw [act_withDev, parityScrub, if_neg (by simp [hp])]
    simp only [List.foldl_cons, List.foldl_nil, parityFound, hr, hV, parityReaction, clsOf_hif, Bool.not_true, Bool.false_eq_true,
      if_false]
    rfl
  · show s.act (msixHoldExpire v) = _
    rw [act_withDev, msixHoldExpire, hl]
    simp only [hm, or_true, if_true]
    rfl
  · have hclear : t0 + s.dev.msixHold v ≤ max s.dev.st (t0 + s.dev.msixHold v) := Nat.le_max_right _ _
    have hrun : msixHoldExpire v s.dev = msixRequest v (s.dev.at (t0 + s.dev.msixHold v)) := by
      rw [msixHoldExpire, hl]
      simp only [hst, hm, Bool.true_eq_false, or_self, if_false]
    have hsent : ∀ d : Dev, d.evt.lastMsg.get v = some t0 → t0 + d.msixHold v ≤ d.st → d.msixMasked v = false →
        msixRequest v d = Dev.emit (.msix v) { d with
          evt := { d.evt with lastMsg := d.evt.lastMsg.set v (some d.st), msgPending := d.evt.msgPending.set v false } } := by
      intro d h1 h2 h3
      simp only [msixRequest, h1, h2, h3, decide_true, Bool.not_false, and_self, if_true]
    refine ⟨s.withDev (msixHoldExpire v s.dev), rfl, ?_⟩
    show (msixHoldExpire v s.dev).evt.msgPending.get v = false ∧ (msixHoldExpire v s.dev).evt.lastMsg.get v =
      some (msixHoldExpire v s.dev).st ∧ (msixHoldExpire v s.dev).out = _ ∧ (msixHoldExpire v s.dev).regs = _ ∧
      (msixHoldExpire v s.dev).mem = _
    rw [hrun, hsent (s.dev.at (t0 + s.dev.msixHold v)) hl hclear hk]
    exact ⟨Vector.getElem_set_self _, Vector.getElem_set_self _, rfl, rfl, rfl⟩
  · show s.act (mailboxTimeout key) = _
    rw [act_withDev, mailboxTimeout, hm]
    simp only [Nat.not_le.mpr ht, if_false]
    rfl
  · show s.act (mailboxTimeout key) = _
    rw [act_withDev, mailboxTimeout, hm]
    simp only [ht, if_true]
  · obtain ⟨hp, hstg, htim, -, -⟩ := pgCep_ne c
    show s.act (writeReg p (pgCep c) 0 CEP.CWDATLO.off v) = _
    refine act_writeReg_taken hs ha hp (by decide) (by decide) (writeCause_cwdat ha hc hlock (Or.inl rfl)) ?_
    have h1 : pairHalf (pgCep c) CEP.CWDATLO.off = 1 := by simp only [pairHalf, clsOf_cep]; rfl
    simp only [writeWord, Dev.ownPair, hh, h1, and_self, if_true]
  · obtain ⟨hp, hstg, htim, -, -⟩ := pgCep_ne c
    show s.act (writeReg p (pgCep c) 0 CEP.CWDATHI.off v) = _
    refine act_writeReg_taken hs ha hp (by decide) (by decide) (writeCause_cwdat ha hc hlock (Or.inr rfl)) ?_
    have h2 : pairHalf (pgCep c) CEP.CWDATHI.off = 2 := by simp only [pairHalf, clsOf_cep]; rfl
    have hoff : CEP.CWDATLO.off + 4 = CEP.CWDATHI.off := rfl
    have hj : HostWrite.journalled ⟨pgCep c, 0, CEP.CWDATLO.off, lo, some v⟩ = false := by
      simp only [HostWrite.journalled, clsOf_cep]
    simp only [writeWord, Dev.ownPair, Dev.completes, hh, h2, hoff, deliver, hstg, htim, false_and, and_self, if_false,
      submit_lands s.dev _ fun h => absurd h (by rw [hj]; decide), landWrite_cwdat _ _ hc, beq_self_eq_true, Bool.or_true,
      Bool.and_self, if_true]
    rfl

end Sys2Proof.Machine
end

section
/-! PROOFS. The instructions of the control engine, formats P, R and M and C (spec/08, *Instruction set*): the outcome of an
instruction with any control, results and flags of format R, the frame of memory of a store. -/
namespace Sys2Proof.Machine

/-! ## An instruction with any control -/

/-- Where control goes by an instruction itself. -/
def Ctl.target : Ctl → Option (BitVec 16)
  | .jump a => some a
  | _ => none

/-- A pair that runs a user task issues an instruction that runs. -/
theorem pairIssue_ok {s : State} {p : PairId} {t q : Nat} {f : IFun} {e : Eng} {d : Dev} {ctl : Ctl} {num : Bool}
    (h : s.runs p t q) (hf : f (s.dev.taskEnv p t) (s.dev.eng p) s.dev = .ok ⟨e, d, ctl, num⟩)
    (hd : d.pairs = s.dev.pairs) : pairIssue p f s.dev = afterIssue p ctl (issued p e ctl.target num d) := by
  obtain ⟨hrun, htask, -⟩ := h
  have hp : d.pair p = s.dev.pair p := by simp only [Dev.pair, hd]
  have hi : issue (s.dev.taskEnv p t) f (s.dev.pair p).eng s.dev =
      .ok ⟨(s.dev.pair p).eng.after e ctl.target, d, ctl, num⟩ := by
    unfold Dev.eng at hf
    cases ctl <;> simp only [issue, hf, Eng.after, Ctl.target]
  simp only [pairIssue, hrun, issueOn, htask, issueAs, hi, issued, hp, if_true]

/-- An instruction that runs, as its row of the dispatch. -/
theorem exec_issues {s : State} {p : PairId} {t q : Nat} {f : IFun} {i : Instr} {e : Eng} {d : Dev} {ctl : Ctl} {num : Bool}
    (hi : exec i s = s.act (pairIssue p f)) (h : s.runs p t q)
    (hf : f (s.dev.taskEnv p t) (s.dev.eng p) s.dev = .ok ⟨e, d, ctl, num⟩) (hd : d.pairs = s.dev.pairs) :
    exec i s = .next (s.withDev (afterIssue p ctl (issued p e ctl.target num d))) := by
  rw [hi, act_withDev, pairIssue_ok h hf hd]

/-- An instruction that runs and goes on, as its row of the dispatch. -/
theorem exec_goesOn {s : State} {p : PairId} {t q : Nat} {f : IFun} {i : Instr} {e : Eng} {d : Dev} {num : Bool}
    (hi : exec i s = s.act (pairIssue p f)) (h : s.runs p t q)
    (hf : f (s.dev.taskEnv p t) (s.dev.eng p) s.dev = .ok ⟨e, d, .next, num⟩) (hd : d.pairs = s.dev.pairs) :
    exec i s = .next (s.withDev (issued p e none num d)) := by
  rw [hi, act_withDev, pairIssue_next h hf hd]

/-- An instruction that traps, as its row of the dispatch. -/
theorem exec_traps {s : State} {p : PairId} {t q : Nat} {f : IFun} {i : Instr} {c : Nat}
    (hi : exec i s = s.act (pairIssue p f)) (h : s.runs p t q)
    (hf : f (s.dev.taskEnv p t) (s.dev.eng p) s.dev = .error c) : exec i s = .next (s.withDev (taskTrap p t c s.dev)) := by
  rw [hi, act_withDev, pairIssue_trap h hf]

/-! ## Lists of flags -/

theorem lookup_append_singleton (fl : List (Nat × Bool)) (i j : Nat) (v : Bool) (h : fl.lookup i = none) :
    (fl ++ [(i, v)]).lookup j = if j = i then some v else fl.lookup j := by
  rw [List.lookup_append]
  by_cases hj : j = i
  · rw [hj, h, if_pos rfl, List.lookup_cons_self, Option.none_or]
  · rw [if_neg hj, List.lookup_cons, beq_eq_false_iff_ne.mpr hj, List.lookup_nil, Option.or_none]

/-- One flag more is written. -/
theorem flagged_setFlag {x y : Eng} {fl : List (Nat × Bool)} (h : x.flagged y fl) (i : Nat) (v : Bool)
    (hi : fl.lookup i = none) : x.flagged (y.setFlag i v) (fl ++ [(i, v)]) := by
  obtain ⟨hxy, hfl⟩ := h
  refine ⟨by rw [setFlag_eq, hxy], fun j hj => ?_⟩
  rw [getLsbD_setFlag _ _ _ _ hj, lookup_append_singleton _ _ _ _ hi]
  by_cases hji : j = i
  · rw [if_pos hji, if_pos hji, Option.getD_some]
  · rw [if_neg hji, if_neg hji, hfl j hj]

/-- One sticky flag more is written. -/
theorem flagged_stick {x y : Eng} {fl : List (Nat × Bool)} (h : x.flagged y fl) (i : Nat) (v : Bool)
    (hi : fl.lookup i = none) (hlt : i < 32) : x.flagged (y.stick i v) (fl ++ [(i, x.SR.getLsbD i || v)]) := by
  obtain ⟨hxy, hfl⟩ := h
  refine ⟨by rw [stick_eq, hxy], fun j hj => ?_⟩
  rw [getLsbD_stick _ _ _ _ hj, lookup_append_singleton _ _ _ _ hi]
  by_cases hji : j = i
  · rw [if_pos hji, if_pos hji, Option.getD_some, hfl i hlt, hi, Option.getD_none]
  · rw [if_neg hji, if_neg hji, hfl j hj]

theorem flagged_refl (e : Eng) : e.flagged e [] := ⟨rfl, fun _ _ => rfl⟩

/-! ## Numbers of format R -/

theorem sxt_toNat {n : Nat} (hn : 0 < n) (v : BitVec n) : sxt n v.toNat = v.toInt := by
  have hv := v.isLt
  obtain ⟨k, rfl⟩ : ∃ k, n = k + 1 := ⟨n - 1, by omega⟩
  have hp : (2 : Nat) ^ (k + 1) = 2 ^ k * 2 := pow_succ 2 k
  unfold sxt
  rw [Nat.mod_eq_of_lt hv, BitVec.toInt_eq_toNat_cond, Nat.add_sub_cancel]
  by_cases h : v.toNat < 2 ^ k
  · rw [if_pos h, if_pos (by omega)]
  · rw [if_neg h, if_neg (by omega)]

theorem clampI_eq {lo hi : Int} (h : lo ≤ hi) (x : Int) : clampI lo hi x = max lo (min hi x) := by
  unfold clampI
  split_ifs <;> omega

theorem satS_word (x : Int) : satS 32 x = max (-(2 ^ 31)) (min (2 ^ 31 - 1) x) := clampI_eq (by decide) x

theorem satS_pair (x : Int) : satS 64 x = max (-(2 ^ 63)) (min (2 ^ 63 - 1) x) := clampI_eq (by decide) x

theorem satS_word_ne (x : Int) : decide (satS 32 x ≠ x) = (decide (x < -(2 ^ 31)) || decide (2 ^ 31 - 1 < x)) := by
  rw [satS_word, Bool.eq_iff_iff]
  simp only [decide_eq_true_eq, Bool.or_eq_true]
  omega

/-- The word and the flag of an exact sum. -/
theorem sumResult_eq (sat : Bool) (x : Int) : sumResult sat x =
    (BitVec.ofInt 32 (if sat then max (-(2 ^ 31)) (min (2 ^ 31 - 1) x) else x),
      decide (x < -(2 ^ 31)) || decide (2 ^ 31 - 1 < x)) := by
  unfold sumResult
  rw [satS_word_ne, satS_word]

theorem scaleRnd_eq (rm : Bool) (x k : Int) : scaleRnd rm x k =
    if 0 ≤ k then x * 2 ^ k.toNat else if rm then x / 2 ^ (-k).toNat
      else (x + 2 ^ ((-k).toNat - 1)) / 2 ^ (-k).toNat := by
  unfold scaleRnd rndMode rnd floorShr
  by_cases h : 0 ≤ k
  · rw [if_pos h, if_pos h, Nat.cast_pow, Nat.cast_ofNat]
  · rw [if_neg h, if_neg h, if_neg (by omega : (-k).toNat ≠ 0)]
    simp only [Nat.cast_pow, Nat.cast_ofNat]

theorem toInt_ofInt_word {x : Int} (h : -(2 ^ 31) ≤ x) (h' : x ≤ 2 ^ 31 - 1) : (BitVec.ofInt 32 x).toInt = x :=
  BitVec.toInt_ofInt_eq_self (by decide) h (by omega)

/-! ## Integer instructions -/

/-- The flags of a word that is written with Z and N, one flag more, and another sticky one. -/
theorem flagged_resultZN_flag (e : Eng) (dd : BitVec 4) (v : Word) (i : Nat) (f : Bool) (hz : i ≠ srZ) (hn : i ≠ srN) :
    (e.setD dd v).flagged ((e.resultZN dd v).setFlag i f) [(srZ, v == 0), (srN, v.msb), (i, f)] :=
  flagged_setFlag (flagged_resultZN e dd v) i f (by
    simp only [List.lookup_cons, beq_eq_false_iff_ne.mpr hz, beq_eq_false_iff_ne.mpr hn, List.lookup_nil])

/-- An instruction of format R that writes a word and flags. -/
theorem exec_word {s : State} {p : PairId} {t q : Nat} {w : FmtR} {i : Instr} (f : Eng → Eng) {x : Eng}
    {fl : List (Nat × Bool)} (hi : ∀ s : State, exec i s = s.act (pairIssue p (runR w f))) (hs : s.runs p t q)
    (hr : w.rsvd = 0) (hf : x.flagged (f (s.dev.eng p)) fl) :
    ∃ e', x.flagged e' fl ∧ exec i s = .next (s.withDev (issued p e' none false s.dev)) :=
  ⟨_, hf, exec_runR f i hi hs hr⟩

theorem min_flag (a b : Word) : ((if b.toInt < a.toInt then b else a) != a) = decide (b.toInt < a.toInt) := by
  by_cases h : b.toInt < a.toInt
  · rw [if_pos h, decide_eq_true h, bne_iff_ne]
    rintro rfl
    omega
  · rw [if_neg h, decide_eq_false h, bne_self_eq_false]

theorem max_flag (a b : Word) : ((if a.toInt < b.toInt then b else a) != a) = decide (a.toInt < b.toInt) := by
  by_cases h : a.toInt < b.toInt
  · rw [if_pos h, decide_eq_true h, bne_iff_ne]
    rintro rfl
    omega
  · rw [if_neg h, decide_eq_false h, bne_self_eq_false]

theorem toInt_word_bounds (a : Word) : -(2 ^ 31) ≤ a.toInt ∧ a.toInt ≤ 2 ^ 31 - 1 := by
  have := BitVec.le_toInt a
  have := BitVec.toInt_lt (x := a)
  omega

/-- ABS saturates −2^31 alone. -/
theorem abs_word (a : Word) : BitVec.ofInt 32 (satS 32 (a.toInt.natAbs : Int)) =
    (if a = 0x8000_0000 then 0x7FFF_FFFF else if a.msb then -a else a) ∧
    decide (satS 32 (a.toInt.natAbs : Int) ≠ a.toInt.natAbs) = (a == 0x8000_0000) := by
  obtain ⟨hlo, hhi⟩ := toInt_word_bounds a
  have hmin : a = 0x8000_0000 ↔ a.toInt = -(2 ^ 31) := by
    constructor
    · rintro rfl; rfl
    · exact fun h => BitVec.eq_of_toInt_eq (h.trans rfl)
  have hmsb : a.msb = decide (a.toInt < 0) := BitVec.msb_eq_toInt
  by_cases h : a = 0x8000_0000
  · subst h
    exact ⟨by decide, by decide⟩
  · have hne : a.toInt ≠ -(2 ^ 31) := fun hc => h (hmin.mpr hc)
    have hsat : satS 32 (a.toInt.natAbs : Int) = a.toInt.natAbs := by rw [satS_word]; omega
    rw [hsat, if_neg h, decide_eq_false (not_not.mpr rfl), beq_eq_false_iff_ne.mpr h]
    refine ⟨BitVec.eq_of_toInt_eq ?_, rfl⟩
    rw [toInt_ofInt_word (by omega) (by omega), hmsb]
    by_cases hn : a.toInt < 0
    · rw [if_pos (decide_eq_true hn), BitVec.toInt_neg_of_ne_intMin (fun hc => h hc), Int.ofNat_natAbs_of_nonpos hn.le]
    · rw [if_neg (by simpa using hn), Int.natAbs_of_nonneg (by omega)]

/-- SAT limits to the magnitude of its second operand. -/
theorem sat_flag (a b : Word) :
    (BitVec.ofInt 32 (max (-(b.toInt.natAbs : Int)) (min b.toInt.natAbs a.toInt)) != a) =
      decide (b.toInt.natAbs < a.toInt.natAbs) := by
  obtain ⟨hlo, hhi⟩ := toInt_word_bounds a
  by_cases h : b.toInt.natAbs < a.toInt.natAbs
  · rw [decide_eq_true h, bne_iff_ne]
    intro hc
    have := congrArg BitVec.toInt hc
    rw [toInt_ofInt_word (by omega) (by omega)] at this
    omega
  · rw [decide_eq_false h, bne_eq_false_iff_eq]
    exact BitVec.eq_of_toInt_eq (by rw [toInt_ofInt_word (by omega) (by omega)]; omega)

/-- Z of a difference. -/
theorem sub_eq_zero_flag (a b : Word) : (a - b == 0) = (a == b) := by
  rw [Bool.eq_iff_iff, beq_iff_eq, beq_iff_eq]
  constructor <;> intro h <;> bv_omega

/-- A difference that wraps is the difference of the words. -/
theorem sub_toInt (a b : Word) : BitVec.ofInt 32 (a.toInt - b.toInt) = a - b := by
  apply BitVec.eq_of_toInt_eq
  rw [BitVec.toInt_ofInt, BitVec.toInt_sub]

/-- Settles O45, instruction by instruction: each is its word, Z and N, and the flags of its row. -/
theorem integerInstructions : Obligations.IntegerInstructions := by
  unfold Obligations.IntegerInstructions
  intro s p t q w hs e he a b ha hb k hk hr sum dif ash hsum hdif hash fit out hfit hout
  subst he ha hb
  have hsh : sxt 6 w.sh.toNat = k := by rw [hk]; exact sxt_toNat (by decide) w.sh
  have hres : ∀ x, sumResult w.sat x = (fit x, out x) := fun x => by rw [sumResult_eq, hfit, hout]
  refine ⟨fun i v fl hi => ?_, ?_⟩
  · simp only [List.mem_cons, List.not_mem_nil, or_false, Prod.mk.injEq] at hi
    rcases hi with ⟨rfl, rfl, rfl⟩ | ⟨rfl, rfl, rfl⟩ | ⟨rfl, rfl, rfl⟩ | ⟨rfl, rfl, rfl⟩ | ⟨rfl, rfl, rfl⟩ |
      ⟨rfl, rfl, rfl⟩ | ⟨rfl, rfl, rfl⟩ | ⟨rfl, rfl, rfl⟩ | ⟨rfl, rfl, rfl⟩ | ⟨rfl, rfl, rfl⟩ | ⟨rfl, rfl, rfl⟩ |
      ⟨rfl, rfl, rfl⟩
    case _ => -- ADD
      refine exec_word _ (fun _ => rfl) hs hr ?_
      dsimp only
      rw [← hsum, hres]
      exact flagged_setFlag (flagged_resultZN_flag _ w.dd _ srC _ (by decide) (by decide)) srV _ rfl
    case _ => -- SUB
      refine exec_word _ (fun _ => rfl) hs hr ?_
      dsimp only
      rw [← hdif, hres]
      exact flagged_setFlag (flagged_resultZN_flag _ w.dd _ srC _ (by decide) (by decide)) srV _ rfl
    case _ => exact exec_word _ (fun _ => rfl) hs hr (flagged_resultZN _ w.dd _)
    case _ => exact exec_word _ (fun _ => rfl) hs hr (flagged_resultZN _ w.dd _)
    case _ => exact exec_word _ (fun _ => rfl) hs hr (flagged_resultZN _ w.dd _)
    case _ => exact exec_word _ (fun _ => rfl) hs hr (flagged_resultZN _ w.dd _)
    case _ => -- ASH
      refine exec_word _ (fun _ => rfl) hs hr ?_
      dsimp only
      have hx : scaleRnd (s.dev.eng p).rmode ((s.dev.eng p).dReg w.da).toInt (sxt 6 w.sh.toNat) = ash := by
        rw [hsh, scaleRnd_eq, Eng.rmode, flag_eq_getLsbD, hash]
      rw [hx, hres]
      exact flagged_stick (flagged_resultZN_flag _ w.dd _ srV _ (by decide) (by decide)) srSOV _ rfl (by decide)
    case _ => -- LSH
      refine exec_word _ (fun _ => rfl) hs hr ?_
      dsimp only
      rw [hsh]
      exact flagged_resultZN _ w.dd _
    case _ => -- MIN
      refine exec_word _ (fun _ => rfl) hs hr ?_
      dsimp only
      rw [← min_flag]
      exact flagged_resultZN_flag _ w.dd _ srV _ (by decide) (by decide)
    case _ => -- MAX
      refine exec_word _ (fun _ => rfl) hs hr ?_
      dsimp only
      rw [← max_flag]
      exact flagged_resultZN_flag _ w.dd _ srV _ (by decide) (by decide)
    case _ => -- ABS
      refine exec_word _ (fun _ => rfl) hs hr ?_
      obtain ⟨hval, hflag⟩ := abs_word ((s.dev.eng p).dReg w.da)
      rw [← hval, ← hflag]
      exact flagged_resultZN_flag _ w.dd _ srV _ (by decide) (by decide)
    case _ => -- SAT
      refine exec_word _ (fun _ => rfl) hs hr ?_
      dsimp only
      rw [← sat_flag, ← clampI_eq (by omega)]
      exact flagged_resultZN_flag _ w.dd _ srV _ (by decide) (by decide)
  · refine exec_word _ (fun _ => rfl) hs hr ?_
    dsimp only
    rw [← hdif, sumResult_eq, ← hout, if_neg Bool.false_ne_true, hdif, sub_toInt, ← sub_eq_zero_flag]
    have hzn := flagged_setFlag (flagged_setFlag (flagged_refl (s.dev.eng p)) srZ
      ((s.dev.eng p).dReg w.da - (s.dev.eng p).op2 w == 0) rfl) srN ((s.dev.eng p).dReg w.da - (s.dev.eng p).op2 w).msb rfl
    exact flagged_setFlag (flagged_setFlag hzn srC _ rfl) srV _ rfl

/-! ## Accumulator instructions -/

theorem stick_false (e : Eng) (i : Nat) : e.stick i false = e := rfl

theorem toInt_acc_bounds (a : BitVec 72) : -(2 ^ 71) ≤ accVal a ∧ accVal a < 2 ^ 71 :=
  ⟨BitVec.le_toInt a, BitVec.toInt_lt (x := a)⟩

/-- A value in the range of the accumulator is held exactly, and AOV stands. -/
theorem accGets_resultAcc (e : Eng) (ac : BitVec 2) (x : Int) (h : -(2 ^ 71) ≤ x) (h' : x < 2 ^ 71) :
    e.accGets (e.resultAcc ac (BitVec.ofInt 72 x)) false ac x := by
  have hout : outsideAcc x = false := by simp only [outsideAcc, Bool.or_eq_false_iff, decide_eq_false_iff_not]; omega
  refine ⟨BitVec.ofInt 72 x, by rw [clamp_of_inside hout, ite_self], ?_, by rw [hout, Bool.false_and, Bool.false_and]⟩
  rw [hout, ← stick_false (e.resultAcc ac (BitVec.ofInt 72 x)) srAOV]
  exact flagged_flagsAcc_stick (e.setAcc ac _) _ false

theorem flagged_resultAcc (e : Eng) (ac : BitVec 2) (v : BitVec 72) :
    (e.setAcc ac v).flagged (e.resultAcc ac v)
      [(srAZ, v == 0), (srAN, v.msb), (srAG, !(v.extractLsb' 63 9 == 0 || v.extractLsb' 63 9 == 511))] := by
  have h := flagged_flagsAcc_stick (e.setAcc ac v) v false
  refine ⟨h.1, fun i hi => (h.2 i hi).trans ?_⟩
  simp only [getD_lookup_cons, List.lookup_nil, Option.getD_none, Bool.or_false]
  by_cases hi : i = srAOV
  · subst hi
    rfl
  · rw [if_neg hi]

/-- An instruction of format R whose accumulator result may leave the range. -/
theorem exec_runAcc {s : State} {p : PairId} {t q : Nat} {w : FmtR} {i : Instr} (f : Eng → Int)
    (hi : ∀ s : State, exec i s = s.act (pairIssue p (runAcc w f))) (hs : s.runs p t q) (hr : w.rsvd = 0) {v : Int}
    (hv : f (s.dev.eng p) = v) :
    ∃ e' num, (s.dev.eng p).accGets e' num w.ac v ∧ exec i s = .next (s.withDev (issued p e' none num s.dev)) := by
  subst hv
  refine ⟨_, _, accGets_accOp _ w.ac _, exec_goesOn (hi s) hs ?_ rfl⟩
  rw [runAcc, if_neg (not_not.mpr hr)]

/-- An instruction of format R that loads an accumulator with a value in its range. -/
theorem exec_resultAcc {s : State} {p : PairId} {t q : Nat} {w : FmtR} {i : Instr} (f : Eng → Int)
    (hi : ∀ s : State, exec i s = s.act (pairIssue p (runR w fun e => e.resultAcc w.ac (BitVec.ofInt 72 (f e)))))
    (hs : s.runs p t q) (hr : w.rsvd = 0) {v : Int} (hv : f (s.dev.eng p) = v) (hlo : -(2 ^ 71) ≤ v) (hhi : v < 2 ^ 71) :
    ∃ e', (s.dev.eng p).accGets e' false w.ac v ∧ exec i s = .next (s.withDev (issued p e' none false s.dev)) := by
  subst hv
  exact ⟨_, accGets_resultAcc _ w.ac _ hlo hhi, exec_runR (fun e => e.resultAcc w.ac (BitVec.ofInt 72 (f e))) i hi hs hr⟩

/-- LDAW joins two words to a signed number of 64 bits. -/
theorem sxt_pair (a b : Word) : sxt 64 (a.toNat + b.toNat * 2 ^ 32) = (a.toNat : Int) + b.toInt * 2 ^ 32 := by
  have ha := a.isLt
  have hb := b.isLt
  unfold sxt
  rw [BitVec.toInt_eq_toNat_cond, Nat.mod_eq_of_lt (by omega)]
  dsimp only
  split_ifs <;> omega

/-! ## Redundant sign bits -/

/-- The count over the first `n` bits below the sign. -/
def signRun (m w n : Nat) : Nat :=
  (List.range n).foldl (fun acc i => if m < 2 ^ (w - 2 - i) && acc == i then acc + 1 else acc) 0

theorem signRun_succ (m w n : Nat) : signRun m w (n + 1) =
    if m < 2 ^ (w - 2 - n) && signRun m w n == n then signRun m w n + 1 else signRun m w n := by
  rw [signRun, List.range_succ, List.foldl_append, List.foldl_cons, List.foldl_nil, signRun]

/-- The run ends at the first bit that differs from the sign. -/
theorem signRun_spec (m w n : Nat) (hn : n < w) (hm : m < 2 ^ (w - 1)) :
    signRun m w n ≤ n ∧ m < 2 ^ (w - 1 - signRun m w n) ∧ (signRun m w n < n → 2 ^ (w - 2 - signRun m w n) ≤ m) := by
  induction n with
  | zero => exact ⟨Nat.le_refl 0, hm, fun h => absurd h (Nat.lt_irrefl 0)⟩
  | succ n ih =>
    obtain ⟨hle, hlt, hstop⟩ := ih (by omega)
    rw [signRun_succ]
    by_cases heq : signRun m w n = n
    · rw [heq] at hlt ⊢
      by_cases hb : m < 2 ^ (w - 2 - n)
      · rw [if_pos (by simpa using hb)]
        exact ⟨Nat.le_refl _, by rwa [show w - 1 - (n + 1) = w - 2 - n by omega], fun h => absurd h (Nat.lt_irrefl _)⟩
      · rw [if_neg (by simpa using hb)]
        exact ⟨Nat.le_succ n, hlt, fun _ => Nat.le_of_not_lt hb⟩
    · rw [if_neg (by simp [heq])]
      exact ⟨by omega, hlt, fun _ => hstop (by omega)⟩

/-- The count of redundant sign bits of an accumulator. -/
theorem redundantSign_acc (x : Int) (hlo : -(2 ^ 71) ≤ x) (hhi : x < 2 ^ 71) :
    redundantSign 72 x ≤ 71 ∧ -(2 ^ (71 - redundantSign 72 x)) ≤ x ∧ x < 2 ^ (71 - redundantSign 72 x) ∧
    (redundantSign 72 x < 71 → ¬ (-(2 ^ (70 - redundantSign 72 x)) ≤ x ∧ x < 2 ^ (70 - redundantSign 72 x))) := by
  have hrun : redundantSign 72 x = signRun (if x < 0 then (-x - 1).toNat else x.toNat) 72 71 := rfl
  obtain ⟨hle, hlt, hstop⟩ := signRun_spec (if x < 0 then (-x - 1).toNat else x.toNat) 72 71 (by decide)
    (by split_ifs <;> omega)
  rw [← hrun] at hle hlt hstop
  change _ < 2 ^ (71 - redundantSign 72 x) at hlt
  change _ → 2 ^ (70 - redundantSign 72 x) ≤ _ at hstop
  have hcast : ∀ k : Nat, ((2 ^ k : Nat) : Int) = 2 ^ k := fun k => by push_cast; rfl
  have hin := hcast (71 - redundantSign 72 x)
  have hout := hcast (70 - redundantSign 72 x)
  refine ⟨hle, ?_, ?_, fun h => ?_⟩
  · rw [← hin]; split_ifs at hlt <;> omega
  · rw [← hin]; split_ifs at hlt <;> omega
  · have := hstop h
    rw [← hout]; split_ifs at this <;> omega

/-! ## Words of a saturated pair -/

/-- The low and the high word of a number of 64 bits. -/
theorem words_toBits (y : Int) :
    BitVec.ofNat 32 (toBits 64 y) = (BitVec.ofInt 64 y).extractLsb' 0 32 ∧
    BitVec.ofNat 32 (toBits 64 y / 2 ^ 32) = (BitVec.ofInt 64 y).extractLsb' 32 32 := by
  have hb : toBits 64 y = (BitVec.ofInt 64 y).toNat := by rw [BitVec.toNat_ofInt]; rfl
  rw [hb]
  constructor
  · rfl
  · rw [← Nat.shiftRight_eq_div_pow]; rfl

/-- Settles O46, instruction by instruction. -/
theorem accumulatorInstructions : Obligations.AccumulatorInstructions := by
  unfold Obligations.AccumulatorInstructions
  intro s p t q w hs e he a x k ha hx hk hr
  subst he ha hx hk
  have hsh : sxt 6 w.sh.toNat = w.sh.toInt := sxt_toNat (by decide) w.sh
  have hrm : (s.dev.eng p).rmode = (s.dev.eng p).SR.getLsbD srRMODE := flag_eq_getLsbD _ _
  obtain ⟨hlo, hhi⟩ := toInt_acc_bounds ((s.dev.eng p).acc w.ac)
  obtain ⟨halo, hahi⟩ := toInt_word_bounds ((s.dev.eng p).dReg w.da)
  obtain ⟨hblo, hbhi⟩ := toInt_word_bounds ((s.dev.eng p).dReg w.db)
  have ha := ((s.dev.eng p).dReg w.da).isLt
  refine ⟨fun i v hi => ?_, fun i v hi => ?_, ?_, ?_, ?_, fun hev => ⟨?_, ?_⟩⟩
  · simp only [List.mem_cons, List.not_mem_nil, or_false, Prod.mk.injEq] at hi
    rcases hi with ⟨rfl, rfl⟩ | ⟨rfl, rfl⟩
    · exact exec_resultAcc (fun e => (e.dReg w.da).toInt * 2 ^ 31) (fun _ => rfl) hs hr rfl (by omega) (by omega)
    · exact exec_resultAcc (fun e => sxt 64 ((e.dReg w.da).toNat + (e.dReg w.db).toNat * 2 ^ 32)) (fun _ => rfl) hs hr
        (sxt_pair _ _) (by omega) (by omega)
  · simp only [List.mem_cons, List.not_mem_nil, or_false, Prod.mk.injEq] at hi
    rcases hi with ⟨rfl, rfl⟩ | ⟨rfl, rfl⟩
    · exact exec_runAcc _ (fun _ => rfl) hs hr (by rw [hrm, hsh])
    · exact exec_runAcc _ (fun _ => rfl) hs hr (by rw [hrm]; rfl)
  · have hv : (BitVec.ofInt 72 (max (-(2 ^ 62)) (min (2 ^ 62 - 1) (accVal ((s.dev.eng p).acc w.ac))))).toInt =
        max (-(2 ^ 62)) (min (2 ^ 62 - 1) (accVal ((s.dev.eng p).acc w.ac))) :=
      BitVec.toInt_ofInt_eq_self (by decide) (by omega) (by omega)
    refine ⟨_, _, hv, ?_, exec_runR _ _ (fun _ => rfl) hs hr⟩
    rw [hv]
    dsimp only
    rw [clampI_eq (by decide)]
    exact flagged_stick (flagged_resultAcc _ w.ac _) srSOV _ rfl (by decide)
  · obtain ⟨hr71, hrlo, hrhi, hrstop⟩ := redundantSign_acc _ hlo hhi
    exact ⟨_, _, _, hr71, hrlo, hrhi, hrstop, rfl, flagged_resultZN _ w.dd _, exec_runR (fun e => e.resultZN w.dd
      (BitVec.ofInt 32 ((redundantSign 72 (accVal (e.acc w.ac)) : Int) - 9))) _ (fun _ => rfl) hs hr⟩
  · have hv := toInt_ofInt_word (x := satS 32 (scaleRnd ((s.dev.eng p).SR.getLsbD srRMODE)
      (accVal ((s.dev.eng p).acc w.ac)) (w.sh.toInt - 31))) (by rw [satS_word]; omega) (by rw [satS_word]; omega)
    refine ⟨_, _, _, rfl, hv.trans (satS_word _), ?_, exec_runR _ _ (fun _ => rfl) hs hr⟩
    rw [hv]
    dsimp only
    rw [hrm, hsh]
    exact flagged_stick (flagged_refl _) srSOV _ rfl (by decide)
  · have hv : (BitVec.ofInt 64 (satS 64 (scaleRnd ((s.dev.eng p).SR.getLsbD srRMODE)
      (accVal ((s.dev.eng p).acc w.ac)) w.sh.toInt))).toInt = satS 64 (scaleRnd ((s.dev.eng p).SR.getLsbD srRMODE)
      (accVal ((s.dev.eng p).acc w.ac)) w.sh.toInt) :=
      BitVec.toInt_ofInt_eq_self (by decide) (by rw [satS_pair]; omega) (by rw [satS_pair]; omega)
    refine ⟨_, _, _, rfl, hv.trans (satS_pair _), flagged_stick (flagged_refl _) srSOV _ rfl (by decide), ?_⟩
    refine exec_goesOn (i := .staw p w) (f := insStaw w) rfl hs ?_ rfl
    rw [hv, ← (words_toBits _).1, ← (words_toBits _).2, ← hrm, ← hsh]
    simp only [insStaw, hev, runR, hr, ne_eq, not_true_eq_false, if_false, Bool.false_eq_true]
  · refine exec_goesOn (i := .sincos p w) (f := insSincos w) rfl hs ?_ rfl
    simp only [insSincos, hev, runR, hr, ne_eq, not_true_eq_false, if_false, Bool.false_eq_true]

/-! ## Memory an instruction leaves -/

theorem mem8_issued (p : PairId) (new : Eng) (j : Option (BitVec 16)) (num : Bool) (d : Dev) (a : Nat)
    (ha : a < dramLog ∨ dramLog + 0x4000 ≤ a) : (issued p new j num d).mem8 a = d.mem8 a := by
  unfold issued
  cases num
  · rfl
  · have hp := p.isLt
    exact (posted_raise (pgCep p) 2 p _ (by unfold pgCep; omega) (by decide)).mem a ha

/-- A write that names no committed status writes its own bytes alone. -/
theorem mem8_engWrite_out (d : Dev) (p addr n v a : Nat) (hs : isStatus addr = false)
    (ha : a < dataAddr p addr ∨ dataAddr p addr + n ≤ a) : (d.engWrite p addr n v).mem8 a = d.mem8 a := by
  unfold Dev.engWrite
  rw [hs]
  exact mem8_setMemLE_out n d _ v a ha

theorem isStatus_of_lt {addr : Nat} (h : addr < 0x1000_0000) : isStatus addr = false := by
  unfold isStatus
  rw [decide_eq_false (by omega), Bool.false_and, Bool.false_and]

/-- A move that meets no trap stays in X and Y data (R306). -/
theorem moveTrap_inside {env : Env} {e : Eng} {isY : Bool} {m : MoveField} (h : moveTrap env e isY m = none)
    (hm : m.mop ≠ 0) : (e.aReg m.ar).toNat + szBytes m.sz ≤ 0x2_0000 := by
  unfold moveTrap at h
  rw [if_neg hm] at h
  dsimp only at h
  by_contra hout
  cases isY
  · rw [if_neg Bool.false_ne_true, decide_eq_false (p := _ ≤ 0x1_0000) (by omega), Bool.and_false, Bool.not_false, Bool.true_or,
      if_pos rfl] at h
    cases h
  · rw [if_pos rfl, decide_eq_false (p := _ ≤ 0x2_0000) hout, Bool.and_false, Bool.not_false, Bool.true_or, if_pos rfl] at h
    cases h

/-- A move that stores is a move. -/
theorem mop_ne_of_moveStore {e : Eng} {m : MoveField} {x : Nat × Nat × Nat} (h : moveStore e m = some x) :
    m.mop ≠ 0 ∧ x.1 = (e.aReg m.ar).toNat := by
  unfold moveStore at h
  split at h
  next hm => exact ⟨fun h0 => by rw [h0] at hm; exact absurd hm (by decide), by cases h; rfl⟩
  next hm => exact ⟨fun h0 => by rw [h0] at hm; exact absurd hm (by decide), by cases h; rfl⟩
  next => cases h

theorem mem8_storeOf_out {env : Env} {e : Eng} {isY : Bool} {m : MoveField} (htrap : moveTrap env e isY m = none) (d : Dev)
    (a : Nat) (ha : ∀ b n v, moveStore e m = some (b, n, v) → a < dataAddr env.pair b ∨ dataAddr env.pair b + n ≤ a) :
    (storeOf env e m d).mem8 a = d.mem8 a := by
  unfold storeOf
  split
  next b n v hstore =>
    obtain ⟨hm, hb⟩ := mop_ne_of_moveStore hstore
    have hin := moveTrap_inside htrap hm
    exact mem8_engWrite_out d _ b n v a (isStatus_of_lt (by dsimp only at hb; omega)) (ha b n v hstore)
  next => rfl

/-! ## Format P -/

/-- What an instruction of format P computes where it meets no trap. -/
theorem runP_runs {env : Env} {e : Eng} {w : FmtP} (h : e.movesRun env w) (alu : Alu) (d : Dev) :
    runP w alu env e d = .ok ⟨d.moved env w e (alu e).1, storeOf env e w.ymv (storeOf env e w.xmv d), .next, (alu e).2⟩ := by
  obtain ⟨hr, hx, hy, hc, htx, hty⟩ := h
  have hform : (w.rsvd ≠ 0 || !moveLegal w.xmv || !moveLegal w.ymv || moveClash w.xmv w.ymv) = false := by
    simp only [hr, hx, hy, hc]; decide
  unfold runP
  rw [hform, htx, hty]
  rfl

/-- A pair issues an instruction of format P. -/
theorem exec_runP {s : State} {p : PairId} {t q : Nat} {w : FmtP} {i : Instr} (alu : Alu)
    (hi : exec i s = s.act (pairIssue p (runP w alu))) (hs : s.runs p t q)
    (h : (s.dev.eng p).movesRun (s.dev.taskEnv p t) w) :
    exec i s = .next (s.withDev (issued p (s.dev.moved (s.dev.taskEnv p t) w (s.dev.eng p) (alu (s.dev.eng p)).1) none
      (alu (s.dev.eng p)).2 (storeOf (s.dev.taskEnv p t) (s.dev.eng p) w.ymv
        (storeOf (s.dev.taskEnv p t) (s.dev.eng p) w.xmv s.dev)))) :=
  exec_goesOn hi hs (runP_runs h alu s.dev) (by rw [storeOf_pairs, storeOf_pairs])

/-- An instruction of format P whose arithmetic writes an accumulator. -/
theorem exec_accOp {s : State} {p : PairId} {t q : Nat} {w : FmtP} {i : Instr} (f : Eng → Int)
    (hi : exec i s = s.act (pairIssue p (runP w fun e => accOp w.acd (f e) e))) (hs : s.runs p t q)
    (h : (s.dev.eng p).movesRun (s.dev.taskEnv p t) w) :
    ∃ e' num, (s.dev.eng p).accGets e' num w.acd (f (s.dev.eng p)) ∧
      exec i s = .next (s.withDev (issued p (s.dev.moved (s.dev.taskEnv p t) w (s.dev.eng p) e') none num
        (storeOf (s.dev.taskEnv p t) (s.dev.eng p) w.ymv (storeOf (s.dev.taskEnv p t) (s.dev.eng p) w.xmv s.dev)))) :=
  ⟨_, _, accGets_accOp _ w.acd _, exec_runP _ hi hs h⟩

/-- The instructions of format P that write an accumulator, each with its exact result (R316). -/
def accRows (p : PairId) (w : FmtP) (e : Eng) : List (Instr × Int) :=
  [(.mac p w, accVal (e.acc w.acd) + product w.sm (e.dReg w.sa) (e.dReg w.sb)),
    (.msu p w, accVal (e.acc w.acd) - product w.sm (e.dReg w.sa) (e.dReg w.sb)),
    (.mpy p w, product w.sm (e.dReg w.sa) (e.dReg w.sb)),
    (.adda p w, accVal (e.acc w.acd) + accVal (e.acc w.acs)),
    (.suba p w, accVal (e.acc w.acd) - accVal (e.acc w.acs)), (.clra p w, 0)]

theorem exec_accRows {s : State} {p : PairId} {t q : Nat} {w : FmtP} (hs : s.runs p t q)
    (h : (s.dev.eng p).movesRun (s.dev.taskEnv p t) w) {i : Instr} {x : Int} (hi : (i, x) ∈ accRows p w (s.dev.eng p)) :
    ∃ e' num, (s.dev.eng p).accGets e' num w.acd x ∧
      exec i s = .next (s.withDev (issued p (s.dev.moved (s.dev.taskEnv p t) w (s.dev.eng p) e') none num
        (storeOf (s.dev.taskEnv p t) (s.dev.eng p) w.ymv (storeOf (s.dev.taskEnv p t) (s.dev.eng p) w.xmv s.dev)))) := by
  simp only [accRows, List.mem_cons, List.not_mem_nil, or_false, Prod.mk.injEq] at hi
  rcases hi with ⟨rfl, rfl⟩ | ⟨rfl, rfl⟩ | ⟨rfl, rfl⟩ | ⟨rfl, rfl⟩ | ⟨rfl, rfl⟩ | ⟨rfl, rfl⟩
  case _ => exact exec_accOp (fun e => accVal (e.acc w.acd) + product w.sm (e.dReg w.sa) (e.dReg w.sb)) rfl hs h
  case _ => exact exec_accOp (fun e => accVal (e.acc w.acd) - product w.sm (e.dReg w.sa) (e.dReg w.sb)) rfl hs h
  case _ => exact exec_accOp (fun e => product w.sm (e.dReg w.sa) (e.dReg w.sb)) rfl hs h
  case _ => exact exec_accOp (fun e => accVal (e.acc w.acd) + accVal (e.acc w.acs)) rfl hs h
  case _ => exact exec_accOp (fun e => accVal (e.acc w.acd) - accVal (e.acc w.acs)) rfl hs h
  case _ => exact exec_accOp (fun _ => 0) rfl hs h

/-- Settles O43: each instruction is its arithmetic between the reads and the writes of its moves. -/
theorem formatPInstructions : Obligations.FormatPInstructions := by
  unfold Obligations.FormatPInstructions
  intro s p t q w hs e he env henv hmoves
  subst he henv
  have hnop := exec_runP (i := .nop p w) (fun e => (e, false)) rfl hs hmoves
  refine ⟨hnop, fun i x hi => exec_accRows hs hmoves hi, fun i hi u hu a ha hout => ?_⟩
  obtain ⟨e', num, hexec⟩ : ∃ e' num, exec i s = .next (s.withDev (issued p e' none num
      (storeOf (s.dev.taskEnv p t) (s.dev.eng p) w.ymv (storeOf (s.dev.taskEnv p t) (s.dev.eng p) w.xmv s.dev)))) := by
    rcases List.mem_cons.mp hi with rfl | hi
    · exact ⟨_, _, hnop⟩
    · have hrow : i ∈ (accRows p w (s.dev.eng p)).map Prod.fst := hi
      obtain ⟨⟨_, x⟩, hx, rfl⟩ := List.mem_map.mp hrow
      obtain ⟨e', num, -, h⟩ := exec_accRows hs hmoves hx
      exact ⟨_, _, h⟩
  rw [hexec] at hu
  cases hu
  obtain ⟨-, -, -, -, htx, hty⟩ := hmoves
  refine (mem8_issued p e' none num _ a ha).trans ?_
  rw [mem8_storeOf_out hty _ a (hout _ (.tail _ (.head _))), mem8_storeOf_out htx _ a (hout _ (.head _))]

/-! ## Moves of special registers -/

theorem lookup_map_range (f : Nat → Bool) (n i : Nat) (hi : i < n) :
    ((List.range n).map fun i => (i, f i)).lookup i = some (f i) := by
  induction n with
  | zero => exact absurd hi (Nat.not_lt_zero i)
  | succ n ih =>
    rw [List.range_succ, List.map_append, List.lookup_append]
    by_cases h : i < n
    · rw [ih h, Option.some_or]
    · have hin : i = n := by omega
      subst hin
      have hnone : ((List.range i).map fun i => (i, f i)).lookup i = none := by
        rw [List.lookup_eq_none_iff]
        intro x hx
        obtain ⟨j, hj, rfl⟩ := List.mem_map.mp hx
        exact bne_iff_ne.mpr (Nat.ne_of_gt (List.mem_range.mp hj))
      rw [hnone, Option.none_or, List.map_cons, List.lookup_cons_self]

/-- MOVS to SR writes its 14 stored bits (R309). -/
theorem flagged_srWrite (e : Eng) (v : Word) :
    e.flagged (e.srWrite v) ((List.range 32).map fun i => (i, decide (i < 14) && v.getLsbD i)) := by
  refine ⟨rfl, fun i hi => ?_⟩
  rw [lookup_map_range _ _ _ hi, Option.getD_some, Eng.srWrite, BitVec.getLsbD_ofNat, decide_eq_true hi, Bool.true_and,
    Nat.testBit_mod_two_pow]
  rfl

/-- Settles O47. -/
theorem specialRegisterMoves : Obligations.SpecialRegisterMoves := by
  unfold Obligations.SpecialRegisterMoves
  intro s p t q w hs e he hr
  subst he
  refine ⟨fun hdd i hi c hc => ?_, fun hm hi => ?_, fun hm => ⟨fun h0 => ?_, fun h1 => ?_, fun h2 => ?_⟩, fun hn => ?_,
    fun hn => ?_⟩
  · have h3 : w.dd.getLsbD 3 = false := by
      rw [BitVec.getLsbD, Nat.testBit_eq_decide_div_mod_eq]
      simp only [decide_eq_false_iff_not]
      omega
    have hfin : (⟨w.dd.toNat % 8, Nat.mod_lt _ (by decide)⟩ : Fin 8) = i := Fin.ext (by rw [hi]; exact Nat.mod_eq_of_lt hdd)
    refine exec_goesOn (i := .mova p w) (f := insMova w) rfl hs ?_ rfl
    unfold insMova
    rw [h3, hfin]
    rcases hc with ⟨hac, rfl⟩ | ⟨hac, rfl⟩ | ⟨hac, rfl⟩ <;> rw [hac] <;> exact if_neg (not_not.mpr hr)
  · refine exec_goesOn (i := .movs p w) (f := insMovs w) rfl hs ?_ rfl
    simp only [insMovs, Nat.not_lt.mpr hi, hm, if_true, if_false, runR, hr, ne_eq, not_true_eq_false]
  · refine ⟨_, flagged_srWrite _ _, exec_goesOn (i := .movs p w) (f := insMovs w) rfl hs ?_ rfl⟩
    unfold insMovs
    rw [hm, h0]
    exact if_neg (not_not.mpr hr)
  · refine exec_goesOn (i := .movs p w) (f := insMovs w) rfl hs ?_ rfl
    unfold insMovs
    rw [hm, h1]
    exact if_neg (not_not.mpr hr)
  · refine exec_goesOn (i := .movs p w) (f := insMovs w) rfl hs ?_ rfl
    unfold insMovs
    rw [hm, h2]
    exact if_neg (not_not.mpr hr)
  · refine exec_goesOn (i := .rdt p w) (f := insRdt w) rfl hs ?_ rfl
    unfold insRdt
    rw [if_neg (not_not.mpr hr), hn]
    rfl
  · refine exec_traps (i := .rdt p w) (f := insRdt w) rfl hs ?_
    unfold insRdt
    rw [if_neg (not_not.mpr hr), hn]
    rfl

/-! ## Format C -/

theorem mayJump_of_lt (c : Code) {a : BitVec 16} (h : a.toNat < 0x4000) : c.mayJump a = true := by
  unfold Code.mayJump
  rw [decide_eq_true h, Bool.true_or]

/-- An instruction of format C that jumps. -/
theorem exec_jumps {s : State} {p : PairId} {t q : Nat} {f : IFun} {i : Instr} {e : Eng} {a : BitVec 16}
    (hi : exec i s = s.act (pairIssue p f)) (h : s.runs p t q)
    (hf : f (s.dev.taskEnv p t) (s.dev.eng p) s.dev = .ok ⟨e, s.dev, .jump a, false⟩) :
    exec i s = .next (s.withDev (issued p e (some a) false s.dev)) :=
  exec_issues hi h hf rfl

/-- RET at a depth at which no block is open. -/
theorem insRet_runs {w : FmtC} {env : Env} {e : Eng} (d : Dev) (hr : w.rsvd = 0) (hend : e.atEnd = false)
    (hc : e.holds w.cond = true) (hl : ∀ l, e.loops.head? = some l → l.depth ≠ e.calls.length) {a : BitVec 16}
    {rest : List (BitVec 16)} (hcalls : e.calls = a :: rest) :
    insRet w env e d = .ok ⟨{ e with calls := rest }, d, .jump a, false⟩ := by
  unfold insRet
  rw [if_neg (not_not.mpr hr), hend, hc]
  cases hlo : e.loops with
  | nil => simp [hcalls]
  | cons l ls =>
    have hne : (l.depth == e.calls.length) = false := beq_eq_false_iff_ne.mpr (hl l (by rw [hlo]; rfl))
    simp only [hne]
    simp [hcalls]

/-- REP of a block that may be opened. -/
theorem insRep_runs {w : FmtC} {env : Env} {e : Eng} (d : Dev) (hr : w.rsvd = 0) (h0 : w.cond = 0)
    (hend : e.atEnd = false) {n : Nat} (hn : n = (if w.csrc then (e.dReg w.dc).toNat else w.imm.toNat % 2 ^ 16))
    (hle : n ≤ 65535) (himm : w.imm.toNat < 2 ^ 16) (hloops : e.loops.length < 4)
    (hin : ∀ l, e.loops.head? = some l → l.depth = e.calls.length → w.tgt.toNat ≤ l.last.toNat) :
    insRep w env e d = .ok (if n = 0 then ⟨e, d, .jump (w.tgt + 1), false⟩ else
      ⟨{ e with loops := ⟨e.pc + 1, w.tgt, n, e.calls.length, false⟩ :: e.loops }, d, .jump (e.pc + 1), false⟩) := by
  have hform : (w.rsvd ≠ 0 || w.cond ≠ 0 || w.imm.toNat / 2 ^ 16 ≠ 0) = false := by
    simp only [hr, h0, Nat.div_eq_of_lt himm]; decide
  unfold insRep
  rw [hform, hend, ← hn]
  cases hlo : e.loops with
  | nil =>
    simp only [Bool.false_eq_true, if_false, Nat.not_lt.mpr hle, List.length_nil, decide_false, Bool.or_false]
    by_cases hz : n = 0
    · rw [if_pos hz, if_pos hz]; rfl
    · rw [if_neg hz, if_neg hz]; rfl
  | cons l ls =>
    have hb : (l.depth == e.calls.length && decide (l.last.toNat < w.tgt.toNat)) = false := by
      by_cases hd : l.depth = e.calls.length
      · rw [decide_eq_false (Nat.not_lt.mpr (hin l (by rw [hlo]; rfl) hd)), Bool.and_false]
      · rw [beq_eq_false_iff_ne.mpr hd, Bool.false_and]
    rw [hlo] at hloops
    simp only [hb, Bool.false_eq_true, if_false, Nat.not_lt.mpr hle, Nat.not_le.mpr hloops, decide_false, Bool.or_false]
    by_cases hz : n = 0
    · rw [if_pos hz, if_pos hz]
    · rw [if_neg hz, if_neg hz]

/-- Settles O50. -/
theorem controlInstructions : Obligations.ControlInstructions := by
  unfold Obligations.ControlInstructions
  intro s p t q w hs e he hr on hon
  subst he
  simp only [hon]
  refine ⟨fun hend => ⟨fun hc i hi => ?_, fun hc ht => ⟨fun hl => ?_, fun hd => ?_⟩, fun hc hl a rest hcalls => ?_,
    fun h0 => ⟨fun n hn hle himm hloops hin => ?_, fun hl => ?_, fun l ls hl => ?_, ?_, ?_⟩⟩, fun h0 => ⟨fun himm => ?_,
    fun hst hb => ?_, fun hb => ?_⟩⟩
  · simp only [List.mem_cons, List.not_mem_nil, or_false] at hi
    rcases hi with rfl | rfl | rfl
    · exact exec_goesOn (f := insJmp w) rfl hs (by simp [insJmp, hr, hc, hend]) rfl
    · exact exec_goesOn (f := insCall w) rfl hs (by simp [insCall, hr, hc, hend]) rfl
    · exact exec_goesOn (f := insRet w) rfl hs (by simp [insRet, hr, hc, hend]) rfl
  · exact exec_jumps (f := insJmp w) rfl hs (by simp [insJmp, hr, hc, hend, hl, mayJump_of_lt _ ht])
  · exact exec_jumps (f := insCall w) rfl hs (by simp [insCall, hr, hc, hend, Nat.not_le.mpr hd, mayJump_of_lt _ ht])
  · exact exec_jumps (f := insRet w) rfl hs (insRet_runs s.dev hr hend hc hl hcalls)
  · have hrep := insRep_runs (env := s.dev.taskEnv p t) s.dev hr h0 hend hn hle himm hloops hin
    by_cases hz : n = 0
    · rw [if_pos hz] at hrep
      rw [if_pos hz]
      exact exec_jumps (f := insRep w) rfl hs hrep
    · rw [if_neg hz] at hrep
      rw [if_neg hz]
      exact exec_jumps (f := insRep w) rfl hs hrep
  · exact exec_goesOn (f := insBrkl w) rfl hs (by simp [insBrkl, hr, h0, hend, hl]) rfl
  · exact exec_goesOn (f := insBrkl w) rfl hs (by simp [insBrkl, hr, h0, hend, hl]) rfl
  · exact exec_issues (f := insYield w) (ctl := .yield) rfl hs (by simp [insYield, runC, hr, h0, hend]) rfl
  · exact exec_issues (f := insDone w) (ctl := .done) rfl hs (by simp [insDone, runC, hr, h0, hend]) rfl
  · have h := exec_issues (i := .post p w) (f := insPost w) (e := s.dev.eng p) (d := s.dev) (num := false)
      (ctl := .post (w.imm.toNat % 32) (if w.csrc then ((s.dev.eng p).dReg w.dc).toNat % 2 ^ 16 else w.imm.toNat / 2 ^ 16))
      rfl hs (by unfold insPost; rw [hr, h0, himm]; rfl) rfl
    exact h
  · have hhalts : (s.dev.taskEnv p t).halts = true := by
      show (s.dev.stage == 1 && s.dev.on (pgCep p) CEP.BKPTEN) = true
      rw [hst, hb]
      rfl
    exact exec_issues (f := insBkpt w) (ctl := .halt) rfl hs (by simp [insBkpt, hr, h0, hhalts]) rfl
  · have hhalts : (s.dev.taskEnv p t).halts = false := by
      show (s.dev.stage == 1 && s.dev.on (pgCep p) CEP.BKPTEN) = false
      rcases hb with hst | hb
      · rw [beq_eq_false_iff_ne.mpr hst, Bool.false_and]
      · rw [hb, Bool.and_false]
    exact exec_traps (f := insBkpt w) rfl hs (by simp [insBkpt, hr, h0, hhalts])

/-! ## Format M -/

/-- The three traps of a format M access come in the order of their codes (R305, R307, R314). -/
theorem trapM_eq (env : Env) (e : Eng) (w : FmtM) (write : Bool) {a n : Nat} (ha : a = addrM e w) (hn : n = szBytes w.sz) :
    trapM env e w write = if legalM w = false then some 1 else if mayAccess env.code a n write = false then some 2
      else if a % n ≠ 0 then some 3 else none := by
  subst ha hn
  unfold trapM
  simp only [Bool.not_eq_true', bne_iff_ne]

/-- A user task's own code runs on the pair. -/
theorem taskEnv_user {s : State} {p : PairId} {t q : Nat} (h : s.runs p t q) : (s.dev.taskEnv p t).code = .user := by
  obtain ⟨-, -, ht⟩ := h
  exact if_neg (by omega)

theorem user_write_inside {a n : Nat} (h : mayAccess .user a n true = true) : isStatus a = false := by
  unfold mayAccess at h
  simp only [Bool.not_true, Bool.false_and, Bool.or_false, Bool.or_eq_true, Bool.and_eq_true, decide_eq_true_eq] at h
  unfold isStatus
  rcases h with (h | h) | h
  · rw [decide_eq_false (by omega), Bool.false_and, Bool.false_and]
  · rw [decide_eq_false (by omega), Bool.false_and, Bool.false_and]
  · rw [decide_eq_false (p := a < 0x1030_0000) (by omega), Bool.and_false, Bool.false_and]

theorem stick_D (e : Eng) (i : Nat) (v : Bool) : (e.stick i v).D = e.D := by rw [stick_eq]

/-- A load of a whole word without a shift leaves the word. -/
theorem dReg_loadReg_word (e : Eng) (reg : BitVec 4) (v : Nat) :
    (e.loadReg reg 0 0 v).dReg reg = BitVec.ofNat 32 v := by
  have hy : (bscApply e.rmode (placeLoad 0 v) (bscShift e 0)).1 = sxt 32 v := by
    show satS 32 (scaleRnd e.rmode (sxt 32 v) 0) = _
    rw [scaleRnd_eq, if_pos (Int.le_refl 0), Int.toNat_zero, pow_zero, mul_one, satS_word]
    unfold sxt
    dsimp only
    split_ifs <;> omega
  have hload : (e.loadReg reg 0 0 v).D = (e.setD reg (BitVec.ofInt 32 (sxt 32 v))).D := by
    rw [← hy]
    unfold Eng.loadReg
    rw [if_neg (by decide)]
    exact stick_D (e.setD reg (BitVec.ofInt 32 (bscApply e.rmode (placeLoad 0 v) (bscShift e 0)).1)) srSOV _
  have hword : BitVec.ofInt 32 (sxt 32 v) = BitVec.ofNat 32 v := by
    have hmod : sxt 32 v = sxt 32 (BitVec.ofNat 32 v).toNat := by
      unfold sxt
      rw [BitVec.toNat_ofNat, Nat.mod_mod]
    rw [hmod, sxt_toNat (by decide), BitVec.ofInt_toInt]
  unfold Eng.dReg
  simp only [hload, hword]
  exact dReg_setD_same e reg _

theorem dReg_applyMova (m : Option (AddrClass × Fin 8 × Word)) (e : Eng) (i : BitVec 4) :
    (applyMova m e).dReg i = e.dReg i := by
  unfold applyMova
  split <;> rfl

/-- A data register after an instruction that goes on. -/
theorem dReg_issued (p : PairId) (new : Eng) (d : Dev) (i : BitVec 4) :
    ((issued p new none false d).eng p).dReg i = new.dReg i := by
  unfold Dev.eng
  rw [pair_issued]
  exact dReg_applyMova _ new i

/-- The engine with the address update of a format M access. -/
def Eng.updated (x e : Eng) (w : FmtM) (n : Nat) : Eng :=
  if w.upd = 0 then x else x.setA w.ar (addrUpdate e w.ar w.upd n)

theorem updated_eq (x e : Eng) (w : FmtM) (n : Nat) :
    x.updated e w n = x.setA w.ar (if w.upd = 0 then x.aReg w.ar else addrUpdate e w.ar w.upd n) := by
  unfold Eng.updated
  by_cases h0 : w.upd = 0
  · rw [if_pos h0, if_pos h0, setA_aReg]
  · rw [if_neg h0, if_neg h0]

theorem insLd_runs {env : Env} {e : Eng} {w : FmtM} (d : Dev) (h : trapM env e w false = none) :
    insLd w env e d = .ok ⟨(e.loadReg w.dd w.sz w.bsc (d.engRead env.pair (addrM e w) (szBytes w.sz))).updated e w (szBytes w.sz),
      d, .next, false⟩ := by
  unfold insLd
  rw [h]
  rfl

theorem insSt_runs {env : Env} {e : Eng} {w : FmtM} (d : Dev) (h : trapM env e w true = none) :
    insSt w env e d = .ok ⟨(e.storeReg w.dd w.sz w.bsc).2.updated e w (szBytes w.sz),
      d.engWrite env.pair (addrM e w) (szBytes w.sz) (e.storeReg w.dd w.sz w.bsc).1, .next, false⟩ := by
  unfold insSt
  rw [h]
  rfl

theorem insLd_traps {env : Env} {e : Eng} {w : FmtM} {c : Nat} (d : Dev) (h : trapM env e w false = some c) :
    insLd w env e d = .error c := by
  unfold insLd
  rw [h]

theorem insSt_traps {env : Env} {e : Eng} {w : FmtM} {c : Nat} (d : Dev) (h : trapM env e w true = some c) :
    insSt w env e d = .error c := by
  unfold insSt
  rw [h]

/-- Settles O51. -/
theorem memoryInstructions : Obligations.MemoryInstructions := by
  unfold Obligations.MemoryInstructions
  intro s p t q w hs e he a n ha hn upd hupd
  subst he
  have htrap := fun write => (trapM_eq (s.dev.taskEnv p t) (s.dev.eng p) w write ha hn)
  rw [taskEnv_user hs] at htrap
  have hu : ∀ x : Eng, upd x = x.updated (s.dev.eng p) w n := fun x => by rw [hupd, updated_eq]
  have ld : ∀ c, trapM (s.dev.taskEnv p t) (s.dev.eng p) w false = some c →
      exec (.ld p w) s = .next (s.withDev (taskTrap p t c s.dev)) := fun c h =>
    exec_traps (f := insLd w) rfl hs (insLd_traps s.dev h)
  have st : ∀ c, trapM (s.dev.taskEnv p t) (s.dev.eng p) w true = some c →
      exec (.st p w) s = .next (s.withDev (taskTrap p t c s.dev)) := fun c h =>
    exec_traps (f := insSt w) rfl hs (insSt_traps s.dev h)
  refine ⟨fun hl => ⟨fun hm hal => ?_, fun hm hal => ?_, fun hm => ?_, fun hm => ?_, fun hm hal => ?_, fun hm hal => ?_⟩,
    fun hl => ⟨ld 1 (by rw [htrap, if_pos hl]), st 1 (by rw [htrap, if_pos hl])⟩⟩
  · have hrun : exec (.ld p w) s = .next (s.withDev
        (issued p (upd ((s.dev.eng p).loadReg w.dd w.sz w.bsc (s.dev.engRead p a n))) none false s.dev)) := by
      rw [hu, ha, hn]
      exact exec_goesOn (f := insLd w) rfl hs (insLd_runs s.dev (by rw [htrap]; simp [hl, hm, hal])) rfl
    refine ⟨hrun, fun hsz hbsc hupd0 u hexec => ?_⟩
    rw [hrun] at hexec
    cases hexec
    have hn4 : n = 4 := by rw [hn, hsz]; rfl
    refine (dReg_issued p _ s.dev w.dd).trans ?_
    rw [hu, Eng.updated, if_pos hupd0, hsz, hbsc, hn4]
    exact dReg_loadReg_word _ w.dd _
  · have hrun : exec (.st p w) s = .next (s.withDev (issued p (upd ((s.dev.eng p).storeReg w.dd w.sz w.bsc).2) none false
        (s.dev.engWrite p a n ((s.dev.eng p).storeReg w.dd w.sz w.bsc).1))) := by
      rw [hu, ha, hn]
      exact exec_goesOn (f := insSt w) rfl hs (insSt_runs s.dev (by rw [htrap]; simp [hl, hm, hal])) (engWrite_pairs _ _ _ _ _)
    refine ⟨hrun, fun u hexec b hb => ?_⟩
    rw [hrun] at hexec
    cases hexec
    exact mem8_engWrite_out s.dev p a n _ b (user_write_inside hm) hb
  · exact ld 2 (by rw [htrap]; simp [hl, hm])
  · exact st 2 (by rw [htrap]; simp [hl, hm])
  · exact ld 3 (by rw [htrap]; simp [hl, hm, hal])
  · exact st 3 (by rw [htrap]; simp [hl, hm, hal])

end Sys2Proof.Machine
end

section
/-! PROOFS. Reset pins, presence and the way out of KEEPER (spec/14). -/
namespace Sys2Proof.Machine

/-! ## Pages put back to reset -/

theorem regKey_page {p s o : Nat} (hp : p < 1024) (ho : o < 4096) : regKey p s o / 4096 % 1024 = p := by
  unfold regKey
  omega

theorem regGet_filter (l : List (Nat × Word)) (q : Nat → Bool) (k : Nat) :
    regGet (l.filter fun kw => q kw.1) k = if q k then regGet l k else none := by
  induction l with
  | nil => simp [regGet]
  | cons x l ih =>
    obtain ⟨k', w⟩ := x
    by_cases hq : q k'
    · rw [List.filter_cons_of_pos (by exact hq), regGet, regGet, ih]
      by_cases hk : k' = k
      · rw [if_pos hk, if_pos hk, if_pos (hk ▸ hq)]
      · rw [if_neg hk, if_neg hk]
    · rw [List.filter_cons_of_neg (by exact hq), ih, regGet]
      by_cases hk : k' = k
      · rw [if_neg (hk ▸ hq), if_neg (hk ▸ hq)]
      · rw [if_neg hk]

/-- A page that is put back reads its reset values; every other register stands. -/
theorem reg_resetPages (P : Nat → Bool) (d : Dev) {p o : Nat} (s : Nat) (hp : p < 1024) (ho : o < 4096) :
    (d.resetPages P).reg p s o = if P p then resetWord d.conf p o else d.reg p s o := by
  rw [reg_eq, reg_eq]
  show (regGet (d.regs.filter fun kw => !P (kw.1 / 4096 % 1024)) (regKey p s o)).getD (resetWord d.conf p o) = _
  rw [regGet_filter d.regs (fun k => !P (k / 4096 % 1024)), regKey_page hp ho]
  cases P p <;> rfl

/-! ## Reset pins -/

/-- The register of PERSTCNT apart, a register of STG stands when PERST_N is counted. -/
theorem reg_perst {d : Dev} {page sel off : Nat} (hp : page < 1024) (ho : off < 4096)
    (h : (page, sel, off) ≠ (pgSTG, 0, STG.PERSTCNT.off)) :
    (d.inc pgSTG STG.PERSTCNT).reg page sel off = d.reg page sel off := by
  refine reg_wrS_key _ _ _ _ _ _ _ _ fun hk => h ?_
  obtain ⟨rfl, rfl, rfl⟩ := regKey_inj (by decide) hp (by decide) ho hk
  rfl

theorem resetPages_units (P : Nat → Bool) (host : HostIf) (evt : EvtUnit) (x y : Dev)
    (h : y = { x.resetPages P with host := host, evt := evt }) :
    y.keep = x.keep ∧ y.mem = x.mem ∧ y.pairs = x.pairs ∧ y.mot = x.mot ∧ y.tsu = x.tsu ∧ y.cap = x.cap ∧ y.load = x.load ∧
    y.safe = x.safe ∧ y.io = x.io ∧ y.mfe = x.mfe ∧ y.ring = x.ring ∧ y.time = x.time ∧ y.red = x.red ∧ y.host = host ∧
    y.conf = x.conf ∧ ∀ p s o, y.reg p s o = (x.resetPages P).reg p s o := by
  subst h
  exact ⟨rfl, rfl, rfl, rfl, rfl, rfl, rfl, rfl, rfl, rfl, rfl, rfl, rfl, rfl, rfl, fun _ _ _ => rfl⟩

/-- A write of a register leaves every unit. -/
theorem wr_units (d : Dev) (p : Nat) (f : Fld) (v : Nat) (y : Dev) (h : y = d.wr p f v) :
    y.keep = d.keep ∧ y.mem = d.mem ∧ y.pairs = d.pairs ∧ y.mot = d.mot ∧ y.tsu = d.tsu ∧ y.cap = d.cap ∧ y.load = d.load ∧
    y.safe = d.safe ∧ y.io = d.io ∧ y.mfe = d.mfe ∧ y.ring = d.ring ∧ y.time = d.time ∧ y.red = d.red ∧ y.conf = d.conf := by
  subst h
  exact ⟨wr_keep _ _ _ _, wr_mem _ _ _ _, wr_pairs _ _ _ _, wr_mot _ _ _ _, wr_tsu _ _ _ _, wr_cap _ _ _ _, wr_load _ _ _ _,
    wr_safe _ _ _ _, wr_io _ _ _ _, wr_mfe _ _ _ _, wr_ring _ _ _ _, wr_time _ _ _ _, wr_red _ _ _ _, wr_conf _ _ _ _⟩

/-- PERST_N low notes itself. -/
def Dev.perstNoted (d : Dev) : Dev := { d with keep := { d.keep with perst := true } }

/-- What the loss of the link leaves of a device that has counted it. -/
def Dev.linkReset (x : Dev) : Dev :=
  let y := x.resetPages fun p => p == pgHIF || p == pgDMC
  { y with
    host := { HostIf.reset with spi := y.host.spi, reported := y.host.reported },
    evt := { y.evt with msgPending := Vector.replicate 32 false } }

/-- PERST_N low counts, and puts the pages of the host interface back. -/
theorem perstAssert_eq {d : Dev} (h : d.keep.perst = false) :
    perstAssert d = (d.perstNoted.inc pgSTG STG.PERSTCNT).linkReset :=
  if_neg (by rw [h]; exact Bool.false_ne_true)

theorem perst_spi (d : Dev) : (d.perstNoted.inc pgSTG STG.PERSTCNT).host.spi = d.host.spi := by
  rw [Dev.inc, wr_host]
  rfl

theorem perst_kept {d y : Dev} (h : d.keep.perst = false) (hy : y = perstAssert d) :
    y.keep.perst = true ∧ y.mem = d.mem ∧ y.pairs = d.pairs ∧ y.mot = d.mot ∧ y.tsu = d.tsu ∧ y.cap = d.cap ∧
    y.load = d.load ∧ y.safe = d.safe ∧ y.io = d.io ∧ y.mfe = d.mfe ∧ y.ring = d.ring ∧ y.time = d.time ∧
    y.red = d.red ∧ y.host.spi = d.host.spi ∧ y.host.held = [] ∧ y.host.mail = [] := by
  obtain ⟨k, m, p, mo, t, c, l, sa, io, mf, ri, ti, re, ho, -⟩ := resetPages_units _ _ _ _ y (hy.trans (perstAssert_eq h))
  obtain ⟨k', m', p', mo', t', c', l', sa', io', mf', ri', ti', re', -⟩ := wr_units d.perstNoted pgSTG STG.PERSTCNT _ _ rfl
  rw [ho]
  exact ⟨by rw [k, Dev.inc, k']; rfl, m.trans m', p.trans p', mo.trans mo', t.trans t', c.trans c', l.trans l', sa.trans sa',
    io.trans io', mf.trans mf', ri.trans ri', ti.trans ti', re.trans re', perst_spi d, rfl, rfl⟩

theorem reg_perstAssert {d y : Dev} (h : d.keep.perst = false) (hy : y = perstAssert d) {page off : Nat} (sel : Nat)
    (hp : page < 1024) (ho : off < 4096) : y.reg page sel off =
      if page == pgHIF || page == pgDMC then resetWord d.conf page off
      else (d.perstNoted.inc pgSTG STG.PERSTCNT).reg page sel off := by
  obtain ⟨-, -, -, -, -, -, -, -, -, -, -, -, -, -, -, hreg⟩ := resetPages_units _ _ _ _ y (hy.trans (perstAssert_eq h))
  rw [hreg, reg_resetPages _ _ sel hp ho, Dev.inc, wr_conf]
  rfl

/-- A count of eight bits stops at 255. -/
theorem rd_inc_byte (d : Dev) (page : Nat) (f : Fld) (hw : f.width = 8) (hl : f.lsb ≤ 24) :
    (d.inc page f).rd page f = min (d.rd page f + 1) 255 := by
  unfold Dev.inc
  rw [rd_wr_self _ _ _ _ (by omega), hw]
  unfold addSat
  omega

theorem stage_reset (conf : Nat) : (Dev.reset conf).stage = 0 := by
  have hw : resetWord conf pgSTG STG.STAGE.off = 0 := rfl
  show bitsOf (resetWord conf pgSTG STG.STAGE.off).toNat _ _ = 0
  rw [hw]
  rfl

/-- Settles O10. -/
theorem resetPins : Obligations.ResetPins := by
  refine ⟨fun s => ⟨_, rfl, rfl, rfl, fun page sel off => rfl, stage_reset s.dev.conf, rfl, rfl, rfl, rfl, rfl, rfl, rfl, rfl,
    rfl, rfl, rfl, rfl, rfl, rfl⟩, fun s h => ⟨s.withDev (perstAssert s.dev), rfl, ?_⟩, fun s => rfl, fun s h => ?_⟩
  · obtain ⟨h1, h2, h3, h4, h5, h6, h7, h8, h9, h10, h11, h12, h13, h14, h15, h16⟩ := perst_kept h rfl
    refine ⟨h1, h2, h3, h4, h5, h6, h7, h8, h9, h10, h11, h12, h13, h14, h15, h16, ?_, ?_, ?_⟩
    · intro page sel off hp ho hpage
      refine (reg_perstAssert h rfl sel hp ho).trans (if_pos ?_)
      simpa using hpage
    · intro page sel off hp ho hh hd hne
      refine (reg_perstAssert h rfl sel hp ho).trans ?_
      rw [if_neg (by simp [hh, hd])]
      exact reg_perst hp ho hne
    · have hreg : (perstAssert s.dev).rd pgSTG STG.PERSTCNT = (s.dev.perstNoted.inc pgSTG STG.PERSTCNT).rd pgSTG STG.PERSTCNT := by
        unfold Dev.rd Dev.rdS
        rw [reg_perstAssert h rfl 0 (by decide) (by decide), if_neg (by decide)]
      exact hreg.trans (rd_inc_byte _ _ _ rfl (by decide))
  · show s.act perstRelease = _
    rw [act_withDev]
    exact next_congr (if_neg h)

/-! ## Presence and the way out of KEEPER -/

/-- The stage before the entry to LANTERN is KEEPER, and counts nothing in the argument. -/
theorem stageArg_keeper (d : Dev) : d.stageArg 0 = d.stage + 16 * d.rd pgSTG STG.DCAUSE := by
  unfold Dev.stageArg
  omega

/-- Settles O13. -/
theorem presenceAndKeeperExit : Obligations.PresenceAndKeeperExit := by
  refine ⟨fun s h b q hp => ?_, fun s hp hr => ?_, fun s hs => ?_, fun s => ?_, fun s hm => ⟨_, rfl, ?_⟩, fun s hm => ?_,
    fun s hs hw ha => ?_, fun s hs => ?_⟩
  · show s.act (porstRelease h b q) = _
    rw [act_withDev]
    refine next_congr ?_
    unfold porstRelease
    rw [hp]
    rfl
  · show s.act presenceDebounced = _
    rw [act_withDev]
    refine next_congr (if_pos ?_)
    rw [hp, hr]
    rfl
  · show s.act (presentChange true) = _
    rw [act_withDev]
    exact next_congr (if_pos ⟨rfl, hs⟩)
  · show s.act (presentChange false) = _
    rw [act_withDev]
    refine next_congr ?_
    unfold presentChange
    exact if_neg fun h => Bool.false_ne_true h.1
  · show s.act keeperExit = _
    rw [act_withDev]
    refine next_congr ((if_pos hm).trans ?_)
    exact congrArg (fun arg => raise pgSTG 0 arg _) (stageArg_keeper _)
  · show s.act keeperExit = _
    rw [act_withDev]
    exact next_congr (if_neg (by rw [hm]; exact Bool.false_ne_true))
  · show s.act watchdogRestart = _
    rw [act_withDev]
    exact next_congr (if_pos ⟨hs, hw, ha⟩)
  · show s.act wdrunClear = _
    rw [act_withDev]
    exact next_congr (if_pos hs)

end Sys2Proof.Machine
end

section
/-! PROOFS. What the functions of the model leave alone: the assignment of axis tables through events, and `Leaves`, the frame that
drops, validations and the load of an image keep. -/
namespace Sys2Proof.Machine

/-! ## The assignment of tables through an event -/

/-- A function that raises events and keeps the assignment of tables to pairs. -/
def KeepsAssign (rz : Raise) : Prop := ∀ page bit arg d, (rz page bit arg d).tsu.assign = d.tsu.assign

theorem assign_foldl {α : Type} (f : Dev → α → Dev) (h : ∀ d x, (f d x).tsu.assign = d.tsu.assign) (l : List α) :
    ∀ d, (l.foldl f d).tsu.assign = d.tsu.assign := by
  induction l with
  | nil => exact fun d => rfl
  | cons x l ih => exact fun d => (ih _).trans (h d x)

theorem assign_wrS (d : Dev) (p s : Nat) (f : Fld) (v : Nat) : (d.wrS p s f v).tsu.assign = d.tsu.assign := by rw [wrS_tsu]

theorem assign_wr (d : Dev) (p : Nat) (f : Fld) (v : Nat) : (d.wr p f v).tsu.assign = d.tsu.assign := by rw [wr_tsu]

theorem assign_addInst (i : Inst) (d : Dev) : (d.addInst i).tsu.assign = d.tsu.assign := by
  unfold Dev.addInst Dev.noteDepth Dev.showTask
  dsimp only
  rw [assign_wrS, assign_wr, assign_wr]

theorem assign_noteTrigger (task : Nat) (d : Dev) : (noteTrigger task d).tsu.assign = d.tsu.assign := by
  unfold noteTrigger Dev.showTask
  dsimp only
  split
  · rw [assign_wrS]; rfl
  · rfl

theorem assign_trigTask {rz : Raise} (h : KeepsAssign rz) (task : Nat) (d : Dev) :
    (trigTask rz task d).tsu.assign = d.tsu.assign := by
  rw [← assign_noteTrigger task d]
  unfold trigTask
  generalize noteTrigger task d = d
  dsimp only
  split
  · split
    · rfl
    · split
      · rw [assign_addInst, assign_wrS]
      · split
        · rw [assign_addInst, assign_wrS]
        · rw [h, Dev.incS, assign_wrS]
  · split
    · exact assign_addInst _ d
    · split
      · rw [Dev.incS, assign_wrS]
      · rw [assign_wrS]

theorem assign_flagTask {rz : Raise} (h : KeepsAssign rz) (task : Nat) (a b c : Bool) (d : Dev) :
    (flagTask rz task a b c d).tsu.assign = d.tsu.assign := by
  unfold flagTask
  extract_lets cfg t aen ben cen old f met
  split
  · exact assign_trigTask h task d
  · show (d.tsu.setFlags f).assign = _
    unfold Tsu.setFlags
    dsimp only
    split <;> rfl

theorem assign_tsuEvent {rz : Raise} (h : KeepsAssign rz) (n : Nat) (d : Dev) :
    (tsuEvent rz n d).tsu.assign = d.tsu.assign := by
  unfold tsuEvent
  refine assign_foldl _ (fun d task => ?_) _ d
  dsimp only
  split
  · exact assign_flagTask h task _ _ _ d
  · rfl

theorem setCapUnit_tsu (u : Fin 16) (c : CapUnit) (d : Dev) : (d.setCapUnit u c).tsu = d.tsu := rfl

theorem wr64_tsu (d : Dev) (p s o v : Nat) : (d.wr64 p s o v).tsu = d.tsu :=
  (setReg_tsu _ _ _ _ _).trans (setReg_tsu _ _ _ _ _)

theorem withEvt_tsu (d : Dev) (e : EvtUnit) : ({ d with evt := e } : Dev).tsu = d.tsu := rfl

theorem assign_capTrigger {rz : Raise} (h : KeepsAssign rz) (u : Fin 16) (t flag : Nat) (d : Dev) :
    (capTrigger rz u t flag d).tsu.assign = d.tsu.assign := by
  unfold capTrigger
  dsimp only
  split
  · split
    · rfl
    · unfold capAccept
      extract_lets pg c pre full c' d'
      have hd' : d'.tsu = d.tsu := wr64_tsu (d.setCapUnit u c') pg 0 _ t
      rw [h, assign_wr, assign_wr, hd']
  · split
    · rfl
    · rw [setCapUnit_tsu, Dev.inc, assign_wr]
  · rfl

theorem assign_capEvent {rz : Raise} (h : KeepsAssign rz) (n : Nat) (d : Dev) :
    (capEvent rz n d).tsu.assign = d.tsu.assign := by
  unfold capEvent
  refine assign_foldl _ (fun d u => ?_) _ d
  split
  · exact assign_capTrigger h u _ _ d
  · rfl

theorem assign_msixRequest (v : Fin 32) (d : Dev) : (msixRequest v d).tsu.assign = d.tsu.assign := by
  unfold msixRequest
  extract_lets clear
  split <;> rfl

theorem setMemBytes_tsu (bs : List Byte) : ∀ (d : Dev) (a : Nat), (d.setMemBytes a bs).tsu = d.tsu := by
  induction bs with
  | nil => exact fun d a => rfl
  | cons b bs ih => exact fun d a => (ih _ _).trans (setMem8_tsu d a b)

theorem assign_eventUnit {rz : Raise} (h : KeepsAssign rz) (n arg : Nat) (d : Dev) :
    (eventUnit rz n arg d).tsu.assign = d.tsu.assign := by
  unfold eventUnit
  extract_lets pend d1 ert d2
  have h2 : d2.tsu.assign = d.tsu.assign := by
    show (if _ then _ else _ : Dev).tsu.assign = _
    split
    · rw [assign_msixRequest, assign_wr]
    · exact assign_wr _ _ _ _
  rw [← h2]
  split
  · split
    · rw [h, Dev.inc, assign_wr]
    · rw [assign_wr, assign_wr, withEvt_tsu, assign_wr, setMemBytes_tsu]
  · rfl

theorem assign_raiseN (fuel : Nat) : KeepsAssign (raiseN fuel) := by
  induction fuel with
  | zero => exact fun page bit arg d => assign_wr _ _ _ _
  | succ fuel ih =>
    intro page bit arg d
    unfold raiseN
    dsimp only
    split
    · rw [assign_capEvent ih, assign_tsuEvent ih, assign_eventUnit, assign_wr]
      split
      · exact fun _ _ _ _ => rfl
      · exact ih
    · exact assign_wr _ _ _ _

theorem assign_raise : KeepsAssign raise := by
  intro page bit arg d
  unfold raise
  split
  · exact assign_raiseN 40 page bit arg d
  · rfl

/-! ## What a function leaves -/

/-- `d'` is `d` but for the registers of the pages `K`, PEVT bits, memory, and units other than those of the KEEP domain, of the load
and of the assignment. -/
structure Leaves (K : Nat → Prop) (d d' : Dev) : Prop where
  conf : d'.conf = d.conf
  keep : d'.keep = d.keep
  load : d'.load = d.load
  assign : d'.tsu.assign = d.tsu.assign
  reg : ∀ p s o, p < 1024 → o < 4096 → ¬ K p → o ≠ HDR.PEVT.off → d'.reg p s o = d.reg p s o

section
variable {K K' : Nat → Prop} {d d' d'' : Dev}

theorem Leaves.refl (K : Nat → Prop) (d : Dev) : Leaves K d d := ⟨rfl, rfl, rfl, rfl, fun _ _ _ _ _ _ _ => rfl⟩

theorem Leaves.trans (h : Leaves K d d') (h' : Leaves K d' d'') : Leaves K d d'' where
  conf := h'.conf.trans h.conf
  keep := h'.keep.trans h.keep
  load := h'.load.trans h.load
  assign := h'.assign.trans h.assign
  reg := fun p s o hp ho hK hv => (h'.reg p s o hp ho hK hv).trans (h.reg p s o hp ho hK hv)

theorem Leaves.mono (h : Leaves K d d') (hK : ∀ p, K p → K' p) : Leaves K' d d' :=
  { h with reg := fun p s o hp ho hp' hv => h.reg p s o hp ho (fun hk => hp' (hK p hk)) hv }

/-- A field of a page that is left. -/
theorem Leaves.rdS (h : Leaves K d d') {p : Nat} (s : Nat) {f : Fld} (hp : p < 1024) (hf : f.off < 4096) (hK : ¬ K p)
    (hv : f.off ≠ HDR.PEVT.off) : d'.rdS p s f = d.rdS p s f := by
  unfold Dev.rdS
  rw [h.reg p s f.off hp hf hK hv]

theorem Leaves.rd (h : Leaves K d d') {p : Nat} {f : Fld} (hp : p < 1024) (hf : f.off < 4096) (hK : ¬ K p)
    (hv : f.off ≠ HDR.PEVT.off) : d'.rd p f = d.rd p f := h.rdS 0 hp hf hK hv

theorem Leaves.setReg (d : Dev) {p : Nat} (s : Nat) {o : Nat} (v : Word) (hK : K p) (hp : p < 1024) (ho : o < 4096) :
    Leaves K d (d.setReg p s o v) :=
  ⟨setReg_conf _ _ _ _ _, setReg_keep _ _ _ _ _, setReg_load _ _ _ _ _, by rw [setReg_tsu], fun p' s' o' hp' ho' hK' _ =>
    reg_setReg_page d p s o p' s' o' v hp hp' ho ho' (fun h => hK' (h ▸ hK))⟩

theorem Leaves.wrS (d : Dev) {p : Nat} (s : Nat) (f : Fld) (v : Nat) (hK : K p) (hp : p < 1024) (hf : f.off < 4096) :
    Leaves K d (d.wrS p s f v) := Leaves.setReg d s _ hK hp hf

theorem Leaves.wr (d : Dev) {p : Nat} (f : Fld) (v : Nat) (hK : K p) (hp : p < 1024) (hf : f.off < 4096) :
    Leaves K d (d.wr p f v) := Leaves.wrS d 0 f v hK hp hf

theorem Leaves.wr64 (d : Dev) {p : Nat} (s : Nat) {o : Nat} (v : Nat) (hK : K p) (hp : p < 1024) (ho : o + 4 < 4096) :
    Leaves K d (d.wr64 p s o v) :=
  (Leaves.setReg d s _ hK hp (by omega)).trans (Leaves.setReg _ s _ hK hp ho)

/-- A change of units outside those the frame keeps. -/
theorem Leaves.units (hregs : d'.regs = d.regs) (hconf : d'.conf = d.conf) (hkeep : d'.keep = d.keep) (hload : d'.load = d.load)
    (hassign : d'.tsu.assign = d.tsu.assign) : Leaves K d d' :=
  ⟨hconf, hkeep, hload, hassign, fun p s o _ _ _ _ => by rw [reg_eq, reg_eq, hregs, hconf]⟩

theorem Leaves.foldl {α : Type} (f : Dev → α → Dev) (l : List α) (h : ∀ d, ∀ x ∈ l, Leaves K d (f d x)) :
    ∀ d, Leaves K d (l.foldl f d) := by
  induction l with
  | nil => exact fun d => Leaves.refl K d
  | cons x l ih =>
    exact fun d => (h d x (.head _)).trans (ih (fun d y hy => h d y (.tail _ hy)) _)

theorem Leaves.each (f : Nat → Dev → Dev) (l : List Nat) (h : ∀ d, ∀ x ∈ l, Leaves K d (f x d)) (d : Dev) :
    Leaves K d (d.each l f) := Leaves.foldl (fun d x => f x d) l h d

theorem Leaves.ite {c : Prop} [Decidable c] (h : c → Leaves K d d') (h' : ¬ c → Leaves K d d'') :
    Leaves K d (if c then d' else d'') := by
  split
  · exact h ‹_›
  · exact h' ‹_›

/-- An event changes event pages only. -/
theorem Leaves.raise (page bit arg : Nat) (d : Dev) (hp : page < 1024) (hb : bit < 32) :
    Leaves eventPage d (raise page bit arg d) := by
  have h := posted_raise page bit arg d hp hb
  exact ⟨h.conf, h.keep, h.load, assign_raise page bit arg d, fun p s o hp' ho hK hv => h.reg p s o hp' ho hK fun _ => hv⟩

end

end Sys2Proof.Machine
end

section
/-! PROOFS. The steps of LANTERN: power-up, self test, the load of an image and its programming (R530, R539 to R547). -/
namespace Sys2Proof.Machine

/-! ## The flags of SSTAT and what the pairs show -/

theorem leaves_showStg (d : Dev) : Leaves (· = pgSTG) d (showStg d) := by
  unfold showStg
  extract_lets d1 d2
  have h1 : Leaves (· = pgSTG) d d1 := Leaves.wr d STG.CALOK _ rfl (by decide) (by decide)
  have h2 : Leaves (· = pgSTG) d1 d2 := by
    refine Leaves.ite (fun _ => Leaves.refl _ d1) fun _ => ?_
    exact Leaves.wr d1 STG.BISTOK _ rfl (by decide) (by decide)
  exact (h1.trans h2).trans (Leaves.wr d2 STG.FULLOK _ rfl (by decide) (by decide))

/-- A field of STG that is none of the flags BISTOK, CALOK, PRES and FULLOK. -/
def besideFlags (g : Fld) : Prop := g.off % 4096 ≠ 0x40 ∨ g.off = 0x40 ∧ (g.lsb + g.width ≤ 8 ∨ 12 ≤ g.lsb)

/-- A write of one of the flags leaves such a field. -/
theorem rd_wr_flag (d : Dev) (f g : Fld) (v : Nat) (hf : f.off = 0x40 := by rfl) (hw : 8 ≤ f.lsb ∧ f.lsb + f.width ≤ 12 := by decide)
    (hg : besideFlags g) : (d.wr pgSTG f v).rd pgSTG g = d.rd pgSTG g := by
  obtain ⟨hl, hh⟩ := hw
  rcases hg with h | ⟨ho, h⟩
  · exact rd_wr_off d pgSTG f v pgSTG g (by rw [hf]; exact fun hc => h hc.symm)
  · exact rd_wr_beside d pgSTG f g v (by omega) (by rw [hf, ho]) (by omega)

theorem rd_showStg (d : Dev) (g : Fld) (hg : besideFlags g) : (showStg d).rd pgSTG g = d.rd pgSTG g := by
  unfold showStg
  dsimp only
  rw [rd_wr_flag _ STG.FULLOK g _ rfl (by decide) hg]
  split
  · rw [rd_wr_flag _ STG.CALOK g _ rfl (by decide) hg]
  · rw [rd_wr_flag _ STG.BISTOK g _ rfl (by decide) hg, rd_wr_flag _ STG.CALOK g _ rfl (by decide) hg]

/-- The pages of the engine pairs. -/
def cepPage (p : Nat) : Prop := 0x20 ≤ p ∧ p < 0x32

theorem cepPage_of_fitted {conf p : Nat} (h : p ∈ fittedPairs conf) : p < 18 := by
  unfold fittedPairs at h
  split at h
  · exact List.mem_range.mp h
  · simp only [List.mem_append, List.mem_range, List.mem_cons, List.not_mem_nil, or_false] at h
    omega

theorem cepPage_pgCep {p : Nat} (h : p < 18) : cepPage (pgCep p) ∧ pgCep p < 1024 := by
  unfold cepPage pgCep
  omega

/-- SPARE and NAX of a pair as showPairs writes them. -/
def showPair (d : Dev) (p : Nat) : Dev :=
  (d.wr (pgCep p) CEP.SPARE (b2n (d.tsu.spare.contains p))).wr (pgCep p) CEP.NAX (d.tsu.axesOf p).length

/-- What showPairs writes before the flags of SSTAT. -/
def shownPairs (d : Dev) : Dev :=
  let d := (fittedPairs d.conf).foldl showPair d
  (d.wr pgTSU TSU.NWORK (d.tsu.work.filter fun p => d.healthy p).length).wr pgTSU TSU.NSPARE
    (d.tsu.spare.filter fun p => d.healthy p).length

theorem showPairs_eq (d : Dev) : showPairs d = showStg (shownPairs d) := rfl

theorem leaves_showPair {p : Nat} (hp : p < 18) (d : Dev) : Leaves (fun p => cepPage p ∨ p = pgTSU) d (showPair d p) := by
  obtain ⟨hc, hl⟩ := cepPage_pgCep hp
  exact (Leaves.wr d CEP.SPARE _ (.inl hc) hl (by decide)).trans (Leaves.wr _ CEP.NAX _ (.inl hc) hl (by decide))

theorem leaves_shownPairs (d : Dev) : Leaves (fun p => cepPage p ∨ p = pgTSU) d (shownPairs d) := by
  unfold shownPairs
  extract_lets d1
  have h1 : Leaves (fun p => cepPage p ∨ p = pgTSU) d d1 :=
    Leaves.foldl showPair (fittedPairs d.conf) (fun d p hp => leaves_showPair (cepPage_of_fitted hp) d) d
  exact (h1.trans (Leaves.wr d1 TSU.NWORK _ (.inr rfl) (by decide) (by decide))).trans
    (Leaves.wr _ TSU.NSPARE _ (.inr rfl) (by decide) (by decide))

theorem leaves_showPairs (d : Dev) : Leaves (fun p => cepPage p ∨ p = pgTSU ∨ p = pgSTG) d (showPairs d) := by
  rw [showPairs_eq]
  exact ((leaves_shownPairs d).mono fun p h => h.elim .inl fun h => .inr (.inl h)).trans
    ((leaves_showStg _).mono fun p h => .inr (.inr h))

theorem rd_showPairs (d : Dev) (g : Fld) (hg : besideFlags g) (ho : g.off < 4096) (hv : g.off ≠ HDR.PEVT.off) :
    (showPairs d).rd pgSTG g = d.rd pgSTG g := by
  rw [showPairs_eq, rd_showStg _ g hg]
  exact (leaves_shownPairs d).rd (by decide) ho (by unfold cepPage; decide) hv

theorem pstate_wr_beside (d : Dev) (p q : Nat) (f : Fld) (v : Nat) (ho : f.off = CEP.PSTATE.off) (hl : 3 ≤ f.lsb)
    (hw : f.lsb + f.width ≤ 32) : (d.wr (pgCep q) f v).pstate p = d.pstate p := by
  by_cases hq : q = p
  · subst hq
    exact rd_wr_beside d (pgCep q) f CEP.PSTATE v hw ho (.inl hl)
  · refine rd_wr_key d _ f v _ CEP.PSTATE fun hk => hq ?_
    rw [ho] at hk
    unfold regKey pgCep at hk
    omega

theorem pstate_showPair (d : Dev) (p q : Nat) : (showPair d q).pstate p = d.pstate p := by
  unfold showPair
  rw [pstate_wr_beside _ p q CEP.NAX _ rfl (by decide) (by decide),
    pstate_wr_beside _ p q CEP.SPARE _ rfl (by decide) (by decide)]

/-- What the pairs show leaves PSTATE. -/
theorem pstate_showPairs (d : Dev) (p : Nat) (hp : p < 18) : (showPairs d).pstate p = d.pstate p := by
  obtain ⟨-, hl⟩ := cepPage_pgCep hp
  have hne : pgCep p ≠ pgSTG := by unfold pgCep pgSTG; omega
  have hfold : ∀ (l : List Nat) (d : Dev), (l.foldl showPair d).pstate p = d.pstate p := by
    intro l
    induction l with
    | nil => exact fun d => rfl
    | cons q l ih => exact fun d => (ih _).trans (pstate_showPair d p q)
  rw [showPairs_eq]
  refine ((leaves_showStg _).rd hl (by decide) hne (by decide)).trans ?_
  unfold shownPairs
  dsimp only
  rw [rd_wr_key _ _ _ _ _ _ (by unfold regKey pgCep pgTSU; dsimp only [TSU.NSPARE, CEP.PSTATE]; omega),
    rd_wr_key _ _ _ _ _ _ (by unfold regKey pgCep pgTSU; dsimp only [TSU.NWORK, CEP.PSTATE]; omega)]
  exact hfold _ d

/-! ## Folds that write one field of many pages -/

/-- A field that is written on every page of a list holds the value there. -/
theorem rd_each_wr {pg : Nat → Nat} {f : Fld} {v : Nat} (hf : f.lsb + f.width ≤ 32) (hv : v < 2 ^ f.width) (ho : f.off < 4096)
    (l : List Nat) (hl : ∀ i ∈ l, pg i < 1024) (p : Nat) (hp : p < 1024) : ∀ d : Dev,
    (∃ i ∈ l, pg i = p) ∨ d.rd p f = v → (d.each l fun i d => d.wr (pg i) f v).rd p f = v := by
  induction l with
  | nil =>
    intro d h
    rcases h with ⟨i, hi, -⟩ | h
    · cases hi
    · exact h
  | cons i l ih =>
    intro d h
    refine ih (fun j hj => hl j (.tail _ hj)) (d.wr (pg i) f v) ?_
    have hi := hl i (.head _)
    by_cases hpi : pg i = p
    · refine .inr ?_
      rw [hpi, rd_wr_self _ _ _ _ hf, Nat.mod_eq_of_lt hv]
    · rcases h with ⟨j, hj, hpj⟩ | h
      · rcases List.mem_cons.mp hj with rfl | hj
        · exact absurd hpj hpi
        · exact .inl ⟨j, hj, hpj⟩
      · refine .inr ?_
        rw [rd_wr_key _ _ _ _ _ _ fun hk => hpi (regKey_inj hi hp ho ho hk).1]
        exact h

theorem mem_foldl {α : Type} (f : Dev → α → Dev) (h : ∀ d x, (f d x).mem = d.mem) (l : List α) :
    ∀ d, (l.foldl f d).mem = d.mem := by
  induction l with
  | nil => exact fun d => rfl
  | cons x l ih => exact fun d => (ih _).trans (h d x)

/-! ## Power-up in LANTERN -/

/-- A field of OTP after registers of other offsets are written. -/
theorem rd_each_setReg (page base : Nat) (val : Nat → Word) (n : Nat) (g : Fld)
    (hg : ∀ i < n, (base + 4 * i) % 4096 ≠ g.off % 4096) (p : Nat) (d : Dev) :
    (d.each (List.range n) fun i d => d.setReg page 0 (base + 4 * i) (val i)).rd p g = d.rd p g := by
  have h : ∀ (l : List Nat), (∀ i ∈ l, i < n) → ∀ d : Dev,
      (l.foldl (fun d i => d.setReg page 0 (base + 4 * i) (val i)) d).rd p g = d.rd p g := by
    intro l
    induction l with
    | nil => exact fun _ d => rfl
    | cons i l ih =>
      intro hl d
      refine (ih (fun j hj => hl j (.tail _ hj)) _).trans ?_
      exact rdS_setReg_off d page 0 _ _ p 0 g (hg i (hl i (.head _)))
  exact h _ (fun i hi => List.mem_range.mp hi) d

/-- OTP shows the fuses (R538, R560). -/
theorem otp_readOtp (f : Fuse) (d : Dev) : (readOtp f d).rd pgOTP OTP.KSET = b2n f.kset ∧
    (readOtp f d).rd pgOTP OTP.MINVER = f.minver.toNat := by
  have hk : b2n f.kset < 2 := by cases f.kset <;> decide
  have hm := f.minver.isLt
  have htail : ∀ (g : Fld) (x : Dev), g.off = 0x40 →
      ((((x.wr64 pgOTP 0 OTP.DIEIDLO.off f.dieId.toNat).each (List.range 8) fun i d =>
        d.setReg pgOTP 0 (OTP.KHASH.off + 4 * i) (f.khash.toList.getD i 0)).each (List.range 33) fun i d =>
        d.setReg pgOTP 0 (OTP.FCAL.off + 4 * i) (f.fcal.toList.getD i 0)).setReg pgOTP 0 OTP.FCRC.off f.fcrc).rd pgOTP g =
      x.rd pgOTP g := by
    intro g x hg
    have hoff : ∀ o, o % 4096 ≠ 0x40 → ∀ (y : Dev) (v : Word), (y.setReg pgOTP 0 o v).rd pgOTP g = y.rd pgOTP g := fun o ho y v =>
      rdS_setReg_off y pgOTP 0 o v pgOTP 0 g (by rw [hg]; exact ho)
    rw [hoff _ (by decide), rd_each_setReg pgOTP OTP.FCAL.off (fun i => f.fcal.toList.getD i 0) 33 g
        (fun i hi => by rw [hg]; unfold OTP.FCAL; dsimp only; omega),
      rd_each_setReg pgOTP OTP.KHASH.off (fun i => f.khash.toList.getD i 0) 8 g
        (fun i hi => by rw [hg]; unfold OTP.KHASH; dsimp only; omega)]
    unfold Dev.wr64
    rw [hoff _ (by decide), hoff _ (by decide)]
  unfold readOtp
  dsimp only
  rw [htail _ _ rfl, htail _ _ rfl]
  constructor
  · rw [rd_wr_beside _ _ OTP.MINVER OTP.KSET _ (by decide) rfl (by decide), rd_wr_self _ _ _ _ (by decide)]
    exact Nat.mod_eq_of_lt hk
  · rw [rd_wr_self _ _ _ _ (by decide)]
    exact Nat.mod_eq_of_lt hm

/-! ### The chain of power-up -/

/-- Registers that power-up writes after the locks and OTP, on the pages that its later steps leave. -/
def latePage (p : Nat) : Prop := cepPage p ∨ p = pgTSU ∨ p = pgSTG ∨ p = pgMFE ∨ (0x41 ≤ p ∧ p < 0x45) ∨ p = pgHIF

/-- The pages of the rings. -/
def ringPage (p : Nat) : Prop := 0x10 ≤ p ∧ p < 0x14

/-- The locks of the rings and of the system link (R555). -/
theorem leaves_copyLocks (d : Dev) : Leaves (fun p => ringPage p ∨ p = pgSYS) d (copyLocks d) := by
  unfold copyLocks
  extract_lets k d1 s
  have h1 : Leaves (fun p => ringPage p ∨ p = pgSYS) d d1 := by
    refine Leaves.each _ _ (fun d r hr => ?_) d
    have hr := List.mem_range.mp hr
    have hk : ringPage (pgRing r) ∧ pgRing r < 1024 := by unfold ringPage pgRing; omega
    exact (Leaves.wr d RING.LOCKE _ (.inl hk.1) hk.2 (by decide)).trans (Leaves.wr _ RING.LOCKW _ (.inl hk.1) hk.2 (by decide))
  exact (h1.trans (Leaves.wr d1 SYS.LOCKE _ (.inr rfl) (by decide) (by decide))).trans
    (Leaves.wr _ SYS.LOCKW _ (.inr rfl) (by decide) (by decide))

/-- The head number in SYS and as station of every ring (R539). -/
def stationed (h : Nat) (d : Dev) : Dev := (d.wr pgSYS SYS.HEAD h).each (List.range 4) fun r d => d.wr (pgRing r) RING.MYST h

theorem leaves_stationed (h : Nat) (d : Dev) : Leaves (fun p => ringPage p ∨ p = pgSYS) d (stationed h d) := by
  refine (Leaves.wr d SYS.HEAD h (.inr rfl) (by decide) (by decide)).trans (Leaves.each _ _ (fun d r hr => ?_) _)
  have hr := List.mem_range.mp hr
  have hk : ringPage (pgRing r) ∧ pgRing r < 1024 := by unfold ringPage pgRing; omega
  exact Leaves.wr d RING.MYST h (.inl hk.1) hk.2 (by decide)

theorem rd_stationed (h : Bool) (d : Dev) : (stationed (b2n h) d).rd pgSYS SYS.HEAD = b2n h ∧
    ∀ r : RingId, (stationed (b2n h) d).rd (pgRing r) RING.MYST = b2n h := by
  have hlt : b2n h < 2 := by cases h <;> decide
  constructor
  · have hleft : Leaves ringPage (d.wr pgSYS SYS.HEAD (b2n h)) (stationed (b2n h) d) := by
      refine Leaves.each _ _ (fun d r hr => ?_) _
      have hr := List.mem_range.mp hr
      have hk : ringPage (pgRing r) ∧ pgRing r < 1024 := by unfold ringPage pgRing; omega
      exact Leaves.wr d RING.MYST _ hk.1 hk.2 (by decide)
    rw [hleft.rd (by decide) (by decide) (by unfold ringPage; decide) (by decide), rd_wr_self _ _ _ _ (by decide)]
    exact Nat.mod_eq_of_lt hlt
  · intro r
    refine rd_each_wr (pg := pgRing) (by decide) (Nat.lt_trans hlt (by decide)) (by decide) (List.range 4) ?_ _ ?_ _ (.inl ?_)
    · intro i hi
      have := List.mem_range.mp hi
      unfold pgRing
      omega
    · have := r.isLt
      unfold pgRing
      omega
    · exact ⟨r.val, List.mem_range.mpr r.isLt, rfl⟩

/-- Every fitted pair goes to PSTATE TEST, and the memories are not tested. -/
def pairsTested (d : Dev) : Dev :=
  let d := { d with tsu := { d.tsu with work := workingPairs d.conf, spare := [16, 17] } }
  ((d.wr pgSTG STG.DRAMOK 0).wr pgSTG STG.SRAMOK 0).each (fittedPairs d.conf) fun p d => d.wr (pgCep p) CEP.PSTATE 5

/-- The dies and links of the end of power-up. -/
def diePowered (d : Dev) : Dev :=
  let d := if d.dieFitted then
      (d.setReg pgMFE 0 MFE.P5OK.off 0x1F).each (List.range 4) fun c d => d.wr (pgMfc c) MFC.CSTATE 1
    else d
  if d.keep.perst then d else d.wr pgHIF HIF.LUP 1

theorem powerupDone_eq {f : Fuse} {d : Dev} (hs : d.stage = 1) (hl : d.lstep = 0) : powerupDone f d =
    showPairs (setLstep 1 (diePowered (pairsTested (stationed (b2n (copyLocks (readOtp f d)).keep.head)
      (copyLocks (readOtp f d)))))) :=
  if_pos ⟨hs, hl⟩

theorem leaves_pairsTested (d : Dev) : Leaves latePage d (pairsTested d) := by
  have h1 : Leaves latePage d { d with tsu := { d.tsu with work := workingPairs d.conf, spare := [16, 17] } } :=
    Leaves.units rfl rfl rfl rfl rfl
  have hstg : latePage pgSTG := .inr (.inr (.inl rfl))
  refine ((h1.trans (Leaves.wr _ STG.DRAMOK 0 hstg (by decide) (by decide))).trans
    (Leaves.wr _ STG.SRAMOK 0 hstg (by decide) (by decide))).trans (Leaves.each _ _ (fun d p hp => ?_) _)
  obtain ⟨hc, hl⟩ := cepPage_pgCep (cepPage_of_fitted hp)
  exact Leaves.wr d CEP.PSTATE 5 (.inl hc) hl (by decide)

theorem pstate_pairsTested (d : Dev) (p : Nat) (hp : p ∈ fittedPairs d.conf) : (pairsTested d).pstate p = 5 := by
  refine rd_each_wr (pg := pgCep) (by decide) (by decide) (by decide) _ ?_ _ ?_ _ (.inl ⟨p, hp, rfl⟩)
  · exact fun i hi => (cepPage_pgCep (cepPage_of_fitted hi)).2
  · exact (cepPage_pgCep (cepPage_of_fitted hp)).2

/-- The pages the end of power-up writes. -/
def diePage (p : Nat) : Prop := p = pgMFE ∨ (0x41 ≤ p ∧ p < 0x45) ∨ p = pgHIF

theorem leaves_diePowered (d : Dev) : Leaves diePage d (diePowered d) := by
  unfold diePowered
  extract_lets d1
  have h1 : Leaves diePage d d1 := by
    refine Leaves.ite (fun _ => ?_) fun _ => Leaves.refl _ d
    refine (Leaves.setReg d 0 _ (.inl rfl) (by decide) (by decide)).trans (Leaves.each _ _ (fun d c hc => ?_) _)
    have hc := List.mem_range.mp hc
    have hk : (0x41 ≤ pgMfc c ∧ pgMfc c < 0x45) ∧ pgMfc c < 1024 := by unfold pgMfc; omega
    exact Leaves.wr d MFC.CSTATE 1 (.inr (.inl hk.1)) hk.2 (by decide)
  exact h1.trans (Leaves.ite (fun _ => Leaves.refl _ d1) fun _ => Leaves.wr d1 HIF.LUP 1 (.inr (.inr rfl)) (by decide) (by decide))

theorem mem_each (f : Nat → Dev → Dev) (h : ∀ d x, (f x d).mem = d.mem) (l : List Nat) (d : Dev) : (d.each l f).mem = d.mem :=
  mem_foldl (fun d x => f x d) h l d

theorem mem_showStg (d : Dev) : (showStg d).mem = d.mem := by
  unfold showStg
  dsimp only
  split
  · rw [wr_mem, wr_mem]
  · rw [wr_mem, wr_mem, wr_mem]

theorem mem_showPairs (d : Dev) : (showPairs d).mem = d.mem := by
  rw [showPairs_eq, mem_showStg]
  unfold shownPairs
  dsimp only
  rw [wr_mem, wr_mem]
  exact mem_foldl showPair (fun d p => by unfold showPair; rw [wr_mem, wr_mem]) _ d

theorem mem_readOtp (f : Fuse) (d : Dev) : (readOtp f d).mem = d.mem := by
  unfold readOtp Dev.wr64
  dsimp only
  rw [setReg_mem, mem_each _ (fun d i => setReg_mem _ _ _ _ _), mem_each _ (fun d i => setReg_mem _ _ _ _ _), setReg_mem,
    setReg_mem, wr_mem, wr_mem, wr_mem]

theorem mem_copyLocks (d : Dev) : (copyLocks d).mem = d.mem := by
  unfold copyLocks
  dsimp only
  rw [wr_mem, wr_mem, mem_each _ (fun d i => by rw [wr_mem, wr_mem])]

theorem mem_powerupDone {f : Fuse} {d : Dev} (hs : d.stage = 1) (hl : d.lstep = 0) : (powerupDone f d).mem = d.mem := by
  have hpairs : ∀ d : Dev, (pairsTested d).mem = d.mem := fun d => by
    unfold pairsTested
    dsimp only
    rw [mem_each _ (fun d i => wr_mem _ _ _ _), wr_mem, wr_mem]
  have hdie : ∀ d : Dev, (diePowered d).mem = d.mem := fun d => by
    unfold diePowered
    extract_lets d1
    have h1 : d1.mem = d.mem := by
      show (if _ then _ else _ : Dev).mem = _
      split
      · rw [mem_each _ (fun d i => wr_mem _ _ _ _), setReg_mem]
      · rfl
    split
    · exact h1
    · rw [wr_mem, h1]
  rw [powerupDone_eq hs hl, mem_showPairs, setLstep, wr_mem, hdie, hpairs, stationed, mem_each _ (fun d i => wr_mem _ _ _ _),
    wr_mem, mem_copyLocks, mem_readOtp]

theorem leaves_readOtp (f : Fuse) (d : Dev) : Leaves (· = pgOTP) d (readOtp f d) := by
  have w : ∀ (d : Dev) (g : Fld) (v : Nat), g.off < 4096 → Leaves (· = pgOTP) d (d.wr pgOTP g v) := fun d g v hg =>
    Leaves.wr d g v rfl (by decide) hg
  have r : ∀ (n base : Nat) (val : Nat → Word) (d : Dev), base + 4 * n ≤ 4096 →
      Leaves (· = pgOTP) d (d.each (List.range n) fun i d => d.setReg pgOTP 0 (base + 4 * i) (val i)) := fun n base val d hb =>
    Leaves.each (fun i d => d.setReg pgOTP 0 (base + 4 * i) (val i)) (List.range n) (fun d i hi =>
      Leaves.setReg (K := (· = pgOTP)) d 0 (val i) rfl (by decide) (by have := List.mem_range.mp hi; omega)) d
  unfold readOtp
  dsimp only
  refine Leaves.trans ?_ (Leaves.setReg _ 0 _ rfl (by decide) (by decide))
  refine Leaves.trans ?_ (r 33 OTP.FCAL.off (fun i => f.fcal.toList.getD i 0) _ (by decide))
  refine Leaves.trans ?_ (r 8 OTP.KHASH.off (fun i => f.khash.toList.getD i 0) _ (by decide))
  refine Leaves.trans ?_ (Leaves.wr64 _ 0 _ rfl (by decide) (by decide))
  exact ((w d OTP.FCRCOK _ (by decide)).trans (w _ OTP.KSET _ (by decide))).trans (w _ OTP.MINVER _ (by decide))

/-- The end of power-up leaves what it does not write. -/
theorem leaves_powered (d : Dev) : Leaves latePage d (showPairs (setLstep 1 (diePowered (pairsTested d)))) := by
  refine ((leaves_pairsTested d).trans ((leaves_diePowered _).mono fun p h => .inr (.inr (.inr h)))).trans ?_
  refine (Leaves.wr _ STG.LSTEP 1 (.inr (.inr (.inl rfl))) (by decide) (by decide)).trans ?_
  exact (leaves_showPairs _).mono fun p h => h.elim .inl fun h => .inr (h.elim .inl fun h => .inr (.inl h))

/-- LANTERN_POWERUP_DONE (R530, R539). -/
theorem powerup_shows {f : Fuse} {d : Dev} (hs : d.stage = 1) (hl : d.lstep = 0) :
    (powerupDone f d).lstep = 1 ∧ (powerupDone f d).rd pgSYS SYS.HEAD = b2n d.keep.head ∧
    (∀ r : RingId, (powerupDone f d).rd (pgRing r) RING.MYST = b2n d.keep.head) ∧
    (powerupDone f d).rd pgOTP OTP.KSET = b2n f.kset ∧ (powerupDone f d).rd pgOTP OTP.MINVER = f.minver.toNat ∧
    ∀ p ∈ fittedPairs d.conf, (powerupDone f d).rd (pgCep p) CEP.PSTATE = 5 := by
  have hotp := leaves_readOtp f d
  have hlocks := leaves_copyLocks (readOtp f d)
  have hhead : (copyLocks (readOtp f d)).keep.head = d.keep.head := by rw [hlocks.keep, hotp.keep]
  rw [powerupDone_eq hs hl, hhead]
  have hstat := leaves_stationed (b2n d.keep.head) (copyLocks (readOtp f d))
  obtain ⟨hh, hm⟩ := rd_stationed d.keep.head (copyLocks (readOtp f d))
  have hend := leaves_powered (stationed (b2n d.keep.head) (copyLocks (readOtp f d)))
  have hnot : ∀ p, (0x10 ≤ p ∧ p < 0x15) ∨ p = pgOTP → ¬ latePage p := by
    intro p hp
    unfold latePage cepPage pgTSU pgSTG pgMFE pgHIF
    unfold pgOTP at hp
    omega
  have hring : ∀ r : RingId, 0x10 ≤ pgRing r ∧ pgRing r < 0x15 := fun r => by
    have := r.isLt
    unfold pgRing
    omega
  have hotpEnd : ∀ g : Fld, g.off = 0x40 → (showPairs (setLstep 1 (diePowered (pairsTested (stationed (b2n d.keep.head)
      (copyLocks (readOtp f d))))))).rd pgOTP g = (readOtp f d).rd pgOTP g := by
    intro g hg
    have hnr : ¬ (ringPage pgOTP ∨ pgOTP = pgSYS) := by unfold ringPage; decide
    rw [hend.rd (by decide) (by omega) (hnot _ (.inr rfl)) (by rw [hg]; decide),
      hstat.rd (by decide) (by omega) hnr (by rw [hg]; decide), hlocks.rd (by decide) (by omega) hnr (by rw [hg]; decide)]
  obtain ⟨hk, hv⟩ := otp_readOtp f d
  refine ⟨?_, ?_, fun r => ?_, (hotpEnd _ rfl).trans hk, (hotpEnd _ rfl).trans hv, fun p hp => ?_⟩
  · refine (rd_showPairs _ STG.LSTEP (.inr ⟨rfl, .inl (by decide)⟩) (by decide) (by decide)).trans ?_
    exact rd_wr_self _ _ _ _ (by decide)
  · exact (hend.rd (by decide) (by decide) (hnot _ (.inl (by decide))) (by decide)).trans hh
  · exact (hend.rd (by have := hring r; omega) (by decide) (hnot _ (.inl (hring r))) (by decide)).trans (hm r)
  · have hconf : (stationed (b2n d.keep.head) (copyLocks (readOtp f d))).conf = d.conf := by
      rw [hstat.conf, hlocks.conf, hotp.conf]
    have hp18 := cepPage_of_fitted hp
    obtain ⟨hc, hlt⟩ := cepPage_pgCep hp18
    unfold cepPage at hc
    refine (pstate_showPairs _ p hp18).trans ?_
    refine (rd_wr_key _ _ _ _ _ CEP.PSTATE (by unfold regKey pgSTG; dsimp only [STG.LSTEP, CEP.PSTATE]; omega)).trans ?_
    refine ((leaves_diePowered _).rd hlt (by decide) (by unfold diePage pgMFE pgHIF; omega) (by decide)).trans ?_
    exact pstate_pairsTested _ p (by rw [hconf]; exact hp)

end Sys2Proof.Machine
end

section
/-! PROOFS. What the capture engine leaves alone: an edge of a pin, and all that a stored slot, a closed record and a trigger bring,
write memory, the pages CAP, CAPU, EVT and TSU, and the units behind them (spec/12). -/
namespace Sys2Proof.Machine

/-- The pages of the capture engine and of the events it raises. -/
def capPage (p : Nat) : Prop := eventPage p ∨ p = pgCAP

theorem capPage_capu (u : Fin 16) : capPage (pgCapu u) := .inl (eventPage_capu u)

theorem pgCapu_lt (u : Fin 16) : pgCapu u < 1024 := eventPage_lt _ (eventPage_capu u)

/-! ## Memory and units -/

section
variable {K : Nat → Prop}

theorem leaves_setMem8 (d : Dev) (a : Nat) (v : Byte) : Leaves K d (d.setMem8 a v) :=
  Leaves.units (setMem8_regs _ _ _) (setMem8_conf _ _ _) (setMem8_keep _ _ _) (setMem8_load _ _ _) (by rw [setMem8_tsu])

theorem leaves_setMemLE (n : Nat) : ∀ (d : Dev) (a v : Nat), Leaves K d (d.setMemLE a n v) := by
  induction n with
  | zero => exact fun d a v => Leaves.refl K d
  | succ n ih => exact fun d a v => (leaves_setMem8 d a _).trans (ih _ _ _)

theorem leaves_setMemBytes (bs : List Byte) : ∀ (d : Dev) (a : Nat), Leaves K d (d.setMemBytes a bs) := by
  induction bs with
  | nil => exact fun d a => Leaves.refl K d
  | cons b bs ih => exact fun d a => (leaves_setMem8 d a b).trans (ih _ _)

theorem leaves_clearMem (d : Dev) (lo hi : Nat) : Leaves K d (d.clearMem lo hi) := Leaves.units rfl rfl rfl rfl rfl

theorem leaves_openUsed (d : Dev) : Leaves K d d.openUsed := Leaves.units rfl rfl rfl rfl rfl

theorem leaves_setCapUnit (d : Dev) (u : Fin 16) (c : CapUnit) : Leaves K d (d.setCapUnit u c) := Leaves.units rfl rfl rfl rfl rfl

theorem leaves_withCap (d : Dev) (c : Cap) : Leaves K d { d with cap := c } := Leaves.units rfl rfl rfl rfl rfl

theorem leaves_withTsu (d : Dev) (t : Tsu) (h : t.assign = d.tsu.assign) : Leaves K d { d with tsu := t } :=
  Leaves.units rfl rfl rfl rfl h

theorem leaves_withMot (d : Dev) (m : Motor) : Leaves K d { d with mot := m } := Leaves.units rfl rfl rfl rfl rfl

end

/-! ## Registers and events of the capture engine -/

/-- What a posted event keeps, with the assignment. -/
theorem Posted.leaves {page : Nat} {d d' : Dev} (h : Posted page d d') (ha : d'.tsu.assign = d.tsu.assign) :
    Leaves eventPage d d' :=
  ⟨h.conf, h.keep, h.load, ha, fun p s o hp ho hK hv => h.reg p s o hp ho hK fun _ => hv⟩

theorem raiseOk_raise : RaiseOk pgGLB raise := by
  intro p bit arg d hp hb
  unfold raise
  split
  · exact posted_raiseN 40 pgGLB p bit arg d (by decide) (.inr hp) hb
  · exact Posted.evt pgGLB d _

/-! ## What the capture engine keeps -/

/-- `d'` is `d` but for memory, the pages of the capture engine and of events, and the units behind them. -/
structure CapKeeps (d d' : Dev) : Prop extends Leaves capPage d d' where
  io : d'.io = d.io
  mfe : d'.mfe = d.mfe
  st : d'.st = d.st

section
variable {d d' d'' : Dev}

theorem CapKeeps.refl (d : Dev) : CapKeeps d d := ⟨Leaves.refl _ d, rfl, rfl, rfl⟩

theorem CapKeeps.trans (h : CapKeeps d d') (h' : CapKeeps d' d'') : CapKeeps d d'' :=
  ⟨h.toLeaves.trans h'.toLeaves, h'.io.trans h.io, h'.mfe.trans h.mfe, h'.st.trans h.st⟩

theorem CapKeeps.ite {c : Prop} [Decidable c] (h : c → CapKeeps d d') (h' : ¬ c → CapKeeps d d'') :
    CapKeeps d (if c then d' else d'') := by
  split
  · exact h ‹_›
  · exact h' ‹_›

theorem CapKeeps.foldl {α : Type} (f : Dev → α → Dev) (l : List α) (h : ∀ d, ∀ x ∈ l, CapKeeps d (f d x)) :
    ∀ d, CapKeeps d (l.foldl f d) := by
  induction l with
  | nil => exact CapKeeps.refl
  | cons x l ih => exact fun d => (h d x (.head _)).trans (ih (fun d y hy => h d y (.tail _ hy)) _)

/-- What a posted event keeps, with the assignment. -/
theorem Posted.keeps {page : Nat} {d d' : Dev} (h : Posted page d d') (ha : d'.tsu.assign = d.tsu.assign) : CapKeeps d d' :=
  ⟨(h.leaves ha).mono fun _ => .inl, h.io, h.mfe, h.st⟩

end

section
variable (d : Dev)

theorem keeps_setMem8 (a : Nat) (v : Byte) : CapKeeps d (d.setMem8 a v) :=
  ⟨leaves_setMem8 d a v, setMem8_io d a v, setMem8_mfe d a v, setMem8_st d a v⟩

theorem keeps_setReg (p s o : Nat) (v : Word) (hp : capPage p) (hlt : p < 1024) (ho : o < 4096) : CapKeeps d (d.setReg p s o v) :=
  ⟨Leaves.setReg d s v hp hlt ho, setReg_io d p s o v, setReg_mfe d p s o v, setReg_st d p s o v⟩

theorem keeps_wrCapu (u : Fin 16) (f : Fld) (v : Nat) (hf : f.off < 4096) : CapKeeps d (d.wr (pgCapu u) f v) :=
  keeps_setReg d _ 0 _ _ (capPage_capu u) (pgCapu_lt u) hf

theorem keeps_wr64Capu (u : Fin 16) {o : Nat} (v : Nat) (ho : o + 4 < 4096) : CapKeeps d (d.wr64 (pgCapu u) 0 o v) :=
  (keeps_setReg d _ 0 _ _ (capPage_capu u) (pgCapu_lt u) (by omega)).trans (keeps_setReg _ _ 0 _ _ (capPage_capu u) (pgCapu_lt u) ho)

theorem keeps_wrCap (f : Fld) (v : Nat) (hf : f.off < 4096) : CapKeeps d (d.wr pgCAP f v) :=
  keeps_setReg d _ 0 _ _ (.inr rfl) (by decide) hf

theorem keeps_wrTsu (s : Nat) (f : Fld) (v : Nat) (hf : f.off < 4096) : CapKeeps d (d.wrS pgTSU s f v) :=
  keeps_setReg d _ s _ _ (.inl eventPage_tsu) (by decide) hf

theorem keeps_clearMem (lo hi : Nat) : CapKeeps d (d.clearMem lo hi) := ⟨leaves_clearMem d lo hi, rfl, rfl, rfl⟩

theorem keeps_openUsed : CapKeeps d d.openUsed := ⟨leaves_openUsed d, rfl, rfl, rfl⟩

theorem keeps_setCapUnit (u : Fin 16) (c : CapUnit) : CapKeeps d (d.setCapUnit u c) := ⟨leaves_setCapUnit d u c, rfl, rfl, rfl⟩

theorem keeps_withCap (c : Cap) : CapKeeps d { d with cap := c } := ⟨leaves_withCap d c, rfl, rfl, rfl⟩

end

theorem keeps_setMemLE (n : Nat) : ∀ (d : Dev) (a v : Nat), CapKeeps d (d.setMemLE a n v) := by
  induction n with
  | zero => exact fun d a v => CapKeeps.refl d
  | succ n ih => exact fun d a v => (keeps_setMem8 d a _).trans (ih _ _ _)

theorem keeps_setMemBytes (bs : List Byte) : ∀ (d : Dev) (a : Nat), CapKeeps d (d.setMemBytes a bs) := by
  induction bs with
  | nil => exact fun d a => CapKeeps.refl d
  | cons b bs ih => exact fun d a => (keeps_setMem8 d a b).trans (ih _ _)

theorem keeps_raise (page bit arg : Nat) (d : Dev) (hp : page < 1024) (hb : bit < 32) : CapKeeps d (raise page bit arg d) :=
  (posted_raise page bit arg d hp hb).keeps (assign_raise page bit arg d)

theorem keeps_raiseCapu (u : Fin 16) (bit arg : Nat) (d : Dev) (hb : bit < 32) : CapKeeps d (raise (pgCapu u) bit arg d) :=
  keeps_raise _ bit arg d (pgCapu_lt u) hb

theorem keeps_trigTask (task : Nat) (d : Dev) : CapKeeps d (trigTask raise task d) :=
  (posted_trigTask pgGLB raise raiseOk_raise task d).keeps (assign_trigTask assign_raise task d)

theorem keeps_capTrigger (u : Fin 16) (t flag : Nat) (d : Dev) : CapKeeps d (capTrigger raise u t flag d) :=
  (posted_capTrigger pgGLB raise raiseOk_raise u t flag d).keeps (assign_capTrigger assign_raise u t flag d)

/-! ## Records -/

theorem keeps_capAvailable (u : Fin 16) (fuel : Nat) : ∀ d : Dev, CapKeeps d (capAvailable u fuel d) := by
  induction fuel with
  | zero => exact fun d => CapKeeps.refl d
  | succ fuel ih =>
    intro d
    unfold capAvailable
    extract_lets pg c
    split
    · exact CapKeeps.refl d
    · rename_i r rest _
      refine CapKeeps.ite (fun _ => CapKeeps.refl d) fun _ => ?_
      extract_lets d1 d2 src d3
      have h1 : CapKeeps d d1 := (keeps_setCapUnit d u _).trans (keeps_wrCapu _ u CAPU.ACNT _ (by decide))
      have h2 : CapKeeps d1 d2 := CapKeeps.ite (fun _ => keeps_raiseCapu u 4 _ d1 (by decide)) fun _ => CapKeeps.refl d1
      have h3 : CapKeeps d2 d3 := CapKeeps.ite (fun _ => CapKeeps.refl d2) fun _ =>
        CapKeeps.ite (fun _ => keeps_setCapUnit d2 u _) fun _ => keeps_raiseCapu u 1 _ d2 (by decide)
      exact ((h1.trans h2).trans h3).trans (ih d3)

theorem keeps_capMakeAvailable (u : Fin 16) (d : Dev) : CapKeeps d (capMakeAvailable u d) := keeps_capAvailable u _ d

theorem keeps_capState (u : Fin 16) (s : Nat) (d : Dev) : CapKeeps d (capState u s d) :=
  (keeps_wrCapu d u CAPU.USTATE s (by decide)).trans (keeps_wrCap _ CAP.NRUN _ (by decide))

theorem keeps_capSeal (a len : Nat) (d : Dev) : CapKeeps d (capSeal a len d) :=
  (keeps_setMemLE 4 d _ _).trans (keeps_withCap _ _)

theorem keeps_capSpoil (a : Nat) (d : Dev) : CapKeeps d (capSpoil a d) :=
  (keeps_setMemLE 4 d _ _).trans (keeps_openUsed _)

theorem keeps_capPut (u : Fin 16) (count : Nat) (bs : List Byte) (d : Dev) : CapKeeps d (capPut u count bs d) :=
  CapKeeps.foldl _ _ (fun d _ _ => keeps_setMem8 d _ _) d

theorem keeps_capOverflow (u : Fin 16) (cause : Nat) (d : Dev) : CapKeeps d (capOverflow u cause d) := by
  unfold capOverflow
  extract_lets pg seq w h d1 src d2 d3 d4 c d5
  have h2 : CapKeeps d d2 := (keeps_capPut u w _ d).trans (keeps_withCap _ _)
  have h4 : CapKeeps d2 d4 := (((keeps_wrCapu d2 u CAPU.WCNT _ (by decide)).trans
    (keeps_wrCapu _ u CAPU.SEQ _ (by decide))).trans (keeps_wrCapu _ u CAPU.OVF 1 (by decide))).trans
    (keeps_wrCapu _ u CAPU.OVC cause (by decide))
  have h5 : CapKeeps d4 d5 := keeps_setCapUnit d4 u _
  exact (((h2.trans h4).trans h5).trans ((keeps_capState u 4 d5).trans (keeps_capMakeAvailable u _))).trans
    (keeps_raiseCapu u 2 _ _ (by decide))

theorem keeps_capReserve (u : Fin 16) (d : Dev) : CapKeeps d (capReserve u d) := by
  unfold capReserve
  extract_lets pg b w off l pad a h e1 e2 c1 d1 w1 a1 d2 c seq
  have h1 : CapKeeps d d1 := by
    refine CapKeeps.ite (fun _ => ?_) fun _ => CapKeeps.refl d
    have he1 : CapKeeps d e1 := (keeps_clearMem d _ _).trans (keeps_setMemBytes _ _ _)
    have he2 : CapKeeps e1 e2 := CapKeeps.ite (fun _ => CapKeeps.refl e1) fun _ => keeps_capSeal _ _ e1
    exact ((he1.trans he2).trans (keeps_wrCapu e2 u CAPU.WCNT _ (by decide))).trans (keeps_setCapUnit _ u _)
  have h2 : CapKeeps d1 d2 := (keeps_clearMem d1 _ _).trans (keeps_wrCapu _ u CAPU.WCNT _ (by decide))
  exact ((h1.trans h2).trans (((keeps_wrCapu d2 u CAPU.SEQ _ (by decide)).trans (keeps_wrCapu _ u CAPU.PRECNT 0 (by decide))).trans
    (keeps_setCapUnit _ u _))).trans (keeps_capMakeAvailable u _)

theorem keeps_capProcess (u : Fin 16) (seq : Nat) (d : Dev) : CapKeeps d (capProcess u seq d) := by
  unfold capProcess
  extract_lets flow d1
  have h1 : CapKeeps d d1 := CapKeeps.ite (fun _ => keeps_wrTsu d flow TSU.FRSEQ seq (by decide)) fun _ => CapKeeps.refl d
  exact (h1.trans (keeps_wrTsu d1 flow TSU.FNSEQ seq (by decide))).trans (keeps_trigTask _ _)

theorem keeps_capClose (u : Fin 16) (trunc : Bool) (d : Dev) : CapKeeps d (capClose u trunc d) := by
  unfold capClose
  extract_lets pg c tt a ms mofs flags h d1 blocks rec1 d2 hit d3
  have h1 : CapKeeps d d1 := (keeps_setMemBytes _ d _).trans (keeps_wrCapu _ u CAPU.RECS _ (by decide))
  have h2 : CapKeeps d1 d2 := keeps_setCapUnit d1 u _
  refine (h1.trans h2).trans ?_
  refine CapKeeps.ite (fun _ => ?_) fun _ => ?_
  · have h3 : CapKeeps d2 d3 := keeps_capSeal _ _ d2
    refine (h3.trans ?_).trans (keeps_capMakeAvailable u _)
    exact CapKeeps.ite (fun _ => keeps_capSpoil _ d3) fun _ => CapKeeps.refl d3
  · exact (keeps_wrCapu d2 u CAPU.NPP _ (by decide)).trans (keeps_capProcess u _ _)

theorem keeps_capDiscard (u : Fin 16) (d : Dev) : CapKeeps d (capDiscard u d) :=
  ((keeps_setCapUnit d u _).trans (keeps_wrCapu _ u CAPU.WCNT _ (by decide))).trans (keeps_wrCapu _ u CAPU.SEQ _ (by decide))

theorem keeps_capAfterClose (u : Fin 16) (d : Dev) : CapKeeps d (capAfterClose u d) := by
  unfold capAfterClose
  dsimp only
  split
  · exact (keeps_capState u 4 d).trans (keeps_raiseCapu u 3 _ _ (by decide))
  · exact CapKeeps.ite (fun _ => (keeps_capReserve u d).trans (keeps_capState u 2 _)) fun _ => keeps_capOverflow u 1 d
  · exact keeps_capState u 3 d

/-! ## Slots -/

theorem keeps_capDrain (d : Dev) : CapKeeps d (capDrain d) := by
  unfold capDrain
  extract_lets budget src d1
  have h1 : CapKeeps d d1 := keeps_withCap d _
  refine h1.trans ?_
  have hfold : ∀ (l : List (Fin 16)) (x : Dev × Nat), CapKeeps x.1 (l.foldl (fun (s : Dev × Nat) (u : Fin 16) =>
      (s.1.setCapUnit u { s.1.capUnit u with staged := (s.1.capUnit u).staged - min (s.1.capUnit u).staged s.2 },
        s.2 - min (s.1.capUnit u).staged s.2)) x).1 := by
    intro l
    induction l with
    | nil => exact fun x => CapKeeps.refl x.1
    | cons u l ih => exact fun x => CapKeeps.trans (d' := x.1.setCapUnit u _) (keeps_setCapUnit x.1 u _) (ih (_, _))
  exact hfold _ (d1, budget)

theorem keeps_capNote (u : Fin 16) (n : Nat) (f : CapUnit → CapUnit) (d : Dev) : CapKeeps d (capNote u n f d) :=
  (keeps_withCap d _).trans (keeps_setCapUnit _ u _)

theorem keeps_capStorePre (u : Fin 16) (tag : Nat) (bs : List Byte) (d : Dev) : CapKeeps d (capStorePre u tag bs d) := by
  unfold capStorePre
  dsimp only
  exact (((keeps_setMemBytes bs d _).trans (keeps_capNote u _ _ _)).trans (keeps_wrCapu _ u CAPU.PRECNT _ (by decide))).trans
    (keeps_wrCapu _ u CAPU.PREFULL _ (by decide))

theorem keeps_capStorePost (u : Fin 16) (tag : Nat) (bs : List Byte) (d : Dev) : CapKeeps d (capStorePost u tag bs d) := by
  unfold capStorePost
  extract_lets pg n roll last d1 d2 d3
  have h2 : CapKeeps d d2 := (keeps_setMemBytes bs d _).trans (keeps_capNote u _ _ _)
  have h3 : CapKeeps d2 d3 := CapKeeps.ite (fun _ => keeps_wr64Capu d2 u tag (by decide)) fun _ =>
    CapKeeps.refl d2
  refine (h2.trans h3).trans ?_
  exact CapKeeps.ite (fun _ => (keeps_capClose u false d3).trans (keeps_capAfterClose u _)) fun _ => CapKeeps.refl d3

theorem keeps_capStore (u : Fin 16) (tag : Nat) (bs : List Byte) (d : Dev) : CapKeeps d (capStore u tag bs d) := by
  unfold capStore
  extract_lets d1 state
  have h1 : CapKeeps d d1 := keeps_capDrain d
  refine h1.trans ?_
  refine CapKeeps.ite (fun _ => CapKeeps.refl d1) fun _ => CapKeeps.ite (fun _ => CapKeeps.refl d1) fun _ =>
    CapKeeps.ite (fun _ => ?_) fun _ => CapKeeps.ite (fun _ => keeps_capStorePre u tag bs d1) fun _ => keeps_capStorePost u tag bs d1
  refine CapKeeps.trans ?_ (keeps_capOverflow u 2 _)
  exact CapKeeps.ite (fun _ => keeps_capClose u true d1) fun _ => keeps_capDiscard u d1

/-! ## Edges -/

theorem keeps_capThresholdHit (u : Fin 16) (v : Int) (d : Dev) : CapKeeps d (capThresholdHit u v d).1 :=
  keeps_setCapUnit d u _

theorem keeps_capPatternHit (u : Fin 16) (d : Dev) : CapKeeps d (capPatternHit u d).1 := keeps_setCapUnit d u _

/-- The threshold, where a new value of its channel came. -/
def thresholdOf (u : Fin 16) (l : List (Nat × Nat)) (d : Dev) : Dev × Bool :=
  match l.find? fun x => x.1 == d.rd (pgCapu u) CAPU.TCH with
  | some x => capThresholdHit u (sxt 32 x.2) d
  | none => (d, false)

theorem capWatch_eq (u : Fin 16) (t : Nat) (l : List (Nat × Nat)) (pattern : Bool) (d : Dev) : capWatch u t l pattern d =
    if (thresholdOf u l d).2 || (if pattern then capPatternHit u (thresholdOf u l d).1 else ((thresholdOf u l d).1, false)).2 then
      capTrigger raise u t 0 (if pattern then capPatternHit u (thresholdOf u l d).1 else ((thresholdOf u l d).1, false)).1
    else (if pattern then capPatternHit u (thresholdOf u l d).1 else ((thresholdOf u l d).1, false)).1 := rfl

theorem keeps_thresholdOf (u : Fin 16) (l : List (Nat × Nat)) (d : Dev) : CapKeeps d (thresholdOf u l d).1 := by
  unfold thresholdOf
  split
  · exact keeps_capThresholdHit u _ d
  · exact CapKeeps.refl d

theorem keeps_capWatch (u : Fin 16) (t : Nat) (l : List (Nat × Nat)) (pattern : Bool) (d : Dev) :
    CapKeeps d (capWatch u t l pattern d) := by
  rw [capWatch_eq]
  have h := keeps_thresholdOf u l d
  generalize thresholdOf u l d = x at h
  have hp : CapKeeps d (if pattern then capPatternHit u x.1 else (x.1, false)).1 := by
    cases pattern
    · exact h
    · exact h.trans (keeps_capPatternHit u x.1)
  exact CapKeeps.ite (fun _ => hp.trans (keeps_capTrigger u t 0 _)) fun _ => hp

theorem keeps_capMerge (u : Fin 16) (ch t0 t : Nat) (rising : Bool) (d : Dev) : CapKeeps d (capMerge u ch t0 t rising d) := by
  unfold capMerge
  split
  · exact CapKeeps.refl d
  · exact (keeps_setMemBytes _ d _).trans (keeps_setCapUnit _ u _)

theorem keeps_capEdge (e : Nat) (rising : Bool) (t : Nat) (d : Dev) : CapKeeps d (capEdge e rising t d) := by
  unfold capEdge
  extract_lets e64 merged src d1 d2
  refine CapKeeps.ite (fun _ => CapKeeps.refl d) fun _ => ?_
  have h1 : CapKeeps d d1 := keeps_withCap d _
  have h2 : CapKeeps d1 d2 := CapKeeps.ite (fun _ =>
    (keeps_wrCap d1 CAP.EMISS _ (by decide)).trans (keeps_raise pgCAP 1 1 _ (by decide) (by decide))) fun _ => CapKeeps.refl d1
  refine (h1.trans h2).trans (CapKeeps.foldl _ _ (fun d u _ => ?_) d2)
  extract_lets chs d3 d4
  refine CapKeeps.ite (fun _ => CapKeeps.refl d) fun _ => ?_
  have h3 : CapKeeps d d3 := CapKeeps.ite (fun _ => CapKeeps.refl d) fun _ =>
    CapKeeps.foldl _ _ (fun d ch _ => keeps_setCapUnit d u _) d
  have h4 : CapKeeps d3 d4 := keeps_capWatch u t [] true d3
  refine (h3.trans h4).trans (CapKeeps.ite (fun _ => CapKeeps.foldl _ _ (fun d ch _ => ?_) d4) fun _ => CapKeeps.refl d4)
  clear_value merged
  cases merged with
  | some t' => exact keeps_capMerge u ch t' t rising d
  | none => exact keeps_capStore u t _ d

/-- An edge of a pin reaches the capture engine alone. -/
theorem keeps_pinEdge (src : Nat) (level : Bool) (t : Nat) (d : Dev) : CapKeeps d (pinEdge src level t d) :=
  CapKeeps.foldl _ _ (fun d e _ => CapKeeps.ite (fun _ => keeps_capEdge e level _ d) fun _ => CapKeeps.refl d) d

theorem leaves_pinEdge (src : Nat) (level : Bool) (t : Nat) (d : Dev) : Leaves capPage d (pinEdge src level t d) :=
  (keeps_pinEdge src level t d).toLeaves

end Sys2Proof.Machine
end

section
/-! PROOFS. A drop to KEEPER: the safe chain trips, the CORE and MFE domains are lost (R533, R534, R538). -/
namespace Sys2Proof.Machine

/-! ## STOP, STO outputs and a trip of the chain -/

section
variable {K : Nat → Prop}

theorem leaves_transmit (d : Dev) (o : Out) : Leaves K d (d.transmit o) :=
  Leaves.units (transmit_regs _ _) (transmit_conf _ _) (transmit_keep _ _) (transmit_load _ _) (by rw [transmit_tsu])

theorem leaves_safeMap (f : Safe → Safe) (d : Dev) : Leaves K d (d.safeMap f) := Leaves.units rfl rfl rfl rfl rfl

theorem leaves_osRing (r : Fin 4) (code : Byte) (arg : Nat) (d : Dev) : Leaves K d (osRing r code arg d) :=
  Leaves.ite (fun _ => (leaves_transmit d _).trans (leaves_transmit _ _)) fun _ => Leaves.refl K d

theorem leaves_osSys (code : Byte) (arg : Nat) (d : Dev) : Leaves K d (osSys code arg d) :=
  Leaves.ite (fun _ => (leaves_transmit d _).trans (leaves_transmit _ _)) fun _ => Leaves.refl K d

theorem leaves_sendStop (d : Dev) : Leaves K d (sendStop d) :=
  (Leaves.foldl _ _ (fun d r _ => leaves_osRing r _ _ d) d).trans (leaves_osSys _ _ _)

end

/-- The pages that a trip of the safe chain writes. -/
def safPage (p : Nat) : Prop := capPage p ∨ p = pgSAF

theorem leaves_wrBit (d : Dev) (f : Fld) (i : Nat) (v : Bool) (hf : f.off < 4096) : Leaves safPage d (d.wrBit pgSAF f i v) :=
  Leaves.wr d _ _ (.inr rfl) (by decide) hf

theorem leaves_setSto (n : Fin 4) (level : Bool) (d : Dev) : Leaves safPage d (setSto n level d) := by
  unfold setSto
  extract_lets d1
  have h1 : Leaves safPage d d1 := (leaves_wrBit d SAF.STOOUT n level (by decide)).trans ((leaves_pinEdge _ _ _ _).mono fun _ => .inl)
  exact h1.trans (Leaves.ite (fun _ => Leaves.refl _ d1) fun _ => leaves_wrBit d1 SAF.STOFB n level (by decide))

theorem leaves_tripSto (d : Dev) : Leaves safPage d (tripSto d) :=
  Leaves.foldl _ _ (fun d n _ => Leaves.ite (fun _ => Leaves.refl _ d) fun _ =>
    Leaves.ite (fun _ => leaves_setSto n false d) fun _ => leaves_safeMap _ d) d

/-- A field of SAF beside the bits of the STO outputs and of their feedback. -/
def besideSto (g : Fld) : Prop := g.off ≠ SAF.STOOUT.off ∨ g.lsb + g.width ≤ 6 ∨ 14 ≤ g.lsb

/-- A field of SAF stands where an STO output is driven. -/
theorem rd_setSto (n : Fin 4) (level : Bool) (d : Dev) (g : Fld) (hg : besideSto g) (ho : g.off < 4096) (hv : g.off ≠ HDR.PEVT.off) :
    (setSto n level d).rd pgSAF g = d.rd pgSAF g := by
  have hn := n.isLt
  have hbit : ∀ (d : Dev) (f : Fld), f.off = SAF.STOOUT.off → 6 ≤ f.lsb → f.lsb ≤ 10 →
      (d.wrBit pgSAF f n level).rd pgSAF g = d.rd pgSAF g := by
    intro d f hf hl hh
    by_cases h : g.off = SAF.STOOUT.off
    · have := hg.resolve_left fun hne => hne h
      exact rd_wr_beside d pgSAF ⟨f.off, f.lsb + n.val, 1⟩ g _ (by dsimp only; omega) (hf.trans h.symm) (by dsimp only; omega)
    · refine rd_wr_off d pgSAF ⟨f.off, f.lsb + n.val, 1⟩ _ pgSAF g ?_
      dsimp only
      rw [hf, Nat.mod_eq_of_lt ho]
      exact fun e => h e.symm
  unfold setSto
  extract_lets d1
  have h1 : d1.rd pgSAF g = d.rd pgSAF g :=
    ((leaves_pinEdge _ _ _ _).rd (by decide) ho (by unfold capPage eventPage; decide) hv).trans
      (hbit d SAF.STOOUT rfl (by decide) (by decide))
  split
  · exact h1
  · exact (hbit d1 SAF.STOFB rfl (by decide) (by decide)).trans h1

theorem rd_foldl {α : Type} (f : Dev → α → Dev) (p : Nat) (g : Fld) (h : ∀ d x, (f d x).rd p g = d.rd p g) (l : List α) :
    ∀ d, (l.foldl f d).rd p g = d.rd p g := by
  induction l with
  | nil => exact fun d => rfl
  | cons x l ih => exact fun d => (ih _).trans (h d x)

theorem rd_tripSto (d : Dev) (g : Fld) (hg : besideSto g) (ho : g.off < 4096) (hv : g.off ≠ HDR.PEVT.off) :
    (tripSto d).rd pgSAF g = d.rd pgSAF g := by
  refine rd_foldl _ _ _ (fun d n => ?_) _ d
  split
  · rfl
  · split
    · exact rd_setSto n false d g hg ho hv
    · rfl

theorem not_eventPage_saf : ¬ eventPage pgSAF := by unfold eventPage; decide

theorem leaves_safTrip (cause : Nat) (f : Fld) (i : Nat) (d : Dev) (hf : f.off < 4096) : Leaves safPage d (safTrip cause f i d) := by
  unfold safTrip
  extract_lets d1 d2 d3
  have h1 : Leaves safPage d d1 := leaves_wrBit d f i true hf
  refine h1.trans (Leaves.ite (fun _ => Leaves.refl _ d1) fun _ => ?_)
  have h2 : Leaves safPage d1 d2 :=
    (Leaves.wr d1 SAF.HOLD 1 (.inr rfl) (by decide) (by decide)).trans (Leaves.wr _ SAF.CAUSE cause (.inr rfl) (by decide) (by decide))
  have h3 : Leaves safPage d2 d3 := (Leaves.wr64 d2 0 d2.st (.inr rfl) (by decide) (by decide)).trans
    (Leaves.wr _ SAF.TRIPS _ (.inr rfl) (by decide) (by decide))
  refine ((h2.trans h3).trans ((leaves_sendStop d3).trans (leaves_tripSto _))).trans ?_
  exact (Leaves.raise pgSAF 0 cause _ (by decide) (by decide)).mono fun _ h => .inl (.inl h)

/-- After a cause of a trip the chain holds (R411). -/
theorem hold_safTrip (cause : Nat) (f : Fld) (i : Nat) (d : Dev) : (safTrip cause f i d).on pgSAF SAF.HOLD = true := by
  unfold safTrip
  extract_lets d1 d2 d3
  split
  · assumption
  · have h2 : d2.rd pgSAF SAF.HOLD = 1 := by
      refine (rd_wr_beside _ pgSAF SAF.CAUSE SAF.HOLD cause (by decide) rfl (by decide)).trans ?_
      exact rd_wr_self _ _ _ _ (by decide)
    have h3 : d3.rd pgSAF SAF.HOLD = 1 := by
      refine (rd_wr_off _ pgSAF SAF.TRIPS _ pgSAF SAF.HOLD (by decide)).trans (Eq.trans ?_ h2)
      unfold Dev.wr64 Dev.rd
      rw [rdS_setReg_off _ _ _ _ _ _ _ _ (by decide), rdS_setReg_off _ _ _ _ _ _ _ _ (by decide)]
    have h4 : (tripSto (sendStop d3)).rd pgSAF SAF.HOLD = 1 := by
      rw [rd_tripSto _ _ (.inr (.inl (by decide))) (by decide) (by decide), (leaves_sendStop (K := fun _ => False) d3).rd (by decide) (by decide) id (by decide), h3]
    have h5 := (Leaves.raise pgSAF 0 cause (tripSto (sendStop d3)) (by decide) (by decide)).rd (f := SAF.HOLD) (by decide) (by decide)
      not_eventPage_saf (by decide)
    unfold Dev.on
    rw [h5, h4]
    rfl

/-! ## The loss of the CORE and MFE domains -/

/-- `d'` is `d` but for registers of the KEEP domain, and units that a drop to KEEPER keeps. -/
structure OnlyKept (d d' : Dev) : Prop where
  conf : d'.conf = d.conf
  hold : d'.evt.hold = d.evt.hold
  mem : d'.mem = d.mem
  pairs : d'.pairs = d.pairs
  mot : d'.mot = d.mot
  tsu : d'.tsu = d.tsu
  cap : d'.cap = d.cap
  mfe : d'.mfe = d.mfe
  ring : d'.ring = d.ring
  red : d'.red = d.red
  reg : ∀ p s o, p < 1024 → o < 4096 → isKept p = false → d'.reg p s o = d.reg p s o

section
variable {d d' d'' : Dev}

theorem OnlyKept.refl (d : Dev) : OnlyKept d d := ⟨rfl, rfl, rfl, rfl, rfl, rfl, rfl, rfl, rfl, rfl, fun _ _ _ _ _ _ => rfl⟩

theorem OnlyKept.trans (h : OnlyKept d d') (h' : OnlyKept d' d'') : OnlyKept d d'' where
  conf := h'.conf.trans h.conf
  hold := h'.hold.trans h.hold
  mem := h'.mem.trans h.mem
  pairs := h'.pairs.trans h.pairs
  mot := h'.mot.trans h.mot
  tsu := h'.tsu.trans h.tsu
  cap := h'.cap.trans h.cap
  mfe := h'.mfe.trans h.mfe
  ring := h'.ring.trans h.ring
  red := h'.red.trans h.red
  reg := fun p s o hp ho hK => (h'.reg p s o hp ho hK).trans (h.reg p s o hp ho hK)

theorem OnlyKept.wr (d : Dev) {p : Nat} (f : Fld) (v : Nat) (hk : isKept p = true) (hp : p < 1024) (hf : f.off < 4096) :
    OnlyKept d (d.wr p f v) := by
  refine ⟨wr_conf d p f v, by rw [wr_evt], wr_mem d p f v, wr_pairs d p f v, wr_mot d p f v, wr_tsu d p f v, wr_cap d p f v,
    wr_mfe d p f v, wr_ring d p f v, wr_red d p f v, fun p' s o hp' ho hK => ?_⟩
  exact reg_wrS_key _ _ _ _ _ _ _ _ fun h => by
    have := (regKey_inj hp hp' hf ho h).1
    rw [this, hK] at hk
    exact absurd hk (by decide)

theorem OnlyKept.ite {c : Prop} [Decidable c] (h : OnlyKept d d') (h' : OnlyKept d d'') : OnlyKept d (if c then d' else d'') := by
  split
  · exact h
  · exact h'

end

/-- The pages, memory and units that a drop to KEEPER clears, before LOCK and SAFOWN of the pages that stay. -/
def coreLost (d : Dev) : Dev :=
  let z := Dev.reset d.conf
  let d := d.resetPages fun p => !isKept p
  let d := { d with
    st := 0, mem := [], bad := [], pairs := z.pairs, mot := z.mot, tsu := z.tsu, cap := z.cap, evt := z.evt, load := z.load,
    io := z.io, mfe := z.mfe, ring := z.ring, time := z.time, red := z.red, host := { z.host with spi := d.host.spi, reported := d.host.reported } }
  d.safeMap fun s => { s with
    okSince := s.okSince.map fun o => o.map fun _ => 0, nodeStop := s.nodeStop.map fun _ => 0 }

theorem loseCore_eq (d : Dev) : loseCore d = (((((coreLost d).wr pgGLB HDR.LOCK 0).wr pgSTG HDR.LOCK 0).wr pgSAF HDR.LOCK 0).wr
    pgSPM HDR.LOCK 0).wr pgSPM SPM.SAFOWN 0 := rfl

/-- What a drop to KEEPER leaves of memory, the units of the CORE and MFE domains, and the pages outside the KEEP domain. -/
structure CoreReset (code : Nat) (d : Dev) : Prop where
  conf : d.conf = code
  hold : d.evt.hold = none
  mem : d.mem = []
  pairs : d.pairs = Vector.replicate 18 Pair.off
  mot : d.mot = Motor.reset
  tsu : d.tsu = Tsu.reset
  cap : d.cap = Cap.reset
  mfe : d.mfe = Mfe.reset
  ring : d.ring = Vector.replicate 4 RingDyn.reset
  red : d.red = Red.reset
  reg : ∀ p s o, p < 1024 → o < 4096 → isKept p = false → d.reg p s o = resetWord code p o

theorem CoreReset.of {code : Nat} {d d' : Dev} (h : CoreReset code d) (h' : OnlyKept d d') : CoreReset code d' where
  conf := h'.conf.trans h.conf
  hold := h'.hold.trans h.hold
  mem := h'.mem.trans h.mem
  pairs := h'.pairs.trans h.pairs
  mot := h'.mot.trans h.mot
  tsu := h'.tsu.trans h.tsu
  cap := h'.cap.trans h.cap
  mfe := h'.mfe.trans h.mfe
  ring := h'.ring.trans h.ring
  red := h'.red.trans h.red
  reg := fun p s o hp ho hK => (h'.reg p s o hp ho hK).trans (h.reg p s o hp ho hK)

theorem reg_coreLost (d : Dev) {p o : Nat} (s : Nat) (hp : p < 1024) (ho : o < 4096) :
    (coreLost d).reg p s o = if !isKept p then resetWord d.conf p o else d.reg p s o :=
  reg_resetPages (fun p => !isKept p) d s hp ho

theorem coreReset_coreLost (d : Dev) : CoreReset d.conf (coreLost d) :=
  ⟨rfl, rfl, rfl, rfl, rfl, rfl, rfl, rfl, rfl, rfl, fun p s o hp ho hK => by rw [reg_coreLost d s hp ho, hK]; rfl⟩

theorem onlyKept_loseCore (d : Dev) : OnlyKept (coreLost d) (loseCore d) := by
  rw [loseCore_eq]
  exact ((((OnlyKept.wr _ HDR.LOCK 0 (by decide) (by decide) (by decide)).trans
    (OnlyKept.wr _ HDR.LOCK 0 (by decide) (by decide) (by decide))).trans
    (OnlyKept.wr _ HDR.LOCK 0 (by decide) (by decide) (by decide))).trans
    (OnlyKept.wr _ HDR.LOCK 0 (by decide) (by decide) (by decide))).trans
    (OnlyKept.wr _ SPM.SAFOWN 0 (by decide) (by decide) (by decide))

/-- A field of a page of the KEEP domain stands, unless it is LOCK or SAFOWN. -/
theorem rd_loseCore (d : Dev) (p : Nat) (f : Fld) (hk : isKept p = true) (hp : p < 1024) (hf : f.off < 4096)
    (hl : HDR.LOCK.off ≠ f.off) (hs : SPM.SAFOWN.off ≠ f.off ∨ p ≠ pgSPM) : (loseCore d).rd p f = d.rd p f := by
  have hoff : HDR.LOCK.off % 4096 ≠ f.off % 4096 := by
    rw [Nat.mod_eq_of_lt hf]
    exact hl
  rw [loseCore_eq, rd_wr_key _ _ SPM.SAFOWN _ _ _ fun h => ?_, rd_wr_off _ _ _ _ _ _ hoff, rd_wr_off _ _ _ _ _ _ hoff,
    rd_wr_off _ _ _ _ _ _ hoff, rd_wr_off _ _ _ _ _ _ hoff]
  · unfold Dev.rd Dev.rdS
    rw [reg_coreLost d 0 hp hf, hk]
    rfl
  · obtain ⟨h1, -, h2⟩ := regKey_inj (by decide) hp (by decide) hf h
    exact hs.elim (fun hs => hs h2) fun hs => hs h1.symm

/-! ## The drop -/

/-- The drop up to the loss of the CORE domain: the chain trips with cause 7. -/
def keeperTripped (cause : Nat) (d : Dev) : Dev :=
  let d := cutWaiting d
  let d := if d.on pgSAF SAF.HOLD then d else sendStop d
  safTrip 7 SAF.KEEPERD 0 ((d.wr pgSTG STG.DCAUSE cause).wr pgSTG STG.STAGE 0)

/-- What the KEEP domain notes of the drop: counts, presence, and the watchdog's hold. -/
def keeperNoted (cause : Nat) (d : Dev) : Dev :=
  let d := { d with keep := { d.keep with wdLock := false, wdWait := cause == 1 } }
  let d := if cause = 4 then d.wr pgSTG STG.PRES 0 else d
  if cause = 5 then d.inc pgSTG STG.SRSTCNT else d

/-- The notes of the drop itself for entry to LANTERN. -/
def dropNoted (old : Nat) (d : Dev) : Dev := { d with keep := { d.keep with dropFrom := old, kicked := 0 } }

theorem dropKeeper_eq {cause : Nat} {d : Dev} (h : d.stage ≠ 0) : dropKeeper cause d =
    showStg (raise pgSTG 0 ((keeperNoted cause (loseCore (keeperTripped cause d))).stageArg d.stage)
      (dropNoted d.stage (keeperNoted cause (loseCore (keeperTripped cause d))))) := by
  unfold dropKeeper
  simp only [if_neg h]
  rfl

theorem conf_safCut (d : Dev) : (safCut d).conf = d.conf := by
  unfold safCut settleCmd
  split
  · rfl
  · rw [wr_conf, wr_conf]
    rfl

theorem conf_cutWaiting (d : Dev) : (cutWaiting d).conf = d.conf := by
  unfold cutWaiting settleCmd
  dsimp only
  split
  · rw [wr_conf, wr_conf]
    exact conf_safCut d
  · exact conf_safCut d

theorem tripped_keeper (cause : Nat) (d : Dev) (hc : cause ≤ 6) : (keeperTripped cause d).stage = 0 ∧
    (keeperTripped cause d).rd pgSTG STG.DCAUSE = cause ∧ (keeperTripped cause d).on pgSAF SAF.HOLD = true ∧
    (keeperTripped cause d).conf = d.conf := by
  unfold keeperTripped
  extract_lets d1 d2
  have h2 : d2.conf = d.conf := by
    show (if _ then _ else _ : Dev).conf = _
    split
    · exact conf_cutWaiting d
    · exact (leaves_sendStop (K := fun _ => False) _).conf.trans (conf_cutWaiting d)
  have htrip := leaves_safTrip 7 SAF.KEEPERD 0 ((d2.wr pgSTG STG.DCAUSE cause).wr pgSTG STG.STAGE 0) (by decide)
  have hnot : ¬ safPage pgSTG := by unfold safPage capPage eventPage; decide
  refine ⟨?_, ?_, hold_safTrip _ _ _ _, ?_⟩
  · exact (htrip.rd (by decide) (by decide) hnot (by decide)).trans (rd_wr_self _ _ _ _ (by decide))
  · refine (htrip.rd (by decide) (by decide) hnot (by decide)).trans ?_
    rw [rd_wr_beside _ _ STG.STAGE STG.DCAUSE _ (by decide) rfl (by decide), rd_wr_self _ _ _ _ (by decide)]
    exact Nat.mod_eq_of_lt (by unfold STG.DCAUSE; dsimp only; omega)
  · rw [htrip.conf, wr_conf, wr_conf, h2]

theorem onlyKept_withKeep (d : Dev) (k : Keep) : OnlyKept d { d with keep := k } :=
  ⟨rfl, rfl, rfl, rfl, rfl, rfl, rfl, rfl, rfl, rfl, fun _ _ _ _ _ _ => rfl⟩

theorem onlyKept_keeperNoted (cause : Nat) (d : Dev) : OnlyKept d (keeperNoted cause d) := by
  unfold keeperNoted
  extract_lets src d1 d2
  have h1 : OnlyKept d d1 := onlyKept_withKeep d _
  have h2 : OnlyKept d1 d2 := OnlyKept.ite (OnlyKept.wr d1 STG.PRES 0 rfl (by decide) (by decide)) (OnlyKept.refl d1)
  exact (h1.trans h2).trans (OnlyKept.ite (OnlyKept.wr d2 STG.SRSTCNT _ rfl (by decide) (by decide)) (OnlyKept.refl d2))

theorem onlyKept_showStg (d : Dev) : OnlyKept d (showStg d) := by
  unfold showStg
  extract_lets d1 d2
  have h1 : OnlyKept d d1 := OnlyKept.wr d STG.CALOK _ rfl (by decide) (by decide)
  have h2 : OnlyKept d1 d2 := OnlyKept.ite (OnlyKept.refl d1) (OnlyKept.wr d1 STG.BISTOK _ rfl (by decide) (by decide))
  exact (h1.trans h2).trans (OnlyKept.wr d2 STG.FULLOK _ rfl (by decide) (by decide))

/-- A field of STG and of SAF that the notes of a drop leave. -/
theorem rd_keeperNoted (cause : Nat) (d : Dev) (p : Nat) (g : Fld) (hg : p ≠ pgSTG ∨ besideFlags g) (hp : p < 1024) (ho : g.off < 4096)
    (hs : g.off ≠ STG.SRSTCNT.off) : (keeperNoted cause d).rd p g = d.rd p g := by
  unfold keeperNoted
  extract_lets src d1 d2
  have h2 : d2.rd p g = d.rd p g := by
    show (if _ then _ else _ : Dev).rd p g = _
    split
    · rcases hg with hg | hg
      · exact rd_wr_key d1 _ STG.PRES _ _ _ fun h => hg (regKey_inj (by decide) hp (by decide) ho h).1.symm
      · by_cases hp' : p = pgSTG
        · rw [hp']
          exact rd_wr_flag d1 STG.PRES g 0 rfl (by decide) hg
        · exact rd_wr_key d1 _ STG.PRES _ _ _ fun h => hp' (regKey_inj (by decide) hp (by decide) ho h).1.symm
    · rfl
  split
  · exact (rd_wr_off d2 pgSTG STG.SRSTCNT _ p g (by rw [Nat.mod_eq_of_lt ho]; exact fun h => hs h.symm)).trans h2
  · exact h2

theorem wdWait_keeperNoted (cause : Nat) (d : Dev) : (keeperNoted cause d).keep.wdWait = (cause == 1) := by
  unfold keeperNoted
  extract_lets src d1 d2
  have h2 : d2.keep.wdWait = (cause == 1) := by
    show (if _ then _ else _ : Dev).keep.wdWait = _
    split
    · rw [wr_keep]
    · rfl
  split
  · rw [Dev.inc, wr_keep, h2]
  · exact h2

/-- What a drop to KEEPER leaves (R533, R534, R538). -/
theorem dropKeeper_leaves {cause : Nat} {d : Dev} (h : d.stage ≠ 0) (hc : cause ≤ 6) : (dropKeeper cause d).stage = 0 ∧
    (dropKeeper cause d).rd pgSTG STG.DCAUSE = cause ∧ (dropKeeper cause d).keep.wdWait = (cause == 1) ∧
    (dropKeeper cause d).on pgSAF SAF.HOLD = true ∧ CoreReset d.conf (dropKeeper cause d) := by
  obtain ⟨hstage, hcause, hhold, hconf⟩ := tripped_keeper cause d hc
  rw [dropKeeper_eq h]
  generalize keeperTripped cause d = e at *
  have hnoted := onlyKept_keeperNoted cause (loseCore e)
  have hlost : CoreReset d.conf (keeperNoted cause (loseCore e)) :=
    ((hconf ▸ coreReset_coreLost e).of (onlyKept_loseCore e)).of hnoted
  have hrd : ∀ (p : Nat) (g : Fld), p = pgSTG ∧ besideFlags g ∨ p = pgSAF → g.off < 4096 → HDR.LOCK.off ≠ g.off → g.off ≠ STG.SRSTCNT.off →
      (keeperNoted cause (loseCore e)).rd p g = e.rd p g := by
    intro p g hp ho hl hs
    have hp1 : isKept p = true ∧ p < 1024 ∧ p ≠ pgSPM ∧ (p ≠ pgSTG ∨ besideFlags g) := by
      rcases hp with ⟨rfl, hg⟩ | rfl
      · exact ⟨rfl, by decide, by decide, .inr hg⟩
      · exact ⟨rfl, by decide, by decide, .inl (by decide)⟩
    obtain ⟨hk, hlt, hne, hb⟩ := hp1
    rw [rd_keeperNoted cause _ p g hb hlt ho hs, rd_loseCore e p g hk hlt ho hl (.inr hne)]
  have hwait := wdWait_keeperNoted cause (loseCore e)
  generalize keeperNoted cause (loseCore e) = x at *
  have hstage' : x.stage = 0 := (hrd pgSTG STG.STAGE (.inl ⟨rfl, .inr ⟨rfl, .inl (by decide)⟩⟩) (by decide) (by decide) (by decide)).trans hstage
  rw [raise_silent pgSTG 0 _ (dropNoted d.stage x) hlost.hold (.inr (.inr hstage'))]
  have hpevt : ∀ (v p : Nat) (g : Fld), g.off < 4096 → g.off ≠ HDR.PEVT.off →
      ((dropNoted d.stage x).wr pgSTG HDR.PEVT v).rd p g = x.rd p g := fun v p g ho hv =>
    rd_wr_off _ _ _ _ _ _ (by rw [Nat.mod_eq_of_lt ho]; exact fun h => hv h.symm)
  have hrd' : ∀ (v : Nat) (g : Fld), besideFlags g → g.off < 4096 → HDR.LOCK.off ≠ g.off → g.off ≠ STG.SRSTCNT.off → g.off ≠ HDR.PEVT.off →
      (showStg ((dropNoted d.stage x).wr pgSTG HDR.PEVT v)).rd pgSTG g = e.rd pgSTG g := fun v g hg ho hl hs hv => by
    rw [rd_showStg _ g hg, hpevt v pgSTG g ho hv, hrd pgSTG g (.inl ⟨rfl, hg⟩) ho hl hs]
  refine ⟨?_, ?_, ?_, ?_, ?_⟩
  · exact (hrd' _ STG.STAGE (.inr ⟨rfl, .inl (by decide)⟩) (by decide) (by decide) (by decide) (by decide)).trans hstage
  · exact (hrd' _ STG.DCAUSE (.inr ⟨rfl, .inr (by decide)⟩) (by decide) (by decide) (by decide) (by decide)).trans hcause
  · rw [(leaves_showStg _).keep, wr_keep]
    exact hwait
  · unfold Dev.on at hhold ⊢
    rw [(leaves_showStg _).rd (f := SAF.HOLD) (by decide) (by decide) (by decide) (by decide), hpevt _ pgSAF SAF.HOLD (by decide) (by decide),
      hrd pgSAF SAF.HOLD (.inr rfl) (by decide) (by decide) (by decide)]
    exact hhold
  · exact ((hlost.of (onlyKept_withKeep x _)).of (OnlyKept.wr _ HDR.PEVT _ rfl (by decide) (by decide))).of (onlyKept_showStg _)

/-- Settles O11. -/
theorem dropsToKeeper : Obligations.DropsToKeeper := by
  refine ⟨fun s h => ⟨?_, ?_, ?_, fun hw => ?_⟩, fun d cause h hc => ?_⟩
  · show s.act supplyOut = _
    rw [act_withDev]
    exact next_congr (if_neg h)
  · show s.act pllLoss = _
    rw [act_withDev]
    exact next_congr (if_neg h)
  · show s.act presenceLost = _
    rw [act_withDev]
    exact next_congr (if_neg h)
  · show s.act watchdogExpire = _
    rw [act_withDev]
    have hruns : s.dev.wdRuns = true := by
      unfold Dev.wdRuns
      rw [hw]
      simpa using h
    exact next_congr (if_pos hruns)
  · obtain ⟨hstage, hcause, hwait, hhold, hreset⟩ := dropKeeper_leaves h hc
    refine ⟨hstage, hcause, by rw [hwait, beq_iff_eq], hhold, hreset.mem, hreset.pairs, hreset.mot, hreset.tsu, hreset.cap, hreset.mfe,
      hreset.ring, hreset.red, hreset.reg⟩

end Sys2Proof.Machine
end

section
/-! PROOFS. What leaves the page STG alone: axes that moor, the Season tables, the role, the pairs and the axis tasks (R215, R232,
R352, R487). -/
namespace Sys2Proof.Machine

/-- Every page but STG. -/
def offStg (p : Nat) : Prop := p ≠ pgSTG

theorem offStg_of_event {p : Nat} (h : eventPage p) : offStg p := by
  unfold eventPage pgEVT pgTSU at h
  unfold offStg pgSTG
  omega

theorem offStg_axp (n : Fin 256) : offStg (pgAxp n) ∧ pgAxp n < 1024 := by
  have := n.isLt
  unfold offStg pgAxp pgSTG
  omega

theorem offStg_cep (p : Nat) (h : p < 18) : offStg (pgCep p) ∧ pgCep p < 1024 := by
  unfold offStg pgCep pgSTG
  omega

section
variable (d : Dev)

theorem off_axp (n : Fin 256) (f : Fld) (v : Nat) (hf : f.off < 4096) : Leaves offStg d (d.wr (pgAxp n) f v) :=
  Leaves.wr d f v (offStg_axp n).1 (offStg_axp n).2 hf

theorem off_axpI (n : Fin 256) (f : Fld) (v : Int) (hf : f.off < 4096) : Leaves offStg d (d.wrI (pgAxp n) f v) :=
  off_axp d n f _ hf

theorem off_axp64 (n : Fin 256) (o v : Nat) (ho : o + 4 < 4096) : Leaves offStg d (d.wr64 (pgAxp n) 0 o v) :=
  Leaves.wr64 d 0 v (offStg_axp n).1 (offStg_axp n).2 ho

/-- The pages of the profile generator and of path groups, and those of events. -/
def movePage (p : Nat) : Prop := eventPage p ∨ p = pgPRF ∨ (0xC0 ≤ p ∧ p < 0xC8)

theorem offStg_of_move {p : Nat} (h : movePage p) : offStg p := by
  rcases h with h | h
  · exact offStg_of_event h
  · unfold pgPRF at h
    unfold offStg pgSTG
    omega

theorem move_prf (n : Nat) (f : Fld) (v : Nat) (hf : f.off < 4096) : Leaves movePage d (d.wrS pgPRF n f v) :=
  Leaves.wrS d n f v (.inr (.inl rfl)) (by decide) hf

theorem move_raise (page bit arg : Nat) (hp : page < 1024) (hb : bit < 32) : Leaves movePage d (raise page bit arg d) :=
  (Leaves.raise page bit arg d hp hb).mono fun _ => .inl

theorem off_prf (n : Nat) (f : Fld) (v : Nat) (hf : f.off < 4096) : Leaves offStg d (d.wrS pgPRF n f v) :=
  Leaves.wrS d n f v (by unfold offStg; decide) (by decide) hf

theorem off_sea (n : Nat) (f : Fld) (v : Nat) (hf : f.off < 4096) : Leaves offStg d (d.wrS pgSEA n f v) :=
  Leaves.wrS d n f v (by unfold offStg; decide) (by decide) hf

theorem off_tsu (n : Nat) (f : Fld) (v : Nat) (hf : f.off < 4096) : Leaves offStg d (d.wrS pgTSU n f v) :=
  Leaves.wrS d n f v (by unfold offStg; decide) (by decide) hf

theorem off_cep (p : Nat) (f : Fld) (v : Nat) (hp : p < 18) (hf : f.off < 4096) : Leaves offStg d (d.wr (pgCep p) f v) :=
  Leaves.wr d f v (offStg_cep p hp).1 (offStg_cep p hp).2 hf

/-- An event changes no other bit of STG than PEVT. -/
theorem off_raise (page bit arg : Nat) (hp : page < 1024) (hb : bit < 32) : Leaves offStg d (raise page bit arg d) :=
  (Leaves.raise page bit arg d hp hb).mono fun _ => offStg_of_event

theorem off_axEvent (n : Fin 256) (bit : Nat) (hb : bit < 32) : Leaves offStg d (axEvent n bit d) :=
  off_raise d _ bit bit (offStg_axp n).2 hb

/-! ## Axes -/

theorem off_setAxState (n : Fin 256) (s : Nat) : Leaves offStg d (setAxState n s d) := by
  unfold setAxState
  refine Leaves.ite (fun _ => Leaves.refl _ d) fun _ => ?_
  extract_lets d1
  have h1 : Leaves offStg d d1 := (off_axp d n AXP.STATE s (by decide)).trans (off_axEvent _ n 0 (by decide))
  exact h1.trans (Leaves.ite (fun _ => off_axEvent d1 n 2 (by decide)) fun _ => Leaves.refl _ d1)

theorem off_showAxis (n : Fin 256) : Leaves offStg d (showAxis n d) := by
  unfold showAxis
  extract_lets x pg d1 d2 d3 d4
  have h1 : Leaves offStg d d1 := (off_axp64 d n 0x400 _ (by decide)).trans (off_axp64 _ n 0x408 _ (by decide))
  have h2 : Leaves offStg d1 d2 := (((off_axpI d1 n AXP.VACT _ (by decide)).trans (off_axpI _ n AXP.VREF _ (by decide))).trans
    (off_axpI _ n AXP.IDACT _ (by decide))).trans (off_axpI _ n AXP.IQACT _ (by decide))
  have h3 : Leaves offStg d2 d3 := (((off_axpI d2 n AXP.IQREF _ (by decide)).trans (off_axp _ n AXP.THETA _ (by decide))).trans
    (off_axp _ n AXP.THOBS _ (by decide))).trans (off_axpI _ n AXP.WOBS _ (by decide))
  have h4 : Leaves offStg d3 d4 := (((off_axpI d3 n AXP.UDCPU _ (by decide)).trans (off_axp _ n AXP.DA _ (by decide))).trans
    (off_axp _ n AXP.DB _ (by decide))).trans (off_axp _ n AXP.DC _ (by decide))
  exact (((h1.trans h2).trans h3).trans h4).trans ((off_axp d4 n AXP.CSEQ _ (by decide)).trans (off_axpI _ n AXP.FERR _ (by decide)))

theorem move_showProf (n : Fin 256) : Leaves movePage d (showProf n d) := by
  unfold showProf
  extract_lets p d1 d2 d3
  have h1 : Leaves movePage d d1 := (move_prf d n PRF.MRUN _ (by decide)).trans (move_prf _ n PRF.QDEPTH _ (by decide))
  have h2 : Leaves movePage d1 d2 := by
    show Leaves movePage d1 (match p.run with | .move m _ => d1.wrS pgPRF n PRF.RKIND m.kind | _ => d1)
    split
    · exact move_prf d1 n PRF.RKIND _ (by decide)
    · exact Leaves.refl _ d1
  have h3 : Leaves movePage d2 d3 := (move_prf d2 n PRF.HBUSY _ (by decide)).trans (move_prf _ n PRF.LEVEL _ (by decide))
  exact ((h1.trans h2).trans h3).trans (move_prf d3 n PRF.DEFF _ (by decide))

theorem move_homeFault (n : Fin 256) (code : Nat) : Leaves movePage d (homeFault n code d) :=
  ((move_prf d n PRF.HFC code (by decide)).trans (move_prf _ n PRF.HOMED 0 (by decide))).trans (move_raise _ (pgAxp n) 13 13 (offStg_axp n).2 (by decide))

theorem move_profEnd (n : Fin 256) : Leaves movePage d (profEnd n d) := by
  unfold profEnd
  extract_lets homing d1
  have h1 : Leaves movePage d d1 := (leaves_withMot d _).trans (move_showProf _ n)
  exact h1.trans (Leaves.ite (fun _ => move_homeFault d1 n 6) fun _ => Leaves.refl _ d1)

theorem move_groupMemberLost (n : Fin 256) : Leaves movePage d (groupMemberLost n d) := by
  unfold groupMemberLost
  split
  · next g _ =>
    have hp : movePage (pgPgrp (g % 8)) ∧ pgPgrp (g % 8) < 1024 := by
      have : 0xC0 ≤ pgPgrp (g % 8) ∧ pgPgrp (g % 8) < 0xC8 := by
        unfold pgPgrp
        omega
      exact ⟨.inr (.inr this), by omega⟩
    exact (((leaves_withMot d _).trans (Leaves.wr _ PGRP.GFAULT 1 hp.1 hp.2 (by decide))).trans
      (Leaves.wr _ PGRP.GSTATE 3 hp.1 hp.2 (by decide))).trans (move_raise _ _ 2 2 hp.2 (by decide))
  · exact Leaves.refl _ d

theorem off_moorAxis (n : Fin 256) : Leaves offStg d (moorAxis n d) := by
  unfold moorAxis
  extract_lets pg d1 d2 d3
  have h1 : Leaves movePage d d1 := ((leaves_withMot d _).trans (move_groupMemberLost _ n)).trans (move_profEnd _ n)
  have h2 : Leaves offStg d1 d2 := (leaves_withMot d1 _).trans (leaves_withMot _ _)
  have h3 : Leaves offStg d2 d3 := ((((off_axp d2 n AXP.OBSC 0 (by decide)).trans (off_axp _ n AXP.AWV 0 (by decide))).trans
    (off_axp _ n AXP.AWD 0 (by decide))).trans (off_axp _ n AXP.AWQ 0 (by decide))).trans (off_axp _ n AXP.FROZC 0 (by decide))
  exact (((h1.mono fun _ => offStg_of_move).trans h2).trans h3).trans ((off_setAxState d3 n axMOORED).trans (off_showAxis _ n))

theorem off_moorAll : Leaves offStg d (moorAll d) := Leaves.foldl _ _ (fun d n _ => off_moorAxis d n) d

theorem off_seaClear : Leaves offStg d (seaClear d) := by
  unfold seaClear
  extract_lets d1 src d2
  have h2 : Leaves offStg d d2 := (leaves_clearMem d _ _).trans (leaves_withMot _ _)
  exact h2.trans (Leaves.foldl _ _ (fun d n _ => (((off_sea d n SEA.STAT_SSTATE 0 (by decide)).trans
    (off_sea _ n SEA.STAT_BUSY 0 (by decide))).trans (off_sea _ n SEA.TSUM 0 (by decide))).trans
    (off_sea _ n SEA.STAT_SUSP 0 (by decide))) d2)

/-! ## The role -/

theorem off_clearDisagree : Leaves offStg d (clearDisagree d) := by
  unfold clearDisagree
  extract_lets d1 d2 d3
  have hw : ∀ (d : Dev) (p : Nat) (f : Fld), p ≠ pgSTG ∧ p < 1024 → f.off < 4096 → Leaves offStg d (d.wr p f 0) :=
    fun d p f hp hf => Leaves.wr d f 0 hp.1 hp.2 hf
  have h1 : Leaves offStg d d1 := (((hw d pgSAF SAF.DISAGREE (by decide) (by decide)).trans
    (hw _ pgTIM TIM.DISAGREE (by decide) (by decide))).trans (hw _ pgTSU TSU.DISAGREE (by decide) (by decide))).trans
    (hw _ pgRED RED.DISAGREE (by decide) (by decide))
  have h2 : Leaves offStg d1 d2 := Leaves.each _ _ (fun d g hg => by
    have hg := List.mem_range.mp hg
    exact hw d _ PGRP.DISAGREE (by unfold pgPgrp pgSTG; omega) (by decide)) d1
  have h3 : Leaves offStg d2 d3 := Leaves.each _ _ (fun d r _ =>
    Leaves.wrS d r SGU.DISAGREE 0 (by unfold offStg; decide) (by decide) (by decide)) d2
  refine ((h1.trans h2).trans h3).trans (Leaves.each _ _ (fun d n hn => ?_) d3)
  have hn := List.mem_range.mp hn
  exact ((hw d (pgAxp n) AXP.DISAGREE (by unfold pgAxp pgSTG; omega) (by decide)).trans
    (off_prf _ n PRF.DISAGREE 0 (by decide))).trans (off_sea _ n SEA.STAT_DISAGREE 0 (by decide))

theorem off_dropRanging (r : Fin 4) : Leaves offStg d (dropRanging r d) := Leaves.units rfl rfl rfl rfl rfl

theorem off_setRole (new : Nat) : Leaves offStg d (setRole new d) := by
  unfold setRole
  extract_lets old d1 d2 d3 d4
  refine Leaves.ite (fun _ => Leaves.refl _ d) fun _ => ?_
  have h1 : Leaves offStg d d1 := Leaves.wr d RED.ROLE new (by unfold offStg; decide) (by decide) (by decide)
  have h2 : Leaves offStg d1 d2 := Leaves.ite (fun _ => off_clearDisagree d1) fun _ => Leaves.refl _ d1
  have h3 : Leaves offStg d2 d3 := Leaves.ite (fun _ => off_moorAll d2) fun _ => Leaves.refl _ d2
  have h4 : Leaves offStg d3 d4 := Leaves.ite (fun _ => Leaves.foldl _ _ (fun d r _ => off_dropRanging d r) d3) fun _ => Leaves.refl _ d3
  exact (((h1.trans h2).trans h3).trans h4).trans (off_raise d4 pgRED 0 _ (by decide) (by decide))

/-! ## Axis tasks -/

theorem off_showTask (p : Nat) (r : Running) (hp : p < 18) : Leaves offStg d (showTask p r d) := by
  cases r with
  | nothing => exact (off_cep d p CEP.TV 0 hp (by decide)).trans (off_cep _ p CEP.HOOK 0 hp (by decide))
  | task t s =>
    exact (((off_cep d p CEP.TID t hp (by decide)).trans (off_cep _ p CEP.TV 1 hp (by decide))).trans
      (off_cep _ p CEP.HOOK 0 hp (by decide))).trans (off_cep _ p CEP.AXN 0 hp (by decide))

theorem off_beginAxis (p : Nat) (n : Fin 256) (hp : p < 18) : Leaves offStg d (beginAxis p n d) := by
  unfold beginAxis
  extract_lets o hook w pg d1 d2 d3 d4
  have h1 : Leaves offStg d d1 := ((((leaves_openUsed d).trans (off_cep _ p CEP.TID _ hp (by decide))).trans
    (off_cep _ p CEP.TV 1 hp (by decide))).trans (off_cep _ p CEP.AXN _ hp (by decide))).trans (off_cep _ p CEP.PSTATE 2 hp (by decide))
  have h2 : Leaves offStg d1 d2 := (off_cep d1 p CEP.HOOK _ hp (by decide)).trans (off_cep _ p CEP.PC _ hp (by decide))
  have h3 : Leaves offStg d2 d3 := Leaves.ite (fun _ => off_cep d2 p CEP.HOOKN _ hp (by decide)) fun _ => Leaves.refl _ d2
  have h4 : Leaves offStg d3 d4 := (off_tsu d3 n TSU.WLAST w (by decide)).trans (off_tsu _ n TSU.WMAX _ (by decide))
  exact (((h1.trans h2).trans h3).trans h4).trans ((off_tsu d4 n TSU.PAIR p (by decide)).trans (off_tsu _ n TSU.TSTATE 3 (by decide)))

theorem off_serveAxis (p : Nat) (hp : p < 18) : Leaves offStg d (serveAxis p d) := by
  unfold serveAxis
  split
  · next n _ => exact Leaves.ite (fun _ => Leaves.refl _ d) fun _ => off_beginAxis d p n hp
  · rw [dif_pos hp]
    exact Leaves.ite (fun _ => (off_showTask d p .nothing hp).trans (off_cep _ p CEP.PSTATE 1 hp (by decide))) fun _ => Leaves.refl _ d

theorem off_serveAll : Leaves offStg d (serveAll d) :=
  Leaves.foldl _ _ (fun d p hp => off_serveAxis d p (cepPage_of_fitted hp)) d

theorem off_dropTasks : Leaves offStg d (dropTasks d) := by
  unfold dropTasks
  extract_lets d1 src
  have h1 : Leaves offStg d d1 := Leaves.foldl _ _ (fun d n _ =>
    (leaves_withMot d _).trans (off_tsu (d.mapAx n fun x => { x with ready := false }) n TSU.TSTATE 0 (by decide))) d
  have h2 : Leaves offStg d1 { d1 with tsu := { src with order := [] } } := leaves_withTsu d1 _ rfl
  exact (h1.trans h2).trans (off_serveAll _)

end

end Sys2Proof.Machine
end

section
/-! PROOFS. A drop to LANTERN, the end of a validation and entry to FULL (R531, R533, R551). -/
namespace Sys2Proof.Machine

/-- What a GO_FULL or RELEASE that is cut off leaves of STG and of the load. -/
theorem cutWaiting_leaves (d : Dev) : (cutWaiting d).conf = d.conf ∧ (cutWaiting d).load.cfg = d.load.cfg ∧
    ∀ g : Fld, 0x40 ≤ g.off → g.off < 4096 → (cutWaiting d).rd pgSTG g = d.rd pgSTG g := by
  have hsettle : ∀ (d : Dev) (p r : Nat) (g : Fld), 0x40 ≤ g.off → g.off < 4096 → (settleCmd p r d).rd pgSTG g = d.rd pgSTG g :=
    fun d p r g hg ho => by
      unfold settleCmd
      rw [rd_wr_off _ _ _ _ _ _ (by unfold HDR.BUSY; dsimp only; omega), rd_wr_off _ _ _ _ _ _ (by unfold HDR.RESULT; dsimp only; omega)]
  have hcut : (safCut d).load = d.load ∧ ∀ g : Fld, 0x40 ≤ g.off → g.off < 4096 → (safCut d).rd pgSTG g = d.rd pgSTG g := by
    unfold safCut
    split
    · exact ⟨rfl, fun _ _ _ => rfl⟩
    · refine ⟨?_, fun g hg ho => hsettle _ _ _ g hg ho⟩
      rw [settleCmd, wr_load, wr_load]
      rfl
  refine ⟨conf_cutWaiting d, ?_⟩
  unfold cutWaiting
  dsimp only
  split
  · refine ⟨?_, fun g hg ho => (hsettle _ _ _ g hg ho).trans (hcut.2 g hg ho)⟩
    rw [settleCmd, wr_load, wr_load]
    show (safCut d).load.cfg = _
    rw [hcut.1]
  · exact ⟨congrArg Load.cfg hcut.1, hcut.2⟩

/-- A state with other head pair units, and one with no table assigned. -/
def withRed (d : Dev) (r : Red) : Dev := { d with red := r }
def unassigned (d : Dev) : Dev := { d with tsu := { d.tsu with assign := [] } }

/-- A commanding or checking head is SILENT. -/
def silenced (d : Dev) : Dev :=
  if d.role = roACTIVE ∨ d.role = roALONE ∨ d.role = roSTANDBY then withRed (setRole roSILENT d) { d.red with reply := [] } else d

/-- The count of a drop, and what moors and clears with it, with the role of the head. -/
def lanternMoored (cause : Nat) (d : Dev) : Dev :=
  silenced (seaClear (moorAll (((cutWaiting d).wr pgSTG STG.DCAUSE cause).inc pgSTG STG.FLTCNT)))

/-- The failed load of cause 8. -/
def loadBroken (cause : Nat) (d : Dev) : Dev := if cause = 8 then (d.wr pgSTG STG.LSTEP 7).wr pgSTG STG.LFAIL 3 else d

/-- The end of the assignment, and the failed load. -/
def lanternShown (cause : Nat) (d : Dev) : Dev := loadBroken cause (showPairs (unassigned d))

theorem dropLantern_eq {cause : Nat} {d : Dev} (h : d.stage ≠ 0) : dropLantern cause d =
    if d.stage = 2 then dropTasks (stageChange 1 (lanternShown cause (lanternMoored cause d)))
    else lanternShown cause (lanternMoored cause d) := by
  unfold dropLantern lanternShown lanternMoored
  rw [if_neg h]
  rfl

theorem off_withRed (d : Dev) (r : Red) : Leaves offStg d (withRed d r) := Leaves.units rfl rfl rfl rfl rfl

theorem off_silenced (d : Dev) : Leaves offStg d (silenced d) :=
  Leaves.ite (fun _ => (off_setRole d roSILENT).trans (off_withRed _ _)) fun _ => Leaves.refl _ d

theorem off_lanternMoored (cause : Nat) (d : Dev) :
    Leaves offStg (((cutWaiting d).wr pgSTG STG.DCAUSE cause).inc pgSTG STG.FLTCNT) (lanternMoored cause d) :=
  ((off_moorAll _).trans (off_seaClear _)).trans (off_silenced _)

/-- A field of STG before the drop's own steps. -/
theorem rd_lanternMoored (cause : Nat) (d : Dev) (g : Fld) (hg : 0x40 ≤ g.off) (ho : g.off < 4096) (hl : g.off ≠ 0x60)
    (hc : g.off ≠ 0x40 ∨ g.lsb + g.width ≤ 20 ∨ 24 ≤ g.lsb) : (lanternMoored cause d).rd pgSTG g = d.rd pgSTG g := by
  have hv : g.off ≠ HDR.PEVT.off := by unfold HDR.PEVT; dsimp only; omega
  rw [(off_lanternMoored cause d).rd (by decide) ho (fun h => h rfl) hv]
  refine (rd_wr_off _ pgSTG STG.FLTCNT _ pgSTG g (by unfold STG.FLTCNT; dsimp only; omega)).trans ?_
  rw [← (cutWaiting_leaves d).2.2 g hg ho]
  by_cases h : g.off = 0x40
  · exact rd_wr_beside _ _ STG.DCAUSE g _ (by decide) h.symm (by unfold STG.DCAUSE; dsimp only; omega)
  · exact rd_wr_off _ _ STG.DCAUSE _ _ _ (by unfold STG.DCAUSE; dsimp only; omega)

theorem counted_lanternMoored (cause : Nat) (d : Dev) (hc : cause ≤ 10) :
    (lanternMoored cause d).rd pgSTG STG.DCAUSE = cause ∧
    (lanternMoored cause d).rd pgSTG STG.FLTCNT = min (d.rd pgSTG STG.FLTCNT + 1) 255 ∧
    (lanternMoored cause d).load.cfg = d.load.cfg ∧ (lanternMoored cause d).conf = d.conf := by
  have hoff := off_lanternMoored cause d
  obtain ⟨hconf, hcfg, hrd⟩ := cutWaiting_leaves d
  refine ⟨?_, ?_, ?_, ?_⟩
  · rw [hoff.rd (by decide) (by decide) (fun h => h rfl) (by decide)]
    refine (rd_wr_off _ pgSTG STG.FLTCNT _ pgSTG STG.DCAUSE (by decide)).trans ?_
    rw [rd_wr_self _ _ _ _ (by decide)]
    exact Nat.mod_eq_of_lt (by unfold STG.DCAUSE; dsimp only; omega)
  · rw [hoff.rd (by decide) (by decide) (fun h => h rfl) (by decide), rd_inc_byte _ _ STG.FLTCNT rfl (by decide),
      rd_wr_off _ _ _ _ _ _ (by decide), hrd STG.FLTCNT (by decide) (by decide)]
  · rw [hoff.load, Dev.inc, wr_load, wr_load, hcfg]
  · rw [hoff.conf, Dev.inc, wr_conf, wr_conf, hconf]

/-- The assignment ended, and the pairs show it. -/
theorem leaves_unassigned (d : Dev) : (showPairs (unassigned d)).conf = d.conf ∧ (showPairs (unassigned d)).load = d.load ∧
    (showPairs (unassigned d)).tsu.assign = [] ∧
    ∀ g, besideFlags g → g.off < 4096 → g.off ≠ HDR.PEVT.off → (showPairs (unassigned d)).rd pgSTG g = d.rd pgSTG g := by
  have h := leaves_showPairs (unassigned d)
  exact ⟨h.conf, h.load, h.assign, fun g hg ho hv => rd_showPairs _ g hg ho hv⟩

/-- A field of STG that the end of the assignment and a failed load leave. -/
theorem lanternShown_leaves (cause : Nat) (d : Dev) : (lanternShown cause d).conf = d.conf ∧ (lanternShown cause d).load = d.load ∧
    (lanternShown cause d).tsu.assign = [] ∧
    (∀ g, besideFlags g → g.off < 4096 → g.off ≠ HDR.PEVT.off → g.off ≠ STG.LSTEP.off ∨ g.lsb + g.width ≤ 2 ∨ 20 ≤ g.lsb →
      (lanternShown cause d).rd pgSTG g = d.rd pgSTG g) ∧
    (cause = 8 → (lanternShown cause d).lstep = 7 ∧ (lanternShown cause d).rd pgSTG STG.LFAIL = 3) := by
  obtain ⟨hconf, hload, hassign, hrd⟩ := leaves_unassigned d
  unfold lanternShown loadBroken
  generalize showPairs (unassigned d) = x at hconf hload hassign hrd
  split
  · refine ⟨by rw [wr_conf, wr_conf, hconf], by rw [wr_load, wr_load, hload], by rw [assign_wr, assign_wr, hassign],
      fun g hb ho hv hg => ?_, fun _ => ⟨?_, rd_wr_self _ _ _ _ (by decide)⟩⟩
    · rw [← hrd g hb ho hv]
      by_cases h : g.off = 0x40
      · rw [rd_wr_beside _ _ STG.LFAIL g _ (by decide) h.symm (by unfold STG.LSTEP at hg; unfold STG.LFAIL; dsimp only at hg ⊢; omega),
          rd_wr_beside _ _ STG.LSTEP g _ (by decide) h.symm (by unfold STG.LSTEP at hg ⊢; dsimp only at hg ⊢; omega)]
      · rw [rd_wr_off _ _ STG.LFAIL _ _ _ (by unfold STG.LFAIL; dsimp only; omega),
          rd_wr_off _ _ STG.LSTEP _ _ _ (by unfold STG.LSTEP; dsimp only; omega)]
    · exact (rd_wr_beside _ _ STG.LFAIL STG.LSTEP _ (by decide) rfl (by decide)).trans (rd_wr_self _ _ _ _ (by decide))
  · next h => exact ⟨hconf, hload, hassign, fun g hb ho hv _ => hrd g hb ho hv, fun hc => absurd hc h⟩

/-- The change of stage leaves the other fields of STG and the units of the frame. -/
theorem off_stageChange (new : Nat) (d : Dev) : Leaves offStg (d.wr pgSTG STG.STAGE new) (stageChange new d) :=
  off_raise _ pgSTG 0 _ (by decide) (by decide)

theorem stage_stageChange (new : Nat) (d : Dev) (h : new < 4) : (stageChange new d).stage = new := by
  unfold Dev.stage
  rw [(off_stageChange new d).rd (by decide) (by decide) (fun h => h rfl) (by decide), rd_wr_self _ _ _ _ (by decide)]
  exact Nat.mod_eq_of_lt h

theorem rd_stageChange (new : Nat) (d : Dev) (g : Fld) (ho : g.off < 4096) (hv : g.off ≠ HDR.PEVT.off)
    (hg : g.off ≠ 0x40 ∨ 2 ≤ g.lsb) : (stageChange new d).rd pgSTG g = d.rd pgSTG g := by
  rw [(off_stageChange new d).rd (by decide) ho (fun h => h rfl) hv]
  by_cases h : g.off = 0x40
  · exact rd_wr_beside _ _ STG.STAGE g _ (by decide) h.symm (by unfold STG.STAGE; dsimp only; omega)
  · exact rd_wr_off _ _ STG.STAGE _ _ _ (by unfold STG.STAGE; dsimp only; omega)

/-- The drop as it stands before the stage itself changes. -/
theorem lanternDropped {cause : Nat} {d : Dev} (hc : cause ≤ 10) :
    (lanternShown cause (lanternMoored cause d)).stage = d.stage ∧
    (lanternShown cause (lanternMoored cause d)).rd pgSTG STG.DCAUSE = cause ∧
    (lanternShown cause (lanternMoored cause d)).rd pgSTG STG.FLTCNT = min (d.rd pgSTG STG.FLTCNT + 1) 255 ∧
    (lanternShown cause (lanternMoored cause d)).load.cfg = d.load.cfg ∧
    (lanternShown cause (lanternMoored cause d)).conf = d.conf := by
  obtain ⟨hconf, hload, -, hrd, -⟩ := lanternShown_leaves cause (lanternMoored cause d)
  obtain ⟨hcause, hcount, hcfg, hconf'⟩ := counted_lanternMoored cause d hc
  have hstage := rd_lanternMoored cause d STG.STAGE (by decide) (by decide) (by decide) (.inr (.inl (by decide)))
  refine ⟨?_, ?_, ?_, by rw [hload, hcfg], by rw [hconf, hconf']⟩
  · exact (hrd STG.STAGE (.inr ⟨rfl, .inl (by decide)⟩) (by decide) (by decide) (.inr (.inl (by decide)))).trans hstage
  · exact (hrd STG.DCAUSE (.inr ⟨rfl, .inr (by decide)⟩) (by decide) (by decide) (.inr (.inr (by decide)))).trans hcause
  · exact (hrd STG.FLTCNT (.inl (by decide)) (by decide) (by decide) (.inl (by decide))).trans hcount

/-- Settles O12. -/
theorem dropsToLantern : Obligations.DropsToLantern := by
  intro d cause hs _ hc
  have hne : d.stage ≠ 0 := by omega
  obtain ⟨hstage, hcause, hcount, hcfg, hconf⟩ := lanternDropped (d := d) hc
  obtain ⟨-, -, hassign, -, hfail⟩ := lanternShown_leaves cause (lanternMoored cause d)
  rw [dropLantern_eq hne]
  generalize lanternShown cause (lanternMoored cause d) = x at *
  split
  · have htasks := off_dropTasks (stageChange 1 x)
    have hchange := off_stageChange 1 x
    have hrd : ∀ g : Fld, g.off < 4096 → g.off ≠ HDR.PEVT.off → g.off ≠ 0x40 ∨ 2 ≤ g.lsb →
        (dropTasks (stageChange 1 x)).rd pgSTG g = x.rd pgSTG g := fun g ho hv hg =>
      (htasks.rd (by decide) ho (fun h => h rfl) hv).trans (rd_stageChange 1 x g ho hv hg)
    refine ⟨?_, (hrd STG.DCAUSE (by decide) (by decide) (.inr (by decide))).trans hcause,
      (hrd STG.FLTCNT (by decide) (by decide) (.inl (by decide))).trans hcount, ?_, ?_, ?_, fun h => ⟨?_, ?_⟩⟩
    · exact (htasks.rd (f := STG.STAGE) (by decide) (by decide) (fun h => h rfl) (by decide)).trans (stage_stageChange 1 x (by decide))
    · rw [htasks.assign, hchange.assign, assign_wr, hassign]
    · rw [htasks.load, hchange.load, wr_load, hcfg]
    · rw [htasks.conf, hchange.conf, wr_conf, hconf]
    · exact (hrd STG.LSTEP (by decide) (by decide) (.inr (by decide))).trans (hfail h).1
    · exact (hrd STG.LFAIL (by decide) (by decide) (.inr (by decide))).trans (hfail h).2
  · exact ⟨by omega, hcause, hcount, hassign, hcfg, hconf, hfail⟩

end Sys2Proof.Machine
end

section
/-! PROOFS. The end of a validation and entry to FULL (R531, R551). -/
namespace Sys2Proof.Machine

/-! ## The end of a validation -/

/-- The pages of the measurement cores and of events. -/
def corePage (p : Nat) : Prop := eventPage p ∨ (0x41 ≤ p ∧ p < 0x45)

theorem corePage_mfc (c : Fin 4) : corePage (pgMfc c) ∧ pgMfc c < 1024 := by
  have := c.isLt
  unfold corePage pgMfc
  omega

section
variable (d : Dev)

theorem leaves_withMfe {K : Nat → Prop} (m : Mfe) : Leaves K d { d with mfe := m } := Leaves.units rfl rfl rfl rfl rfl

theorem leaves_mfPut (c : Fin 4) (f : Fld) (v : Nat) (hf : f.off < 4096) : Leaves corePage d (d.mfPut c f v) :=
  Leaves.wr d f v (corePage_mfc c).1 (corePage_mfc c).2 hf

theorem leaves_mapCore {K : Nat → Prop} (c : Fin 4) (f : Core → Core) : Leaves K d (d.mapCore c f) := leaves_withMfe d _

theorem leaves_mfcEvent (c : Fin 4) (bit arg : Nat) (hb : bit < 32) : Leaves corePage d (mfcEvent c bit arg d) :=
  (Leaves.raise _ bit arg d (corePage_mfc c).2 hb).mono fun _ => .inl

theorem leaves_pendScan (c : Fin 4) : Leaves corePage d (pendScan c d) :=
  Leaves.ite (fun _ => (leaves_mfPut d c MFC.TRGLOST _ (by decide)).trans (leaves_mfcEvent _ c 3 0xFF (by decide))) fun _ =>
    leaves_mfPut d c MFC.PEND 1 (by decide)

theorem leaves_passDues (c : Fin 4) (t : Nat) : Leaves corePage d (passDues c t d) :=
  (leaves_mapCore d c _).trans (Leaves.each _ _ (fun d _ _ => leaves_pendScan d c) _)

theorem leaves_validateCore (c : Fin 4) : Leaves corePage d (validateCore c d) :=
  Leaves.ite (fun _ => (leaves_mfPut d c MFC.CSTATE 4 (by decide)).trans (leaves_withMfe _ _)) fun _ => Leaves.refl _ d

theorem leaves_coreRest (c : Fin 4) (cont sleep : Bool) (t : Nat) : Leaves corePage d (coreRest c cont sleep t d) := by
  unfold coreRest
  extract_lets d1
  have h1 : Leaves corePage d d1 := (leaves_passDues d c t).trans (leaves_mapCore _ c _)
  refine h1.trans (Leaves.ite (fun _ => ?_) fun _ => Leaves.ite (fun _ => ?_) fun _ => ?_)
  · exact (leaves_mfPut d1 c MFC.CSTATE 1 (by decide)).trans (leaves_validateCore _ c)
  · exact leaves_mfPut d1 c MFC.CSTATE 1 (by decide)
  · exact (leaves_mfPut d1 c MFC.CSTATE 2 (by decide)).trans (leaves_mapCore _ c _)

theorem leaves_validatedCore (c : Fin 4) (t : Nat) : Leaves corePage d (validatedCore c t d) :=
  Leaves.ite (fun _ => (leaves_mfPut d c MFC.CSTATE 1 (by decide)).trans (leaves_coreRest _ c _ _ t)) fun _ => Leaves.refl _ d

end

/-- AUTOFULL and the flags of SSTAT are of STG alone. -/
theorem reg_autoFull (d : Dev) (s o : Nat) (ho : o < 4096) : (autoFull d).reg pgCAL s o = d.reg pgCAL s o := by
  have hw : ∀ (d : Dev) (f : Fld) (v : Nat), f.off < 4096 → (d.wr pgSTG f v).reg pgCAL s o = d.reg pgCAL s o := fun d f v hf =>
    reg_wrS_key _ _ _ _ _ _ _ _ fun h => absurd (regKey_inj (by decide) (by decide) hf ho h).1 (by decide)
  have hrec : ∀ (d : Dev) (code arg r : Nat) (b : Bool), (recordCmd pgSTG code arg r b d).reg pgCAL s o = d.reg pgCAL s o :=
    fun d code arg r b => reg_setReg_page d _ _ _ _ _ _ _ (by decide) (by decide) (by decide) ho (by decide)
  unfold autoFull
  split
  · unfold cmdGoFull takeCmd deferCmd
    split
    · split
      · exact hw _ _ _ (by decide)
      · exact hrec _ _ _ _ _
    · show (if _ then _ else _ : Dev).reg pgCAL s o = _
      split
      · exact hw _ _ _ (by decide)
      · exact hrec _ _ _ _ _
  · rfl

/-- The cores that failed, as VRES shows them. -/
theorem bitOf_failed (p : Nat → Bool) {n : Nat} (hn : n < 4) :
    bitOf (((List.range 4).map fun n => if p n then 0 else 2 ^ n).foldl (· + ·) 0 % 2 ^ 4) n = !p n := by
  have h4 : ∀ (a b c e : Bool) (n : Fin 4), bitOf (((((0 + if a then 0 else 2 ^ 0) + if b then 0 else 2 ^ 1) + if c then 0 else 2 ^ 2) +
      if e then 0 else 2 ^ 3) % 2 ^ 4) n = !([a, b, c, e].getD n true) := by decide
  refine (h4 (p 0) (p 1) (p 2) (p 3) ⟨n, hn⟩).trans ?_
  match n, hn with
  | 0, _ => rfl
  | 1, _ => rfl
  | 2, _ => rfl
  | 3, _ => rfl

/-- The cores that failed. -/
def failedCores (codes : List (List (BitVec 24))) (d : Dev) : Nat :=
  ((List.range 4).map fun n => if d.corePasses n (codes.getD n []) then 0 else 2 ^ n).foldl (· + ·) 0

/-- VBUSY and VRES, and the cores free of the validation. -/
def coresValidated (res : Nat) (d : Dev) : Dev :=
  (List.finRange 4).foldl (fun (d : Dev) (c : Fin 4) => validatedCore c d.st d) ((d.wr pgCAL CAL.VBUSY 0).wr pgCAL CAL.VRES res)

/-- CALOK and its event, and what AUTOFULL brings. -/
def calShown (res : Nat) (ok : Bool) (d : Dev) : Dev :=
  if ok then autoFull (raise pgCAL 0 res (setCalok ok d)) else raise pgCAL 0 res (setCalok ok d)

theorem calValidationDone_eq (codes : List (List (BitVec 24))) {d : Dev} (h : d.on pgCAL CAL.VBUSY = true) :
    calValidationDone codes d = calShown (failedCores codes d)
      (failedCores codes d == 0 && (coresValidated (failedCores codes d) d).on pgCAL CAL.SRC) (coresValidated (failedCores codes d) d) :=
  if_neg (by rw [h]; decide)

theorem rd_calShown (res : Nat) (ok : Bool) (d : Dev) (g : Fld) (ho : g.off = 0x40) (hg : g.lsb + g.width ≤ 4 ∨ 5 ≤ g.lsb) :
    (calShown res ok d).rd pgCAL g = d.rd pgCAL g := by
  have hne : ¬ eventPage pgCAL := by unfold eventPage; decide
  have hraise : (raise pgCAL 0 res (setCalok ok d)).rd pgCAL g = d.rd pgCAL g := by
    rw [(Leaves.raise pgCAL 0 res _ (by decide) (by decide)).rd (by decide) (by omega) hne (by rw [ho]; decide)]
    unfold setCalok
    rw [(leaves_showStg _).rd (by decide) (by omega) (by decide) (by rw [ho]; decide)]
    exact rd_wr_beside _ _ CAL.CALOK g _ (by decide) ho.symm (by unfold CAL.CALOK; dsimp only; omega)
  unfold calShown
  split
  · rw [← hraise]
    unfold Dev.rd Dev.rdS
    rw [reg_autoFull _ 0 g.off (by omega)]
  · exact hraise

theorem rd_coresValidated (res : Nat) (d : Dev) : (coresValidated res d).rd pgCAL CAL.VBUSY = 0 ∧
    (coresValidated res d).rd pgCAL CAL.VRES = res % 2 ^ 4 := by
  have h : Leaves corePage ((d.wr pgCAL CAL.VBUSY 0).wr pgCAL CAL.VRES res) (coresValidated res d) :=
    Leaves.foldl _ _ (fun d c _ => leaves_validatedCore d c d.st) _
  have hne : ¬ corePage pgCAL := by unfold corePage eventPage; decide
  constructor
  · rw [h.rd (by decide) (by decide) hne (by decide), rd_wr_beside _ _ CAL.VRES CAL.VBUSY _ (by decide) rfl (by decide),
      rd_wr_self _ _ _ _ (by decide)]
    rfl
  · exact (h.rd (by decide) (by decide) hne (by decide)).trans (rd_wr_self _ _ _ _ (by decide))

theorem calValidationDone_shows (codes : List (List (BitVec 24))) {d : Dev} (h : d.on pgCAL CAL.VBUSY = true) :
    (calValidationDone codes d).rd pgCAL CAL.VBUSY = 0 ∧ ∀ n, n < 4 →
      (bitOf ((calValidationDone codes d).rd pgCAL CAL.VRES) n = true ↔ d.corePasses n (codes.getD n []) = false) := by
  obtain ⟨hb, hr⟩ := rd_coresValidated (failedCores codes d) d
  rw [calValidationDone_eq codes h]
  refine ⟨(rd_calShown _ _ _ _ rfl (by decide)).trans hb, fun n hn => ?_⟩
  rw [rd_calShown _ _ _ CAL.VRES rfl (by decide), hr]
  have := bitOf_failed (fun n => d.corePasses n (codes.getD n [])) hn
  unfold failedCores
  rw [this]
  cases d.corePasses n (codes.getD n []) <;> decide

/-! ## Entry to FULL -/

/-- A state with other work of the scheduler, with another assignment, and with the time of entry to FULL. -/
def withWork (d : Dev) (w s : List Nat) : Dev := { d with tsu := { d.tsu with work := w, spare := s } }
def withAssign (d : Dev) (a : List (Nat × Nat)) : Dev := { d with tsu := { d.tsu with assign := a } }
def fullSince (d : Dev) (t : Nat) : Dev := { d with keep := { d.keep with full := t } }

/-- The tables take the pairs of an assignment. -/
def pairsAdopted (a : List (Nat × Nat)) (d : Dev) : Dev :=
  a.foldl (fun (d : Dev) (x : Nat × Nat) => d.wrS (pgAxp x.1) (adopted 0) AXP.PAIR x.2) d

theorem assignAxes_eq (d : Dev) : assignAxes d =
    showPairs (pairsAdopted (d.assignment d.tsu.work) (withAssign d (d.assignment d.tsu.work))) := rfl

theorem enterFull_eq (d : Dev) : enterFull d = stageChange 2 (assignAxes
    (fullSince (withWork (d.wr pgSTG STG.FTIME (d.openBits 16)).openUsed
      (workingPairs (d.wr pgSTG STG.FTIME (d.openBits 16)).openUsed.conf) [16, 17])
      (withWork (d.wr pgSTG STG.FTIME (d.openBits 16)).openUsed
      (workingPairs (d.wr pgSTG STG.FTIME (d.openBits 16)).openUsed.conf) [16, 17]).st)) := rfl

theorem load_pairsAdopted (a : List (Nat × Nat)) : ∀ d : Dev, (pairsAdopted a d).load = d.load ∧
    ∀ g : Fld, g.off < 4096 → (pairsAdopted a d).rd pgSTG g = d.rd pgSTG g := by
  induction a with
  | nil => exact fun d => ⟨rfl, fun _ _ => rfl⟩
  | cons x a ih =>
    intro d
    obtain ⟨hl, hr⟩ := ih (d.wrS (pgAxp x.1) (adopted 0) AXP.PAIR x.2)
    refine ⟨hl.trans (wrS_load _ _ _ _ _), fun g ho => (hr g ho).trans ?_⟩
    unfold Dev.rd Dev.rdS
    rw [reg_wrS_key _ _ _ _ _ _ _ _ fun h => ?_]
    unfold regKey pgAxp pgSTG adopted at h
    omega

/-- The assignment of axes leaves the load and the fields of STG beside the flags. -/
theorem assignAxes_leaves (d : Dev) : (assignAxes d).load = d.load ∧ ∀ g : Fld, besideFlags g → g.off < 4096 →
    g.off ≠ HDR.PEVT.off → (assignAxes d).rd pgSTG g = d.rd pgSTG g := by
  rw [assignAxes_eq]
  obtain ⟨hl, hr⟩ := load_pairsAdopted (d.assignment d.tsu.work) (withAssign d (d.assignment d.tsu.work))
  exact ⟨(leaves_showPairs _).load.trans hl, fun g hg ho hv => (rd_showPairs _ g hg ho hv).trans (hr g ho)⟩

theorem enterFull_leaves (d : Dev) : (enterFull d).stage = 2 ∧ (enterFull d).load = d.load ∧
    ∀ g : Fld, g.off < 0x40 → g.off ≠ HDR.PEVT.off → (enterFull d).rd pgSTG g = d.rd pgSTG g := by
  rw [enterFull_eq]
  have hx : ∀ (x : Dev) (w s : List Nat), (fullSince (withWork x w s) (withWork x w s).st).load = x.load ∧
      ∀ g, (fullSince (withWork x w s) (withWork x w s).st).rd pgSTG g = x.rd pgSTG g := fun x w s => ⟨rfl, fun g => rfl⟩
  obtain ⟨hl, hr⟩ := hx (d.wr pgSTG STG.FTIME (d.openBits 16)).openUsed
    (workingPairs (d.wr pgSTG STG.FTIME (d.openBits 16)).openUsed.conf) [16, 17]
  generalize fullSince _ _ = x at hl hr
  obtain ⟨hl', hr'⟩ := assignAxes_leaves x
  have hopen : ∀ (y : Dev), y.openUsed.load = y.load ∧ ∀ g, y.openUsed.rd pgSTG g = y.rd pgSTG g := fun y => ⟨rfl, fun g => rfl⟩
  refine ⟨stage_stageChange 2 _ (by decide), ?_, fun g hg hv => ?_⟩
  · rw [(off_stageChange 2 _).load, wr_load, hl', hl, (hopen _).1, wr_load]
  · rw [rd_stageChange 2 _ g (by omega) hv (.inl (by omega)), hr' g (.inl (by omega)) (by omega) hv, hr, (hopen _).2]
    exact rd_wr_off _ _ _ _ _ _ (by unfold STG.FTIME; dsimp only; omega)

/-- The end of a GO_FULL, and the load that waits for it no longer. -/
def goFullOver (d : Dev) : Dev := { d with load := { d.load with goFull := false } }

theorem fullEntry_eq {d : Dev} (h : d.load.goFull = true) : fullEntry d =
    if (goFullOver d).imageStands then enterFull (settleCmd pgSTG rOK (goFullOver d)) else settleCmd pgSTG rSTATE (goFullOver d) :=
  if_neg (by rw [h]; decide)

theorem rd_settleCmd (d : Dev) (p r : Nat) : (settleCmd p r d).rd p HDR.BUSY = 0 ∧ (settleCmd p r d).rd p HDR.RESULT = r % 2 ^ 4 := by
  constructor
  · exact rd_wr_self _ _ _ _ (by decide)
  · exact (rd_wr_beside _ _ HDR.BUSY HDR.RESULT _ (by decide) rfl (by decide)).trans (rd_wr_self _ _ _ _ (by decide))

/-- Settles O16. -/
theorem validationAndFullEntry : Obligations.ValidationAndFullEntry := by
  refine ⟨fun s codes => ⟨fun h => ?_, fun h => ⟨s.withDev (calValidationDone codes s.dev), ?_, ?_⟩⟩, fun s hg => ⟨fun hi => ?_, fun hi => ?_⟩⟩
  · show s.act (calValidationDone codes) = _
    rw [act_withDev]
    exact next_congr (d' := s.dev) (if_pos (by rw [h]; rfl))
  · exact act_withDev _ _
  · exact calValidationDone_shows codes h
  · have hstands : (goFullOver s.dev).imageStands = true := hi
    obtain ⟨hs, hl, hr⟩ := enterFull_leaves (settleCmd pgSTG rOK (goFullOver s.dev))
    obtain ⟨hb, hres⟩ := rd_settleCmd (goFullOver s.dev) pgSTG rOK
    refine ⟨s.withDev (enterFull (settleCmd pgSTG rOK (goFullOver s.dev))), ?_, hs, (hr HDR.BUSY (by decide) (by decide)).trans hb,
      (hr HDR.RESULT (by decide) (by decide)).trans hres, ?_⟩
    · show s.act fullEntry = _
      rw [act_withDev, fullEntry_eq hg, if_pos hstands]
    · show Load.goFull (enterFull _).load = false
      rw [hl, settleCmd, wr_load, wr_load]
      rfl
  · show s.act fullEntry = _
    rw [act_withDev, fullEntry_eq hg]
    exact next_congr (if_neg (by rw [show (goFullOver s.dev).imageStands = false from hi]; decide))

end Sys2Proof.Machine
end

section
/-! PROOFS. The programming of an image, and what the load keeps of itself through it (R530, R536, R547). -/
namespace Sys2Proof.Machine

/-! ## The load stands through the writes of units -/

section
variable (d : Dev)

theorem load_pinEdge (src : Nat) (level : Bool) (t : Nat) : (pinEdge src level t d).load = d.load := (leaves_pinEdge src level t d).load

theorem load_raise (page bit arg : Nat) (hp : page < 1024) (hb : bit < 32) : (raise page bit arg d).load = d.load :=
  (Leaves.raise page bit arg d hp hb).load

theorem load_wr64 (p s o v : Nat) : (d.wr64 p s o v).load = d.load := (setReg_load _ _ _ _ _).trans (setReg_load _ _ _ _ _)

theorem load_wrC (c : Fin 8) (u : Fin 2) (f : Fld) (v : Nat) : (d.wrC c u f v).load = d.load := wr_load _ _ _ _

theorem load_mapCmp (c : Fin 8) (u : Fin 2) (f : Compare → Compare) : (d.mapCmp c u f).load = d.load := rfl

theorem load_mapFbu (c : Fin 8) (f : FbuDyn → FbuDyn) : (d.mapFbu c f).load = d.load := rfl

theorem load_foldl {α : Type} (f : Dev → α → Dev) (h : ∀ d x, (f d x).load = d.load) (l : List α) :
    ∀ d, (l.foldl f d).load = d.load := by
  induction l with
  | nil => exact fun d => rfl
  | cons x l ih => exact fun d => (ih _).trans (h d x)

theorem load_ite {c : Prop} [Decidable c] {d d' d'' : Dev} (h : d'.load = d.load) (h' : d''.load = d.load) :
    (if c then d' else d'').load = d.load := by
  split
  · exact h
  · exact h'

theorem load_emit (o : Out) : (d.emit o).load = d.load := rfl

theorem load_fbuEvent (c : Fin 8) (bit : Nat) (hb : bit < 32) : (fbuEvent c bit d).load = d.load :=
  load_raise d _ bit bit (by have := c.isLt; unfold pgFbu; omega) hb

theorem load_driveCmp (c : Fin 8) (u : Fin 2) (active : Bool) (t : Nat) : (driveCmp c u active t d).load = d.load := by
  unfold driveCmp
  extract_lets d1 level
  refine (load_ite (d := d1) rfl ?_).trans (load_mapCmp d c u _)
  rw [load_pinEdge, load_emit, load_wrC]

theorem load_fireCmp (c : Fin 8) (u : Fin 2) (t : Nat) : (fireCmp c u t d).load = d.load := by
  unfold fireCmp
  extract_lets d1 d2 d3 d4 num d5
  have h1 : d1.load = d.load := by
    show (match d.rdC c u FBU.CACT with
      | 0 => driveCmp c u true t d | 1 => driveCmp c u true t d | 2 => driveCmp c u false t d
      | _ => driveCmp c u (!((d.fbu c).cmp[u]).active) t d).load = d.load
    split <;> exact load_driveCmp d c u _ t
  have h3 : d3.load = d.load := by rw [← h1, load_fbuEvent _ c 6 (by decide), load_mapCmp, load_wrC]
  rw [← h3]
  refine load_ite (load_ite (load_wrC _ _ _ _ _) (load_ite ?_ ?_)) (load_wrC _ _ _ _ _)
  · rw [load_wrC, load_wrC, load_wrC]
  · rw [load_wrC, load_wrC]

theorem load_fireAfter (c : Fin 8) (u : Fin 2) (t lo hi : Nat) : (fireAfter c u t lo hi d).load = d.load := load_fireCmp _ c u _

theorem load_cvalWritten (c : Fin 8) (u : Fin 2) : (cvalWritten c u d).load = d.load := by
  unfold cvalWritten
  extract_lets d1 d2
  have h1 : d1.load = d.load := by rw [load_mapCmp, load_wrC]
  have h2 : d2.load = d.load := by rw [load_fbuEvent _ c 7 (by decide), load_wrC, h1]
  refine load_ite rfl (load_ite (load_ite ?_ h2) h1)
  rw [load_fireAfter, h2]

theorem load_showFerr (c : Fin 8) : (showFerr c d).load = d.load := wr_load _ _ _ _

theorem load_fbuModeChanged (c : Fin 8) : (fbuModeChanged c d).load = d.load := by
  unfold fbuModeChanged
  extract_lets pg d1 d2 d3 sector hall d4
  rw [load_showFerr, load_mapFbu, wr_load, wr_load, load_wr64, wr_load, load_wr64, wr_load, wr_load, wr_load, wr_load]

theorem load_fbuConfigured (c : Fin 8) (old v : Nat) : (fbuConfigured c old v d).load = d.load := by
  unfold fbuConfigured showLimit dropLines
  dsimp only
  rw [wr_load, load_showFerr, load_foldl _ (fun d l => ?_)]
  · exact load_ite rfl (load_fbuModeChanged d c)
  · exact load_ite rfl (wr_load _ _ _ _)

theorem load_lcfgWritten : (lcfgWritten d).load = d.load := by
  have h : ∀ (d : Dev) (n : Nat), (setLper n d).load = d.load := fun d n => (wr_load _ _ _ _).trans (wr_load _ _ _ _)
  exact load_ite (load_ite rfl (h d _)) ((h _ _).trans (wr_load _ _ _ _))

theorem load_gpioWritten : (gpioWritten d).load = d.load :=
  load_foldl _ (fun d _ => load_ite (load_pinEdge d _ _ _) rfl) _ d

theorem load_showSafe : (showSafe d).load = d.load :=
  load_foldl _ (fun _ _ => (leaves_safeMap (K := offStg) _ _).load.trans (wr_load _ _ _ _)) _ d

theorem load_clearDisc (n : Fin 4) : (clearDisc n d).load = d.load := load_ite rfl rfl

theorem load_msixRequest (v : Fin 32) : (msixRequest v d).load = d.load := by
  unfold msixRequest
  extract_lets clear
  exact load_ite rfl rfl

theorem load_mfcEnableChanged (c : Fin 4) : (mfcEnableChanged c d).load = d.load := by
  have hput : ∀ (d : Dev) (v : Nat), (d.mfPut c MFC.CSTATE v).load = d.load := fun d v => wr_load _ _ _ _
  have hleft : (abandonCore c false d).load = d.load := by
    unfold abandonCore
    rw [Bool.false_and, if_neg (by decide)]
    exact (leaves_mapCore (K := offStg) _ c _).load.trans ((hput _ 0).trans (wr_load _ _ _ _))
  unfold mfcEnableChanged
  exact load_ite (load_ite rfl (load_ite ((leaves_validateCore _ c).load.trans (hput d 1)) (hput d 1))) (load_ite rfl hleft)

theorem load_headerWritten (page : Nat) : (headerWritten page d).load = d.load := by
  unfold headerWritten
  split
  · exact load_mfcEnableChanged d _
  · exact wr_load _ _ _ _

theorem load_showSeaPchg (n : Fin 256) : (showSeaPchg n d).load = d.load := wrS_load _ _ _ _ _

theorem load_showPchg (n : Fin 256) : (showPchg n d).load = d.load := wr_load _ _ _ _

theorem load_mapAx (n : Fin 256) (f : AxDyn → AxDyn) : (d.mapAx n f).load = d.load := rfl

/-- The class of a page that is not CAL is not that of CAL. -/
theorem page_of_cal {page : Nat} (h : clsOf page = some .cal) : page = pgCAL := by
  have hb := List.find?_some (p := fun c : Cls => decide (c.base ≤ page) && decide (page < c.base + c.count)) h
  obtain ⟨hlo, hhi⟩ := Bool.and_eq_true_iff.mp hb
  exact Nat.le_antisymm (Nat.le_of_lt_succ (of_decide_eq_true hhi)) (of_decide_eq_true hlo)

theorem load_restartWatchdog : (restartWatchdog d).load = d.load := rfl

theorem load_lockWatchdog : (lockWatchdog d).load = d.load := rfl

/-- What follows a write that landed outside CAL leaves the load. -/
theorem load_written (page sel off old v : Nat) (hp : page ≠ pgCAL) : (written page sel off old v d).load = d.load := by
  unfold written
  extract_lets w d1 u c n m d2
  split
  case h_1 =>
    refine load_ite rfl ?_
    have h1 : d1.load = d.load := load_ite (wr_load _ _ _ _) rfl
    exact load_ite h1 h1
  case h_2 => exact load_ite ((wr_load _ _ _ _).trans (wr_load _ _ _ _)) rfl
  case h_3 =>
    refine load_ite (wr_load _ _ _ _) (load_ite ?_ rfl)
    exact load_ite (load_msixRequest d _) rfl
  case h_4 => exact load_ite (wr_load _ _ _ _) rfl
  case h_5 => next h => exact absurd (page_of_cal h) hp
  case h_6 => exact (load_foldl _ (fun d n => load_clearDisc d n) _ _).trans (load_showSafe d)
  case h_7 => exact load_ite ((wr_load _ _ _ _).trans (wr_load _ _ _ _)) rfl
  case h_8 => exact load_ite rfl rfl
  case h_9 => exact load_ite rfl rfl
  case h_10 => exact load_ite (load_lcfgWritten d) rfl
  case h_11 =>
    refine load_ite (load_fbuConfigured d c old v) (load_ite (wr_load _ _ _ _) ?_)
    exact load_ite (load_cvalWritten d c 0) (load_ite (load_cvalWritten d c 1)
      (load_ite (load_driveCmp d c 0 _ _) (load_ite (load_driveCmp d c 1 _ _) rfl)))
  case h_12 => exact load_ite rfl (load_ite rfl (load_ite (load_gpioWritten d) rfl))
  case h_13 => exact load_ite (load_pinEdge d _ _ _) rfl
  case h_14 => exact load_ite rfl rfl
  case h_15 => exact load_ite rfl ((load_showSeaPchg _ _).trans (load_ite rfl rfl))
  case h_16 => exact load_ite rfl rfl
  case h_17 =>
    have h2 : d2.load = d.load := load_ite rfl rfl
    exact (load_showPchg _ m).trans ((load_mapAx _ m _).trans h2)
  case h_18 => rfl

/-! ## The load stands through the sections of an image -/

theorem load_takeBits (page sel off mask : Nat) (v : Word) : (d.takeBits page sel off mask v).load = d.load := setReg_load _ _ _ _ _

theorem load_copyReg (page sel sel' off : Nat) : (d.copyReg page sel sel' off).load = d.load := setReg_load _ _ _ _ _

theorem load_loadWrite (r : RegRef) (v : Word) : (loadWrite r v d).load = d.load := by
  unfold loadWrite
  extract_lets old d1
  have h1 : d1.load = d.load := load_takeBits d _ _ _ _ _
  refine load_ite rfl (load_ite ((load_headerWritten d1 _).trans h1) ?_)
  split
  · exact h1
  · next h => exact (load_written d1 _ _ _ _ _ fun hc => h (.inr (.inr (.inl hc)))).trans h1

theorem load_loadPages (c : ImageCfg) : (loadPages c d).load = d.load := by
  unfold loadPages
  extract_lets d1 d2
  have h1 : d1.load = d.load := load_foldl _ (fun d a => load_foldl _ (fun d w => load_takeBits d _ _ _ _ _) _ d) _ d
  have h2 : d2.load = d.load := (load_foldl _ (fun d (w : RegRef × Word) => load_loadWrite d w.1 w.2) _ d1).trans h1
  refine (load_foldl _ (fun d w => ?_) _ d2).trans h2
  exact load_ite rfl (load_ite (load_copyReg d _ _ _ _) rfl)

theorem load_loadCluster (c : ImageCfg) : (loadCluster c d).load = d.load := by
  unfold loadCluster
  extract_lets d1 src d2
  have h1 : d1.load = d.load := (wr_load _ _ _ _).trans (wr_load _ _ _ _)
  exact (load_foldl _ (fun d x => setReg_load _ _ _ _ _) _ d2).trans h1

theorem load_putRate (rate : Nat) : (putRate rate d).load = d.load := by
  have h : ∀ (k : Nat) (x : Dev), (renumber k x).load = x.load := fun _ _ => load_ite rfl rfl
  unfold putRate putRateAt
  dsimp only
  rw [load_wr64, load_wr64, h, wr_load, wr_load]

theorem load_dropAxes (c : ImageCfg) : (dropAxes c d).load = d.load :=
  load_foldl _ (fun _ n => load_ite rfl ((off_setAxState _ n _).load.trans ((wrS_load _ _ _ _ _).trans (wr_load _ _ _ _)))) _ d

theorem load_loadRing (x : ImageRing) : (loadRing x d).load = d.load := by
  unfold loadRing
  extract_lets pg l d1 d2 d3 d4
  have h1 : d1.load = d.load := (wr_load _ _ _ _).trans (wr_load _ _ _ _)
  have h2 : d2.load = d.load := (load_foldl _ (fun d i => load_wr64 d _ _ _ _) _ d1).trans h1
  have h3 : d3.load = d.load := (wr_load _ _ _ _).trans ((wr_load _ _ _ _).trans h2)
  have h4 : d4.load = d.load := (load_foldl _ (fun d e => load_takeBits d _ _ _ _ _) _ d3).trans h3
  exact (wr_load _ _ _ _).trans h4

theorem load_loadBindings (c : ImageCfg) : (loadBindings c d).load = d.load := by
  unfold loadBindings
  extract_lets d1 d2 d3 d4
  have h1 : d1.load = d.load := load_foldl _ (fun d e => load_takeBits d _ _ _ _ _) _ d
  have h2 : d2.load = d.load := (load_takeBits d1 _ _ _ _ _).trans h1
  have h3 : d3.load = d.load := (load_foldl _ (fun d e => load_takeBits d _ _ _ _ _) _ d2).trans h2
  have h4 : d4.load = d.load := (load_foldl _ (fun d e => (wr_load _ _ _ _).trans (wr_load _ _ _ _)) _ d3).trans h3
  exact (wr_load _ _ _ _).trans h4

theorem load_adoptRegs (page sel : Nat) (offs : List Nat) : (adoptRegs page sel offs d).load = d.load :=
  load_foldl _ (fun d _ => load_copyReg d _ _ _ _) _ d

theorem load_programAxis (n : Fin 256) : (programAxis n d).load = d.load := by
  unfold programAxis
  extract_lets d1 d2 d3 d4
  have h3 : d3.load = d.load := (load_adoptRegs _ _ _ _).trans ((load_adoptRegs _ _ _ _).trans (load_adoptRegs _ _ _ _))
  have h4 : d4.load = d.load := (wr_load _ _ _ _).trans ((wr_load _ _ _ _).trans h3)
  rw [(off_showAxis _ n).load, load_showPchg, (off_setAxState _ n _).load, h4]

theorem load_setMemLE (n : Nat) (a v : Nat) : (d.setMemLE a n v).load = d.load := (leaves_setMemLE (K := offStg) n d a v).load

theorem load_setMemBytes (bs : List Byte) (a : Nat) : (d.setMemBytes a bs).load = d.load := (leaves_setMemBytes (K := offStg) bs d a).load

theorem load_loadPairs (c : ImageCfg) : (loadPairs c d).load = d.load := by
  refine load_foldl _ (fun d p => ?_) _ d
  dsimp only
  rw [load_foldl _ (fun d b => setMem8_load _ _ _), load_foldl _ (fun d b => setMem8_load _ _ _),
    load_foldl _ (fun d w => load_setMemLE d 8 _ _)]
  rfl

end

/-- The pairs note their checksums: the source of the load stands. -/
theorem source_notePairs (d : Dev) : (notePairs d).load.source = d.load.source := by
  unfold notePairs
  extract_lets l d1 src
  have h1 : d1.load = d.load := load_foldl _ (fun d x => (setReg_load _ _ _ _ _).trans (wr_load _ _ _ _)) l d
  show d1.load.source = _
  rw [h1]

/-! ## The end of programming -/

/-- The cam data of the image. -/
def camLoaded (c : ImageCfg) (d : Dev) : Dev := d.setMemBytes dramCam (c.cam.take 0x100_0000)

theorem load_camLoaded (c : ImageCfg) (d : Dev) : (camLoaded c d).load = d.load := by
  unfold camLoaded
  rw [load_setMemBytes]

/-- The registers and units as the sections of the image give them, before versions and calibration. -/
def sectionsLoaded (c : ImageCfg) (d : Dev) : Dev :=
  let d := loadPages c (loadCluster c (putRate d.imgRate (dropAxes c d)))
  let d := c.rings.foldl (fun (d : Dev) (r : ImageRing) => loadRing r d) d
  let d := loadBindings c (camLoaded c d)
  let d := d.wr pgSYS SYS.SIDX (d.imgN 17 1)
  let d := c.axes.foldl (fun (d : Dev) (a : AxisId × List (BitVec 12 × Word)) => programAxis a.1 d) d
  notePairs (loadPairs c d)

theorem source_sectionsLoaded (c : ImageCfg) (d : Dev) : (sectionsLoaded c d).load.source = d.load.source := by
  unfold sectionsLoaded
  extract_lets d1 d2 d3 d4 d5
  have h1 : d1.load = d.load := by rw [load_loadPages, load_loadCluster, load_putRate, load_dropAxes]
  have h2 : d2.load = d.load := (load_foldl _ (fun d r => load_loadRing d r) _ d1).trans h1
  have h3 : d3.load = d.load := (load_loadBindings _ c).trans ((load_camLoaded c d2).trans h2)
  have h4 : d4.load = d.load := (wr_load _ _ _ _).trans h3
  have h5 : d5.load = d.load :=
    (load_foldl _ (fun d (a : AxisId × List (BitVec 12 × Word)) => load_programAxis d a.1) c.axes d4).trans h4
  rw [source_notePairs, load_loadPairs, h5]

/-- The watchdog as the image asks for it, and the version, source and checksum of the image. -/
def imageNoted (d : Dev) : Dev :=
  let d := if bitOf d.imgFlags 1 then
      restartWatchdog (lockWatchdog ((d.wr pgSTG STG.WDPER (d.imgN 16 1)).wr pgSTG STG.WDEN 1))
    else d
  ((d.wr pgSTG STG.VERSION (d.imgN 12 1)).wr pgSTG STG.SRCUSED d.load.source).wr pgSTG STG.IMGCRC (d.imgN 20 4)

theorem load_imageNoted (d : Dev) : (imageNoted d).load = d.load := by
  unfold imageNoted
  extract_lets d1
  have h1 : d1.load = d.load :=
    load_ite ((load_restartWatchdog _).trans ((load_lockWatchdog _).trans ((wr_load _ _ _ _).trans (wr_load _ _ _ _)))) rfl
  exact (wr_load _ _ _ _).trans ((wr_load _ _ _ _).trans ((wr_load _ _ _ _).trans h1))

/-- The device at READY, before LOAD_DONE. -/
def programmed (c : ImageCfg) (d : Dev) : Dev := setLstep 6 (loadCal c (imageNoted (sectionsLoaded c d)))

theorem programComplete_eq {d : Dev} {c : ImageCfg} (hc : d.load.cfg = some c) (hs : d.stage = 1) (hl : d.lstep = 5)
    (ht : d.load.tested = true) : programComplete d = startValidation
      (((raise pgSTG 1 d.load.source (programmed c d)).wr pgSTG STG.LTIME ((raise pgSTG 1 d.load.source (programmed c d)).openBits 16)).openUsed) := by
  have hsource : (imageNoted (sectionsLoaded c d)).load.source = d.load.source := by rw [load_imageNoted, source_sectionsLoaded]
  rw [← hsource]
  unfold programComplete
  rw [hc]
  exact if_pos ⟨hs, hl, ht⟩

/-- AUTOFULL leaves the registers of STG from 0x40 on. -/
theorem rd_autoFull (d : Dev) (g : Fld) (hg : 0x40 ≤ g.off) (ho : g.off < 4096) : (autoFull d).rd pgSTG g = d.rd pgSTG g := by
  have hlost : ∀ d : Dev, (d.wr pgSTG HDR.LOST 1).rd pgSTG g = d.rd pgSTG g := fun d =>
    rd_wr_off _ _ _ _ _ _ (by unfold HDR.LOST; dsimp only; omega)
  have hrec : ∀ (d : Dev) (code arg r : Nat) (b : Bool), (recordCmd pgSTG code arg r b d).rd pgSTG g = d.rd pgSTG g :=
    fun d code arg r b => rdS_setReg_off d _ _ _ _ _ _ _ (by unfold HDR.PCST_CODE; dsimp only; omega)
  unfold autoFull
  split
  · unfold cmdGoFull takeCmd deferCmd
    split
    · split
      · exact hlost d
      · exact hrec _ _ _ _ _
    · show (if _ then _ else _ : Dev).rd pgSTG g = _
      split
      · exact hlost d
      · exact hrec _ _ _ _ _
  · rfl

theorem corePage_offStg {p : Nat} (h : corePage p) : offStg p := by
  rcases h with h | h
  · exact offStg_of_event h
  · unfold offStg pgSTG
    omega

theorem lstep_setCalok (b : Bool) (d : Dev) : (setCalok b d).lstep = d.lstep := by
  unfold setCalok Dev.lstep
  rw [rd_showStg _ STG.LSTEP (.inr ⟨rfl, .inl (by decide)⟩)]
  exact rd_wr_key _ _ _ _ _ _ (by decide)

/-- A validation leaves LSTEP. -/
theorem lstep_startValidation (d : Dev) : (startValidation d).lstep = d.lstep := by
  unfold startValidation
  extract_lets d1
  rw [← lstep_setCalok false d]
  split
  · have hcores : Leaves offStg (d1.wr pgCAL CAL.VBUSY 1)
        ((List.finRange 4).foldl (fun (d : Dev) (c : Fin 4) => validateCore c d) (d1.wr pgCAL CAL.VBUSY 1)) :=
      Leaves.foldl _ _ (fun d c _ => (leaves_validateCore d c).mono fun _ => corePage_offStg) _
    refine (hcores.rd (f := STG.LSTEP) (by decide) (by decide) (fun h => h rfl) (by decide)).trans ?_
    exact rd_wr_key _ _ _ _ _ _ (by decide)
  · split
    · exact (rd_autoFull _ STG.LSTEP (by decide) (by decide)).trans (lstep_setCalok true d1)
    · rfl

theorem lstep_programComplete (arg : Nat) (c : ImageCfg) (d : Dev) (v : Nat) :
    ((((raise pgSTG 1 arg (programmed c d)).wr pgSTG STG.LTIME v).openUsed).lstep) = 6 := by
  have hopen : ∀ y : Dev, y.openUsed.lstep = y.lstep := fun y => rfl
  rw [hopen]
  unfold Dev.lstep
  rw [rd_wr_off _ _ _ _ _ _ (by decide), (off_raise _ pgSTG 1 _ (by decide) (by decide)).rd (by decide) (by decide) (fun h => h rfl) (by decide)]
  exact rd_wr_self _ _ _ _ (by decide)

/-! ## The self test -/

/-- BISTOK and PSTATE of a pair after its self test. -/
def pairTested (bist p : Nat) (d : Dev) : Dev :=
  if (d.pair ⟨p % 18, Nat.mod_lt _ (by decide)⟩).reviving then d
  else if d.pstate p = 4 then d.wr (pgCep p) CEP.BISTOK (b2n (bitOf bist p))
  else if bitOf bist p then (d.wr (pgCep p) CEP.BISTOK 1).wr (pgCep p) CEP.PSTATE 1
  else raise (pgCep p) 0 p ((d.wr (pgCep p) CEP.PSTATE 4).wr (pgCep p) CEP.FCAUSE 6)

theorem off_pairTested (bist p : Nat) (hp : p < 18) (d : Dev) : Leaves offStg d (pairTested bist p d) :=
  Leaves.ite (fun _ => Leaves.refl _ d) fun _ => Leaves.ite (fun _ => off_cep d p CEP.BISTOK _ hp (by decide)) fun _ =>
    Leaves.ite (fun _ => (off_cep d p CEP.BISTOK 1 hp (by decide)).trans (off_cep _ p CEP.PSTATE 1 hp (by decide))) fun _ =>
      ((off_cep d p CEP.PSTATE 4 hp (by decide)).trans (off_cep _ p CEP.FCAUSE 6 hp (by decide))).trans
        (off_raise _ (pgCep p) 0 p (offStg_cep p hp).2 (by decide))

/-- A state with the self test done. -/
def withTested (d : Dev) : Dev := { d with load := { d.load with tested := true } }

/-- The memories and pairs as the self test found them. -/
def testShown (sramOk dramOk : Bool) (bist : Nat) (d : Dev) : Dev :=
  showPairs ((((withTested d).wr pgSTG STG.SRAMOK (b2n sramOk)).wr pgSTG STG.DRAMOK (b2n dramOk)).each (fittedPairs d.conf)
    (pairTested bist))

theorem selfTestComplete_eq (sramOk dramOk : Bool) (bist : Nat) {d : Dev} (hs : d.stage = 1) (hl : d.lstep ≠ 0)
    (ht : d.load.tested = false) : selfTestComplete sramOk dramOk bist d =
    if !dramOk then raise pgSTG 2 10 ((setLstep 7 (testShown sramOk dramOk bist d)).wr pgSTG STG.LFAIL 10)
    else if (testShown sramOk dramOk bist d).lstep = 1 ∧ (testShown sramOk dramOk bist d).on pgSTG STG.BSRC then
      setLstep 3 (testShown sramOk dramOk bist d)
    else testShown sramOk dramOk bist d := by
  unfold selfTestComplete
  rw [if_pos ⟨hs, hl, by rw [ht]; rfl⟩]
  rfl

theorem testShown_shows (sramOk dramOk : Bool) (bist : Nat) (d : Dev) : (testShown sramOk dramOk bist d).load.tested = true ∧
    (testShown sramOk dramOk bist d).rd pgSTG STG.SRAMOK = b2n sramOk ∧
    (testShown sramOk dramOk bist d).rd pgSTG STG.DRAMOK = b2n dramOk := by
  have hlt : ∀ b : Bool, b2n b % 2 ^ 1 = b2n b := by decide
  have hoff : Leaves offStg (((withTested d).wr pgSTG STG.SRAMOK (b2n sramOk)).wr pgSTG STG.DRAMOK (b2n dramOk)) _ :=
    Leaves.each (pairTested bist) (fittedPairs d.conf) (fun d p hp => off_pairTested bist p (cepPage_of_fitted hp) d) _
  refine ⟨?_, ?_, ?_⟩
  · unfold testShown
    rw [(leaves_showPairs _).load, hoff.load, wr_load, wr_load]
    rfl
  · refine (rd_showPairs _ STG.SRAMOK (.inr ⟨rfl, .inl (by decide)⟩) (by decide) (by decide)).trans ?_
    rw [hoff.rd (by decide) (by decide) (fun h => h rfl) (by decide),
      rd_wr_beside _ _ STG.DRAMOK STG.SRAMOK _ (by decide) rfl (by decide), rd_wr_self _ _ _ _ (by decide)]
    exact hlt _
  · refine (rd_showPairs _ STG.DRAMOK (.inr ⟨rfl, .inl (by decide)⟩) (by decide) (by decide)).trans ?_
    rw [hoff.rd (by decide) (by decide) (fun h => h rfl) (by decide), rd_wr_self _ _ _ _ (by decide)]
    exact hlt _

theorem selfTest_shows (sramOk dramOk : Bool) (bist : Nat) {d : Dev} (hs : d.stage = 1) (hl : d.lstep ≠ 0)
    (ht : d.load.tested = false) : (selfTestComplete sramOk dramOk bist d).load.tested = true ∧
    (selfTestComplete sramOk dramOk bist d).rd pgSTG STG.SRAMOK = b2n sramOk ∧
    (selfTestComplete sramOk dramOk bist d).rd pgSTG STG.DRAMOK = b2n dramOk ∧
    (dramOk = false → (selfTestComplete sramOk dramOk bist d).lstep = 7 ∧
      (selfTestComplete sramOk dramOk bist d).rd pgSTG STG.LFAIL = 10) := by
  obtain ⟨htest, hsram, hdram⟩ := testShown_shows sramOk dramOk bist d
  rw [selfTestComplete_eq sramOk dramOk bist hs hl ht]
  generalize testShown sramOk dramOk bist d = x at *
  have hlstep : ∀ (v : Nat) (g : Fld), g.off = 0x40 → 6 ≤ g.lsb → (setLstep v x).rd pgSTG g = x.rd pgSTG g := fun v g ho hg =>
    rd_wr_beside _ _ STG.LSTEP g _ (by decide) ho.symm (.inr hg)
  cases dramOk with
  | false =>
    have hraise := off_raise ((setLstep 7 x).wr pgSTG STG.LFAIL 10) pgSTG 2 10 (by decide) (by decide)
    have hrd : ∀ g : Fld, g.off = 0x40 → (raise pgSTG 2 10 ((setLstep 7 x).wr pgSTG STG.LFAIL 10)).rd pgSTG g =
        ((setLstep 7 x).wr pgSTG STG.LFAIL 10).rd pgSTG g := fun g ho =>
      hraise.rd (by decide) (by omega) (fun h => h rfl) (by rw [ho]; decide)
    have hbeside : ∀ g : Fld, g.off = 0x40 → 6 ≤ g.lsb → g.lsb + g.width ≤ 16 →
        (raise pgSTG 2 10 ((setLstep 7 x).wr pgSTG STG.LFAIL 10)).rd pgSTG g = x.rd pgSTG g := fun g ho hl hw => by
      rw [hrd g ho, rd_wr_beside _ _ STG.LFAIL g _ (by decide) ho.symm (.inl hw), hlstep 7 g ho hl]
    refine ⟨?_, (hbeside _ rfl (by decide) (by decide)).trans hsram, (hbeside _ rfl (by decide) (by decide)).trans hdram, fun _ => ⟨?_, ?_⟩⟩
    · show (raise pgSTG 2 10 _).load.tested = true
      rw [hraise.load, wr_load, setLstep, wr_load]
      exact htest
    · refine (hrd STG.LSTEP rfl).trans ?_
      exact (rd_wr_beside _ _ STG.LFAIL STG.LSTEP _ (by decide) rfl (by decide)).trans (rd_wr_self _ _ _ _ (by decide))
    · exact (hrd STG.LFAIL rfl).trans (rd_wr_self _ _ _ _ (by decide))
  | true =>
    rw [Bool.not_true, if_neg Bool.false_ne_true]
    have hx : x.load.tested = true ∧ x.rd pgSTG STG.SRAMOK = b2n sramOk ∧ x.rd pgSTG STG.DRAMOK = b2n true ∧
        (true = false → x.lstep = 7 ∧ x.rd pgSTG STG.LFAIL = 10) := ⟨htest, hsram, hdram, fun h => nomatch h⟩
    by_cases hc : x.lstep = 1 ∧ x.on pgSTG STG.BSRC
    · rw [if_pos hc]
      refine ⟨?_, (hlstep 3 _ rfl (by decide)).trans hsram, (hlstep 3 _ rfl (by decide)).trans hdram, fun h => nomatch h⟩
      rw [setLstep, wr_load]
      exact htest
    · rw [if_neg hc]
      exact hx

/-- A load from the alternate image or the host that fails (R541, R542). -/
theorem loadFail_last {d : Dev} (code : Nat) (h : d.load.source ≠ 1 ∨ d.load.byCmd = true) : loadFail code d =
    raise pgSTG 2 code (({ d with load := { d.load with cfg := none } }.wr pgSTG STG.LSTEP 7).wr pgSTG STG.LFAIL code) := by
  refine if_neg fun hc => ?_
  obtain ⟨hs, hb⟩ := hc
  rcases h with h | h
  · exact h hs
  · rw [show ({ d with load := { d.load with cfg := none } } : Dev).load.byCmd = true from h] at hb
    exact absurd hb (by decide)

/-- Settles O15. -/
theorem lanternSteps : Obligations.LanternSteps := by
  refine ⟨fun s hs hl => ?_, fun s sram dram bist hs hl ht => ?_, fun s hs hl hb => ?_, fun s bs hs hl => ⟨?_, fun h => ⟨?_, ?_⟩, fun h hb => ?_⟩,
    fun s cfg hs hl => ⟨fun h => ?_, fun h hsrc => ?_⟩, fun s cfg hc hs hl ht => ?_⟩
  · obtain ⟨hstep, hhead, hmyst, hkset, hminver, hpairs⟩ := powerup_shows (f := s.fuse) hs hl
    exact ⟨s.withDev (powerupDone s.fuse s.dev), rfl, rfl, hstep, mem_powerupDone hs hl, hhead, hmyst, hkset, hminver, hpairs⟩
  · exact ⟨s.withDev (selfTestComplete sram dram bist.toNat s.dev), act_withDev _ _, selfTest_shows sram dram bist.toNat hs hl ht⟩
  · show s.act imageReadStart = _
    rw [act_withDev]
    exact next_congr (if_pos ⟨hs, hl, by rw [hb]; rfl⟩)
  · show s.act (imageReadComplete (some bs)) = _
    rw [act_withDev]
    exact next_congr (if_pos ⟨hs, hl⟩)
  · show s.act (imageReadComplete none) = _
    rw [act_withDev, ← loadFail_last 11 h]
    exact next_congr (if_pos ⟨hs, hl⟩)
  · show s.act imageReadTimeout = _
    rw [act_withDev, ← loadFail_last 12 h]
    exact next_congr (if_pos ⟨hs, hl⟩)
  · show s.act imageReadTimeout = _
    rw [act_withDev]
    refine next_congr ((if_pos ⟨hs, hl⟩).trans ?_)
    exact if_pos ⟨h, by rw [show ({ s.dev with load := { s.dev.load with cfg := none } } : Dev).load.byCmd = false from hb]; rfl⟩
  · show s.act (imageAuthComplete cfg) = _
    rw [act_withDev]
    exact next_congr ((if_pos ⟨hs, hl⟩).trans (if_pos h))
  · show s.act (imageAuthComplete cfg) = _
    rw [act_withDev, ← loadFail_last _ hsrc]
    exact next_congr ((if_pos ⟨hs, hl⟩).trans (if_neg h))
  · refine ⟨programmed cfg s.dev, s.withDev (programComplete s.dev), act_withDev _ _, ?_, congrArg s.withDev (programComplete_eq hc hs hl ht)⟩
    show (programComplete s.dev).lstep = 6
    rw [programComplete_eq hc hs hl ht, lstep_startValidation, lstep_programComplete]

end Sys2Proof.Machine
end

section
/-! PROOFS. The evaluation of what waits for an axis table (R43, R205, R212). -/
namespace Sys2Proof.Machine

/-- With no write due, the adoption of a table changes nothing. -/
theorem adoptFor_none {d : Dev} {n : Fin 256} {k : Nat} (h : ∀ w ∈ d.mot.writes, DueWrite.forTask n k w = false) :
    adoptFor n k d = d :=
  if_pos (List.filter_eq_nil_iff.mpr fun w hw => by rw [h w hw]; exact Bool.false_ne_true)

/-- One command due is taken from those that wait, and evaluated. -/
theorem evalFor_one {d : Dev} {n : Fin 256} {k r : Nat} {c : DueCmd} (h : d.mot.cmds.filter (fun x => DueCmd.forTask n k x) = [c]) :
    evalFor n k r d = evalDue n r c { d with mot := { d.mot with cmds := d.mot.cmds.filter fun x => !DueCmd.forTask n k x } } := by
  unfold evalFor
  dsimp only
  rw [h, if_neg (List.cons_ne_nil c [])]
  rfl

/-- Settles O29. -/
theorem deferredCommandEvaluated : Obligations.DeferredCommandEvaluated := by
  refine ⟨fun s n => ⟨fun h => ?_, fun h => ?_, fun h ha => ?_⟩, fun d n c hw hc => ?_, fun d n h => ?_, fun d n a h => ?_⟩
  · show s.act (deferredEvaluation n) = _
    rw [act_withDev]
    exact next_congr (d' := s.dev) (if_neg (by rw [h]; exact Bool.false_ne_true))
  · show s.act (deferredEvaluation n) = _
    rw [act_withDev]
    refine next_congr (d' := s.dev) (if_neg ?_)
    obtain ⟨a, ha⟩ := Option.isSome_iff_exists.mp h
    rw [ha, Option.isNone_some, Bool.and_false]
    exact Bool.false_ne_true
  · show s.act (deferredEvaluation n) = _
    rw [act_withDev]
    exact next_congr (if_pos (by rw [h, ha]; rfl))
  · unfold evaluation
    rw [adoptFor_none hw, evalFor_one hc]
  · unfold taskEvaluated
    rw [h]
  · unfold taskEvaluated
    rw [h]

end Sys2Proof.Machine
end

section
/-! PROOFS. The outcomes of the CWD, and the banks of the process image (R41 to R45, R54 to R58). -/
namespace Sys2Proof.Machine

/-! ## Mooring an axis: what its ASTAT shows -/

theorem not_movePage_axp (n : Fin 256) : ¬ movePage (pgAxp n) := by
  unfold movePage eventPage pgAxp pgPRF pgEVT pgTSU
  omega

/-- The status registers of an axis leave what stands below 0x400. -/
theorem rd_showAxis (n : Fin 256) (d : Dev) (p : Nat) (g : Fld) (hg : g.off < 0x400) : (showAxis n d).rd p g = d.rd p g := by
  have hw : ∀ (d : Dev) (f : Fld) (v : Nat), 0x400 ≤ f.off ∧ f.off < 4096 → (d.wr (pgAxp n) f v).rd p g = d.rd p g := fun d f v hf =>
    rd_wr_off d _ f v p g (by rw [Nat.mod_eq_of_lt hf.2, Nat.mod_eq_of_lt (by omega)]; omega)
  have hi : ∀ (d : Dev) (f : Fld) (v : Int), 0x400 ≤ f.off ∧ f.off < 4096 → (d.wrI (pgAxp n) f v).rd p g = d.rd p g := fun d f v hf =>
    hw d f _ hf
  have h64 : ∀ (d : Dev) (o v : Nat), 0x400 ≤ o ∧ o + 4 < 4096 → (d.wr64 (pgAxp n) 0 o v).rd p g = d.rd p g := fun d o v ho => by
    unfold Dev.wr64 Dev.rd
    rw [rdS_setReg_off _ _ _ _ _ _ _ _ (by rw [Nat.mod_eq_of_lt ho.2, Nat.mod_eq_of_lt (by omega)]; omega),
      rdS_setReg_off _ _ _ _ _ _ _ _ (by rw [Nat.mod_eq_of_lt (by omega : o < 4096), Nat.mod_eq_of_lt (by omega)]; omega)]
  unfold showAxis
  dsimp only
  rw [hi _ AXP.FERR _ (by decide), hw _ AXP.CSEQ _ (by decide), hw _ AXP.DC _ (by decide), hw _ AXP.DB _ (by decide),
    hw _ AXP.DA _ (by decide), hi _ AXP.UDCPU _ (by decide), hi _ AXP.WOBS _ (by decide), hw _ AXP.THOBS _ (by decide),
    hw _ AXP.THETA _ (by decide), hi _ AXP.IQREF _ (by decide), hi _ AXP.IQACT _ (by decide), hi _ AXP.IDACT _ (by decide),
    hi _ AXP.VREF _ (by decide), hi _ AXP.VACT _ (by decide), h64 _ 0x408 _ (by decide), h64 _ 0x400 _ (by decide)]

/-- An event of an axis leaves its ASTAT. -/
theorem rd_axEvent (n m : Fin 256) (bit : Nat) (d : Dev) (g : Fld) (hb : bit < 32) (ho : g.off < 4096) (hv : g.off ≠ HDR.PEVT.off) :
    (axEvent n bit d).rd (pgAxp m) g = d.rd (pgAxp m) g :=
  (Leaves.raise _ bit bit d (offStg_axp n).2 hb).rd (offStg_axp m).2 ho (fun h => not_movePage_axp m (.inl h)) hv

/-- A field of ASTAT that mooring leaves. -/
def besideMoor (g : Fld) : Prop := g.off = 0x44 ∧ (3 ≤ g.lsb ∧ g.lsb + g.width ≤ 7 ∨ 11 ≤ g.lsb)

theorem rd_setAxState_self (n : Fin 256) (s : Nat) (d : Dev) (hs : s < 8) : (setAxState n s d).axState n = s := by
  unfold setAxState
  split
  · assumption
  · have h1 : (axEvent n 0 (d.wr (pgAxp n) AXP.STATE s)).rd (pgAxp n) AXP.STATE = s := by
      rw [rd_axEvent n n 0 _ AXP.STATE (by decide) (by decide) (by decide), rd_wr_self _ _ _ _ (by decide)]
      exact Nat.mod_eq_of_lt hs
    dsimp only
    split
    · exact (rd_axEvent n n 2 _ AXP.STATE (by decide) (by decide) (by decide)).trans h1
    · exact h1

theorem rd_setAxState (n : Fin 256) (s : Nat) (d : Dev) (g : Fld) (ho : g.off = 0x44) (hg : 3 ≤ g.lsb) :
    (setAxState n s d).rd (pgAxp n) g = d.rd (pgAxp n) g := by
  have hlt : g.off < 4096 ∧ g.off ≠ HDR.PEVT.off := by rw [ho]; decide
  have h1 : (axEvent n 0 (d.wr (pgAxp n) AXP.STATE s)).rd (pgAxp n) g = d.rd (pgAxp n) g := by
    rw [rd_axEvent n n 0 _ g (by decide) hlt.1 hlt.2, rd_wr_beside _ _ AXP.STATE g _ (by decide) ho.symm (.inr hg)]
  unfold setAxState
  split
  · rfl
  · dsimp only
    split
    · exact (rd_axEvent n n 2 _ g (by decide) hlt.1 hlt.2).trans h1
    · exact h1

/-- Entry to MOORED shows MOORED, and leaves the latch, the count of misses and the fault code. -/
theorem moorAxis_shows (n : Fin 256) (d : Dev) : (moorAxis n d).axState n = axMOORED ∧
    ∀ g, besideMoor g → (moorAxis n d).rd (pgAxp n) g = d.rd (pgAxp n) g := by
  unfold moorAxis
  extract_lets pg d1 d2 d3
  refine ⟨(rd_showAxis n _ _ AXP.STATE (by decide)).trans (rd_setAxState_self n axMOORED d3 (by decide)), fun g hg => ?_⟩
  obtain ⟨ho, hl⟩ := hg
  have hb : ∀ (d : Dev) (f : Fld), f.off = 0x44 → 7 ≤ f.lsb ∧ f.lsb + f.width ≤ 11 → (d.wr pg f 0).rd pg g = d.rd pg g := fun d f hf hr =>
    rd_wr_beside d pg f g 0 (by omega) (hf.trans ho.symm) (by omega)
  have h1 : d1.rd pg g = d.rd pg g :=
    (((leaves_withMot d _).trans (move_groupMemberLost _ n)).trans (move_profEnd _ n)).rd (offStg_axp n).2 (by omega)
      (not_movePage_axp n) (by rw [ho]; decide)
  have h3 : d3.rd pg g = d1.rd pg g := by
    have h2 : ∀ x : Dev, ((x.mapAx n AxDyn.moor).mapSea n Season.moor).rd pg g = x.rd pg g := fun x => rfl
    rw [← h2 d1]
    refine (rd_wr_off _ _ AXP.FROZC _ _ _ (by rw [ho]; decide)).trans ?_
    rw [hb _ AXP.AWQ rfl (by decide), hb _ AXP.AWD rfl (by decide), hb _ AXP.AWV rfl (by decide), hb _ AXP.OBSC rfl (by decide)]
  rw [rd_showAxis n _ _ g (by omega), rd_setAxState n _ _ g ho (by omega), h3, h1]

/-- A fault of class A: MOORED with its latch and code. -/
theorem moorFault_shows (n : Fin 256) (code : Nat) (d : Dev) (hc : code < 256) : (moorFault n code d).axState n = axMOORED ∧
    (moorFault n code d).rd (pgAxp n) AXP.FLATCH = 1 ∧ (moorFault n code d).rd (pgAxp n) AXP.FCODE = code ∧
    (moorFault n code d).rd (pgAxp n) AXP.MISSN = d.rd (pgAxp n) AXP.MISSN := by
  unfold moorFault
  extract_lets d1
  obtain ⟨hst, hrd⟩ := moorAxis_shows n (axEvent n 1 d1)
  have hev : ∀ g : Fld, g.off = 0x44 → (axEvent n 1 d1).rd (pgAxp n) g = d1.rd (pgAxp n) g := fun g ho =>
    rd_axEvent n n 1 d1 g (by decide) (by omega) (by rw [ho]; decide)
  refine ⟨hst, ?_, ?_, ?_⟩
  · rw [hrd AXP.FLATCH ⟨rfl, by decide⟩, hev _ rfl]
    exact (rd_wr_beside _ _ AXP.FCODE AXP.FLATCH _ (by decide) rfl (by decide)).trans (rd_wr_self _ _ _ _ (by decide))
  · rw [hrd AXP.FCODE ⟨rfl, by decide⟩, hev _ rfl, rd_wr_self _ _ _ _ (by decide)]
    exact Nat.mod_eq_of_lt hc
  · rw [hrd AXP.MISSN ⟨rfl, by decide⟩, hev _ rfl]
    exact (rd_wr_beside _ _ AXP.FCODE AXP.MISSN _ (by decide) rfl (by decide)).trans
      (rd_wr_beside _ _ AXP.FLATCH AXP.MISSN _ (by decide) rfl (by decide))

/-! ## The CWD and one table -/

/-- A write of MISSN leaves the state of every axis. -/
theorem axState_missn (n m : Fin 256) (v : Nat) (d : Dev) : (d.wr (pgAxp n) AXP.MISSN v).axState m = d.axState m := by
  by_cases h : n = m
  · subst h
    exact rd_wr_beside _ _ AXP.MISSN AXP.STATE _ (by decide) rfl (by decide)
  · refine rd_wr_key _ _ AXP.MISSN _ _ AXP.STATE fun hk => h (Fin.ext ?_)
    have := (regKey_inj (offStg_axp n).2 (offStg_axp m).2 (by decide) (by decide) hk).1
    unfold pgAxp at this
    omega

theorem rd_overrunMiss (n m : Fin 256) (d : Dev) (g : Fld) (ho : g.off < 4096) (hv : g.off ≠ HDR.PEVT.off) :
    (overrunMiss n d).rd (pgAxp m) g = d.rd (pgAxp m) g := by
  unfold overrunMiss
  rw [rd_axEvent n m 3 _ g (by decide) ho hv]
  refine rd_wr_key _ _ TIM.MISS _ _ _ fun hk => ?_
  have := (regKey_inj (by decide) (offStg_axp m).2 (by decide) ho hk).1
  unfold pgAxp pgTIM at this
  omega

theorem cwdAxis_ended {d : Dev} {n : Fin 256} (h : d.cwdCode n = 0) : cwdAxis n d = d.wr (pgAxp n) AXP.MISSN 0 := by
  unfold cwdAxis
  rw [h]
  rfl

theorem cwdCode_ended {d : Dev} {n : Fin 256} (h : d.endedNow n = true) : d.cwdCode n = 0 :=
  if_pos (by rw [h]; rfl)

/-- A table that had its turn to end and did not: the first miss is code 1, a second one 3. -/
theorem cwdCode_missed {d : Dev} {n : Fin 256} (he : d.endedNow n = false) (hc : d.configured n = true) (hm : (d.ax n).wasMoored = false) :
    d.cwdCode n = if d.rd (pgAxp n) AXP.MISSN = 0 then 1 else 3 :=
  if_neg (by rw [he, hc, hm]; decide)

theorem cwdAxis_hold {d : Dev} {n : Fin 256} (h : d.cwdCode n = 1) : cwdAxis n d = overrunHold n d := by
  unfold cwdAxis
  rw [h]
  rfl

theorem cwdAxis_moor {d : Dev} {n : Fin 256} (h : d.cwdCode n = 3) : cwdAxis n d = overrunMoor n d := by
  unfold cwdAxis
  rw [h]
  rfl

theorem rd_inc_word (d : Dev) (page : Nat) (f : Fld) (hw : f.width = 16) (hl : f.lsb ≤ 16) :
    (d.inc page f).rd page f = min 65535 (d.rd page f + 1) := by
  unfold Dev.inc
  rw [rd_wr_self _ _ _ _ (by omega), hw]
  unfold addSat
  omega

/-- OVERRUN_HOLD (R41). -/
theorem overrunHold_shows (n : Fin 256) (d : Dev) : (overrunHold n d).rd (pgAxp n) AXP.MISSN = 1 ∧
    ((overrunHold n d).ax n).holdAt = some d.cyc ∧
    (overrunHold n d).rd (pgAxp n) AXP.HOLDS = min 65535 (d.rd (pgAxp n) AXP.HOLDS + 1) ∧
    ∀ m : Fin 256, (overrunHold n d).axState m = d.axState m := by
  unfold overrunHold
  extract_lets pg
  have hmap : ∀ (p : Nat) (g : Fld), (d.mapAx n fun x => { x with holdAt := some d.cyc }).rd p g = d.rd p g := fun p g => rfl
  have hinc : ∀ (x : Dev) (m : Fin 256) (g : Fld), g.off = 0x44 → (x.inc pg AXP.HOLDS).rd (pgAxp m) g = x.rd (pgAxp m) g := fun x m g ho =>
    rd_wr_off x _ AXP.HOLDS _ _ g (by rw [ho]; decide)
  refine ⟨?_, ?_, ?_, fun m => ?_⟩
  · rw [rd_overrunMiss n n _ _ (by decide) (by decide), hinc _ n AXP.MISSN rfl]
    exact rd_wr_self _ _ _ _ (by decide)
  · have hmot : ∀ x : Dev, (overrunMiss n x).mot = x.mot := fun x =>
      (posted_raise (pgAxp n) 3 3 _ (offStg_axp n).2 (by decide)).mot.trans (wr_mot _ _ _ _)
    unfold Dev.ax
    rw [hmot, Dev.inc, wr_mot, wr_mot]
    exact congrArg AxDyn.holdAt (Vector.getElem_set_self n.isLt)
  · rw [rd_overrunMiss n n _ _ (by decide) (by decide), rd_inc_word _ _ AXP.HOLDS rfl (by decide),
      rd_wr_off _ _ _ _ _ _ (by decide), hmap]
  · unfold Dev.axState
    rw [rd_overrunMiss n m _ _ (by decide) (by decide), hinc _ m AXP.STATE rfl]
    exact (axState_missn n m 1 _).trans (hmap _ _)

/-- OVERRUN_MOOR (R44). -/
theorem overrunMoor_shows (n : Fin 256) (d : Dev) : (overrunMoor n d).rd (pgAxp n) AXP.MISSN = 2 ∧
    (overrunMoor n d).axState n = axMOORED ∧ (overrunMoor n d).rd (pgAxp n) AXP.FLATCH = 1 ∧
    (overrunMoor n d).rd (pgAxp n) AXP.FCODE = 1 := by
  unfold overrunMoor
  obtain ⟨hst, hl, hc, hm⟩ := moorFault_shows n 0x01 (overrunMiss n ((d.wr (pgAxp n) AXP.MISSN 2).inc pgTIM TIM.MOOR)) (by decide)
  refine ⟨?_, hst, hl, hc⟩
  rw [hm, rd_overrunMiss n n _ _ (by decide) (by decide)]
  exact (rd_wr_off _ _ TIM.MOOR _ _ _ (by decide)).trans (rd_wr_self _ _ _ _ (by decide))

/-! ## The banks of the process image -/

/-- OUTPUT_BANK_SWAP of a fresh bank (R58). -/
theorem outputSwap_shows (k : Nat) {d : Dev} (h : d.on pgTIM TIM.FRESH = true) :
    (outputSwap k d).rd pgTIM TIM.PIXO_HOST = d.rd pgTIM TIM.PIXO_HOST ∧
    (outputSwap k d).rd pgTIM TIM.PEND = (3 - (d.rd pgTIM TIM.PIXO_HOST + d.rd pgTIM TIM.PEND)) % 4 ∧
    (outputSwap k d).rd pgTIM TIM.FRESH = 0 ∧ (outputSwap k d).rd pgTIM TIM.TAKEN = k % 65536 := by
  have heq : outputSwap k d = ((d.wr pgTIM TIM.PEND (3 - (d.rd pgTIM TIM.PIXO_HOST + d.rd pgTIM TIM.PEND))).wr pgTIM
      TIM.FRESH 0).wr pgTIM TIM.TAKEN (k % 65536) := if_pos h
  rw [heq]
  refine ⟨?_, ?_, ?_, ?_⟩
  · rw [rd_wr_beside _ _ TIM.TAKEN TIM.PIXO_HOST _ (by decide) rfl (by decide),
      rd_wr_beside _ _ TIM.FRESH TIM.PIXO_HOST _ (by decide) rfl (by decide),
      rd_wr_beside _ _ TIM.PEND TIM.PIXO_HOST _ (by decide) rfl (by decide)]
  · rw [rd_wr_beside _ _ TIM.TAKEN TIM.PEND _ (by decide) rfl (by decide),
      rd_wr_beside _ _ TIM.FRESH TIM.PEND _ (by decide) rfl (by decide), rd_wr_self _ _ _ _ (by decide)]
    rfl
  · rw [rd_wr_beside _ _ TIM.TAKEN TIM.FRESH _ (by decide) rfl (by decide), rd_wr_self _ _ _ _ (by decide)]
    rfl
  · rw [rd_wr_self _ _ _ _ (by decide)]
    exact Nat.mod_mod _ _

theorem leaves_copyMem {K : Nat → Prop} (d : Dev) (src dst len : Nat) : Leaves K d (d.copyMem src dst len) := by
  unfold Dev.copyMem
  exact (leaves_clearMem d _ _).trans (Leaves.foldl _ _ (fun d c _ => leaves_setMem8 d _ _) _)

/-- INPUT_BANK_SWAP (R54). -/
theorem inputSwap_shows (d : Dev) : (inputSwap d).rd pgTIM TIM.PIXI_HOST = d.rd pgTIM TIM.PIXI_HOST ∧
    (inputSwap d).rd pgTIM TIM.NEWEST = (3 - (d.rd pgTIM TIM.PIXI_HOST + d.rd pgTIM TIM.NEWEST)) % 4 ∧
    (inputSwap d).rd pgTIM TIM.NEW = 1 ∧ (inputSwap d).rd pgTIM TIM.SEQ = d.cyc % 65536 := by
  unfold inputSwap
  extract_lets newest dev area d1
  have h1 : Leaves (fun _ => False) d d1 := leaves_copyMem d _ _ _
  have hraise : ∀ (x : Dev) (g : Fld), g.off = TIM.NEWEST.off → (raise pgTIM 1 1 x).rd pgTIM g = x.rd pgTIM g := fun x g ho =>
    (Leaves.raise pgTIM 1 1 x (by decide) (by decide)).rd (by decide) (by rw [ho]; decide) (by unfold eventPage; decide) (by rw [ho]; decide)
  have hcyc : d1.cyc = d.cyc := by
    unfold Dev.cyc Dev.rd64
    rw [h1.reg _ _ _ (by decide) (by decide) id (by decide), h1.reg _ _ _ (by decide) (by decide) id (by decide)]
  refine ⟨?_, ?_, ?_, ?_⟩
  · rw [hraise _ TIM.PIXI_HOST rfl, rd_wr_beside _ _ TIM.SEQ TIM.PIXI_HOST _ (by decide) rfl (by decide),
      rd_wr_beside _ _ TIM.NEW TIM.PIXI_HOST _ (by decide) rfl (by decide),
      rd_wr_beside _ _ TIM.NEWEST TIM.PIXI_HOST _ (by decide) rfl (by decide), h1.rd (by decide) (by decide) id (by decide)]
  · rw [hraise _ TIM.NEWEST rfl, rd_wr_beside _ _ TIM.SEQ TIM.NEWEST _ (by decide) rfl (by decide),
      rd_wr_beside _ _ TIM.NEW TIM.NEWEST _ (by decide) rfl (by decide), rd_wr_self _ _ _ _ (by decide)]
    rfl
  · rw [hraise _ TIM.NEW rfl, rd_wr_beside _ _ TIM.SEQ TIM.NEW _ (by decide) rfl (by decide), rd_wr_self _ _ _ _ (by decide)]
    rfl
  · rw [hraise _ TIM.SEQ rfl, rd_wr_self _ _ _ _ (by decide), hcyc]
    exact Nat.mod_mod _ _

/-- Settles O53. -/
theorem deadlineOutcomesAndBanks : Obligations.DeadlineOutcomesAndBanks := by
  refine ⟨fun d n he => ?_, fun d n he hc hm h0 => ?_, fun d n he hc hm h0 => ?_, fun d k h p hh hp hlh hlp hne => ⟨fun hf => ?_, fun hf => ?_⟩,
    fun d h n hh hn hlh hln hne => ?_⟩
  · rw [cwdAxis_ended (cwdCode_ended he)]
    refine ⟨rd_wr_self _ _ _ _ (by decide), ?_, fun m => axState_missn n m 0 d⟩
    unfold Dev.ax
    rw [wr_mot]
  · rw [cwdAxis_hold ((cwdCode_missed he hc hm).trans (if_pos h0))]
    exact overrunHold_shows n d
  · rw [cwdAxis_moor ((cwdCode_missed he hc hm).trans (if_neg h0))]
    exact overrunMoor_shows n d
  · exact if_neg (by rw [hf]; exact Bool.false_ne_true)
  · obtain ⟨h1, h2, h3, h4⟩ := outputSwap_shows k hf
    rw [← hh, ← hp] at h2
    refine ⟨h1.trans hh.symm, h2.trans (by omega), by omega, by omega, by omega, by omega, h3, h4⟩
  · obtain ⟨h1, h2, h3, h4⟩ := inputSwap_shows d
    rw [← hh, ← hn] at h2
    exact ⟨h1.trans hh.symm, h2.trans (by omega), by omega, by omega, by omega, h3, h4⟩

end Sys2Proof.Machine
end

section
/-! PROOFS. The events of one cycle (R31, R40, R41, R54, R111, R129, R495). -/
namespace Sys2Proof.Machine

/-- What the tick keeps of the cycle before leaves the cycle a joining head stores. -/
theorem opened_keepPast (k : Nat) (gpio : Word) (d : Dev) : (keepPast k gpio d).red.opened = d.red.opened := by
  unfold keepPast
  split
  · rfl
  · rfl

/-- A head that stores no cycles goes on as ever. -/
theorem storedTick_idle {k : Nat} {gpio : Word} {d : Dev} (h : d.red.opened = none) :
    storedTick (unlessStoring (keepPast k gpio) d) = keepPast k gpio d := by
  have h1 : unlessStoring (keepPast k gpio) d = keepPast k gpio d := if_neg (by rw [h]; exact Bool.false_ne_true)
  rw [h1]
  exact if_pos (by rw [opened_keepPast, h]; rfl)

/-- TICK of a powered head. -/
theorem tickDevice_powered {gpio : Word} {d x y z w : Dev} {k : Nat} (hs : d.stage ≠ 0) (hk : k = d.cyc + 1)
    (hx : x = d.at (k * d.period)) (hy : y = reportAborts d.cyc x.openTasks (putCycle k (cycleEnds d.cyc x.openTasks x)))
    (hz : z = storedTick (unlessStoring (keepPast k gpio) y)) (hw : w = unlessStoring (outputSwap k) (cycleBegins k gpio z)) :
    tickDevice gpio d = raise pgTIM 0 0 (stepYields (safTick k (redTick (timeTick (w.eachRing (ringTick k)))))) := by
  subst hw hz hy hx hk
  unfold tickDevice
  rw [if_neg hs]
  dsimp only
  rw [Nat.add_sub_cancel]

/-- What the end of the mirror slot lands first: the journal of this cycle stands in memory, and nothing of it is carried. -/
theorem mirrorSlotEnd_commanding {d x y : Dev} (hs : d.stage ≠ 0) (hc : d.commanding = true) (hx : x = d.at (d.tickSt + mirrorEnd d.rate))
    (hy : y = x.red.carried.foldl (fun (d : Dev) (e : JEntry) => landOwn e d)
      ((if x.red.carried = [] then x else x.setMemBytes (journalAddr x.cyc) x.red.jnow).redMap fun r => { r with carried := [] })) :
    mirrorSlotEnd d = takeSecond (y.red.rx.filter fun m => !m.first) (admitHeld 64 y) := by
  subst hy hx
  exact (if_neg hs).trans (if_pos hc)

/-- Settles O52. -/
theorem cycleEvents : Obligations.CycleEvents := by
  refine ⟨fun s gpio hs => ⟨?_, ?_, ?_, ?_, ?_, ?_⟩, fun s gpio k x y z w hs hk hx hy hz hw => ⟨?_, fun ho => ?_⟩, fun s x hs hx => ?_,
    fun s t x y hs ht hx hy => ?_, fun s x hs hx => ⟨fun hh => ?_, fun hh => ?_⟩, fun s x hs hx => ⟨fun hd => ?_, fun hd hf => ?_, fun hd hf => ?_⟩,
    fun s x y hs hx hy => ⟨fun hc => ?_, fun hc hr => ?_, fun hc hr hj => ?_⟩⟩
  · show s.act (tickDevice gpio) = _
    rw [act_withDev]
    exact next_congr (d' := s.dev) (if_pos hs)
  · show s.act upstreamEnds = _
    rw [act_withDev]
    exact next_congr (d' := s.dev) (if_pos hs)
  · show s.act cwdDevice = _
    rw [act_withDev]
    exact next_congr (d' := s.dev) (if_pos hs)
  · show s.act startNit = _
    rw [act_withDev]
    exact next_congr (d' := s.dev) (if_pos hs)
  · show s.act asyncWindowStart = _
    rw [act_withDev]
    exact next_congr (d' := s.dev) (if_pos hs)
  · show s.act mirrorSlotEnd = _
    rw [act_withDev]
    exact next_congr (d' := s.dev) (if_pos hs)
  · show s.act (tickDevice gpio) = _
    rw [act_withDev]
    exact next_congr (tickDevice_powered hs hk hx hy hz hw)
  · rw [hz, storedTick_idle ho]
  · show s.act upstreamEnds = _
    rw [act_withDev, hx]
    exact next_congr (if_neg hs)
  · show s.act cwdDevice = _
    rw [act_withDev, hy, hx, ht]
    exact next_congr (if_neg hs)
  · show s.act startNit = _
    rw [act_withDev]
    refine next_congr ((if_neg hs).trans ?_)
    dsimp only
    rw [← hx, if_pos hh]
  · show s.act startNit = _
    rw [act_withDev]
    refine next_congr ((if_neg hs).trans ?_)
    dsimp only
    rw [← hx, if_neg (by rw [hh]; exact Bool.false_ne_true)]
  · show s.act asyncWindowStart = _
    rw [act_withDev, hx]
    exact next_congr ((if_neg hs).trans (if_pos hd))
  · show s.act asyncWindowStart = _
    rw [act_withDev, hx]
    have hd' : ¬ (s.dev.at (s.dev.tickSt + asyncStart s.dev.rate)).on pgSTG STG.HDUP = true := by
      rw [show (s.dev.at (s.dev.tickSt + asyncStart s.dev.rate)).on pgSTG STG.HDUP = false from hd]
      exact Bool.false_ne_true
    have hf' : ¬ (s.dev.at (s.dev.tickSt + asyncStart s.dev.rate)).fitted (.sys .e) = true := by
      rw [show (s.dev.at (s.dev.tickSt + asyncStart s.dev.rate)).fitted (.sys .e) = false from hf]
      exact Bool.false_ne_true
    refine next_congr ((if_neg hs).trans ((if_neg hd').trans ?_))
    rw [if_neg hf']
  · show s.act asyncWindowStart = _
    rw [act_withDev, hx]
    have hd' : ¬ (s.dev.at (s.dev.tickSt + asyncStart s.dev.rate)).on pgSTG STG.HDUP = true := by
      rw [show (s.dev.at (s.dev.tickSt + asyncStart s.dev.rate)).on pgSTG STG.HDUP = false from hd]
      exact Bool.false_ne_true
    refine next_congr ((if_neg hs).trans ((if_neg hd').trans ?_))
    rw [if_pos (show (s.dev.at (s.dev.tickSt + asyncStart s.dev.rate)).fitted (.sys .e) = true from hf)]
  · show s.act mirrorSlotEnd = _
    rw [act_withDev]
    exact next_congr (mirrorSlotEnd_commanding hs hc hx hy)
  · show s.act mirrorSlotEnd = _
    rw [act_withDev, hx]
    refine next_congr ((if_neg hs).trans ((if_neg ?_).trans (if_pos hr)))
    rw [show (s.dev.at (s.dev.tickSt + mirrorEnd s.dev.rate)).commanding = false from hc]
    exact Bool.false_ne_true
  · show s.act mirrorSlotEnd = _
    rw [act_withDev, hx]
    refine next_congr ((if_neg hs).trans ((if_neg ?_).trans (if_neg ?_)))
    · rw [show (s.dev.at (s.dev.tickSt + mirrorEnd s.dev.rate)).commanding = false from hc]
      exact Bool.false_ne_true
    · rintro (h | h)
      · exact hr h
      · rw [show (s.dev.at (s.dev.tickSt + mirrorEnd s.dev.rate)).joining = false from hj] at h
        exact Bool.false_ne_true h

end Sys2Proof.Machine
end

section
/-! PROOFS. What leaves at the action point of a slot (R71, R74, R82, R146). -/
namespace Sys2Proof.Machine

/-! ## Frame headers -/

/-- A step of a CRC stays within its width. -/
theorem crcBits_lt {w poly : Nat} (hp : poly < 2 ^ w) : ∀ (n c : Nat), c < 2 ^ w ∨ 0 < n → crcBits w poly n c < 2 ^ w := by
  intro n
  induction n with
  | zero => exact fun c h => h.elim id fun h => absurd h (Nat.lt_irrefl 0)
  | succ n ih =>
    intro c _
    have hmod : c * 2 % 2 ^ w < 2 ^ w := Nat.mod_lt _ (Nat.two_pow_pos w)
    refine ih _ (.inl ?_)
    split
    · exact Nat.xor_lt_two_pow hmod hp
    · exact hmod

theorem crc8_lt (bs : List Byte) : crc8 bs < 2 ^ 8 := by
  have hfold : ∀ (bs : List Byte) (c : Nat), c < 2 ^ 8 →
      bs.foldl (fun c b => crcBits 8 0x07 8 (xorN c (b.toNat * 2 ^ (8 - 8)))) c < 2 ^ 8 := by
    intro bs
    induction bs with
    | nil => exact fun c h => h
    | cons b bs ih => exact fun c _ => ih _ (crcBits_lt (by decide) 8 _ (.inr (by decide)))
  exact hfold bs 0 (by decide)

theorem hdr_low_lt (h : Hdr) : h.low < 2 ^ 48 := by
  have hb : b2n h.stopf ≤ 1 := by cases h.stopf <;> decide
  unfold Hdr.low
  omega

/-- A header with its own HCRC is right. -/
theorem hcrcOk_bits (h : Hdr) : hcrcOk h.bits = true := by
  have hl := hdr_low_lt h
  have hc : hcrcOf h.low < 2 ^ 8 := crc8_lt _
  have hbits : h.bits.toNat = h.low + hcrcOf h.low * 2 ^ 48 := by
    unfold Hdr.bits
    rw [BitVec.toNat_ofNat, Nat.mod_eq_of_lt (by omega)]
  have hmod : h.bits.toNat % 2 ^ 48 = h.low := by omega
  have hdiv : h.bits.toNat / 2 ^ 48 = hcrcOf h.low := by omega
  unfold hcrcOk
  rw [hmod, hdiv]
  exact beq_self_eq_true _

/-! ## Ports -/

theorem launchPort_free (r : Fin 4) (p : Port) (h : Hdr) (data : List Byte) (crc : Word) (d : Dev) :
    ∃ sof, hcrcOk sof = true ∧ launchPort r p false h data crc d = d.transmit (.frame (.ring r p) sof data crc) :=
  ⟨_, hcrcOk_bits _, rfl⟩

/-! ## Slots -/

section
variable {d : Dev} {r : RingId} {n : Nat} {be bw : Bool}

/-- Where the head may send in no slot, nothing leaves. -/
theorem frameTransmit_closed (h : d.stage = 0 ∨ d.on pgSTG STG.HDUP = true ∨ d.inserted r = false ∨
    d.rd (pgRing r) RING.NSLOT ≤ n ∨ (d.slot r n).turn d.cyc = false) : frameTransmit r n be bw d = d := by
  refine if_pos ?_
  rcases h with h | h | h | h | h
  · exact .inl h
  · exact .inr (.inl h)
  · exact .inr (.inr (.inl (by rw [h]; rfl)))
  · exact .inr (.inr (.inr (.inl h)))
  · exact .inr (.inr (.inr (.inr (by rw [h]; rfl))))

/-- The head may send in a slot of the table that has its turn. -/
structure Open (d : Dev) (r : RingId) (n : Nat) : Prop where
  powered : d.stage ≠ 0
  unlike : d.on pgSTG STG.HDUP = false
  inserted : d.inserted r = true
  slot : n < d.rd (pgRing r) RING.NSLOT
  turn : (d.slot r n).turn d.cyc = true

theorem Open.not_closed (h : Open d r n) : ¬ (d.stage = 0 ∨ d.on pgSTG STG.HDUP ∨ !d.inserted r ∨ d.rd (pgRing r) RING.NSLOT ≤ n ∨
    !(d.slot r n).turn d.cyc) := by
  rintro (hs | hs | hs | hs | hs)
  · exact h.powered hs
  · rw [h.unlike] at hs
    exact Bool.false_ne_true hs
  · rw [h.inserted] at hs
    exact Bool.false_ne_true hs
  · exact absurd hs (by have := h.slot; omega)
  · rw [h.turn] at hs
    exact Bool.false_ne_true hs

/-- What an open slot of each type sends. -/
theorem frameTransmit_command (h : Open d r n) (ht : (d.slot r n).type = ftCOMMAND) {p : List Byte}
    (hc : (d.rg r).command = some p) : frameTransmit r n be bw d =
    if d.commanding && d.rstate r == rsSYNC && !(d.rg r).txWait then launch r n ftCOMMAND ((d.slot r n).ap * 80) be bw p d else d := by
  refine (if_neg h.not_closed).trans ((if_pos ht).trans ?_)
  rw [hc]

theorem frameTransmit_noCommand (h : Open d r n) (ht : (d.slot r n).type = ftCOMMAND)
    (hc : (d.rg r).command = none) : frameTransmit r n be bw d = d := by
  refine (if_neg h.not_closed).trans ((if_pos ht).trans ?_)
  rw [hc]

theorem frameTransmit_mirror (h : Open d r n) (ht : (d.slot r n).type = ftMIRROR) : frameTransmit r n be bw d =
    if d.rstate r = rsSYNC ∧ !(d.rg r).txWait ∧ d.role ≠ roNONE then sendMirror r n (d.slot r n) be bw d else d :=
  (if_neg h.not_closed).trans ((if_neg (by rw [ht]; decide)).trans (if_pos ht))

theorem frameTransmit_other (h : Open d r n) (hc : (d.slot r n).type ≠ ftCOMMAND) (hm : (d.slot r n).type ≠ ftMIRROR) :
    frameTransmit r n be bw d = if (d.slot r n).holder ≠ d.myst then d
      else if (d.slot r n).type = ftSYNC then (if (d.rg r).txWait then d else sendSync r n (d.slot r n) be bw d)
      else if (d.slot r n).type = ftASYNC ∨ (d.slot r n).type = ftRANGING then sendAsync r n (d.slot r n) be bw d
      else d :=
  (if_neg h.not_closed).trans ((if_neg hc).trans (if_neg hm))

theorem frameTransmit_sync (h : Open d r n) (ht : (d.slot r n).type = ftSYNC) (hh : (d.slot r n).holder = d.myst)
    (hw : (d.rg r).txWait = false) : frameTransmit r n be bw d = sendSync r n (d.slot r n) be bw d := by
  rw [frameTransmit_other h (by rw [ht]; decide) (by rw [ht]; decide), if_neg (fun hc => hc hh), if_pos ht,
    if_neg (by rw [hw]; exact Bool.false_ne_true)]

theorem frameTransmit_async (h : Open d r n) (ht : (d.slot r n).type = ftASYNC ∨ (d.slot r n).type = ftRANGING)
    (hh : (d.slot r n).holder = d.myst) : frameTransmit r n be bw d = sendAsync r n (d.slot r n) be bw d := by
  have hne : ∀ t, t ≠ ftASYNC → t ≠ ftRANGING → (d.slot r n).type ≠ t := fun t h1 h2 hc =>
    ht.elim (fun ht => h1 (hc.symm.trans ht)) fun ht => h2 (hc.symm.trans ht)
  rw [frameTransmit_other h (hne _ (by decide) (by decide)) (hne _ (by decide) (by decide)), if_neg (fun hc => hc hh),
    if_neg (hne _ (by decide) (by decide)), if_pos ht]

end

/-- Settles O57. -/
theorem frameTransmits : Obligations.FrameTransmit := by
  refine ⟨fun s r slot be bw h => ?_, fun s r slot be bw n x hn hx hs hd hi hl ht => ?_, fun d r p h data crc => ⟨rfl, fun hd => ?_, fun hd => ?_⟩⟩
  · show s.act (frameTransmit r slot.toNat be bw) = _
    rw [act_withDev]
    exact next_congr (d' := s.dev) (frameTransmit_closed h)
  · subst hx hn
    have ho : Open s.dev r slot.toNat := ⟨hs, hd, hi, hl, ht⟩
    have hexec : ∀ d', frameTransmit r slot.toNat be bw s.dev = d' → exec (.frameTransmit r slot be bw) s = .next (s.withDev d') :=
      fun d' h => (act_withDev s _).trans (next_congr h)
    refine ⟨fun p hty hc hcm hst hw => hexec _ ?_, fun hty hc => hexec s.dev ?_, fun hty hst hw hr => hexec _ ?_,
      fun hnc hnm hh => hexec s.dev ?_, fun hty hh hw => ⟨fun hst hf => hexec s.dev ?_, fun hst hf => hexec _ ?_, fun hst => hexec _ ?_,
      fun hnc hns => hexec s.dev ?_⟩, fun hty hh => hexec _ (frameTransmit_async ho hty hh)⟩
    · rw [frameTransmit_command ho hty hc, hcm, hst, hw]
      rfl
    · cases hp : (s.dev.rg r).command with
      | none => exact frameTransmit_noCommand ho hty hp
      | some p =>
        rw [frameTransmit_command ho hty hp]
        refine if_neg fun hall => ?_
        simp only [Bool.and_eq_true, beq_iff_eq, Bool.not_eq_true'] at hall
        obtain ⟨⟨h1, h2⟩, h3⟩ := hall
        rcases hc with hc | hc | hc | hc
        · rw [hp] at hc
          exact nomatch hc
        · rw [h1] at hc
          exact nomatch hc
        · exact hc h2
        · rw [h3] at hc
          exact nomatch hc
    · rw [frameTransmit_mirror ho hty]
      exact if_pos ⟨hst, by rw [hw]; rfl, hr⟩
    · rw [frameTransmit_other ho hnc hnm]
      exact if_pos hh
    · rw [frameTransmit_sync ho hty hh hw]
      exact (if_pos hst).trans (if_pos hf)
    · rw [frameTransmit_sync ho hty hh hw]
      exact (if_pos hst).trans (if_neg (by omega))
    · rw [frameTransmit_sync ho hty hh hw]
      exact (if_neg (by rw [hst]; decide)).trans (if_pos hst)
    · rw [frameTransmit_sync ho hty hh hw]
      exact (if_neg hnc).trans (if_neg hns)
  · exact transmit_hdup _ _ hd
  · obtain ⟨sof, hok, he⟩ := launchPort_free r p h data crc d
    exact ⟨sof, hok, he.trans (transmit_out d _ hd)⟩

end Sys2Proof.Machine
end

section
/-! PROOFS. The time base: ring states, loss and gain of synchronisation, the rate switch (R53, R128 to R164). -/
namespace Sys2Proof.Machine

/-- A command whose effect on the device is known. -/
theorem act_eq {s : State} {f : Dev → Dev} {d' : Dev} (h : f s.dev = d') : s.act f = .next (s.withDev d') :=
  (act_withDev s f).trans (next_congr h)

theorem act_same {s : State} {f : Dev → Dev} (h : f s.dev = s.dev) : s.act f = .next s := act_eq (d' := s.dev) h

theorem not_true {b : Bool} (h : b = false) : ¬ b = true := by rw [h]; exact Bool.false_ne_true

/-! ## What stands of a ring after an update -/

theorem rg_setRg (r : Fin 4) (x : RingDyn) (d : Dev) : (d.setRg r x).rg r = x := Vector.getElem_set_self r.isLt

theorem rg_mapRg (r : Fin 4) (f : RingDyn → RingDyn) (d : Dev) : (d.mapRg r f).rg r = f (d.rg r) := rg_setRg r _ d

theorem rd_mapRg (r : Fin 4) (f : RingDyn → RingDyn) (d : Dev) (p : Nat) (g : Fld) : (d.mapRg r f).rd p g = d.rd p g := rfl

theorem rg_wr (r : Fin 4) (d : Dev) (p : Nat) (f : Fld) (v : Nat) : (d.wr p f v).rg r = d.rg r := by
  unfold Dev.rg
  rw [wr_ring]

theorem pgRing_ne (r : Fin 4) : pgRing r ≠ pgTIM ∧ pgRing r < 1024 ∧ ¬ eventPage (pgRing r) ∧ pgRing r ≠ pgRED := by
  have := r.isLt
  unfold pgRing pgTIM eventPage pgEVT pgTSU pgRED
  omega

/-- An event leaves the state of the rings. -/
theorem rg_raise (r : Fin 4) (page bit arg : Nat) (d : Dev) (hp : page < 1024) (hb : bit < 32) :
    (raise page bit arg d).rg r = d.rg r := by
  unfold Dev.rg
  rw [(posted_raise page bit arg d hp hb).ring]

theorem rd_ringEvent (r q : Fin 4) (bit arg : Nat) (d : Dev) (g : Fld) (hb : bit < 32) (ho : g.off < 4096) (hv : g.off ≠ HDR.PEVT.off) :
    (ringEvent r bit arg d).rd (pgRing q) g = d.rd (pgRing q) g :=
  (Leaves.raise _ bit arg d (pgRing_ne r).2.1 hb).rd (pgRing_ne q).2.1 ho (pgRing_ne q).2.2.1 hv

/-- The flag SYNC of RATEC leaves the pages of the rings. -/
theorem rd_showSync (r : Fin 4) (d : Dev) (g : Fld) (ho : g.off < 4096) : (showSync d).rd (pgRing r) g = d.rd (pgRing r) g :=
  rd_wr_key _ _ TIM.SYNC _ _ _ fun h => (pgRing_ne r).1 (regKey_inj (by decide) (pgRing_ne r).2.1 (by decide) ho h).1.symm

theorem rstate_setRstate (r : Fin 4) (s : Nat) (d : Dev) (hs : s < 8) : (setRstate r s d).rstate r = s := by
  have h1 : (showSync (d.wr (pgRing r) RING.RSTATE s)).rd (pgRing r) RING.RSTATE = s := by
    rw [rd_showSync r _ _ (by decide), rd_wr_self _ _ _ _ (by decide)]
    exact Nat.mod_eq_of_lt hs
  unfold setRstate Dev.rstate
  dsimp only
  split
  · rw [rd_mapRg, h1]
  · rw [h1]

/-- The change of a ring's state leaves the fields of the ring beside it. -/
theorem rd_setRstate (r : Fin 4) (s : Nat) (d : Dev) (g : Fld) (ho : g.off < 4096) (hg : g.off ≠ 0x44 ∨ 3 ≤ g.lsb) :
    (setRstate r s d).rd (pgRing r) g = d.rd (pgRing r) g := by
  have h1 : (showSync (d.wr (pgRing r) RING.RSTATE s)).rd (pgRing r) g = d.rd (pgRing r) g := by
    rw [rd_showSync r _ _ ho]
    by_cases h : g.off = 0x44
    · exact rd_wr_beside _ _ RING.RSTATE g _ (by decide) h.symm (.inr (hg.resolve_left fun hn => hn h))
    · exact rd_wr_off _ _ RING.RSTATE _ _ _ (by rw [Nat.mod_eq_of_lt ho]; exact fun hc => h hc.symm)
  unfold setRstate
  dsimp only
  split
  · rw [rd_mapRg, h1]
  · rw [h1]

theorem role_setRstate (r : Fin 4) (s : Nat) (d : Dev) : (setRstate r s d).role = d.role := by
  have h1 : (showSync (d.wr (pgRing r) RING.RSTATE s)).rd pgRED RED.ROLE = d.rd pgRED RED.ROLE := by
    refine (rd_wr_key _ _ TIM.SYNC _ _ RED.ROLE (by decide)).trans (rd_wr_key _ _ RING.RSTATE _ _ RED.ROLE fun h => ?_)
    exact (pgRing_ne r).2.2.2 (regKey_inj (pgRing_ne r).2.1 (by decide) (by decide) (by decide) h).1
  unfold setRstate Dev.role
  dsimp only
  split
  · rw [rd_mapRg, h1]
  · rw [h1]

/-! ## Leaving SYNC -/

/-- The state of a ring that leaves SYNC, PASSIVE or INTEGRATE, before its event. -/
def ringLeft (r : Fin 4) (d : Dev) : Dev :=
  (((setRstate r rsLISTEN d).mapRg r RingDyn.unsynced).wr (pgRing r) RING.RESETTLE 0).wr (pgRing r) RING.GPEND 0

theorem leaveSync_eq {r : Fin 4} {d : Dev} (cause : Nat) (h : d.ringFollows r = true) : leaveSync r cause d =
    if d.rstate r == rsSYNC then postSyncLost r cause (ringLeft r d) else ringLeft r d := if_pos h

theorem rg_ringLeft (r : Fin 4) (d : Dev) : (ringLeft r d).rg r = ((setRstate r rsLISTEN d).rg r).unsynced := by
  unfold ringLeft
  rw [rg_wr, rg_wr, rg_mapRg]

theorem rd_ringLeft (r : Fin 4) (d : Dev) : (ringLeft r d).rd (pgRing r) RING.RSTATE = rsLISTEN ∧
    (ringLeft r d).rd (pgRing r) RING.RESETTLE = 0 ∧ (ringLeft r d).rd (pgRing r) RING.GPEND = 0 ∧
    (ringLeft r d).rd (pgRing r) RING.INS = d.rd (pgRing r) RING.INS := by
  unfold ringLeft
  refine ⟨?_, ?_, rd_wr_self _ _ _ _ (by decide), ?_⟩
  · rw [rd_wr_off _ _ RING.GPEND _ _ _ (by decide), rd_wr_beside _ _ RING.RESETTLE RING.RSTATE _ (by decide) rfl (by decide), rd_mapRg]
    exact rstate_setRstate r rsLISTEN d (by decide)
  · rw [rd_wr_off _ _ RING.GPEND _ _ _ (by decide), rd_wr_self _ _ _ _ (by decide)]
    rfl
  · rw [rd_wr_off _ _ RING.GPEND _ _ _ (by decide), rd_wr_beside _ _ RING.RESETTLE RING.INS _ (by decide) rfl (by decide), rd_mapRg]
    exact rd_setRstate r _ d RING.INS (by decide) (.inr (by decide))

theorem postSyncLost_leaves (r : Fin 4) (cause : Nat) (d : Dev) : (postSyncLost r cause d).rg r = d.rg r ∧
    ∀ g : Fld, g.off < 4096 → g.off ≠ HDR.PEVT.off → (postSyncLost r cause d).rd (pgRing r) g = d.rd (pgRing r) g := by
  unfold postSyncLost
  split
  · exact ⟨rfl, fun _ _ _ => rfl⟩
  · exact ⟨rg_raise r _ 4 cause d (pgRing_ne r).2.1 (by decide), fun g ho hv => rd_ringEvent r r 4 cause d g (by decide) ho hv⟩

theorem leaveSync_left (r : Fin 4) (cause : Nat) {d : Dev} (h : d.ringFollows r = true) :
    (leaveSync r cause d).rg r = (ringLeft r d).rg r ∧ ∀ g : Fld, g.off < 4096 → g.off ≠ HDR.PEVT.off →
      (leaveSync r cause d).rd (pgRing r) g = (ringLeft r d).rd (pgRing r) g := by
  rw [leaveSync_eq cause h]
  split
  · exact postSyncLost_leaves r cause _
  · exact ⟨rfl, fun _ _ _ => rfl⟩

/-- A ring that leaves SYNC, PASSIVE or INTEGRATE is in LISTEN, without grant, resettle or muted stations. -/
theorem leaveSync_shows (r : Fin 4) (cause : Nat) {d : Dev} (h : d.ringFollows r = true) : (leaveSync r cause d).rstate r = rsLISTEN ∧
    (leaveSync r cause d).on (pgRing r) RING.RESETTLE = false ∧ (leaveSync r cause d).on (pgRing r) RING.GPEND = false ∧
    ((leaveSync r cause d).rg r).muted = [] ∧ ((leaveSync r cause d).rg r).grantAt = none ∧
    (leaveSync r cause d).on (pgRing r) RING.INS = d.on (pgRing r) RING.INS := by
  obtain ⟨hrg, hrd⟩ := leaveSync_left r cause h
  obtain ⟨h1, h2, h3, h4⟩ := rd_ringLeft r d
  refine ⟨(hrd _ (by decide) (by decide)).trans h1, ?_, ?_, by rw [hrg, rg_ringLeft]; rfl, by rw [hrg, rg_ringLeft]; rfl, ?_⟩
  · unfold Dev.on
    rw [hrd _ (by decide) (by decide), h2]
    rfl
  · unfold Dev.on
    rw [hrd _ (by decide) (by decide), h3]
    rfl
  · unfold Dev.on
    rw [hrd _ (by decide) (by decide), h4]

theorem leaveSync_stays (r : Fin 4) (cause : Nat) {d : Dev} (h : d.ringFollows r = false) : leaveSync r cause d = d :=
  if_neg (not_true h)

/-! ## Cold start and SYNC -/

theorem enterSync_shows (r : Fin 4) (arg : Nat) (d : Dev) : (enterSync r arg d).rstate r = rsSYNC ∧
    ((enterSync r arg d).rg r).wantRange = (d.role != roSTANDBY && d.role != roSILENT) := by
  unfold enterSync
  extract_lets d1 mine
  constructor
  · unfold Dev.rstate
    rw [rd_ringEvent r r 5 arg _ _ (by decide) (by decide) (by decide), rd_mapRg]
    exact rstate_setRstate r rsSYNC d (by decide)
  · have hm : mine = (d.role != roSTANDBY && d.role != roSILENT) := by
      show (d1.role != roSTANDBY && d1.role != roSILENT) = _
      rw [role_setRstate]
    unfold ringEvent
    rw [rg_raise r _ 5 arg _ (pgRing_ne r).2.1 (by decide), rg_mapRg]
    exact hm

theorem enterColdstart_shows (r : Fin 4) (d : Dev) : (enterColdstart r d).rstate r = rsCOLDSTART ∧ (enterColdstart r d).inserted r = true ∧
    ((enterColdstart r d).rg r).insert = ((setRstate r rsCOLDSTART d).rg r).insert := by
  unfold enterColdstart
  extract_lets d1
  refine ⟨?_, ?_, ?_⟩
  · unfold Dev.rstate
    rw [rd_mapRg, rd_wr_beside d1 _ RING.INS RING.RSTATE _ (by decide) rfl (by decide)]
    exact rstate_setRstate r rsCOLDSTART d (by decide)
  · have h : (d1.wr (pgRing r) RING.INS 1).rd (pgRing r) RING.INS = 1 := rd_wr_self _ _ _ _ (by decide)
    unfold Dev.inserted Dev.on
    rw [rd_mapRg, h]
    rfl
  · rw [rg_mapRg, rg_wr]

theorem insert_setRstate (r : Fin 4) (s : Nat) (d : Dev) : ((setRstate r s d).rg r).insert = (d.rg r).insert := by
  have h1 : ((showSync (d.wr (pgRing r) RING.RSTATE s)).rg r) = d.rg r := by
    unfold showSync
    rw [rg_wr, rg_wr]
  unfold setRstate
  dsimp only
  split
  · rw [rg_mapRg, h1]
  · rw [h1]

theorem insert_leaveSync (r : Fin 4) (cause : Nat) (d : Dev) : ((leaveSync r cause d).rg r).insert = (d.rg r).insert := by
  cases h : d.ringFollows r with
  | true =>
    rw [(leaveSync_left r cause h).1, rg_ringLeft]
    exact insert_setRstate r rsLISTEN d
  | false => rw [leaveSync_stays r cause h]

/-- The takeover of a ring in the NIT (R151). -/
theorem nitRing_takeover {r : Fin 4} {d : Dev} (ht : (d.rg r).takeover = true) (he : (d.rg r).brokenE = false)
    (hw : (d.rg r).brokenW = false) (hi : (d.rg r).insert = none) : nitRing r d = enterColdstart r (leaveSync r 5 d) := by
  have hins : ((enterColdstart r (leaveSync r 5 d)).rg r).insert = none := by
    rw [(enterColdstart_shows r _).2.2, insert_setRstate, insert_leaveSync, hi]
  unfold nitRing
  rw [if_neg (not_true he)]
  dsimp only
  rw [if_neg (not_true hw), if_pos ht, hins]

/-! ## The rate switch (R53) -/

/-- The rate switch as it is announced no more. -/
def rateDue (d : Dev) : Dev := (d.wr pgTIM TIM.RPEND 0).timeMap fun t => { t with rateAt := none }

theorem rate_rateDue (d : Dev) : (rateDue d).rate = d.rate := rd_wr_beside d pgTIM TIM.RPEND TIM.RATE 0 (by decide) rfl (by decide)

theorem st_rateDue (d : Dev) : (rateDue d).st = d.st := wr_st d pgTIM TIM.RPEND 0

theorem tsu_rateDue (d : Dev) : (rateDue d).tsu = d.tsu := wr_tsu d pgTIM TIM.RPEND 0

theorem rateSwitch_announced {d : Dev} {b : Nat} (h : d.time.rateAt = some b) : rateSwitch d =
    if d.stage = 0 ∨ d.st + d.period < b * 128000000 then d
    else if !(rateDue d).assignOk (d.rd pgTIM TIM.NRATE) (rateDue d).tsu.work then (rateDue d).wr pgTIM TIM.NRATE (rateDue d).rate
    else raise pgTIM 5 5 (assignAxes (putRateAt (if decide (d.st < b * 128000000) then b * 128000000 / periodOf (d.rd pgTIM TIM.NRATE) - 1
      else (rateDue d).st / periodOf (d.rd pgTIM TIM.NRATE)) (d.rd pgTIM TIM.NRATE) (rateDue d))) := by
  unfold rateSwitch
  rw [h]
  rfl

theorem rateSwitch_none {d : Dev} (h : d.time.rateAt = none) : rateSwitch d = d := by
  unfold rateSwitch
  rw [h]

theorem rateSwitch_refused {d : Dev} {b : Nat} (h : d.time.rateAt = some b) (hs : d.stage ≠ 0) (hb : b * 128000000 ≤ d.st + d.period)
    (ha : (rateDue d).assignOk (d.rd pgTIM TIM.NRATE) d.tsu.work = false) : rateSwitch d = (rateDue d).wr pgTIM TIM.NRATE d.rate := by
  rw [rateSwitch_announced h, if_neg (by rintro (h | h) <;> omega), tsu_rateDue, ha, rate_rateDue]
  rfl

theorem rateSwitch_taken {d : Dev} {b : Nat} (h : d.time.rateAt = some b) (hs : d.stage ≠ 0) (hb : b * 128000000 ≤ d.st + d.period)
    (ha : (rateDue d).assignOk (d.rd pgTIM TIM.NRATE) d.tsu.work = true) : rateSwitch d =
    raise pgTIM 5 5 (assignAxes (putRateAt (if d.st < b * 128000000 then b * 128000000 / periodOf (d.rd pgTIM TIM.NRATE) - 1
      else d.st / periodOf (d.rd pgTIM TIM.NRATE)) (d.rd pgTIM TIM.NRATE) (rateDue d))) := by
  rw [rateSwitch_announced h, if_neg (by rintro (h | h) <;> omega), tsu_rateDue, ha, st_rateDue, if_neg (by decide)]
  simp only [decide_eq_true_eq]

/-! ## Slots that are violated (R157) -/

theorem slotMute_muted {r : RingId} {n : Nat} {d : Dev} (hc : d.commanding = true) (hv : ∃ c, (n, c) ∈ (d.rg r).viol ∧ 3 ≤ c)
    (hm : (d.slot r n).holder ∉ (d.rg r).muted) : slotMute r n d = raise (pgRing r) 6 (d.slot r n).holder (queueAsync r
      (.order (mgmtMessage ((muteStation r (d.slot r n).holder d).sysId r (d.slot r n).holder)
        ((muteStation r (d.slot r n).holder d).sysId r (muteStation r (d.slot r n).holder d).myst) 0 0 0 true [1, 0, 0, 0, 0, 0, 0, 0]))
      (muteStation r (d.slot r n).holder d)) := by
  refine if_pos ?_
  obtain ⟨c, hmem, h3⟩ := hv
  have hdue : ((d.rg r).viol.any fun (x : Nat × Nat) => x.1 == n && decide (3 ≤ x.2)) = true :=
    List.any_eq_true.mpr ⟨(n, c), hmem, by simp [h3]⟩
  have hnot : (d.rg r).muted.contains (d.slot r n).holder = false := by simpa using hm
  rw [hc, hdue, hnot]
  rfl

theorem slotMute_stays {r : RingId} {n : Nat} {d : Dev} (h : d.commanding = false ∨ (∀ c, (n, c) ∈ (d.rg r).viol → c < 3) ∨
    (d.slot r n).holder ∈ (d.rg r).muted) : slotMute r n d = d := by
  refine if_neg fun hall => ?_
  simp only [Bool.and_eq_true, List.any_eq_true, beq_iff_eq, decide_eq_true_eq, Bool.not_eq_true', List.contains_eq_mem, decide_eq_false_iff_not] at hall
  obtain ⟨⟨hc, x, hmem, hx, h3⟩, hm⟩ := hall
  rcases h with h | h | h
  · rw [hc] at h
    exact nomatch h
  · have := h x.2 (hx ▸ hmem)
    omega
  · exact hm h

/-! ## Cold start and integration (R144 to R155) -/

theorem mayStart_false {d : Dev} {r : RingId} (h : d.ringUsed r = false ∨ d.on pgSTG STG.HDUP = true ∨ d.ownSlot r ftSYNC = none) :
    d.mayStart r = false := by
  unfold Dev.mayStart
  rcases h with h | h | h
  · rw [h]
    rfl
  · rw [h, Bool.not_true, Bool.and_false]
    rfl
  · rw [h, Option.isSome_none, Bool.and_false]

theorem ringSource_iff (d : Dev) (r : RingId) : d.ringSource r = true ↔ ∃ q : RingId, q ≠ r ∧ d.rstate q = rsSYNC := by
  unfold Dev.ringSource
  simp only [List.any_eq_true, List.mem_range, Bool.and_eq_true, bne_iff_ne, beq_iff_eq]
  constructor
  · rintro ⟨q, hq, hne, hs⟩
    exact ⟨⟨q, hq⟩, fun h => hne (congrArg Fin.val h), hs⟩
  · rintro ⟨q, hne, hs⟩
    exact ⟨q.val, q.isLt, fun h => hne (Fin.ext h), hs⟩

theorem takeSource_synced {d : Dev} {r : RingId} (h : ∃ q : RingId, q ≠ r ∧ d.rstate q = rsSYNC) : takeSource r d = d :=
  if_pos ((ringSource_iff d r).mpr h)

theorem takeSource_alone {d : Dev} {r : RingId} (h : ∀ q : RingId, q ≠ r → d.rstate q ≠ rsSYNC) :
    takeSource r d = stepTime (d.st + (d.time.sysOff.getD 0).toNat) d :=
  if_neg fun hs => by
    obtain ⟨q, hq, hsync⟩ := (ringSource_iff d r).mp hs
    exact h q hq hsync

theorem listenTimeout_due {d : Dev} {r : RingId} {due : Nat} (hd : due = (d.rg r).listen + d.listenTime) (hs : d.stage ≠ 0)
    (hr : d.rstate r = rsLISTEN) (hm : d.mayStart r = true) (ht : due < d.tickSt + d.period) :
    listenTimeout r d = enterColdstart r (takeSource r (d.at due)) := by
  subst hd
  exact if_pos ⟨hs, hr, hm, ht⟩

theorem listenTimeout_stays {d : Dev} {r : RingId} {due : Nat} (hd : due = (d.rg r).listen + d.listenTime)
    (h : d.stage = 0 ∨ d.rstate r ≠ rsLISTEN ∨ d.mayStart r = false ∨ d.tickSt + d.period ≤ due) : listenTimeout r d = d := by
  subst hd
  refine if_neg ?_
  rintro ⟨h1, h2, h3, h4⟩
  rcases h with h | h | h | h
  · exact h1 h
  · exact h h2
  · exact not_true h h3
  · omega

theorem coldstartComplete_stays {d : Dev} {r : RingId} (h : d.rstate r ≠ rsCOLDSTART ∨ (d.rg r).csSent < 8 ∨
    d.cyc < (d.rg r).coldFrom + 8 ∨ (d.rg r).yields = true) : coldstartComplete r d = d := by
  refine if_neg ?_
  rintro ⟨h1, h2, h3, h4⟩
  rcases h with h | h | h | h
  · exact h h1
  · omega
  · omega
  · rw [h] at h4
    exact Bool.false_ne_true h4

theorem integrateToSync_stays {d : Dev} {r : RingId} (h : d.rstate r ≠ rsINTEGRATE ∨ (d.rg r).goodRun < 4) : integrateToSync r d = d := by
  refine if_neg ?_
  rintro ⟨h1, h2⟩
  rcases h with h | h
  · exact h h1
  · omega

theorem anySync_iff (d : Dev) : ((List.range 4).any fun q => d.ringSync q) = true ↔ ∃ q, q < 4 ∧ d.ringSync q = true := by
  simp only [List.any_eq_true, List.mem_range]

theorem headRingTakeover_open {d : Dev} {r : RingId} (hs : ∃ q, q < 4 ∧ d.ringSync q = true) (h0 : 64 ≤ (d.rg r).role0)
    (hg : (d.rstate r == rsLISTEN || d.rstate r == rsINTEGRATE || (d.ringSync r && !d.inserted r)) = true) (hm : d.mayStart r = true) :
    headRingTakeover r d = d.mapRg r fun g => { g with takeover := true } :=
  if_pos ⟨(anySync_iff d).mpr hs, h0, hg, hm⟩

theorem headRingTakeover_stays {d : Dev} {r : RingId} (h : (∀ q, q < 4 → d.ringSync q = false) ∨ (d.rg r).role0 < 64 ∨
    (d.rstate r == rsLISTEN || d.rstate r == rsINTEGRATE || (d.ringSync r && !d.inserted r)) = false ∨ d.mayStart r = false) :
    headRingTakeover r d = d := by
  refine if_neg ?_
  rintro ⟨h1, h2, h3, h4⟩
  rcases h with h | h | h | h
  · obtain ⟨q, hq, hs⟩ := (anySync_iff d).mp h1
    exact not_true (h q hq) hs
  · omega
  · exact not_true h h3
  · exact not_true h h4

/-! ## The system link (R140) -/

theorem loseSysSync_lost {d : Dev} (arg : Nat) (h : d.on pgSYS SYS.SSYNC = true) :
    loseSysSync arg d = raise pgSYS 2 arg (d.wr pgSYS SYS.SSYNC 0) := if_pos h

theorem loseSysSync_none {d : Dev} (arg : Nat) (h : d.on pgSYS SYS.SSYNC = false) : loseSysSync arg d = d := if_neg (not_true h)

theorem sysSyncLoss_none {d : Dev} (cause : SysLoss) (h : d.on pgSYS SYS.SSYNC = false) : sysSyncLoss cause d = d := by
  unfold sysSyncLoss
  cases cause with
  | drift =>
    dsimp only
    rw [loseSysSync_none 3 h, ite_self]
  | silent =>
    dsimp only
    rw [loseSysSync_none 2 h, ite_self]

theorem sysSyncLoss_drift (d : Dev) : sysSyncLoss .drift d = if d.parent.isSome && decide (4 ≤ d.time.beyond) then loseSysSync 3 d else d := rfl

theorem sysSyncLoss_silent (d : Dev) : sysSyncLoss .silent d = if d.parentSilent then loseSysSync 2 d else d := rfl

theorem parentSilent_some {d : Dev} {p : Port} (h : d.parent = some p) : d.parentSilent = decide (64 ≤ (d.sysPort p).age) := by
  unfold Dev.parentSilent
  rw [h]

theorem parentSilent_none {d : Dev} (h : d.parent = none) :
    d.parentSilent = (!d.isLighthouse && decide (64 ≤ d.time.e.age) && decide (64 ≤ d.time.w.age)) := by
  unfold Dev.parentSilent
  rw [h]

theorem sysSyncAcquire_fitted {d : Dev} (h : d.fitted (.sys .e) = true) : sysSyncAcquire d =
    if d.isLighthouse || (d.parent.isSome && decide (8 ≤ d.time.within)) then d.wr pgSYS SYS.SSYNC 1 else d :=
  if_neg (by rw [h]; decide)

/-- Where the device is no lighthouse and has no steady parent, the link is not synchronised. -/
theorem sysSyncAcquire_stays {d : Dev} (hl : d.isLighthouse = false) (h : d.parent = none ∨ d.time.within < 8) : sysSyncAcquire d = d := by
  unfold sysSyncAcquire
  split
  · rfl
  · rw [hl, Bool.false_or]
    refine if_neg fun hall => ?_
    simp only [Bool.and_eq_true, decide_eq_true_eq] at hall
    rcases h with h | h
    · rw [h] at hall
      exact nomatch hall.1
    · omega

/-- The link under a parent: lost by drift, and by silence. -/
theorem sysSyncLoss_parent {d : Dev} {p : Port} (hp : d.parent = some p) (hs : d.on pgSYS SYS.SSYNC = true) :
    (4 ≤ d.time.beyond → sysSyncLoss .drift d = raise pgSYS 2 3 (d.wr pgSYS SYS.SSYNC 0)) ∧
    (d.time.beyond < 4 → sysSyncLoss .drift d = d) ∧
    (64 ≤ (d.sysPort p).age → sysSyncLoss .silent d = raise pgSYS 2 2 (d.wr pgSYS SYS.SSYNC 0)) ∧
    ((d.sysPort p).age < 64 → sysSyncLoss .silent d = d) := by
  rw [sysSyncLoss_drift, sysSyncLoss_silent, hp, parentSilent_some hp]
  refine ⟨fun h => ?_, fun h => ?_, fun h => ?_, fun h => ?_⟩
  · exact (if_pos (by simpa using h)).trans (loseSysSync_lost 3 hs)
  · exact if_neg (by simpa using h)
  · exact (if_pos (by simpa using h)).trans (loseSysSync_lost 2 hs)
  · exact if_neg (by simpa using h)

/-- The link without a parent: lost where no port hears of a lighthouse. -/
theorem sysSyncLoss_noParent {d : Dev} (hp : d.parent = none) : sysSyncLoss .drift d = d ∧
    (d.isLighthouse = false → 64 ≤ d.time.e.age → 64 ≤ d.time.w.age → d.on pgSYS SYS.SSYNC = true →
      sysSyncLoss .silent d = raise pgSYS 2 2 (d.wr pgSYS SYS.SSYNC 0)) ∧
    ((d.isLighthouse = true ∨ d.time.e.age < 64 ∨ d.time.w.age < 64) → sysSyncLoss .silent d = d) := by
  rw [sysSyncLoss_drift, sysSyncLoss_silent, hp, parentSilent_none hp]
  refine ⟨rfl, fun hl he hw hs => ?_, fun h => ?_⟩
  · exact (if_pos (by rw [hl]; simp [he, hw])).trans (loseSysSync_lost 2 hs)
  · refine if_neg fun hall => ?_
    simp only [Bool.and_eq_true, Bool.not_eq_true', decide_eq_true_eq] at hall
    obtain ⟨⟨hl, he⟩, hw⟩ := hall
    rcases h with h | h | h
    · rw [hl] at h
      exact nomatch h
    · omega
    · omega

/-- Settles O54. -/
theorem timeBaseEvents : Obligations.TimeBaseEvents := by
  refine ⟨fun s => ⟨fun h => ?_, fun b y h hy => ?_⟩, fun s => ⟨fun hm hr => ?_, fun h => ?_, fun hv ha => ?_, fun h => ?_⟩,
    fun s r => ⟨fun h => ?_, fun h => ?_, fun hs hv => ?_, fun h => ?_, fun cause h => leaveSync_stays r cause h, fun cause h => leaveSync_shows r cause h⟩,
    fun s r slot sta x hsta hx => ⟨fun hc hv hm => ?_, fun h => ?_⟩, fun s r due hd => ⟨fun hs hr hm ht => ?_, fun h => ?_⟩,
    fun d r => ⟨mayStart_false, takeSource_synced, fun h ho => ?_, fun o h ho hpos => ?_⟩,
    fun s r => ⟨fun hs hc hf hy => ?_, fun h => ?_, fun hs hg => ⟨fun hi => ?_, fun hi => ?_⟩, fun h => ?_, fun go hgo => ⟨fun hs h0 hg hm => ?_, fun h => ?_⟩,
      nitRing_takeover, fun arg => enterSync_shows r arg s.dev, (enterColdstart_shows r s.dev).1, (enterColdstart_shows r s.dev).2.1⟩,
    fun s => ⟨fun h => ?_, fun hf h => ?_, fun hl h => ?_, fun p hp hs => ?_, fun hp => ?_, fun cause h => ?_⟩⟩
  · exact act_same (f := rateSwitch) (rateSwitch_none h)
  · subst hy
    refine ⟨fun hs => act_same (f := rateSwitch) ?_, fun hs hb ha => act_eq (f := rateSwitch) (rateSwitch_refused h hs hb ha),
      fun z hs ha hz hb => ?_⟩
    · rw [rateSwitch_announced h, if_pos hs]
    · subst hz
      exact act_eq (f := rateSwitch) (rateSwitch_taken h hs hb ha)
  · exact act_eq (f := beaconMissLimit) (if_pos ⟨hm, hr⟩)
  · refine act_same (f := beaconMissLimit) (if_neg ?_)
    rintro ⟨hm, hr⟩
    rcases h with h | ⟨h1, h2⟩
    · omega
    · exact hr.elim h1 h2
  · exact act_eq (f := heldRequestExpire) (if_pos ⟨hv, ha⟩)
  · refine act_same (f := heldRequestExpire) (if_neg ?_)
    rintro ⟨hv, ha⟩
    rcases h with h | h
    · exact not_true h hv
    · omega
  · exact act_eq (f := ringPoolDisagree r) (if_pos h)
  · exact act_same (f := ringPoolDisagree r) (if_neg (by omega))
  · exact act_eq (f := ownSlotViolated r) (if_pos ⟨hs, hv⟩)
  · refine act_same (f := ownSlotViolated r) (if_neg ?_)
    rintro ⟨hs, hv⟩
    rcases h with h | h
    · exact h hs
    · omega
  · subst hx hsta
    exact act_eq (f := slotMute r slot.toNat) (slotMute_muted hc hv hm)
  · subst hsta
    exact act_same (f := slotMute r slot.toNat) (slotMute_stays h)
  · exact act_eq (f := listenTimeout r) (listenTimeout_due hd hs hr hm ht)
  · exact act_same (f := listenTimeout r) (listenTimeout_stays hd h)
  · rw [takeSource_alone h, ho]
    exact if_pos (Nat.le_refl _)
  · rw [takeSource_alone h, ho]
    rfl
  · exact act_eq (f := coldstartComplete r) (if_pos ⟨hs, hc, hf, by rw [hy]; rfl⟩)
  · exact act_same (f := coldstartComplete r) (coldstartComplete_stays h)
  · refine act_eq (f := integrateToSync r) ((if_pos ⟨hs, hg⟩).trans ?_)
    rw [if_pos hi]
  · refine act_eq (f := integrateToSync r) ((if_pos ⟨hs, hg⟩).trans ?_)
    rw [if_neg (not_true hi)]
  · exact act_same (f := integrateToSync r) (integrateToSync_stays h)
  · exact act_eq (f := headRingTakeover r) (headRingTakeover_open hs h0 (hgo.symm.trans hg) hm)
  · refine act_same (f := headRingTakeover r) (headRingTakeover_stays ?_)
    rw [← hgo]
    exact h
  · exact act_same (f := sysSyncAcquire) (if_pos (by rw [h]; rfl))
  · refine act_eq (f := sysSyncAcquire) ((sysSyncAcquire_fitted hf).trans (if_pos ?_))
    rcases h with h | ⟨hp, hw⟩
    · rw [h]
      rfl
    · rw [Option.isSome_iff_ne_none.mpr hp, decide_eq_true hw, Bool.and_true, Bool.or_true]
  · exact act_same (f := sysSyncAcquire) (sysSyncAcquire_stays hl h)
  · obtain ⟨h1, h2, h3, h4⟩ := sysSyncLoss_parent hp hs
    exact ⟨fun h => act_eq (f := sysSyncLoss .drift) (h1 h), fun h => act_same (f := sysSyncLoss .drift) (h2 h),
      fun h => act_eq (f := sysSyncLoss .silent) (h3 h), fun h => act_same (f := sysSyncLoss .silent) (h4 h)⟩
  · obtain ⟨h1, h2, h3⟩ := sysSyncLoss_noParent hp
    exact ⟨act_same (f := sysSyncLoss .drift) h1, fun hl he hw hs => act_eq (f := sysSyncLoss .silent) (h2 hl he hw hs),
      fun h => act_same (f := sysSyncLoss .silent) (h3 h)⟩
  · exact act_same (f := sysSyncLoss cause) (sysSyncLoss_none cause h)

end Sys2Proof.Machine
end

section
/-! PROOFS. Block lock, breaks, ordered sets, ranging, the geometry and insertion (R75, R76, R93 to R108). -/
namespace Sys2Proof.Machine

/-! ## Lanes -/

theorem sends_fitted {d : Dev} {l : Lane} (h : d.sends l = true) : d.fitted l = true := ((Bool.and_eq_true _ _).mp h).2

theorem sends_unfitted {d : Dev} {l : Lane} (h : d.fitted l = false) : d.sends l = false := by
  unfold Dev.sends
  rw [h, Bool.and_false]

theorem sends_keeper {d : Dev} (l : Lane) (h : d.stage = 0) : d.sends l = false := by
  unfold Dev.sends Dev.lanesOn
  rw [h]
  rfl

theorem hears_sends {d : Dev} {l : Lane} (h : d.sends l = true) : d.hears l = d.locked l := by
  unfold Dev.hears
  rw [h, Bool.true_and]

theorem hears_silent {d : Dev} {l : Lane} (h : d.sends l = false) : d.hears l = false := by
  unfold Dev.hears
  rw [h, Bool.false_and]

/-! ## Block lock -/

/-- The fields in which block lock of a lane is shown: in the KEEP domain, and on a powered head in the page of the unit. -/
theorem setLock_shows (l : Lane) (v : Bool) (d : Dev) : ∃ f p g, f.off = STG.RLOCK.off ∧ (g.off = RING.LOCKE.off ∨ g.off = SYS.LOCKE.off) ∧
    setLock l v d = if (d.wr pgSTG f (b2n v)).stage = 0 then d.wr pgSTG f (b2n v) else (d.wr pgSTG f (b2n v)).wr p g (b2n v) := by
  cases l with
  | ring q p => cases p with
    | e => exact ⟨⟨STG.RLOCK.off, STG.RLOCK.lsb + (2 * q.val + 0), 1⟩, pgRing q, RING.LOCKE, rfl, .inl rfl, rfl⟩
    | w => exact ⟨⟨STG.RLOCK.off, STG.RLOCK.lsb + (2 * q.val + 1), 1⟩, pgRing q, RING.LOCKW, rfl, .inl rfl, rfl⟩
  | sys p => cases p with
    | e => exact ⟨⟨STG.SLOCK.off, STG.SLOCK.lsb + 0, 1⟩, pgSYS, SYS.LOCKE, rfl, .inr rfl, rfl⟩
    | w => exact ⟨⟨STG.SLOCK.off, STG.SLOCK.lsb + 1, 1⟩, pgSYS, SYS.LOCKW, rfl, .inr rfl, rfl⟩

theorem rg_setLock (r : Fin 4) (l : Lane) (v : Bool) (d : Dev) : (setLock l v d).rg r = d.rg r := by
  obtain ⟨f, p, g, -, -, h⟩ := setLock_shows l v d
  rw [h]
  split
  · exact rg_wr r _ _ _ _
  · rw [rg_wr, rg_wr]

theorem stage_setLock (l : Lane) (v : Bool) (d : Dev) : (setLock l v d).stage = d.stage := by
  obtain ⟨f, p, g, hf, hg, h⟩ := setLock_shows l v d
  have h1 : (d.wr pgSTG f (b2n v)).stage = d.stage := rd_wr_off d _ f _ _ STG.STAGE (by rw [hf]; decide)
  rw [h]
  split
  · exact h1
  · refine (rd_wr_off _ _ g _ _ STG.STAGE ?_).trans h1
    rcases hg with hg | hg <;> rw [hg] <;> decide

theorem conf_setLock (l : Lane) (v : Bool) (d : Dev) : (setLock l v d).conf = d.conf := by
  obtain ⟨f, p, g, -, -, h⟩ := setLock_shows l v d
  rw [h]
  split
  · rw [wr_conf]
  · rw [wr_conf, wr_conf]

theorem sends_setLock (l k : Lane) (v : Bool) (d : Dev) : (setLock l v d).sends k = d.sends k := by
  unfold Dev.sends Dev.lanesOn Dev.fitted
  rw [stage_setLock, conf_setLock]

theorem blockLockAcquire_unfitted {l : Lane} {d : Dev} (h : d.fitted l = false) : blockLockAcquire l d = d := by
  unfold blockLockAcquire
  dsimp only
  rw [if_neg (not_true h), sends_unfitted h]
  rfl

theorem blockLockLoss_unfitted {l : Lane} {d : Dev} (h : d.fitted l = false) : blockLockLoss l d = d := by
  unfold blockLockLoss
  dsimp only
  rw [if_neg (not_true h), sends_unfitted h]
  rfl

/-- A gain that changes nothing of the unit is shown alone. -/
theorem blockLockAcquire_shown {l : Lane} {d : Dev} (hf : d.fitted l = true) (h : d.stage = 0 ∨ d.locked l = true) :
    blockLockAcquire l d = setLock l true d := by
  have hc : (!d.sends l || d.locked l) = true := by
    rcases h with h | h
    · rw [sends_keeper l h]
      rfl
    · rw [h, Bool.or_true]
  unfold blockLockAcquire
  dsimp only
  rw [if_pos hf, sends_setLock]
  exact if_pos hc

theorem blockLockLoss_shown {l : Lane} {d : Dev} (hf : d.fitted l = true) (h : d.stage = 0 ∨ d.locked l = false) :
    blockLockLoss l d = setLock l false d := by
  have hc : (!d.sends l || !d.locked l) = true := by
    rcases h with h | h
    · rw [sends_keeper l h]
      rfl
    · rw [h, Bool.not_false, Bool.or_true]
  unfold blockLockLoss
  dsimp only
  rw [if_pos hf, sends_setLock]
  exact if_pos hc

theorem blockLockAcquire_sys {p : Port} {d : Dev} (hs : d.sends (.sys p) = true) (h : d.locked (.sys p) = false) :
    blockLockAcquire (.sys p) d = raise pgSYS 1 1 (setLock (.sys p) true d) := by
  unfold blockLockAcquire
  dsimp only
  rw [if_pos (sends_fitted hs), sends_setLock, hs, h]
  rfl

theorem blockLockLoss_sys {p : Port} {d : Dev} (hs : d.sends (.sys p) = true) (h : d.locked (.sys p) = true) :
    blockLockLoss (.sys p) d = raise pgSYS 0 0 (setLock (.sys p) false d) := by
  unfold blockLockLoss
  dsimp only
  rw [if_pos (sends_fitted hs), sends_setLock, hs, h]
  rfl

theorem blockLockAcquire_ring {r : RingId} {p : Port} {d : Dev} (hs : d.sends (.ring r p) = true) (h : d.locked (.ring r p) = false) :
    blockLockAcquire (.ring r p) d = (if (d.rg r).lostAt p then (setLock (.ring r p) true d).inc (pgRing r) RING.LOCKL
      else setLock (.ring r p) true d).mapRg r (RingDyn.withLost p false) := by
  unfold blockLockAcquire
  dsimp only
  rw [if_pos (sends_fitted hs), sends_setLock, hs, h, rg_setLock]
  cases p <;> rfl

theorem blockLockLoss_ring {r : RingId} {p : Port} {d : Dev} (hs : d.sends (.ring r p) = true) (h : d.locked (.ring r p) = true) :
    blockLockLoss (.ring r p) d = (setLock (.ring r p) false d).mapRg r (RingDyn.withLost p true) := by
  unfold blockLockLoss
  dsimp only
  rw [if_pos (sends_fitted hs), sends_setLock, hs, h]
  cases p <;> rfl

/-! ## Breaks -/

theorem breakDetect_found {r : RingId} {p : Port} {d : Dev} (hs : d.sends (.ring r p) = true) (h : d.locked (.ring r p) = false) :
    breakDetect r p d = osRing r 0x02 (breakArg d p) (d.mapRg r fun g => (g.withBroken p true).withLost p false) := by
  unfold breakDetect
  rw [hs, h]
  cases p <;> rfl

theorem breakDetect_stays {r : RingId} {p : Port} {d : Dev} (h : d.sends (.ring r p) = false ∨ d.locked (.ring r p) = true) :
    breakDetect r p d = d := by
  refine if_pos ?_
  rcases h with h | h
  · rw [h]
    rfl
  · rw [h, Bool.or_true]

theorem healSend_eq (r : RingId) (p : Port) (d : Dev) : healSend r p d = if (d.rg r).brokenAt p && d.hears (.ring r p) then
    osRing r 0x03 (breakArg d p) (d.mapRg r (RingDyn.withBroken p false)) else d := by
  cases p <;> rfl

/-! ## Ordered sets -/

theorem receiveSet_silent {l : Lane} {code : Byte} {arg : BitVec 48} {use : Dev → Dev} {d : Dev} (h : d.hears l = false) :
    receiveSet l code arg use d = d := if_pos (by rw [h]; rfl)

theorem receiveSet_own {l : Lane} {code : Byte} {arg : BitVec 48} {use : Dev → Dev} {d : Dev} (h : arg.toNat % 64 = d.osOrigin l) :
    receiveSet l code arg use d = d := if_pos (by rw [h, beq_self_eq_true, Bool.or_true])

theorem receiveSet_other {l : Lane} {code : Byte} {arg : BitVec 48} {use : Dev → Dev} {d : Dev} (hh : d.hears l = true)
    (h : arg.toNat % 64 ≠ d.osOrigin l) : receiveSet l code arg use d = use (forwardSet l code arg d) :=
  if_neg (by rw [hh, beq_eq_false_iff_ne.mpr h]; decide)

theorem stopOsReceive_silent {l : Lane} {arg : BitVec 48} {d : Dev} (h : d.hears l = false) : stopOsReceive l arg d = d := by
  unfold stopOsReceive
  exact receiveSet_silent h

theorem stopOsReceive_own {l : Lane} {arg : BitVec 48} {d : Dev} (h : arg.toNat % 64 = d.osOrigin l) : stopOsReceive l arg d = d := by
  unfold stopOsReceive
  exact receiveSet_own h

theorem unknownOsReceive_silent {l : Lane} {code : Byte} {arg : BitVec 48} {d : Dev} (h : d.hears l = false) :
    unknownOsReceive l code arg d = d := if_pos (by rw [h]; rfl)

theorem unknownOsReceive_known {l : Lane} {code : Byte} {d : Dev} (hh : d.hears l = true) (h : code = 0 ∨ 3 < code.toNat) :
    ¬ (!d.hears l || decide (1 ≤ code.toNat ∧ code.toNat ≤ 3)) = true := by
  have hn : ¬ (1 ≤ code.toNat ∧ code.toNat ≤ 3) := by
    rcases h with rfl | h
    · decide
    · omega
  rw [hh, decide_eq_false hn]
  decide

theorem unknownOsReceive_ring {r : RingId} {p : Port} {code : Byte} {arg : BitVec 48} {d : Dev} (hh : d.hears (.ring r p) = true)
    (h : code = 0 ∨ 3 < code.toNat) : unknownOsReceive (.ring r p) code arg d = (forwardSet (.ring r p) code arg d).inc (pgRing r) RING.OSERR :=
  if_neg (unknownOsReceive_known hh h)

theorem unknownOsReceive_sys {p : Port} {code : Byte} {arg : BitVec 48} {d : Dev} (hh : d.hears (.sys p) = true)
    (h : code = 0 ∨ 3 < code.toNat) : unknownOsReceive (.sys p) code arg d = forwardSet (.sys p) code arg d :=
  if_neg (unknownOsReceive_known hh h)

theorem rd_transmit (d : Dev) (o : Out) (p : Nat) (g : Fld) : (d.transmit o).rd p g = d.rd p g := by
  unfold Dev.rd Dev.rdS Dev.reg
  rw [transmit_regs, transmit_conf]

theorem rd_forwardSet (l : Lane) (code : Byte) (arg : BitVec 48) (d : Dev) (p : Nat) (g : Fld) :
    (forwardSet l code arg d).rd p g = d.rd p g := by
  cases l with
  | ring r p => exact rd_transmit _ _ _ _
  | sys p => exact rd_transmit _ _ _ _

/-- A STOP set of another station on a ring: it is noted once, and the safe chain hears of it each time. -/
theorem stopOsReceive_ring {r : RingId} {p : Port} {arg : BitVec 48} {d : Dev} (hh : d.hears (.ring r p) = true)
    (h : arg.toNat % 64 ≠ d.myst) : stopOsReceive (.ring r p) arg d = safRing (arg.toNat % 64) (raise (pgRing r) 2 2
      (if d.on (pgRing r) RING.STOPRX then forwardSet (.ring r p) 0x01 arg d
       else ((forwardSet (.ring r p) 0x01 arg d).wr (pgRing r) RING.STOPRX 1).wr (pgRing r) RING.STOPORG (arg.toNat % 64))) := by
  have hon : (forwardSet (.ring r p) 0x01 arg d).on (pgRing r) RING.STOPRX = d.on (pgRing r) RING.STOPRX := by
    unfold Dev.on
    rw [rd_forwardSet]
  unfold stopOsReceive
  rw [receiveSet_other hh h]
  dsimp only
  rw [hon]
  rfl

/-! ## Insertion -/

theorem insertByGrant_taken {r : RingId} {d : Dev} (hg : (d.rg r).insg = some (d.myst, false)) (hi : d.inserted r = false)
    (hs : d.ringSync r = true) (hd : d.on pgSTG STG.HDUP = false) : insertByGrant r d = (d.wr (pgRing r) RING.INS 1).mapRg r fun g =>
      { g with txWait := true, rtag := none, geoOld := g.geo.isSome, frags := [] } :=
  if_pos ⟨hg, by rw [hi]; rfl, hs, by rw [hd]; rfl⟩

theorem insertByGrant_stays {r : RingId} {d : Dev} (h : (d.rg r).insg ≠ some (d.myst, false) ∨ d.inserted r = true ∨
    d.ringSync r = false ∨ d.on pgSTG STG.HDUP = true) : insertByGrant r d = d := by
  refine if_neg ?_
  rintro ⟨hg, hi, hs, hd⟩
  rcases h with h | h | h | h
  · exact h hg
  · rw [h] at hi
    exact Bool.false_ne_true hi
  · exact not_true h hs
  · rw [h] at hd
    exact Bool.false_ne_true hd

theorem rejoin_heard {r : RingId} {sta : Nat} {d : Dev} (hc : d.commanding = true) (hs : d.ringSync r = true) (hm : sta ∈ (d.rg r).muted) :
    rejoin r sta d = queueMgmt r (d.sysId r sta) ([2, 0, 0, 0] ++ bytesLE 4 (d.cyc + d.asyncLead r 1 + 4))
      (unmute r sta (d.cyc + d.asyncLead r 1 + 4) d) :=
  if_pos (by rw [hc, hs, List.contains_iff_mem.mpr hm]; rfl)

theorem rejoin_stays {r : RingId} {sta : Nat} {d : Dev} (h : d.commanding = false ∨ d.ringSync r = false ∨ sta ∉ (d.rg r).muted) :
    rejoin r sta d = d := by
  refine if_neg fun hall => ?_
  simp only [Bool.and_eq_true, List.contains_iff_mem] at hall
  obtain ⟨⟨hc, hs⟩, hm⟩ := hall
  rcases h with h | h | h
  · exact not_true h hc
  · exact not_true h hs
  · exact h hm

theorem resettleTimeout_over {r : RingId} {d : Dev} (hr : d.on (pgRing r) RING.RESETTLE = true) (hn : 256 ≤ (d.rg r).resettleN)
    (hg : (d.rg r).geo = none ∨ (d.rg r).geoOld = true) : resettleTimeout r d =
      (d.wr (pgRing r) RING.RESETTLE 0).mapRg r fun g => { g with resettleN := 0, disagree := 0 } := by
  refine if_pos ⟨hr, hn, ?_⟩
  rcases hg with h | h
  · rw [h]
    rfl
  · rw [h, Bool.or_true]

theorem resettleTimeout_stays {r : RingId} {d : Dev} (h : d.on (pgRing r) RING.RESETTLE = false ∨ (d.rg r).resettleN < 256 ∨
    ((d.rg r).geo ≠ none ∧ (d.rg r).geoOld = false)) : resettleTimeout r d = d := by
  refine if_neg ?_
  rintro ⟨hr, hn, hg⟩
  rcases h with h | h | ⟨hs, ho⟩
  · exact not_true h hr
  · omega
  · rw [ho, Bool.or_false] at hg
    exact hs (Option.isNone_iff_eq_none.mp hg)

/-! ## Ranging -/

theorem asymmetric_iff (le lw : Nat) : 64 < ((le : Int) - lw).natAbs ↔ le + 64 < lw ∨ lw + 64 < le := by omega

theorem showAsym_eq (r : Fin 4) (le lw : Nat) (d : Dev) :
    showAsym r le lw d = d.wr (pgRing r) RING.ASYM (if le + 64 < lw ∨ lw + 64 < le then 1 else 0) := by
  unfold showAsym b2n
  simp only [decide_eq_true_eq, asymmetric_iff]

/-- A field of a page after a write of one beside it. -/
theorem rd_wr_apart (d : Dev) (p : Nat) (f g : Fld) (v : Nat) (hf : f.lsb + f.width ≤ 32)
    (h : f.off % 4096 ≠ g.off % 4096 ∨ f.off = g.off ∧ (g.lsb + g.width ≤ f.lsb ∨ f.lsb + f.width ≤ g.lsb)) :
    (d.wr p f v).rd p g = d.rd p g := by
  rcases h with h | ⟨ho, h⟩
  · exact rd_wr_off d p f v p g h
  · exact rd_wr_beside d p f g v hf ho h

/-- The slot table stands when a status register of the ring is written. -/
theorem slots_wr (r : Fin 4) (f : Fld) (v : Nat) (d : Dev) (hn : f.off ≠ RING.NSLOT.off) (hs : f.off < 0x400) :
    (d.wr (pgRing r) f v).slots r = d.slots r := by
  have hreg : ∀ o, 0x400 ≤ o → (d.wr (pgRing r) f v).reg (pgRing r) 0 o = d.reg (pgRing r) 0 o := fun o ho =>
    reg_wrS_key d _ 0 f v _ 0 o (by unfold regKey; omega)
  have hcount : (d.wr (pgRing r) f v).rd (pgRing r) RING.NSLOT = d.rd (pgRing r) RING.NSLOT :=
    rd_wr_off d _ f v _ RING.NSLOT (by rw [Nat.mod_eq_of_lt (by omega)]; exact hn)
  unfold Dev.slots Dev.slot Dev.rd64
  rw [hcount]
  refine List.map_congr_left fun n _ => ?_
  rw [hreg _ (by omega), hreg _ (by omega)]

theorem rate_wr_ring (r : Fin 4) (f : Fld) (v : Nat) (d : Dev) (hf : f.off < 4096) : (d.wr (pgRing r) f v).rate = d.rate :=
  rd_wr_key d _ f v _ TIM.RATE fun h => (pgRing_ne r).1 (regKey_inj (pgRing_ne r).2.1 (by decide) hf (by decide) h).1

/-- The loop delays as a ring shows them. -/
def loopsShown (r : Fin 4) (le lw : Nat) (d : Dev) : Dev :=
  ((d.wr (pgRing r) RING.LOOPE_LOOP le).wr (pgRing r) RING.LOOPW_LOOP lw).wr (pgRing r) RING.ASYM
    (if le + 64 < lw ∨ lw + 64 < le then 1 else 0)

theorem loopsShown_eq (r : Fin 4) (le lw : Nat) (d : Dev) :
    showAsym r le lw ((d.wr (pgRing r) RING.LOOPE_LOOP le).wr (pgRing r) RING.LOOPW_LOOP lw) = loopsShown r le lw d := showAsym_eq r le lw _

theorem slots_loopsShown (r : Fin 4) (le lw : Nat) (d : Dev) : (loopsShown r le lw d).slots r = d.slots r := by
  unfold loopsShown
  rw [slots_wr r _ _ _ (by decide) (by decide), slots_wr r _ _ _ (by decide) (by decide), slots_wr r _ _ _ (by decide) (by decide)]

theorem rate_loopsShown (r : Fin 4) (le lw : Nat) (d : Dev) : (loopsShown r le lw d).rate = d.rate := by
  unfold loopsShown
  rw [rate_wr_ring r _ _ _ (by decide), rate_wr_ring r _ _ _ (by decide), rate_wr_ring r _ _ _ (by decide)]

theorem rd_loopsShown_apart (r : Fin 4) (le lw : Nat) (d : Dev) (g : Fld) (h : g.off ≠ 0x44 ∨ g.lsb + g.width ≤ 10) (ho : g.off < 4096)
    (h1 : g.off ≠ 0x4c) (h2 : g.off ≠ 0x50) : (loopsShown r le lw d).rd (pgRing r) g = d.rd (pgRing r) g := by
  unfold loopsShown
  rw [rd_wr_apart _ _ RING.ASYM g _ (by decide), rd_wr_off _ _ RING.LOOPW_LOOP _ _ g (by unfold RING.LOOPW_LOOP; dsimp only; omega),
    rd_wr_off _ _ RING.LOOPE_LOOP _ _ g (by unfold RING.LOOPE_LOOP; dsimp only; omega)]
  unfold RING.ASYM
  dsimp only
  omega

theorem rd_loopsShown (r : Fin 4) (le lw : Nat) (d : Dev) :
    (loopsShown r le lw d).rd (pgRing r) RING.LOOPE_LOOP = le % 2 ^ RING.LOOPE_LOOP.width ∧
    (loopsShown r le lw d).rd (pgRing r) RING.LOOPW_LOOP = lw % 2 ^ RING.LOOPW_LOOP.width ∧
    (loopsShown r le lw d).on (pgRing r) RING.ASYM = decide (le + 64 < lw ∨ lw + 64 < le) := by
  unfold loopsShown Dev.on
  rw [rd_wr_apart _ _ RING.ASYM RING.LOOPE_LOOP _ (by decide) (by decide), rd_wr_apart _ _ RING.LOOPW_LOOP RING.LOOPE_LOOP _ (by decide) (by decide),
    rd_wr_self _ _ _ _ (by decide), rd_wr_apart _ _ RING.ASYM RING.LOOPW_LOOP _ (by decide) (by decide), rd_wr_self _ _ _ _ (by decide),
    rd_wr_self _ _ _ _ (by decide)]
  refine ⟨rfl, rfl, ?_⟩
  split
  next h => rw [decide_eq_true h]; rfl
  next h => rw [decide_eq_false h]; rfl

/-! ## PTAB -/

theorem reg_mapRg (r : Fin 4) (f : RingDyn → RingDyn) (d : Dev) (p s o : Nat) : (d.mapRg r f).reg p s o = d.reg p s o := rfl

/-- Registers written in a row read back what was written. -/
theorem reg_each_setReg (page base : Nat) (val : Nat → Word) (n : Nat) (d : Dev) : ∀ i < n,
    (d.each (List.range n) fun i d => d.setReg page 0 (base + 4 * i) (val i)).reg page 0 (base + 4 * i) = val i := by
  unfold Dev.each
  induction n with
  | zero => exact fun i h => absurd h (Nat.not_lt_zero i)
  | succ n ih =>
    intro i hi
    rw [List.range_succ, List.foldl_append]
    by_cases h : i = n
    · subst h
      exact reg_setReg_self _ _ _ _ _
    · refine (reg_setReg_key _ _ _ _ _ _ _ _ ?_).trans (ih i (by omega))
      unfold regKey
      omega

theorem reg_putPtab (r : Fin 4) (l : List Word) (d : Dev) (i : Nat) (hi : i < 64) :
    (putPtab r l d).reg (pgRing r) 0 (RING.DE.off + 4 * i) = l.getD i 0x000FFFFF#32 :=
  reg_each_setReg (pgRing r) RING.DE.off (fun i => l.getD i 0x000FFFFF#32) 64 d i hi

theorem rd_putPtab (r : Fin 4) (l : List Word) (d : Dev) (g : Fld) (hg : g.off < 0x100) : (putPtab r l d).rd (pgRing r) g = d.rd (pgRing r) g :=
  rd_each_setReg (pgRing r) RING.DE.off (fun i => l.getD i 0x000FFFFF#32) 64 g (fun i hi => by unfold RING.DE; dsimp only; omega) _ d

theorem rg_putPtab (r q : Fin 4) (l : List Word) (d : Dev) : (putPtab r l d).rg q = d.rg q := by
  unfold putPtab Dev.each
  exact List.foldlRecOn (motive := fun e : Dev => e.rg q = d.rg q) (List.range 64) _ rfl fun e he _ _ => he

/-! ## Ranging (R93 to R99) -/

/-- The ring after a complete round, before the event and the GEO message. -/
def rangedRing (r : Fin 4) (ptab : List Word) (ok : Bool) (force : Nat × Nat × List Word) (x : Dev) : Dev :=
  (putPtab r ptab ((x.wr (pgRing r) RING.SCHOK (if ok then 1 else 0)).wr (pgRing r) RING.RNGV 1)).mapRg r fun g =>
    { g with ranging := none, kept := some force }

theorem rangingComplete_none {r : Fin 4} {d : Dev} (h : (d.rg r).ranging = none) : rangingComplete r d = d := by
  unfold rangingComplete
  rw [h]

theorem rangingComplete_open {r : Fin 4} {d : Dev} {q : Ranging} (h : (d.rg r).ranging = some q) (hq : q.le = none ∨ q.lw = none) :
    rangingComplete r d = d := by
  obtain ⟨rid, c, le, lw, replies⟩ := q
  unfold rangingComplete
  rw [h]
  rcases hq with hq | hq
  · cases (hq : le = none)
    rfl
  · cases (hq : lw = none)
    cases le <;> rfl

theorem rangingComplete_done {r : Fin 4} {d : Dev} {rid c le lw : Nat} {replies : List (Nat × Int × Nat)} {ptab : List Word}
    (h : (d.rg r).ranging = some ⟨rid, c, some le, some lw, replies⟩) (hp : ptab = rangedPtab d.myst ((le + lw) / 2) replies) :
    rangingComplete r d = sendGeo r
      (if scheduleOk (geoOf ptab) (loopsShown r le lw d).rate ((loopsShown r le lw d).slots r) then ⟨le, lw, 0, true, ptab⟩
       else ⟨(d.inForce r).1, (d.inForce r).2.1, 0, false, (d.inForce r).2.2⟩)
      (raise (pgRing r) 3 3 (rangedRing r ptab (scheduleOk (geoOf ptab) (loopsShown r le lw d).rate ((loopsShown r le lw d).slots r))
        (d.inForce r) (loopsShown r le lw d))) := by
  subst hp
  rw [rate_loopsShown, slots_loopsShown, ← loopsShown_eq]
  unfold rangingComplete
  rw [h]
  rfl

/-! ## The geometry takes effect (R99, R105, R107) -/

/-- The stations leave resettle, unless the message is older than it. -/
def resettled (r : Fin 4) (gok : Bool) (d : Dev) : Dev :=
  (d.wr (pgRing r) RING.RESETTLE 0).mapRg r fun x => { x with resettleN := 0, disagree := 0, txWait := if gok then false else x.txWait }

def geoHeard (r : Fin 4) (gok : Bool) (d : Dev) : Dev :=
  (if !(d.rg r).geoOld then resettled r gok d else d).mapRg r fun x => { x with geo := none, geoOld := false }

/-- The geometry of a message in force. -/
def geoForced (r : Fin 4) (g : Geometry) (d : Dev) : Dev :=
  (putPtab r g.ptab (loopsShown r g.le g.lw ((d.wr (pgRing r) RING.GEOACT g.act).wr (pgRing r) RING.RNGV 1))).mapRg r fun x =>
    { x with kept := none }

theorem geoAct_none {r : Fin 4} {d : Dev} (h : (d.rg r).geo = none) : geoAct r d = d := by
  unfold geoAct
  rw [h]

theorem geoAct_some {r : Fin 4} {d : Dev} {g : Geometry} (h : (d.rg r).geo = some g) : geoAct r d =
    if (d.cyc + 2 ^ 32 - g.act) % 2 ^ 32 < 2 ^ 31 then (if g.gok then geoForced r g (geoHeard r g.gok d) else geoHeard r g.gok d) else d := by
  unfold geoForced
  rw [← loopsShown_eq]
  unfold geoAct
  rw [h]
  rfl

theorem rg_resettled (r : Fin 4) (gok : Bool) (d : Dev) : (resettled r gok d).rg r =
    { d.rg r with resettleN := 0, disagree := 0, txWait := if gok then false else (d.rg r).txWait } := by
  unfold resettled
  rw [rg_mapRg, rg_wr]

/-- What a geometry that takes effect leaves of the ring, whether its schedule is good or not. -/
theorem geoHeard_shows (r : Fin 4) (gok : Bool) (d : Dev) : ((geoHeard r gok d).rg r).geo = none ∧
    ((geoHeard r gok d).rg r).kept = (d.rg r).kept ∧
    ((d.rg r).geoOld = false → (geoHeard r gok d).on (pgRing r) RING.RESETTLE = false ∧
      ((geoHeard r gok d).rg r).txWait = if gok then false else (d.rg r).txWait) ∧
    ((d.rg r).geoOld = true → (geoHeard r gok d).on (pgRing r) RING.RESETTLE = d.on (pgRing r) RING.RESETTLE ∧
      ((geoHeard r gok d).rg r).txWait = (d.rg r).txWait) := by
  unfold geoHeard
  rw [rg_mapRg]
  cases h : (d.rg r).geoOld with
  | false =>
    rw [Bool.not_false, if_pos rfl, rg_resettled]
    refine ⟨rfl, rfl, fun _ => ⟨?_, rfl⟩, fun h => nomatch h⟩
    unfold Dev.on resettled
    rw [rd_mapRg, rd_mapRg, rd_wr_self _ _ _ _ (by decide)]
    rfl
  | true => exact ⟨rfl, rfl, (fun h => nomatch h), fun _ => ⟨rfl, rfl⟩⟩

theorem reg_geoHeard (r : Fin 4) (gok : Bool) (d : Dev) (o : Nat) (ho : o ≠ 0x44) :
    (geoHeard r gok d).reg (pgRing r) 0 o = d.reg (pgRing r) 0 o := by
  unfold geoHeard
  refine Eq.trans (b := (if !(d.rg r).geoOld then resettled r gok d else d).reg (pgRing r) 0 o) rfl ?_
  split
  · exact reg_wrS_key d _ 0 RING.RESETTLE 0 _ 0 o (by unfold regKey RING.RESETTLE; dsimp only; omega)
  · rfl

/-- The ring as the geometry of a message is noted. -/
def geoNoted (r : Fin 4) (act : Nat) (d : Dev) : Dev := (d.wr (pgRing r) RING.GEOACT act).wr (pgRing r) RING.RNGV 1

theorem rd_geoForced (r : Fin 4) (g : Geometry) (d : Dev) (f : Fld) (hf : f.off < 0x100) :
    (geoForced r g d).rd (pgRing r) f = (loopsShown r g.le g.lw (geoNoted r g.act d)).rd (pgRing r) f :=
  (rd_mapRg _ _ _ _ _).trans (rd_putPtab r _ _ f hf)

theorem rd_geoNoted (r : Fin 4) (act : Nat) (d : Dev) :
    (geoNoted r act d).rd (pgRing r) RING.RESETTLE = d.rd (pgRing r) RING.RESETTLE ∧ (geoNoted r act d).rd (pgRing r) RING.RNGV = 1 ∧
    (geoNoted r act d).rd (pgRing r) RING.GEOACT = act % 2 ^ RING.GEOACT.width := by
  unfold geoNoted
  refine ⟨?_, rd_wr_self _ _ _ _ (by decide), ?_⟩
  · rw [rd_wr_apart _ _ RING.RNGV _ _ (by decide) (by decide), rd_wr_apart _ _ RING.GEOACT _ _ (by decide) (by decide)]
  · rw [rd_wr_apart _ _ RING.RNGV _ _ (by decide) (by decide), rd_wr_self _ _ _ _ (by decide)]

theorem rg_geoForced (r : Fin 4) (g : Geometry) (d : Dev) : (geoForced r g d).rg r = { d.rg r with kept := none } := by
  unfold geoForced loopsShown
  rw [rg_mapRg, rg_putPtab, rg_wr, rg_wr, rg_wr, rg_wr, rg_wr]

theorem reg_geoForced (r : Fin 4) (g : Geometry) (d : Dev) (i : Nat) (hi : i < 64) :
    (geoForced r g d).reg (pgRing r) 0 (RING.DE.off + 4 * i) = g.ptab.getD i 0x000FFFFF#32 := by
  unfold geoForced
  rw [reg_mapRg, reg_putPtab r g.ptab _ i hi]

theorem geoForced_shows (r : Fin 4) (g : Geometry) (d : Dev) :
    (geoForced r g d).on (pgRing r) RING.RESETTLE = d.on (pgRing r) RING.RESETTLE ∧
    (geoForced r g d).on (pgRing r) RING.RNGV = true ∧
    (geoForced r g d).rd (pgRing r) RING.GEOACT = g.act % 2 ^ RING.GEOACT.width ∧
    (geoForced r g d).rd (pgRing r) RING.LOOPE_LOOP = g.le % 2 ^ RING.LOOPE_LOOP.width ∧
    (geoForced r g d).rd (pgRing r) RING.LOOPW_LOOP = g.lw % 2 ^ RING.LOOPW_LOOP.width ∧
    (geoForced r g d).on (pgRing r) RING.ASYM = decide (g.le + 64 < g.lw ∨ g.lw + 64 < g.le) := by
  obtain ⟨hle, hlw, hasym⟩ := rd_loopsShown r g.le g.lw (geoNoted r g.act d)
  obtain ⟨hres, hval, hact⟩ := rd_geoNoted r g.act d
  have hkept : ∀ f : Fld, (f.off ≠ 0x44 ∨ f.lsb + f.width ≤ 10) → f.off < 0x100 → f.off ≠ 0x4c → f.off ≠ 0x50 →
      (geoForced r g d).rd (pgRing r) f = (geoNoted r g.act d).rd (pgRing r) f := fun f h1 h2 h3 h4 =>
    (rd_geoForced r g d f h2).trans (rd_loopsShown_apart r _ _ _ f h1 (by omega) h3 h4)
  refine ⟨?_, ?_, (hkept _ (by decide) (by decide) (by decide) (by decide)).trans hact, (rd_geoForced r g d _ (by decide)).trans hle,
    (rd_geoForced r g d _ (by decide)).trans hlw, ?_⟩
  · unfold Dev.on
    rw [hkept _ (by decide) (by decide) (by decide) (by decide), hres]
  · unfold Dev.on
    rw [hkept _ (by decide) (by decide) (by decide) (by decide), hval]
    rfl
  · rw [← hasym]
    unfold Dev.on
    rw [rd_geoForced r g d _ (by decide)]

/-- What a geometry leaves at its ACT. -/
theorem geoAct_due {r : Fin 4} {d : Dev} {g : Geometry} (h : (d.rg r).geo = some g) (hd : (d.cyc + 2 ^ 32 - g.act) % 2 ^ 32 < 2 ^ 31) :
    ((geoAct r d).rg r).geo = none ∧ ((d.rg r).geoOld = false → (geoAct r d).on (pgRing r) RING.RESETTLE = false) ∧
    ((d.rg r).geoOld = true → (geoAct r d).on (pgRing r) RING.RESETTLE = d.on (pgRing r) RING.RESETTLE ∧
      ((geoAct r d).rg r).txWait = (d.rg r).txWait) ∧
    (g.gok = true → ((d.rg r).geoOld = false → ((geoAct r d).rg r).txWait = false) ∧ ((geoAct r d).rg r).kept = none ∧
      (geoAct r d).on (pgRing r) RING.RNGV = true ∧
      (geoAct r d).rd (pgRing r) RING.GEOACT = g.act % 2 ^ RING.GEOACT.width ∧
      (geoAct r d).rd (pgRing r) RING.LOOPE_LOOP = g.le % 2 ^ RING.LOOPE_LOOP.width ∧
      (geoAct r d).rd (pgRing r) RING.LOOPW_LOOP = g.lw % 2 ^ RING.LOOPW_LOOP.width ∧
      (geoAct r d).on (pgRing r) RING.ASYM = decide (g.le + 64 < g.lw ∨ g.lw + 64 < g.le) ∧
      ∀ i, i < 64 → (geoAct r d).reg (pgRing r) 0 (RING.DE.off + 4 * i) = g.ptab.getD i 0x000FFFFF#32) ∧
    (g.gok = false → ((geoAct r d).rg r).txWait = (d.rg r).txWait ∧ ((geoAct r d).rg r).kept = (d.rg r).kept ∧
      (geoAct r d).rd (pgRing r) RING.GEOACT = d.rd (pgRing r) RING.GEOACT ∧
      ∀ i, i < 64 → (geoAct r d).reg (pgRing r) 0 (RING.DE.off + 4 * i) = d.reg (pgRing r) 0 (RING.DE.off + 4 * i)) := by
  obtain ⟨hgeo, hkept, hnew, hold⟩ := geoHeard_shows r g.gok d
  rw [geoAct_some h, if_pos hd]
  cases hok : g.gok with
  | true =>
    obtain ⟨hres, hval, hact, hle, hlw, hasym⟩ := geoForced_shows r g (geoHeard r true d)
    rw [hok] at hgeo hnew hold
    rw [if_pos rfl, rg_geoForced]
    exact ⟨hgeo, fun ho => hres.trans (hnew ho).1, fun ho => ⟨hres.trans (hold ho).1, (hold ho).2⟩,
      fun _ => ⟨fun ho => (hnew ho).2, rfl, hval, hact, hle, hlw, hasym, fun i hi => reg_geoForced r g _ i hi⟩, fun h => nomatch h⟩
  | false =>
    rw [hok] at hgeo hkept hnew hold
    rw [if_neg Bool.false_ne_true]
    refine ⟨hgeo, fun ho => (hnew ho).1, hold, (fun h => nomatch h), fun _ => ⟨?_, hkept, ?_, fun i _ => reg_geoHeard r _ d _ (by unfold RING.DE; dsimp only; omega)⟩⟩
    · cases ho : (d.rg r).geoOld with
      | true => exact (hold ho).2
      | false => exact (hnew ho).2
    · unfold Dev.rd Dev.rdS
      rw [reg_geoHeard r _ d _ (by decide)]

/-- Settles O55. -/
theorem linkAndRingManagement : Obligations.LinkAndRingManagement := by
  refine ⟨fun s l => ⟨fun h => ?_, fun hf hs => ?_, fun hf h => ?_, fun hf h => ?_⟩, fun s p hs => ⟨fun h => ?_, fun h => ?_⟩,
    fun s r p hs => ⟨fun h hl => ?_, fun h hl => ?_, fun h => ?_, fun h => ?_, fun h => ?_, fun h hb => ?_, fun h => ?_⟩,
    fun s r p h => ⟨?_, ?_⟩, fun d => ⟨rfl, rfl⟩, fun s l code arg h => ⟨?_, ?_, ?_, ?_⟩,
    fun s r p arg org x hh ho => ⟨fun h => ⟨?_, ?_, ?_⟩, fun h hx => ⟨fun hst => ?_, fun hst => ?_⟩, fun h => ⟨?_, ?_⟩, fun code h => ?_⟩,
    fun s p code arg hh => ⟨fun h => ⟨?_, ?_, ?_⟩, fun h => ⟨?_, ?_, ?_⟩, fun h => ?_⟩,
    fun s r => ⟨fun h => ?_, fun q h hq => ?_, fun rid c le lw replies ptab x y h hp hx hy => ⟨fun hok => ?_, fun hok => ?_⟩,
      fun h => ?_, fun g h => ⟨fun hd => ?_, fun hd => ?_⟩, fun hr hn hg => ?_, fun h => ?_, fun hg hi hs hd => ?_, fun h => ?_,
      fun hg hi => ?_, fun h => ?_⟩,
    fun s r sta act ha => ⟨fun hc hs hm => ?_, fun h => ?_⟩⟩
  · exact ⟨act_same (f := blockLockAcquire l) (blockLockAcquire_unfitted h), act_same (f := blockLockLoss l) (blockLockLoss_unfitted h)⟩
  · exact ⟨act_eq (f := blockLockAcquire l) (blockLockAcquire_shown hf (.inl hs)), act_eq (f := blockLockLoss l) (blockLockLoss_shown hf (.inl hs))⟩
  · exact act_eq (f := blockLockAcquire l) (blockLockAcquire_shown hf (.inr h))
  · exact act_eq (f := blockLockLoss l) (blockLockLoss_shown hf (.inr h))
  · exact act_eq (f := blockLockAcquire (.sys p)) (blockLockAcquire_sys hs h)
  · exact act_eq (f := blockLockLoss (.sys p)) (blockLockLoss_sys hs h)
  · exact act_eq (f := blockLockAcquire (.ring r p)) ((blockLockAcquire_ring hs h).trans (by rw [if_pos hl]))
  · exact act_eq (f := blockLockAcquire (.ring r p)) ((blockLockAcquire_ring hs h).trans (by rw [if_neg (not_true hl)]))
  · exact act_eq (f := blockLockLoss (.ring r p)) (blockLockLoss_ring hs h)
  · exact act_eq (f := breakDetect r p) (breakDetect_found hs h)
  · exact act_same (f := breakDetect r p) (breakDetect_stays (.inr h))
  · exact act_eq (f := healSend r p) ((healSend_eq r p _).trans (if_pos (by rw [hb, hears_sends hs, h]; rfl)))
  · refine act_same (f := healSend r p) ((healSend_eq r p _).trans (if_neg ?_))
    rw [hears_sends hs]
    rcases h with h | h
    · rw [h, Bool.and_false]
      exact Bool.false_ne_true
    · rw [h]
      exact Bool.false_ne_true
  · exact act_same (f := breakDetect r p) (breakDetect_stays (.inl h))
  · refine act_same (f := healSend r p) ((healSend_eq r p _).trans (if_neg ?_))
    rw [hears_silent h, Bool.and_false]
    exact Bool.false_ne_true
  · exact act_same (f := stopOsReceive l arg) (stopOsReceive_silent h)
  · exact act_same (f := breakOsReceive l arg) (receiveSet_silent h)
  · exact act_same (f := healOsReceive l arg) (receiveSet_silent h)
  · exact act_same (f := unknownOsReceive l code arg) (unknownOsReceive_silent h)
  · exact act_same (f := stopOsReceive (.ring r p) arg) (stopOsReceive_own (ho.symm.trans h))
  · exact act_same (f := breakOsReceive (.ring r p) arg) (receiveSet_own (l := .ring r p) (ho.symm.trans h))
  · exact act_same (f := healOsReceive (.ring r p) arg) (receiveSet_own (l := .ring r p) (ho.symm.trans h))
  · subst ho hx
    exact act_eq (f := stopOsReceive (.ring r p) arg) ((stopOsReceive_ring hh h).trans (by rw [if_pos hst]))
  · subst ho hx
    exact act_eq (f := stopOsReceive (.ring r p) arg) ((stopOsReceive_ring hh h).trans (by rw [if_neg (not_true hst)]))
  · subst ho
    exact act_eq (f := breakOsReceive (.ring r p) arg) (receiveSet_other hh h)
  · subst ho
    exact act_eq (f := healOsReceive (.ring r p) arg) (receiveSet_other hh h)
  · exact act_eq (f := unknownOsReceive (.ring r p) code arg) (unknownOsReceive_ring hh h)
  · exact act_same (f := stopOsReceive (.sys p) arg) (stopOsReceive_own h)
  · exact act_same (f := breakOsReceive (.sys p) arg) (receiveSet_own h)
  · exact act_same (f := healOsReceive (.sys p) arg) (receiveSet_own h)
  · exact act_eq (f := stopOsReceive (.sys p) arg) (receiveSet_other hh h)
  · exact act_eq (f := breakOsReceive (.sys p) arg) (receiveSet_other hh h)
  · exact act_eq (f := healOsReceive (.sys p) arg) (receiveSet_other hh h)
  · exact act_eq (f := unknownOsReceive (.sys p) code arg) (unknownOsReceive_sys hh h)
  · exact act_same (f := rangingComplete r) (rangingComplete_none h)
  · exact act_same (f := rangingComplete r) (rangingComplete_open h hq)
  · subst hx hy
    refine act_eq (f := rangingComplete r) ((rangingComplete_done h hp).trans ?_)
    unfold loopsShown rangedRing
    rw [hok]
    rfl
  · subst hx hy
    refine act_eq (f := rangingComplete r) ((rangingComplete_done h hp).trans ?_)
    unfold loopsShown rangedRing
    rw [hok]
    rfl
  · exact act_same (f := geoAct r) (geoAct_none h)
  · exact act_same (f := geoAct r) ((geoAct_some h).trans (if_neg (by omega)))
  · exact ⟨s.withDev (geoAct r s.dev), act_withDev s (geoAct r), rfl, geoAct_due h hd⟩
  · exact act_eq (f := resettleTimeout r) (resettleTimeout_over hr hn hg)
  · exact act_same (f := resettleTimeout r) (resettleTimeout_stays h)
  · exact act_eq (f := insertByGrant r) (insertByGrant_taken hg hi hs hd)
  · exact act_same (f := insertByGrant r) (insertByGrant_stays h)
  · exact act_eq (f := insertLower r) (if_pos ⟨hg, hi⟩)
  · refine act_same (f := insertLower r) (if_neg ?_)
    rintro ⟨hg, hi⟩
    rcases h with h | h
    · exact h hg
    · exact not_true h hi
  · subst ha
    exact act_eq (f := rejoin r sta.toNat) (rejoin_heard hc hs hm)
  · exact act_same (f := rejoin r sta.toNat) (rejoin_stays h)

end Sys2Proof.Machine
end

section
/-! PROOFS. Frames received on the rings and on the system link (R73, R84 to R97, R109, R110, R138, R147 to R152). -/
namespace Sys2Proof.Machine

/-! ## Copies -/

theorem receiveSync_copy {types : List Nat} {r : RingId} {f : RawFrame} {t : Nat} {use : Dev → Dev} {d : Dev} (ht : types.contains t = true)
    (h : d.getsFrame r f t) (hf : (d.passed r f).ringFollows r = true) :
    receiveSync types r f use d = acceptCopy r f use (d.passed r f) := by
  unfold receiveSync
  rw [receive_good types r f t _ d ht h]
  exact if_pos hf

theorem acceptCopy_outside {r : RingId} {f : RawFrame} {use : Dev → Dev} {x : Dev}
    (h : x.slotFor r (hdrOf f.sof).type (hdrOf f.sof).src f.port f.tag = none) :
    acceptCopy r f use x = copyOutside r (hdrOf f.sof).type (hdrOf f.sof).src x := by
  unfold acceptCopy
  dsimp only
  rw [h]

theorem acceptCopy_again {r : RingId} {f : RawFrame} {use : Dev → Dev} {x : Dev} {n : Nat}
    (h : x.slotFor r (hdrOf f.sof).type (hdrOf f.sof).src f.port f.tag = some n) (ha : n ∈ (x.rg r).accepted)
    (hm : (hdrOf f.sof).src ∉ (x.rg r).muted) : acceptCopy r f use x = x.incW (pgRing r) RING.CNTDUP := by
  unfold acceptCopy
  dsimp only
  rw [h]
  exact (if_neg fun hc => hm (List.contains_iff_mem.mp hc)).trans (if_pos (List.contains_iff_mem.mpr ha))

theorem acceptCopy_noted {r : RingId} {f : RawFrame} {n : Nat} {use : Dev → Dev} {d : Dev} (h : d.accepts r f n) :
    acceptCopy r f use (d.passed r f) = use (d.noted r f n) := by
  obtain ⟨-, hs, hm, ha⟩ := h
  unfold acceptCopy
  dsimp only
  rw [hs]
  exact (if_neg (not_true hm)).trans (if_neg (not_true ha))

theorem accepted_noted (r : RingId) (f : RawFrame) (n : Nat) (d : Dev) :
    ((d.noted r f n).rg r).accepted = n :: ((d.passed r f).rg r).accepted := by
  unfold Dev.noted
  rw [rg_mapRg]

theorem firstBeacon_used {r : RingId} {f : RawFrame} {use : Dev → Dev} {x y : Dev} (h : x.firstOf r f = some y) :
    firstBeacon r f use x = use y := by
  unfold Dev.firstOf at h
  unfold firstBeacon
  dsimp only
  cases hs : x.slotOf r (hdrOf f.sof).type (hdrOf f.sof).src with
  | none =>
    rw [hs] at h
    cases h
    rfl
  | some n =>
    rw [hs] at h
    dsimp only at h ⊢
    split at h
    next ha => exact nomatch h
    next ha =>
      cases h
      exact if_neg fun hc => ha (List.contains_iff_mem.mp hc)

theorem firstBeacon_again {r : RingId} {f : RawFrame} {use : Dev → Dev} {x : Dev} (h : x.firstOf r f = none) :
    firstBeacon r f use x = x.incW (pgRing r) RING.CNTDUP := by
  unfold Dev.firstOf at h
  unfold firstBeacon
  dsimp only
  cases hs : x.slotOf r (hdrOf f.sof).type (hdrOf f.sof).src with
  | none =>
    rw [hs] at h
    exact nomatch h
  | some n =>
    rw [hs] at h
    dsimp only at h ⊢
    split at h
    next ha => exact if_pos (List.contains_iff_mem.mpr ha)
    next ha => exact nomatch h

/-- The first copy of a beacon is a note of its slot alone. -/
theorem firstOf_notes {r : RingId} {f : RawFrame} {x y : Dev} (h : x.firstOf r f = some y) :
    y = x ∨ ∃ n, y = x.mapRg r fun g => { g with accepted := n :: g.accepted } := by
  unfold Dev.firstOf at h
  cases hs : x.slotOf r (hdrOf f.sof).type (hdrOf f.sof).src with
  | none =>
    rw [hs] at h
    cases h
    exact .inl rfl
  | some n =>
    rw [hs] at h
    dsimp only at h
    split at h
    next => exact nomatch h
    next =>
      cases h
      exact .inr ⟨n, rfl⟩

theorem firstOf_keeps {r : RingId} {f : RawFrame} {x y : Dev} (h : x.firstOf r f = some y) :
    y.rstate r = x.rstate r ∧ y.myst = x.myst ∧ (y.rg r).yields = (x.rg r).yields ∧ y.nominalDev r f = x.nominalDev r f := by
  rcases firstOf_notes h with rfl | ⟨n, rfl⟩
  · exact ⟨rfl, rfl, rfl, rfl⟩
  · refine ⟨rfl, rfl, by rw [rg_mapRg], ?_⟩
    unfold Dev.nominalDev Dev.nominal
    rw [rg_mapRg]
    rfl

theorem noteRole_keeps (r : RingId) (f : RawFrame) (x : Dev) :
    (noteRole r f x).rstate r = x.rstate r ∧ ((noteRole r f x).rg r).yields = (x.rg r).yields ∧
    (noteRole r f x).nominalDev r f = x.nominalDev r f := by
  unfold noteRole
  refine ⟨rfl, by rw [rg_mapRg], ?_⟩
  unfold Dev.nominalDev Dev.nominal
  rw [rg_mapRg]
  rfl

/-! ## AXIS, IO, COMMAND and MIRROR frames -/

theorem axisFrameReceive_node {r : RingId} {f : RawFrame} {n : Nat} {d : Dev} (h : d.getsFrame r f ftAXIS) (ha : d.accepts r f n)
    (hn : (d.noted r f n).axisNode r (hdrOf f.sof).src = true) (hm : (r.val, (hdrOf f.sof).src) ∉ (d.noted r f n).red.nodes) :
    axisFrameReceive r f d = readyByRecords (writeRecords r (hdrOf f.sof).src f
      { d.noted r f n with red := { (d.noted r f n).red with nodes := (r.val, (hdrOf f.sof).src) :: (d.noted r f n).red.nodes } }) := by
  unfold axisFrameReceive
  rw [receiveSync_accepts _ r f _ n _ d (by decide) h ha]
  dsimp only
  rw [if_pos]
  rw [hn, Bool.true_and, Bool.not_eq_true', ← Bool.not_eq_true, List.contains_iff_mem]
  exact hm

theorem axisFrameReceive_known {r : RingId} {f : RawFrame} {n : Nat} {d : Dev} (h : d.getsFrame r f ftAXIS) (ha : d.accepts r f n)
    (hn : (d.noted r f n).axisNode r (hdrOf f.sof).src = false ∨ (r.val, (hdrOf f.sof).src) ∈ (d.noted r f n).red.nodes) :
    axisFrameReceive r f d = readyByRecords (writeRecords r (hdrOf f.sof).src f (d.noted r f n)) := by
  unfold axisFrameReceive
  rw [receiveSync_accepts _ r f _ n _ d (by decide) h ha]
  dsimp only
  rw [if_neg]
  rw [Bool.and_eq_true, Bool.not_eq_true', ← Bool.not_eq_true, List.contains_iff_mem]
  rintro ⟨h1, h2⟩
  exact hn.elim (fun h => not_true h h1) h2

theorem ioFrameReceive_accepts {r : RingId} {f : RawFrame} {n : Nat} {d : Dev} (h : d.getsFrame r f ftIO) (ha : d.accepts r f n) :
    ioFrameReceive r f d = (d.noted r f n).setMemBytes (bankBase (3 - ((d.noted r f n).rd pgTIM TIM.PIXI_HOST +
      (d.noted r f n).rd pgTIM TIM.NEWEST)) + ((d.noted r f n).slot r n).piofs * 8) f.data := by
  unfold ioFrameReceive
  rw [receiveSync_accepts _ r f _ n _ d (by decide) h ha]
  dsimp only
  rw [accepted_noted]

theorem commandFrameReceive_accepts {r : RingId} {f : RawFrame} {n : Nat} {d : Dev} (h : d.getsFrame r f ftCOMMAND) (ha : d.accepts r f n) :
    commandFrameReceive r f d = if (hdrOf f.sof).src = 1 - (d.noted r f n).myst then
      { hearPeer none (d.noted r f n) with red := { (hearPeer none (d.noted r f n)).red with command := true, noCmdr := 0 } }
      else d.noted r f n := receiveSync_accepts _ r f _ n _ d (by decide) h ha

theorem mirrorFrameReceive_accepts {r : RingId} {f : RawFrame} {n : Nat} {d : Dev} (h : d.getsFrame r f ftMIRROR) (ha : d.accepts r f n) :
    mirrorFrameReceive r f d = if (hdrOf f.sof).src = 1 - (d.noted r f n).myst then takeMirror f (d.noted r f n) else d.noted r f n :=
  receiveSync_accepts _ r f _ n _ d (by decide) h ha

theorem asyncFrameReceive_accepts {r : RingId} {f : RawFrame} {n : Nat} {d x : Dev} (h : d.getsFrame r f ftASYNC) (ha : d.accepts r f n)
    (hx : x = d.noted r f n) : asyncFrameReceive r f d =
      if (fragOf f).ch = 0 then (if (hdrOf f.sof).src = 1 - x.myst then ringMgmt r (fragOf f) x else x)
      else if x.ownId (fragOf f).dst then mailFragment r f.tag (fragOf f) x
      else if (fragOf f).dst / 256 ≠ x.rd pgSYS SYS.SIDX ∧ x.commanding then sendRouted ((fragOf f).dst / 256) id f.data x
      else x := by
  subst hx
  exact receiveSync_accepts _ r f _ n _ d (by decide) h ha

/-! ## SYNC and COLDSTART frames -/

/-- What the first copy of a SYNC frame does on a ring that does not follow the time. -/
def hearSync (r : RingId) (f : RawFrame) (d : Dev) : Dev :=
  if d.rstate r = rsLISTEN then
    match d.nominalDev r f with
    | some v => integrate r v d
    | none => d
  else if d.rstate r = rsCOLDSTART ∧ !(d.rg r).yields then yieldTo r ((d.nominalDev r f).getD 0) d
  else d

theorem hearSync_listen {r : RingId} {f : RawFrame} {d : Dev} {v : Int} (h : d.rstate r = rsLISTEN) (hv : d.nominalDev r f = some v) :
    hearSync r f d = integrate r v d := by
  unfold hearSync
  rw [if_pos h, hv]

theorem hearSync_cold {r : RingId} {f : RawFrame} {d : Dev} {v : Int} (h : d.rstate r = rsCOLDSTART) (hy : (d.rg r).yields = false)
    (hv : d.nominalDev r f = some v) : hearSync r f d = yieldTo r v d := by
  unfold hearSync
  rw [if_neg (by rw [h]; decide), if_pos ⟨h, by rw [hy]; rfl⟩, hv]
  rfl

/-- A SYNC frame is of no reserved type: on a ring that follows the time a copy, and otherwise a beacon. -/
theorem syncFrameReceive_passed {r : RingId} {f : RawFrame} {d : Dev} (h : d.getsFrame r f ftSYNC) : syncFrameReceive r f d =
    if (d.passed r f).ringFollows r then acceptCopy r f (useSync r f) (d.passed r f)
    else if beaconFits r f (d.passed r f) then firstBeacon r f (fun d => hearSync r f (noteRole r f d)) (d.passed r f)
    else d.passed r f := by
  have htype : ¬ ((hdrOf f.sof).type = 0 ∨ 9 ≤ (hdrOf f.sof).type) := by
    obtain ⟨-, -, ht, -, -⟩ := h
    rw [ht]
    decide
  unfold syncFrameReceive
  dsimp only
  rw [if_neg htype, receive_good _ r f _ _ d (by decide) h]
  rfl

/-- What the first copy of a COLDSTART frame does to a ring in LISTEN. -/
def hearCold (r : RingId) (f : RawFrame) (d : Dev) : Dev :=
  match d.nominalDev r f with
  | some v => integrate r v d
  | none => d

theorem hearCold_some {r : RingId} {f : RawFrame} {d : Dev} {v : Int} (hv : d.nominalDev r f = some v) : hearCold r f d = integrate r v d := by
  unfold hearCold
  rw [hv]

theorem hearCold_none {r : RingId} {f : RawFrame} {d : Dev} (hv : d.nominalDev r f = none) : hearCold r f d = d := by
  unfold hearCold
  rw [hv]

/-- A COLDSTART frame by the state of the ring. -/
theorem coldstartFrameReceive_passed {r : RingId} {f : RawFrame} {d x : Dev} (h : d.getsFrame r f ftCOLDSTART) (hx : x = d.passed r f) :
    coldstartFrameReceive r f d = if !beaconFits r f x then x
      else if x.rstate r = rsLISTEN then firstBeacon r f (hearCold r f) x
      else if x.rstate r = rsCOLDSTART then firstBeacon r f (fun d =>
        if coldPriority d.myst f && !(d.rg r).yields then yieldTo r ((d.nominalDev r f).getD 0) d else d) x
      else if x.rstate r = rsINTEGRATE then acceptCopy r f (noteBeacon r f) x
      else if x.rstate r = rsSYNC ∧ field f 8 1 = 0 ∧ (hdrOf f.sof).src ≤ 1 ∧ (x.rg r).headless64 then
        firstBeacon r f (fun d => hearCold r f (leaveSync r 5 d)) x
      else x := by
  subst hx
  unfold coldstartFrameReceive
  rw [receive_good _ r f _ _ d (by decide) h]
  rfl

section
variable {r : RingId} {f : RawFrame} {d x y : Dev}

theorem coldstartFrameReceive_unfit (h : d.getsFrame r f ftCOLDSTART) (hx : x = d.passed r f) (hb : beaconFits r f x = false) :
    coldstartFrameReceive r f d = x := (coldstartFrameReceive_passed h hx).trans (if_pos (by rw [hb]; rfl))

theorem coldstartFrameReceive_listen (h : d.getsFrame r f ftCOLDSTART) (hx : x = d.passed r f) (hb : beaconFits r f x = true)
    (hs : x.rstate r = rsLISTEN) : coldstartFrameReceive r f d = firstBeacon r f (hearCold r f) x := by
  rw [coldstartFrameReceive_passed h hx, hb, if_neg (by decide), if_pos hs]

theorem coldstartFrameReceive_cold (h : d.getsFrame r f ftCOLDSTART) (hx : x = d.passed r f) (hb : beaconFits r f x = true)
    (hs : x.rstate r = rsCOLDSTART) : coldstartFrameReceive r f d = firstBeacon r f (fun d =>
      if coldPriority d.myst f && !(d.rg r).yields then yieldTo r ((d.nominalDev r f).getD 0) d else d) x := by
  rw [coldstartFrameReceive_passed h hx, hb, if_neg (by decide), if_neg (by rw [hs]; decide), if_pos hs]

theorem headless64_iff (g : RingDyn) : g.headless64 = true ↔ 64 ≤ g.headless ∧ g.roleNow ≠ some true := by
  unfold RingDyn.headless64
  rw [Bool.and_eq_true, decide_eq_true_eq, bne_iff_ne]

theorem coldstartFrameReceive_sync (h : d.getsFrame r f ftCOLDSTART) (hx : x = d.passed r f) (hb : beaconFits r f x = true)
    (hs : x.rstate r = rsSYNC) : coldstartFrameReceive r f d =
      if field f 8 1 = 0 ∧ (hdrOf f.sof).src ≤ 1 ∧ (x.rg r).headless64 then firstBeacon r f (fun d => hearCold r f (leaveSync r 5 d)) x
      else x := by
  rw [coldstartFrameReceive_passed h hx, hb, if_neg (by decide), if_neg (by rw [hs]; decide), if_neg (by rw [hs]; decide),
    if_neg (by rw [hs]; decide)]
  simp only [hs, true_and]

end

/-! ## Ranging replies -/

/-- A ranging reply in its window: collected once for each station, a request of the other head tagged. -/
theorem rangingReplyReceive_passed {r : RingId} {f : RawFrame} {d x : Dev} (h : d.getsFrame r f ftRANGING) (hx : x = d.passed r f)
    (hs : x.ringSync r = true) (hm : (hdrOf f.sof).src ∉ (x.rg r).muted) {n : Nat} (hn : x.rangingSlot r f = some n) :
    (n ∈ (x.rg r).accepted → rangingReplyReceive r f d = if field f 0 1 = 1 then x.incW (pgRing r) RING.CNTDUP
      else if (hdrOf f.sof).src = 1 - (x.incW (pgRing r) RING.CNTDUP).myst then tagRequest r f (x.incW (pgRing r) RING.CNTDUP)
      else x.incW (pgRing r) RING.CNTDUP) ∧
    (n ∉ (x.rg r).accepted → ∀ y, y = x.mapRg r (fun g => { (g.hearing (hdrOf f.sof).src) with accepted := n :: g.accepted }) →
      rangingReplyReceive r f d = if field f 0 1 = 1 then takeRanging r f y
        else if (hdrOf f.sof).src = 1 - y.myst then tagRequest r f y else y) := by
  subst hx
  have hopen : ¬ (!(d.passed r f).ringSync r || ((d.passed r f).rg r).muted.contains (hdrOf f.sof).src) = true := by
    rw [hs, Bool.not_true, Bool.false_or, List.contains_iff_mem]
    exact hm
  unfold rangingReplyReceive
  rw [receive_good _ r f _ _ d (by decide) h]
  dsimp only
  rw [if_neg hopen, hn]
  dsimp only
  refine ⟨fun ha => ?_, fun ha y hy => ?_⟩
  · rw [if_pos (List.contains_iff_mem.mpr ha), if_pos (List.contains_iff_mem.mpr ha)]
  · subst hy
    rw [if_neg (fun hc => ha (List.contains_iff_mem.mp hc)), if_neg (fun hc => ha (List.contains_iff_mem.mp hc))]

theorem rangingReplyReceive_dropped {r : RingId} {f : RawFrame} {d x : Dev} (h : d.getsFrame r f ftRANGING) (hx : x = d.passed r f)
    (hs : x.ringSync r = false ∨ (hdrOf f.sof).src ∈ (x.rg r).muted) : rangingReplyReceive r f d = x := by
  subst hx
  unfold rangingReplyReceive
  rw [receive_good _ r f _ _ d (by decide) h]
  refine if_pos ?_
  rcases hs with hs | hs
  · rw [hs]
    rfl
  · rw [List.contains_iff_mem.mpr hs, Bool.or_true]

theorem rangingReplyReceive_outside {r : RingId} {f : RawFrame} {d x : Dev} (h : d.getsFrame r f ftRANGING) (hx : x = d.passed r f)
    (hs : x.ringSync r = true) (hm : (hdrOf f.sof).src ∉ (x.rg r).muted) (hn : x.rangingSlot r f = none) :
    rangingReplyReceive r f d = copyOutside r ftRANGING (hdrOf f.sof).src x := by
  subst hx
  unfold rangingReplyReceive
  rw [receive_good _ r f _ _ d (by decide) h]
  dsimp only
  rw [if_neg, hn]
  rw [hs, Bool.not_true, Bool.false_or, List.contains_iff_mem]
  exact hm

theorem takeRanging_idle {r : RingId} {f : RawFrame} {y : Dev} (h : (y.rg r).ranging = none) : takeRanging r f y = y := by
  unfold takeRanging
  dsimp only
  rw [h]

theorem takeRanging_taken {r : RingId} {f : RawFrame} {y : Dev} {q : Ranging} (h : (y.rg r).ranging = some q)
    (hr : q.rid % 65536 = field f 2 2) (he : ∀ e ∈ q.replies, e.1 ≠ (hdrOf f.sof).src) : takeRanging r f y = y.mapRg r fun g =>
      { g with ranging := some { q with replies := q.replies ++ [((hdrOf f.sof).src, fieldI f 4 4, field f 8 2)] } } := by
  unfold takeRanging
  dsimp only
  rw [h]
  refine if_neg ?_
  rw [List.any_eq_true]
  rintro (h | ⟨e, hm, h⟩)
  · exact h hr
  · exact he e hm (beq_iff_eq.mp h)

theorem takeRanging_stays {r : RingId} {f : RawFrame} {y : Dev} {q : Ranging} (h : (y.rg r).ranging = some q)
    (hq : q.rid % 65536 ≠ field f 2 2 ∨ ∃ e ∈ q.replies, e.1 = (hdrOf f.sof).src) : takeRanging r f y = y := by
  unfold takeRanging
  dsimp only
  rw [h]
  refine if_pos ?_
  rw [List.any_eq_true]
  exact hq.imp id fun ⟨e, hm, he⟩ => ⟨e, hm, beq_iff_eq.mpr he⟩

/-! ## The system link -/

section
variable {p : Port} {f : RawFrame} {use : Hdr → Dev → Dev} {d : Dev}

theorem sysReceive_silent (h : d.hears (.sys p) = false) : sysReceive p f use d = d := if_pos (by rw [h]; rfl)

/-- A wrong header, and a wrong payload of another device, is counted. -/
theorem sysReceive_bad (hh : d.hears (.sys p) = true) (h : hcrcOk f.sof = false ∨
    ((hdrOf f.sof).src + 64 * (hdrOf f.sof).srcx ≠ d.deviceNo % 512 ∧ crc32c f.data ≠ f.crc.toNat)) :
    sysReceive p f use d = d.inc pgSYS SYS.CRCERR := by
  unfold sysReceive
  dsimp only
  rw [hh, if_neg (by decide)]
  rcases h with h | ⟨hs, hc⟩
  · exact if_pos (by rw [h]; rfl)
  · split
    · rfl
    · rw [beq_eq_false_iff_ne.mpr hs, Bool.false_and, if_neg Bool.false_ne_true]
      exact if_pos (bne_iff_ne.mpr hc)

theorem sysReceive_good (hh : d.hears (.sys p) = true) (hc : hcrcOk f.sof = true) (hp : payloadOk f = true)
    (hs : (hdrOf f.sof).src + 64 * (hdrOf f.sof).srcx ≠ d.deviceNo % 512) : sysReceive p f use d = use (hdrOf f.sof) (d.at f.tag) := by
  have hcrc : (crc32c f.data != f.crc.toNat) = false := by
    unfold payloadOk at hp
    rw [Bool.and_eq_true] at hp
    rw [bne_eq_false_iff_eq]
    exact beq_iff_eq.mp hp.2
  unfold sysReceive
  dsimp only
  rw [hh, hc, hp, hcrc, beq_eq_false_iff_ne.mpr hs]
  rfl

end

/-- By the route table: the first of the two ports that hears. -/
theorem sysRoute_up {idx : Nat} {here : Dev → Dev} {send : Port → Dev → Dev} {d : Dev} {prim : Nat} {q : Port}
    (hp : prim = d.rd pgSYS (SYS.PRIM.nth 4 idx)) (h0 : prim ≠ 0)
    (hq : ((routePort prim).filter fun q => d.hears (.sys q)) = some q) : sysRoute idx here send d = send q d := by
  subst hp
  unfold sysRoute
  dsimp only
  rw [if_neg h0, hq]

theorem sysRoute_alt {idx : Nat} {here : Dev → Dev} {send : Port → Dev → Dev} {d : Dev} {prim alt : Nat} {q : Port}
    (hp : prim = d.rd pgSYS (SYS.PRIM.nth 4 idx)) (ha : alt = d.rd pgSYS (SYS.ALT.nth 4 idx)) (h0 : prim ≠ 0)
    (hn : ((routePort prim).filter fun q => d.hears (.sys q)) = none)
    (hq : ((routePort alt).filter fun q => d.hears (.sys q)) = some q) : sysRoute idx here send d = send q d := by
  subst hp ha
  unfold sysRoute
  dsimp only
  rw [if_neg h0, hn, hq]

theorem sysRoute_down {idx : Nat} {here : Dev → Dev} {send : Port → Dev → Dev} {d : Dev} {prim alt : Nat}
    (hp : prim = d.rd pgSYS (SYS.PRIM.nth 4 idx)) (ha : alt = d.rd pgSYS (SYS.ALT.nth 4 idx)) (h0 : prim ≠ 0) (h1 : alt ≠ 0)
    (he : d.hears (.sys .e) = false) (hw : d.hears (.sys .w) = false) :
    sysRoute idx here send d = raise pgSYS 3 3 (d.inc pgSYS SYS.RTFAIL) := by
  have hnone : ∀ o : Option Port, (o.filter fun q => d.hears (.sys q)) = none := fun o => by
    rw [Option.filter_eq_none_iff]
    intro q _
    cases q with
    | e => exact not_true he
    | w => exact not_true hw
  subst hp ha
  unfold sysRoute
  dsimp only
  rw [if_neg h0, hnone, hnone]
  exact if_neg h1

/-- PDX_RECEIVE on a port that hears. -/
theorem pdxReceive_heard {p : Port} {m : PdxMsg} {d : Dev} (h : d.hears (.sys p) = true) : pdxReceive p m d =
    steerLimit (pairPdx p (d.mapSys p fun a => { a with
      hops := m.hops.toNat, lidx := m.lidx.toNat, age := 0, theirs := some (m.cyc.toNat, m.m.toInt) })) := if_neg (by rw [h]; decide)

theorem pairPdx_other {p : Port} {d : Dev} {c c' : Nat} {own them : Int} (hm : (d.sysPort p).m = some (c, own))
    (ht : (d.sysPort p).theirs = some (c', them)) (h : c % 2 ^ 32 ≠ c') : pairPdx p d = d := by
  unfold pairPdx
  dsimp only
  rw [hm, ht]
  exact if_neg h

/-- The note that the parent is far leaves what is known of the parent. -/
theorem parentFar_noted (v : Bool) (d : Dev) : (d.timeMap fun t => { t with far := v }).parentFar = d.parentFar := by
  have hp : (d.timeMap fun t => { t with far := v }).parent = d.parent := rfl
  unfold Dev.parentFar
  rw [hp]
  cases d.parent with
  | none => rfl
  | some p => cases p <;> rfl

theorem steerLimit_near {d : Dev} (h : d.parentFar = false) : steerLimit d = d.timeMap fun t => { t with far := false } := by
  unfold steerLimit
  dsimp only
  rw [parentFar_noted, h]
  rfl

/-- Far from its parent the link loses synchronisation. -/
theorem steerLimit_far {d : Dev} (h : d.parentFar = true) : (steerLimit d).on pgSYS SYS.SSYNC = false ∧ (steerLimit d).time.far = true := by
  have hoff : ∀ e : Dev, (e.wr pgSYS SYS.SSYNC 0).on pgSYS SYS.SSYNC = false := fun e => by
    unfold Dev.on
    rw [rd_wr_self _ _ _ _ (by decide)]
    rfl
  unfold steerLimit
  dsimp only
  rw [parentFar_noted, h, if_neg (by decide)]
  split
  · exact ⟨hoff _, by rw [wr_time]; rfl⟩
  · constructor
    · unfold Dev.on
      rw [rd_raise pgSYS 2 1 pgSYS SYS.SSYNC _ (by decide) (by decide) (by decide) (by decide) (by unfold eventPage; decide) (by decide)]
      exact hoff _
    · rw [(posted_raise pgSYS 2 1 _ (by decide) (by decide)).time, wr_time]
      rfl

theorem syncFrameReceive_either {r : RingId} {f : RawFrame} {d d' : Dev} {use : Dev → Dev}
    (h : receive [(hdrOf f.sof).type] r f (fun d => d.inc (pgRing r) RING.UNKT) d = d') (h' : receive [ftSYNC] r f use d = d') :
    (if (hdrOf f.sof).type = 0 ∨ 9 ≤ (hdrOf f.sof).type then receive [(hdrOf f.sof).type] r f (fun d => d.inc (pgRing r) RING.UNKT) d
      else receive [ftSYNC] r f use d) = d' := by
  split
  · exact h
  · exact h'

theorem myst_incW (r : RingId) (d : Dev) : (d.incW (pgRing r) RING.CNTDUP).myst = d.myst :=
  rd_wr_off d _ RING.CNTDUP _ _ SYS.HEAD (by decide)

/-- What a good frame of another device does on the system link: a SYNC frame, and an ASYNC frame. -/
def sysSyncUse (p : Port) (f : RawFrame) (h : Hdr) (d : Dev) : Dev :=
  if h.type ≠ ftSYNC then d
  else
    let m : Int := (f.tag : Int) - beaconTime f
    let d := d.mapSys p fun s => { s with m := some (beaconTime f / d.period, m), nid := some (field f 12 2) }
    let d := if field f 8 1 % 8 = rsSYNC then d.timeMap fun t => { t with sysOff := some ((t.hop : Int) - m) } else d
    let d := steerLimit (pairPdx p d)
    if (d.sysPort p).pdxDue then sendPdx p d else d

def sysAsyncUse (f : RawFrame) (h : Hdr) (d : Dev) : Dev :=
  if h.type ≠ ftASYNC then d
  else if (fragOf f).dst = 0xFFFF ∨ (fragOf f).dst / 256 = d.rd pgSYS SYS.SIDX then sysLocal f d
  else sysRoute ((fragOf f).dst / 256) (sysLocal f) (fun q d => d.transmit (.frame (.sys q) f.sof f.data f.crc)) d

theorem sysSyncUse_sync {p : Port} {f : RawFrame} {x y z w : Dev} {h : Hdr} (ht : h.type = ftSYNC)
    (hy : y = x.mapSys p fun a => { a with m := some (beaconTime f / x.period, (f.tag : Int) - beaconTime f), nid := some (field f 12 2) })
    (hz : z = if field f 8 1 % 8 = rsSYNC then
      y.timeMap (fun a => { a with sysOff := some ((a.hop : Int) - ((f.tag : Int) - beaconTime f)) }) else y)
    (hw : w = steerLimit (pairPdx p z)) : sysSyncUse p f h x = if (w.sysPort p).pdxDue then sendPdx p w else w := by
  subst hw hz hy
  exact if_neg (not_not_intro ht)

/-- Settles O56. -/
theorem framesReceived : Obligations.FramesReceived := by
  refine ⟨fun s r f h => ?_, fun s p f m h => ?_, fun s r f bad hh hc hb => ?_, fun s p f hh h => ?_,
    fun s r f n x y hx ha => ⟨fun h => ⟨fun hn hm hy => ?_, fun hn => ?_⟩, fun h => ?_, fun h => ?_, fun h => ⟨fun hp hy => ?_, fun hp => ?_⟩,
      fun h => ⟨fun hp => ?_, fun hp => ?_⟩, fun h => ?_⟩,
    fun s r f x hx hf => ⟨fun hn => ⟨fun h => ?_, fun h => ?_⟩, fun n hn ha hm => ⟨fun h => ?_, fun h => ?_⟩⟩,
    fun s r f x y hx hy hf h => ⟨fun hb => ?_, fun v hb hs hv => ?_, fun v hb hs hyl hv => ?_⟩,
    fun s r f x hx hn hb => ⟨fun h hf => ?_, fun h hs => ?_⟩,
    fun s r f x hx h => ⟨fun hd => ?_, fun hs hm => ⟨fun hn => ?_, fun n hn ha hk => ?_, fun n y hn ha hy => ⟨fun hk => ⟨fun hr => ?_, fun q hq => ⟨fun h1 h2 => ?_, fun h1 => ?_⟩⟩,
      fun hk hp => ?_, fun hk hp => ?_⟩, fun n hn ha hk hp => ?_⟩⟩,
    fun s r f x hx h => ⟨fun hb => ?_, fun y hb hy => ⟨fun hs hv => ?_, fun v hs hv => ?_, fun v hs h0 hl hyl hv => ?_, fun hs h1 => ?_, fun v hs h0 hl hh hr hv => ?_⟩,
      fun hb hs hh => ?_⟩,
    fun s p f x y z w hh hc hp hs hx hy hz hw => ?_, fun idx prim alt here send d hp ha => ?_, fun s p m h => ?_,
    fun d p c c' own them hm ht => ⟨fun h => pairPdx_other hm ht h, fun h => ?_⟩, fun d => ⟨steerLimit_far, steerLimit_near⟩⟩
  · exact ⟨act_same (f := axisFrameReceive r f) (receive_deaf _ r f _ _ h), act_same (f := ioFrameReceive r f) (receive_deaf _ r f _ _ h),
      act_same (f := syncFrameReceive r f) (syncFrameReceive_either (receive_deaf _ r f _ _ h) (receive_deaf _ r f _ _ h)),
      act_same (f := commandFrameReceive r f) (receive_deaf _ r f _ _ h), act_same (f := coldstartFrameReceive r f) (receive_deaf _ r f _ _ h),
      act_same (f := mirrorFrameReceive r f) (receive_deaf _ r f _ _ h), act_same (f := asyncFrameReceive r f) (receive_deaf _ r f _ _ h),
      act_same (f := rangingReplyReceive r f) (receive_deaf _ r f _ _ h)⟩
  · exact ⟨act_same (f := sysSyncFrameReceive p f) (sysReceive_silent h), act_same (f := sysAsyncFrameReceive p f) (sysReceive_silent h),
      act_same (f := pdxReceive p m) (if_pos (by rw [h]; rfl))⟩
  · have hr : ∀ types use, receive types r f use s.dev = bad := fun types use => (receive_badHeader types r f use s.dev hh hc).trans hb.symm
    exact ⟨act_eq (f := axisFrameReceive r f) (hr _ _), act_eq (f := ioFrameReceive r f) (hr _ _),
      act_eq (f := syncFrameReceive r f) (syncFrameReceive_either (hr _ _) (hr _ _)),
      act_eq (f := commandFrameReceive r f) (hr _ _), act_eq (f := coldstartFrameReceive r f) (hr _ _),
      act_eq (f := mirrorFrameReceive r f) (hr _ _), act_eq (f := asyncFrameReceive r f) (hr _ _),
      act_eq (f := rangingReplyReceive r f) (hr _ _)⟩
  · exact ⟨act_eq (f := sysSyncFrameReceive p f) (sysReceive_bad hh h), act_eq (f := sysAsyncFrameReceive p f) (sysReceive_bad hh h)⟩
  · subst hx hy
    exact act_eq (f := axisFrameReceive r f) (axisFrameReceive_node h ha hn hm)
  · subst hx
    exact act_eq (f := axisFrameReceive r f) (axisFrameReceive_known h ha hn)
  · subst hx
    exact act_eq (f := ioFrameReceive r f) (ioFrameReceive_accepts h ha)
  · subst hx
    refine act_eq (f := syncFrameReceive r f) ((syncFrameReceive_passed h).trans ?_)
    rw [if_pos ha.1, acceptCopy_noted ha]
  · subst hx hy
    exact act_eq (f := commandFrameReceive r f) ((commandFrameReceive_accepts h ha).trans (if_pos hp))
  · subst hx
    exact act_eq (f := commandFrameReceive r f) ((commandFrameReceive_accepts h ha).trans (if_neg hp))
  · subst hx
    exact act_eq (f := mirrorFrameReceive r f) ((mirrorFrameReceive_accepts h ha).trans (if_pos hp))
  · subst hx
    exact act_eq (f := mirrorFrameReceive r f) ((mirrorFrameReceive_accepts h ha).trans (if_neg hp))
  · have hr := asyncFrameReceive_accepts h ha hx
    refine ⟨fun h0 hp => ?_, fun h0 hp => ?_, fun h0 ho => ?_, fun h0 ho hi hc => ?_, fun h0 ho hi => ?_⟩
    · exact act_eq (f := asyncFrameReceive r f) (by rw [hr, if_pos h0, if_pos hp])
    · exact act_eq (f := asyncFrameReceive r f) (by rw [hr, if_pos h0, if_neg hp])
    · exact act_eq (f := asyncFrameReceive r f) (by rw [hr, if_neg h0, if_pos ho])
    · exact act_eq (f := asyncFrameReceive r f) (by rw [hr, if_neg h0, if_neg (not_true ho), if_pos ⟨hi, hc⟩])
    · refine act_eq (f := asyncFrameReceive r f) (hr.trans ?_)
      rw [if_neg h0, if_neg (not_true ho), if_neg]
      rintro ⟨h1, h2⟩
      exact hi.elim h1 fun h => not_true h h2
  · subst hx
    obtain ⟨-, -, ht, -, -⟩ := id h
    exact act_eq (f := axisFrameReceive r f) ((receiveSync_copy (by decide) h hf).trans (by rw [acceptCopy_outside hn, ht]))
  · subst hx
    obtain ⟨-, -, ht, -, -⟩ := id h
    exact act_eq (f := syncFrameReceive r f) ((syncFrameReceive_passed h).trans (by rw [if_pos hf, acceptCopy_outside hn, ht]))
  · subst hx
    exact act_eq (f := axisFrameReceive r f) ((receiveSync_copy (by decide) h hf).trans (acceptCopy_again hn ha hm))
  · subst hx
    exact act_eq (f := syncFrameReceive r f) ((syncFrameReceive_passed h).trans (by rw [if_pos hf, acceptCopy_again hn ha hm]))
  · subst hx
    exact act_eq (f := syncFrameReceive r f) ((syncFrameReceive_passed h).trans (by rw [if_neg (not_true hf), if_neg (not_true hb)]))
  · subst hx
    obtain ⟨hs1, -, hy1, hv1⟩ := firstOf_keeps hy
    obtain ⟨hs2, hy2, hv2⟩ := noteRole_keeps r f y
    refine act_eq (f := syncFrameReceive r f) ((syncFrameReceive_passed h).trans ?_)
    rw [if_neg (not_true hf), if_pos hb, firstBeacon_used hy]
    exact hearSync_listen (hs2.trans (hs1.trans hs)) (hv2.trans (hv1.trans hv))
  · subst hx
    obtain ⟨hs1, -, hy1, hv1⟩ := firstOf_keeps hy
    obtain ⟨hs2, hy2, hv2⟩ := noteRole_keeps r f y
    refine act_eq (f := syncFrameReceive r f) ((syncFrameReceive_passed h).trans ?_)
    rw [if_neg (not_true hf), if_pos hb, firstBeacon_used hy]
    exact hearSync_cold (hs2.trans (hs1.trans hs)) (hy2.trans (hy1.trans hyl)) (hv2.trans (hv1.trans hv))
  · subst hx
    exact act_eq (f := syncFrameReceive r f) ((syncFrameReceive_passed h).trans
      (by rw [if_neg (not_true hf), if_pos hb, firstBeacon_again hn]))
  · refine act_eq (f := coldstartFrameReceive r f) ?_
    rcases hs with hs | hs
    · rw [coldstartFrameReceive_listen h hx hb hs, firstBeacon_again hn]
    · rw [coldstartFrameReceive_cold h hx hb hs, firstBeacon_again hn]
  · exact act_eq (f := rangingReplyReceive r f) (rangingReplyReceive_dropped h hx hd)
  · exact act_eq (f := rangingReplyReceive r f) (rangingReplyReceive_outside h hx hs hm hn)
  · exact act_eq (f := rangingReplyReceive r f) (((rangingReplyReceive_passed h hx hs hm hn).1 ha).trans (if_pos hk))
  · refine act_eq (f := rangingReplyReceive r f) (((rangingReplyReceive_passed h hx hs hm hn).2 ha y hy).trans ?_)
    rw [if_pos hk]
    exact takeRanging_idle (by rw [hy, rg_mapRg]; exact hr)
  · refine act_eq (f := rangingReplyReceive r f) (((rangingReplyReceive_passed h hx hs hm hn).2 ha y hy).trans ?_)
    rw [if_pos hk]
    exact takeRanging_taken (by rw [hy, rg_mapRg]; exact hq) h1 h2
  · refine act_eq (f := rangingReplyReceive r f) (((rangingReplyReceive_passed h hx hs hm hn).2 ha y hy).trans ?_)
    rw [if_pos hk]
    exact takeRanging_stays (by rw [hy, rg_mapRg]; exact hq) h1
  · refine act_eq (f := rangingReplyReceive r f) (((rangingReplyReceive_passed h hx hs hm hn).2 ha y hy).trans ?_)
    rw [if_neg hk, if_pos]
    rw [hy]
    exact hp
  · refine act_eq (f := rangingReplyReceive r f) (((rangingReplyReceive_passed h hx hs hm hn).2 ha y hy).trans ?_)
    rw [if_neg hk, if_neg]
    rw [hy]
    exact hp
  · refine act_eq (f := rangingReplyReceive r f) (((rangingReplyReceive_passed h hx hs hm hn).1 ha).trans ?_)
    rw [if_neg hk, if_pos]
    rw [myst_incW]
    exact hp
  · exact act_eq (f := coldstartFrameReceive r f) (coldstartFrameReceive_unfit h hx hb)
  · obtain ⟨-, -, -, hv1⟩ := firstOf_keeps hy
    exact act_eq (f := coldstartFrameReceive r f) (by
      rw [coldstartFrameReceive_listen h hx hb hs, firstBeacon_used hy, hearCold_none (hv1.trans hv)])
  · obtain ⟨-, -, -, hv1⟩ := firstOf_keeps hy
    exact act_eq (f := coldstartFrameReceive r f) (by
      rw [coldstartFrameReceive_listen h hx hb hs, firstBeacon_used hy, hearCold_some (hv1.trans hv)])
  · obtain ⟨-, hm1, hy1, hv1⟩ := firstOf_keeps hy
    refine act_eq (f := coldstartFrameReceive r f) ?_
    rw [coldstartFrameReceive_cold h hx hb hs, firstBeacon_used hy]
    rw [hm1, hy1, hv1, hyl, hv, if_pos]
    · rfl
    · unfold coldPriority
      rw [h0, decide_eq_true hl]
      rfl
  · obtain ⟨-, hm1, hy1, -⟩ := firstOf_keeps hy
    refine act_eq (f := coldstartFrameReceive r f) ?_
    rw [coldstartFrameReceive_cold h hx hb hs, firstBeacon_used hy]
    refine if_neg ?_
    unfold coldPriority
    rw [hm1, hy1, Bool.and_eq_true, Bool.and_eq_true, beq_iff_eq, decide_eq_true_eq, Bool.not_eq_true']
    rintro ⟨⟨h0, hl⟩, hyl⟩
    rcases h1 with h1 | h1 | h1
    · exact h1 h0
    · omega
    · exact not_true hyl h1
  · refine act_eq (f := coldstartFrameReceive r f) ?_
    rw [coldstartFrameReceive_sync h hx hb hs, if_pos ⟨h0, hl, (headless64_iff _).mpr ⟨hh, hr⟩⟩, firstBeacon_used hy]
    exact hearCold_some hv
  · refine act_eq (f := coldstartFrameReceive r f) ?_
    rw [coldstartFrameReceive_sync h hx hb hs, if_neg]
    rintro ⟨-, -, h1⟩
    obtain ⟨h2, h3⟩ := (headless64_iff _).mp h1
    rcases hh with hh | hh
    · omega
    · exact h3 hh
  · have hsync := sysReceive_good (use := sysSyncUse p f) hh hc hp hs
    have hasync := sysReceive_good (use := sysAsyncUse f) hh hc hp hs
    rw [← hx] at hsync hasync
    refine ⟨fun ht hd => act_eq (f := sysSyncFrameReceive p f) (hsync.trans ?_), fun ht hd => act_eq (f := sysSyncFrameReceive p f) (hsync.trans ?_),
      fun ht => act_eq (f := sysSyncFrameReceive p f) (hsync.trans (if_pos ht)), fun ht hd => ⟨fun ho hch => ?_, fun ho => ?_⟩, fun ht h1 h2 => ?_⟩
    · rw [sysSyncUse_sync ht hy hz hw, if_neg (not_true hd)]
    · rw [sysSyncUse_sync ht hy hz hw, if_pos hd]
    · refine act_eq (f := sysAsyncFrameReceive p f) (hasync.trans ?_)
      unfold sysAsyncUse
      rw [if_neg (not_not_intro ht), if_pos hd]
      unfold sysLocal
      rw [if_pos ho, if_neg hch]
    · refine act_eq (f := sysAsyncFrameReceive p f) (hasync.trans ?_)
      unfold sysAsyncUse
      rw [if_neg (not_not_intro ht), if_pos hd]
      exact if_neg (not_true ho)
    · refine act_eq (f := sysAsyncFrameReceive p f) (hasync.trans ?_)
      unfold sysAsyncUse
      rw [if_neg (not_not_intro ht), if_neg (by rintro (h | h) <;> contradiction)]
  · refine ⟨fun h => ?_, fun h he => ?_, fun h hw => ?_, fun h h2 he hw => ?_, fun h h2 hw he => ?_, fun h h0 he hw => ?_⟩
    · exact if_pos (hp.symm.trans h)
    · exact sysRoute_up hp (by omega) (by rw [h]; exact Option.filter_some_pos he)
    · exact sysRoute_up hp (by omega) (by rw [h]; exact Option.filter_some_pos hw)
    · exact sysRoute_alt hp ha (by omega) (by rw [h]; exact Option.filter_some_neg he) (by rw [h2]; exact Option.filter_some_pos hw)
    · exact sysRoute_alt hp ha (by omega) (by rw [h]; exact Option.filter_some_neg hw) (by rw [h2]; exact Option.filter_some_pos he)
    · exact sysRoute_down hp ha (by omega) h0 he hw
  · exact act_eq (f := pdxReceive p m) (pdxReceive_heard h)
  · refine ⟨_, rfl, ?_⟩
    unfold pairPdx
    dsimp only
    rw [hm, ht]
    exact if_pos h

end Sys2Proof.Machine
end

section
/-! PROOFS. Axis tasks, the scheduler, faults of pairs and memory, repairs, replays and the phases of resynchronisation
(R13, R250, R331 to R380, R507 to R523). -/
namespace Sys2Proof.Machine

/-! ## Season tables (R250) -/

/-- A RESET or COPY that has done its work on memory completes. -/
def seaEnded (n : Fin 256) (x : Dev) : Dev :=
  seaEvent n 3 ((x.mapSea n fun a => { a with ends := none, source := none }).wrS pgSEA n SEA.STAT_BUSY 0)

theorem seaDone_idle {n : Fin 256} {d : Dev} (h : (d.sea n).ends = none) : seaDone n d = d := by
  unfold seaDone
  dsimp only
  rw [h]

theorem seaDone_early {n : Fin 256} {d : Dev} {c : Nat} (h : (d.sea n).ends = some c) (hc : d.cyc < c) : seaDone n d = d := by
  unfold seaDone
  dsimp only
  rw [h]
  exact if_pos hc

theorem seaDone_reset {n : Fin 256} {d : Dev} {c : Nat} (h : (d.sea n).ends = some c) (hc : c ≤ d.cyc) (hs : (d.sea n).source = none) :
    seaDone n d = seaEnded n (d.clearMem (seaAddr n 0) (seaAddr n 0 + 4 * d.seaN n)) := by
  unfold seaDone
  dsimp only
  rw [h]
  dsimp only
  rw [if_neg (by omega), hs]
  rfl

/-- The entries of a source are copied, its sum with them. -/
def seaCopied (n : Fin 256) (src size : Nat) (y : Dev) : Dev :=
  ((y.copyMem (seaAddr src 0) (seaAddr n 0) size).wrS pgSEA n SEA.TSUM
    ((y.copyMem (seaAddr src 0) (seaAddr n 0) size).rdS pgSEA src SEA.TSUM)).wrS pgSEA src SEA.STAT_BUSY 0

theorem seaDone_copy {n : Fin 256} {d : Dev} {c src : Nat} (h : (d.sea n).ends = some c) (hc : c ≤ d.cyc)
    (hs : (d.sea n).source = some src)
    (hb : d.bad.find? (fun b => decide (seaAddr src 0 ≤ b) && decide (b < seaAddr src 0 + 4 * d.seaN n)) = none) :
    seaDone n d = seaEnded n (seaCopied n src (4 * d.seaN n) d) := by
  unfold seaDone
  dsimp only
  rw [h]
  dsimp only
  rw [if_neg (by omega), hs]
  dsimp only
  rw [hb]
  rfl

theorem seaDone_failed {n : Fin 256} {d : Dev} {c src b : Nat} (h : (d.sea n).ends = some c) (hc : c ≤ d.cyc)
    (hs : (d.sea n).source = some src)
    (hb : d.bad.find? (fun b => decide (seaAddr src 0 ≤ b) && decide (b < seaAddr src 0 + 4 * d.seaN n)) = some b) :
    seaDone n d = seaEnded n (seaCopied n src (4 * d.seaN n) (seaFail (axisNo src) ((b - seaAddr src 0) / 4) d)) := by
  unfold seaDone
  dsimp only
  rw [h]
  dsimp only
  rw [if_neg (by omega), hs]
  dsimp only
  rw [hb]
  rfl

/-! ## The scheduler -/

theorem firstReady_none {s : Tsu} {task : Nat} (h : ∀ i ∈ s.insts, i.task = task → i.state ≠ .ready) : s.firstReady task = none := by
  have hnil : (s.insts.filter fun i => i.task == task && i.state == .ready) = [] := by
    rw [List.filter_eq_nil_iff]
    intro i hi
    rw [Bool.and_eq_true, beq_iff_eq, beq_iff_eq]
    rintro ⟨ht, hr⟩
    exact h i hi ht hr
  unfold Tsu.firstReady
  rw [hnil]
  rfl

theorem taskDispatch_idle {task t : Nat} {d : Dev} (h : (d.at t).tsu.firstReady task = none) : taskDispatch task t d = d.at t := by
  unfold taskDispatch
  dsimp only
  rw [h]

theorem taskDispatch_stays {task t : Nat} {d : Dev} {i : Inst} (hi : (d.at t).tsu.firstReady task = some i)
    (h : d.tasksRun = false ∨ (d.at t).place task = none) : taskDispatch task t d = d.at t := by
  unfold taskDispatch
  dsimp only
  rw [hi]
  dsimp only
  by_cases hr : d.tasksRun = true
  · rw [if_neg, h.resolve_left fun hf => not_true hf hr]
    rw [Bool.not_eq_true', Bool.not_eq_false]
    exact hr
  · refine if_pos ?_
    rw [Bool.not_eq_true', ← Bool.not_eq_true]
    exact hr

theorem taskDispatch_placed {task t : Nat} {d : Dev} {i : Inst} {p : Fin 18} (hi : (d.at t).tsu.firstReady task = some i)
    (hr : d.tasksRun = true) (hp : (d.at t).place task = some p) :
    taskDispatch task t d = if (d.at t).nextOn p i then startInst i p (preempt p (d.at t)) else d.at t := by
  unfold taskDispatch
  dsimp only
  rw [hi]
  dsimp only
  rw [if_neg, hp]
  rw [Bool.not_eq_true', Bool.not_eq_false]
  exact hr

/-- The device with a preempted task back on its pair, before its entry among the tasks is marked. -/
def resumedOn (p : Fin 18) (task : Nat) (i : Inst) (c : Context) (d : Dev) : Dev :=
  setRunning p (.task task i.seq) (({ d with tsu := { d.tsu with
    ctx := d.tsu.ctx.filter fun x => !(x.task == task && x.seq == i.seq) } } : Dev).setPair p { d.pair p with eng := c.eng })

theorem taskResume_free {task : Nat} {d : Dev} {i : Inst} {p : Fin 18} {c : Context}
    (hi : d.tsu.insts.find? (fun i => i.task == task && i.state == .preempted) = some i) (hp : i.pair = some p.val)
    (hc : d.tsu.ctx.find? (fun c => c.task == task && c.seq == i.seq) = some c) (hs : d.pstate p = 1)
    (hr : (d.pair p).running = .nothing) (hf : d.freeForTasks p = true) (hn : d.nextOn p i = true) :
    taskResume task d = (resumedOn p task i c d).mapInst task i.seq fun i => { i with state := .running } := by
  unfold taskResume
  rw [hi]
  dsimp only
  rw [hp, hc]
  dsimp only
  rw [dif_pos p.isLt]
  exact if_pos ⟨hs, hr, hf, hn⟩

theorem pair_setPair (p : Fin 18) (x : Pair) (d : Dev) : (d.setPair p x).pair p = x := Vector.getElem_set_self p.isLt

theorem pairs_showTask (p : Nat) (r : Running) (d : Dev) : (showTask p r d).pairs = d.pairs := by
  unfold showTask
  cases r with
  | nothing => dsimp only; rw [wr_pairs, wr_pairs]
  | task t s => dsimp only; rw [wr_pairs, wr_pairs, wr_pairs, wr_pairs]

theorem pstate_showTask (p q : Nat) (r : Running) (d : Dev) : (showTask p r d).pstate q = d.pstate q := by
  have hoff : ∀ (e : Dev) (f : Fld) (v : Nat), f.off = 0x44 → (e.wr (pgCep p) f v).pstate q = e.pstate q := fun e f v hf =>
    rd_wr_key e _ f v _ CEP.PSTATE (by unfold regKey CEP.PSTATE pgCep; dsimp only; omega)
  unfold showTask
  cases r with
  | nothing => dsimp only; rw [hoff _ _ _ rfl, hoff _ _ _ rfl]
  | task t s => dsimp only; rw [hoff _ _ _ rfl, hoff _ _ _ rfl, hoff _ _ _ rfl, hoff _ _ _ rfl]

/-- A pair in service that runs a task is in RUN. -/
theorem setRunning_task {p : Fin 18} {t s : Nat} {d : Dev} (h : d.pstate p = 1) :
    (setRunning p (.task t s) d).pstate p = 2 ∧ (setRunning p (.task t s) d).pair p = { d.pair p with running := .task t s } := by
  have hst : (showTask p (.task t s) (d.setPair p { d.pair p with running := .task t s })).pstate p = 1 := (pstate_showTask _ _ _ _).trans h
  have hhealthy : (showTask p (.task t s) (d.setPair p { d.pair p with running := .task t s })).healthy p = true := by
    unfold Dev.healthy
    rw [hst]
    rfl
  unfold setRunning
  dsimp only
  rw [if_pos hhealthy, if_neg Running.noConfusion]
  refine ⟨rd_wr_self _ _ CEP.PSTATE _ (by decide), ?_⟩
  unfold Dev.pair
  rw [wr_pairs, pairs_showTask]
  exact pair_setPair p _ d

theorem resumedOn_shows {p : Fin 18} {task : Nat} {i : Inst} {c : Context} {d : Dev} (hs : d.pstate p = 1) :
    (resumedOn p task i c d).pstate p = 2 ∧
    (resumedOn p task i c d).pair p = { d.pair p with running := .task task i.seq, eng := c.eng } := by
  obtain ⟨h1, h2⟩ := setRunning_task (p := p) (t := task) (s := i.seq) (d := ({ d with tsu := { d.tsu with
    ctx := d.tsu.ctx.filter fun x => !(x.task == task && x.seq == i.seq) } } : Dev).setPair p { d.pair p with eng := c.eng }) hs
  refine ⟨h1, h2.trans ?_⟩
  rw [pair_setPair]

theorem mapInst_leaves (task seq : Nat) (f : Inst → Inst) (d : Dev) (p : Fin 18) :
    (d.mapInst task seq f).pstate p = d.pstate p ∧ (d.mapInst task seq f).pair p = d.pair p := by
  unfold Dev.mapInst Dev.showTask
  dsimp only
  constructor
  · unfold Dev.pstate Dev.rd Dev.rdS
    rw [reg_wrS_key]
    · rfl
    · have := p.isLt
      unfold regKey pgTSU pgCep TSU.TSTATE CEP.PSTATE
      dsimp only
      omega
  · unfold Dev.pair
    rw [wrS_pairs]

theorem dueBy_eq_nil {s : Tsu} {task k : Nat} (h : ∀ x ∈ s.due, x.task = task → k < x.cycle) : s.dueBy task k = [] := by
  unfold Tsu.dueBy
  rw [List.filter_eq_nil_iff]
  intro x hx
  rw [Bool.and_eq_true, beq_iff_eq, decide_eq_true_eq]
  rintro ⟨ht, hk⟩
  have := h x hx ht
  omega

theorem dueBy_ne_nil {s : Tsu} {task k : Nat} (h : ∃ x ∈ s.due, x.task = task ∧ x.cycle ≤ k) : s.dueBy task k ≠ [] := by
  obtain ⟨x, hx, ht, hk⟩ := h
  intro hn
  have := (List.filter_eq_nil_iff.mp hn) x hx
  rw [Bool.and_eq_true, beq_iff_eq, decide_eq_true_eq] at this
  exact this ⟨ht, hk⟩

theorem tsuWriteAdopt_adopts {task k : Nat} {d : Dev} (hk : k = d.rd64 pgTIM 0 TIM.CYCLO.off) (h : d.tsu.dueBy task k ≠ [])
    (hi : d.tsu.idle task = true) : tsuWriteAdopt task d = flagTask raise task false false false (adoptDue task k d) := by
  subst hk
  refine if_neg ?_
  rintro (hn | hn)
  · exact h hn
  · rw [hi] at hn
    exact Bool.false_ne_true hn

theorem mem_due_adoptDue (task k : Nat) (d : Dev) (x : TaskDue) :
    x ∈ (adoptDue task k d).tsu.due ↔ x ∈ d.tsu.due ∧ (x.task = task → k < x.cycle) := by
  unfold adoptDue
  dsimp only
  rw [List.mem_filter, Bool.not_eq_true', Bool.and_eq_false_iff, beq_eq_false_iff_ne, decide_eq_false_iff_not, Nat.not_le,
    imp_iff_not_or]

/-- The adopted configuration of a task is its former one with what was due. -/
theorem cfg_adoptDue (task k : Nat) (d : Dev) : (adoptDue task k d).tsu.cfg.find? (fun c => c.1 == task) =
    some (task, (d.tsu.dueBy task k).foldl (fun c w => c.put w) (d.tsu.cfgOf task)) := by
  have hnone : (d.tsu.cfg.filter fun x => x.1 != task).find? (fun c => c.1 == task) = none := by
    rw [List.find?_eq_none]
    intro x hx
    have := (List.mem_filter.mp hx).2
    rw [bne_iff_ne] at this
    rw [beq_iff_eq]
    exact this
  unfold adoptDue
  dsimp only
  rw [List.find?_append, hnone, Option.none_or]
  exact List.find?_cons_of_pos (beq_self_eq_true task)

/-! ## Faults of pairs (R345, R372) -/

/-- What a fault leaves of a pair and of the scheduler, before the device is judged. -/
def pairLost (p : Fin 18) (cause trap : Nat) (d : Dev) : Dev :=
  takePairs (tsuPairFault p (raise (pgCep p) 0 p ((showTask p .nothing
    ((recordFault p cause trap d).setPair p { (recordFault p cause trap d).pair p with running := .nothing, wasRun := false })).wr
      (pgCep p) CEP.PSTATE 4)))

theorem stopPair_out {p : Fin 18} {cause trap : Nat} {d : Dev} (h : d.pstate p = 0 ∨ d.pstate p = 4) : stopPair p cause trap d = d := if_pos h

theorem stopPair_eq {p : Fin 18} {cause trap : Nat} {d : Dev} (h0 : d.pstate p ≠ 0) (h4 : d.pstate p ≠ 4) : stopPair p cause trap d =
    if d.tsu.work.contains p.val then noPairLeft (pairLost p cause trap d) else pairLost p cause trap d :=
  if_neg fun h => h.elim h0 h4

theorem stopPair_spare {p : Fin 18} {cause trap : Nat} {d : Dev} (h0 : d.pstate p ≠ 0) (h4 : d.pstate p ≠ 4) (hw : p.val ∉ d.tsu.work) :
    stopPair p cause trap d = pairLost p cause trap d :=
  (stopPair_eq h0 h4).trans (if_neg fun hc => hw (List.contains_iff_mem.mp hc))

theorem stopPair_work {p : Fin 18} {cause trap : Nat} {d : Dev} (h0 : d.pstate p ≠ 0) (h4 : d.pstate p ≠ 4) (hw : p.val ∈ d.tsu.work) :
    stopPair p cause trap d = noPairLeft (pairLost p cause trap d) := (stopPair_eq h0 h4).trans (if_pos (List.contains_iff_mem.mpr hw))

theorem noPairLeft_some {x : Dev} (h : ∃ q ∈ x.tsu.work, x.healthy q = true) : noPairLeft x = x := if_pos (List.any_eq_true.mpr h)

theorem noPairLeft_none {x : Dev} (h : ∀ q ∈ x.tsu.work, x.healthy q = false) : noPairLeft x = dropLantern 10 x := by
  refine if_neg fun ha => ?_
  obtain ⟨q, hq, hh⟩ := List.any_eq_true.mp ha
  exact not_true (h q hq) hh

theorem causeCode_of {code : Nat} {cause : PairCause}
    (h : (code, cause) ∈ [(1, PairCause.lockstep), (2, .eccProgram), (3, .eccX), (4, .eccY)]) : causeCode cause = code := by
  simp only [List.mem_cons, Prod.mk.injEq, List.not_mem_nil, or_false] at h
  rcases h with ⟨rfl, rfl⟩ | ⟨rfl, rfl⟩ | ⟨rfl, rfl⟩ | ⟨rfl, rfl⟩ <;> rfl

theorem rd_recordTrap (p code pc task axn : Nat) (d : Dev) :
    (recordTrap p code pc task axn d).rd (pgCep p) CEP.TCODE = code % 2 ^ CEP.TCODE.width ∧
    (recordTrap p code pc task axn d).rd (pgCep p) CEP.TTID = task % 2 ^ CEP.TTID.width ∧
    (recordTrap p code pc task axn d).rd (pgCep p) CEP.TPC = pc % 2 ^ CEP.TPC.width := by
  unfold recordTrap Dev.inc
  refine ⟨?_, ?_, ?_⟩
  · rw [rd_wr_apart _ _ CEP.TAXN _ _ (by decide) (by decide), rd_wr_apart _ _ CEP.TTID _ _ (by decide) (by decide),
      rd_wr_apart _ _ CEP.TCNT _ _ (by decide) (by decide), rd_wr_apart _ _ CEP.TPC _ _ (by decide) (by decide), rd_wr_self _ _ _ _ (by decide)]
  · rw [rd_wr_apart _ _ CEP.TAXN _ _ (by decide) (by decide), rd_wr_self _ _ _ _ (by decide)]
  · rw [rd_wr_apart _ _ CEP.TAXN _ _ (by decide) (by decide), rd_wr_apart _ _ CEP.TTID _ _ (by decide) (by decide),
      rd_wr_apart _ _ CEP.TCNT _ _ (by decide) (by decide), rd_wr_self _ _ _ _ (by decide)]

/-! ## Uncorrectable errors of memory (R13) -/

/-- An error of shared SRAM as it is counted. -/
def sharedNoted (off : Nat) (d : Dev) : Dev := raise pgGLB 2 2 ((d.inc pgGLB GLB.SECC_UNCOR).wr pgGLB GLB.SUADR_ADR off)

theorem eccShared_beyond {off : Nat} {d : Dev} (hs : d.stage ≠ 0) (ho : 0x30_0000 ≤ off) : eccShared off d = sharedNoted off d :=
  (if_neg hs).trans (if_neg fun h => absurd h.1 (by omega))

theorem configured_sharedNoted (off : Nat) (n : Fin 256) (d : Dev) : (sharedNoted off d).configured n = d.configured n := by
  have hrd : (sharedNoted off d).axState n = d.axState n := by
    have hn := n.isLt
    have hpage : pgAxp n ≠ pgGLB ∧ pgAxp n < 1024 ∧ ¬ eventPage (pgAxp n) := by
      unfold pgAxp pgGLB eventPage pgEVT pgTSU
      omega
    obtain ⟨h1, h2, h3⟩ := hpage
    have hoff : ∀ (e : Dev) (f : Fld) (v : Nat), f.off < 4096 → (e.wr pgGLB f v).rd (pgAxp n) AXP.STATE = e.rd (pgAxp n) AXP.STATE :=
      fun e f v hf => rd_wr_key e _ f v _ AXP.STATE fun h => h1 (regKey_inj (by decide) h2 hf (by decide) h).1.symm
    unfold Dev.axState sharedNoted Dev.inc
    rw [rd_raise pgGLB 2 2 _ _ _ (by decide) (by decide) h2 (by decide) h3 fun h => absurd h h1, hoff _ _ _ (by decide), hoff _ _ _ (by decide)]
  unfold Dev.configured
  rw [hrd]

theorem eccShared_table {off : Nat} {n : Fin 256} {d : Dev} (hs : d.stage ≠ 0) (ho : off / 0x3000 = n.val) (hc : d.configured n = true) :
    eccShared off d = moorFault n 6 (sharedNoted off d) := by
  have hn : axisNo (off / 0x3000) = n := Fin.ext (by rw [ho]; exact Nat.mod_eq_of_lt n.isLt)
  have hoff : off < 0x30_0000 := by
    have := n.isLt
    omega
  unfold eccShared
  rw [if_neg hs]
  dsimp only
  rw [hn]
  exact if_pos ⟨hoff, (configured_sharedNoted off n d).trans hc⟩

/-- An error of DRAM as it is counted and shown. -/
def dramNoted (off : Nat) (d : Dev) : Dev :=
  showStg ((raise pgGLB 1 1 ((d.inc pgGLB GLB.DECC_UNCOR).wr pgGLB GLB.DUADR_ADR (off / 64 * 64))).wr pgSTG STG.DRAMOK 0)

theorem eccDram_eq {off : Nat} {d : Dev} (hs : d.stage ≠ 0) : eccDram off d =
    if dramImage ≤ off ∧ off < dramStaging then dropLantern 8 (spoilByte off (dramNoted off d)) else spoilByte off (dramNoted off d) := if_neg hs

theorem mem_bad_spoilByte (off : Nat) (d : Dev) : off ∈ (spoilByte off d).bad := List.mem_cons_self

/-- A spoiled byte reads as another value. -/
theorem mem8_spoilByte (off : Nat) (d : Dev) : (spoilByte off d).mem8 off ≠ d.mem8 off := by
  have hread : (spoilByte off d).mem8 off = d.mem8 off ^^^ BitVec.ofNat 8 (1 + d.openBits 32 % 255) := mem8_setMem8_self d off _
  have hne : BitVec.ofNat 8 (1 + d.openBits 32 % 255) ≠ 0#8 := fun h => by
    have hnat := congrArg BitVec.toNat h
    rw [BitVec.toNat_ofNat, BitVec.toNat_zero] at hnat
    omega
  rw [hread]
  intro h
  exact hne (BitVec.xor_right_inj (d.mem8 off) |>.mp (h.trans (BitVec.xor_zero).symm))

theorem rd_dramNoted (off : Nat) (d : Dev) : (dramNoted off d).rd pgSTG STG.DRAMOK = 0 ∧ (dramNoted off d).stage = d.stage ∧
    (dramNoted off d).rd pgGLB GLB.DUADR_ADR = off / 64 * 64 % 2 ^ GLB.DUADR_ADR.width := by
  have hglb : ¬ eventPage pgGLB := by unfold eventPage; decide
  have hstg : ¬ eventPage pgSTG := by unfold eventPage; decide
  unfold dramNoted
  refine ⟨?_, ?_, ?_⟩
  · rw [rd_showStg _ STG.DRAMOK (.inr ⟨rfl, by decide⟩), rd_wr_self _ _ _ _ (by decide)]
    rfl
  · unfold Dev.stage
    rw [rd_showStg _ STG.STAGE (.inr ⟨rfl, by decide⟩), rd_wr_apart _ _ STG.DRAMOK _ _ (by decide) (by decide),
      rd_raise pgGLB 1 1 pgSTG STG.STAGE _ (by decide) (by decide) (by decide) (by decide) hstg (by decide)]
    unfold Dev.inc
    rw [rd_wr_key _ _ GLB.DUADR_ADR _ _ _ (by decide), rd_wr_key _ _ GLB.DECC_UNCOR _ _ _ (by decide)]
  · rw [(leaves_showStg _).rd (p := pgGLB) (f := GLB.DUADR_ADR) (by decide) (by decide) (by decide) (by decide), rd_wr_key _ _ STG.DRAMOK _ _ _ (by decide),
      rd_raise pgGLB 1 1 pgGLB GLB.DUADR_ADR _ (by decide) (by decide) (by decide) (by decide) hglb (by decide), rd_wr_self _ _ _ _ (by decide)]

/-! ## The self test of a pair (R346, R376) -/

theorem bistComplete_stays {p : Fin 18} {pass : Bool} {d : Dev} (h : d.pstate p ≠ 5 ∨ d.load.tested = false) : bistComplete p pass d = d :=
  if_pos (h.imp id fun h => by rw [h]; rfl)

/-- A pair that passed its test. -/
def bistPassed (p : Fin 18) (d : Dev) : Dev :=
  ((d.wr (pgCep p) CEP.BISTOK 1).setPair p { d.pair p with reviving := false }).wr (pgCep p) CEP.PSTATE 1

/-- A pair that failed its test. -/
def bistFailed (p : Fin 18) (d : Dev) : Dev := raise (pgCep p) 0 p
  ((((d.wr (pgCep p) CEP.BISTOK 0).setPair p { d.pair p with reviving := false }).wr (pgCep p) CEP.PSTATE 4).wr (pgCep p) CEP.FCAUSE 6)

section
variable {p : Fin 18} {d : Dev}

theorem bist_open (hs : d.pstate p = 5) (ht : d.load.tested = true) : ¬ (d.pstate p ≠ 5 ∨ (!d.load.tested) = true) := by
  rintro (h | h)
  · exact h hs
  · rw [ht] at h
    exact Bool.false_ne_true h

theorem bistComplete_passed (hs : d.pstate p = 5) (ht : d.load.tested = true) (hr : (d.pair p).reviving = false) :
    bistComplete p true d = raise (pgCep p) 4 p (showPairs (bistPassed p d)) := by
  unfold bistComplete
  dsimp only
  rw [if_neg (bist_open hs ht), hr]
  rfl

theorem tsu_bistPassed : (bistPassed p d).tsu = d.tsu := by
  unfold bistPassed
  rw [wr_tsu]
  exact wr_tsu d (pgCep p) CEP.BISTOK 1

theorem bistComplete_revived (hs : d.pstate p = 5) (ht : d.load.tested = true) (hr : (d.pair p).reviving = true)
    (hn : p.val ∉ d.tsu.spare) : bistComplete p true d = raise (pgCep p) 4 p (showPairs { bistPassed p d with tsu := { d.tsu with
      work := d.tsu.work.filter fun q => q != p.val, spare := d.tsu.spare ++ [p.val] } }) := by
  have hspare : d.tsu.spare.contains p.val = false := by simpa using hn
  have hback : bistComplete p true d = raise (pgCep p) 4 p (showPairs { bistPassed p d with tsu := { (bistPassed p d).tsu with
      work := (bistPassed p d).tsu.work.filter fun q => q != p.val,
      spare := if (bistPassed p d).tsu.spare.contains p.val then (bistPassed p d).tsu.spare else (bistPassed p d).tsu.spare ++ [p.val] } }) := by
    unfold bistComplete
    dsimp only
    rw [if_neg (bist_open hs ht), hr]
    rfl
  rw [hback, tsu_bistPassed, hspare]
  rfl

theorem bistComplete_failed (hs : d.pstate p = 5) (ht : d.load.tested = true) : bistComplete p false d =
    raise (pgCep p) 4 p (showPairs (if (d.pair p).reviving then bistFailed p d else takePairs (tsuPairFault p (bistFailed p d)))) := by
  unfold bistComplete
  dsimp only
  rw [if_neg (bist_open hs ht)]
  rfl

end

/-! ## Repairs and replays (R507, R509) -/

/-- An installed repair is no longer asked for. -/
def repairClosed (n : Fin 256) (y : Dev) : Dev := y.redMap fun r => { r with
  repairs := r.repairs.filter fun x => x.1 != n.val, installed := (n.val, y.cyc) :: r.installed.filter fun x => x.1 != n.val,
  parts := r.parts.filter fun i => i / 4 != n.val }

section
variable {n : Fin 256} {d : Dev}

theorem repairInstall_none {blk : List (BitVec 64)} (h : (d.red.repairs.find? fun x => x.1 == n.val) = none) : repairInstall n blk d = d := by
  unfold repairInstall
  rw [h]

theorem repairInstall_refused {blk : List (BitVec 64)} (h : d.checks = false ∨ d.repairCame n = false ∨ blk ≠ d.blockCame n ∨
    ∀ c, (n.val, c) ∉ d.red.repairs) : repairInstall n blk d = d := by
  cases hf : d.red.repairs.find? fun x => x.1 == n.val with
  | none => exact repairInstall_none hf
  | some x =>
    unfold repairInstall
    rw [hf]
    refine if_neg ?_
    rintro ⟨h1, h2, h3⟩
    rcases h with h | h | h | h
    · exact not_true h h1
    · exact not_true h h2
    · exact h h3
    · have hn : (x.1 == n.val) = true := List.find?_some (p := fun x : Nat × Nat => x.1 == n.val) hf
      exact h x.2 (beq_iff_eq.mp hn ▸ List.mem_of_find?_eq_some hf)

theorem repairInstall_done {c : Nat} {v w : TableState} {mem : Option (List Host.Cell)} {x y : Dev} (hc : d.checks = true)
    (hr : d.repairCame n = true) (hf : (d.red.repairs.find? fun x => x.1 == n.val) = some (n.val, c))
    (hv : v = Config.stateOf (d.blockCame n))
    (hrun : rerunFrom n ((if d.endedNow n then d.cyc else d.cyc - 1) - c) (c + 1) v none
      (adoptCommit c n v (d.inc pgRED RED.REPAIRS)) = (w, mem, x))
    (hy : (mem = none ∧ y = putTable n w x) ∨ ∃ m, mem = some m ∧ y = copyOwn n m (putTable n w x)) :
    repairInstall n (d.blockCame n) d = repairClosed n y := by
  subst hv
  unfold repairInstall
  rw [hf]
  dsimp only
  rw [if_pos ⟨hc, hr, rfl⟩, hrun]
  dsimp only
  rcases hy with ⟨hm, hy⟩ | ⟨m, hm, hy⟩
  · rw [hm, hy]
    rfl
  · rw [hm, hy]
    rfl

theorem repairTimeout_due (h : d.role = roSTANDBY ∧ ∃ c, (n.val, c) ∈ d.red.repairs ∧ c + 256 ≤ d.cyc) : repairTimeout n d =
    d.redMap fun r => { r with d8 := true, repairs := r.repairs.filter fun x => x.1 != n.val } := by
  obtain ⟨hr, c, hm, hc⟩ := h
  exact if_pos ⟨hr, List.any_eq_true.mpr ⟨(n.val, c), hm, by simp [hc]⟩⟩

theorem repairTimeout_stays (h : d.role ≠ roSTANDBY ∨ ∀ c, (n.val, c) ∈ d.red.repairs → d.cyc < c + 256) : repairTimeout n d = d := by
  refine if_neg ?_
  rintro ⟨hr, ha⟩
  obtain ⟨x, hm, hx⟩ := List.any_eq_true.mp ha
  rw [Bool.and_eq_true, beq_iff_eq, decide_eq_true_eq] at hx
  rcases h with h | h
  · exact h hr
  · have := h x.2 (hx.1 ▸ hm)
    omega

theorem replayTask_none (h : d.red.replay = none) : replayTask n d = d := by
  unfold replayTask
  rw [h]

theorem replayTask_stays {x : Replay} (h : d.red.replay = some x) (hx : x.axis ≠ n.val ∨ x.own ≠ none ∨ d.cyc ≤ x.cycle) :
    replayTask n d = d := by
  unfold replayTask
  rw [h]
  refine if_neg ?_
  rintro ⟨h1, h2, h3⟩
  rcases hx with hx | hx | hx
  · exact hx h1
  · exact hx h2
  · omega

theorem replayTask_lost {x : Replay} (h : d.red.replay = some x) (ha : x.axis = n.val) (ho : x.own = none) (hc : x.cycle < d.cyc)
    (hg : d.replayDigest n x.cycle = none) : replayTask n d = if d.commanding then pushDecision (.mismatch n x.cycle) d else d := by
  unfold replayTask
  rw [h]
  dsimp only
  rw [if_pos ⟨ha, ho, hc⟩, hg]

theorem replayTask_judged {x : Replay} {g : Nat} {eq : Bool} {y : Dev} (h : d.red.replay = some x) (ha : x.axis = n.val) (ho : x.own = none)
    (hc : x.cycle < d.cyc) (hg : d.replayDigest n x.cycle = some g) (he : eq = true ↔ g = x.digest)
    (hy : y = d.redMap fun r => { r with replay := some { x with own := some eq } }) : replayTask n d =
      if d.commanding then pushDecision (.verdict n x.cycle eq) (pushDecision (.mismatch n x.cycle) y)
      else if d.checks then y.redMap fun r => { r with reply := r.reply ++ replyItem 1 n eq x.cycle } else y := by
  have heq : (g == x.digest) = eq := by
    rw [Bool.eq_iff_iff, beq_iff_eq]
    exact he.symm
  subst hy
  unfold replayTask
  rw [h]
  dsimp only
  rw [if_pos ⟨ha, ho, hc⟩, hg]
  dsimp only
  rw [heq]
  rfl

end

/-! ## The phases of resynchronisation (R520, R521) -/

section
variable {d : Dev}

theorem commanding_of_silent (h : d.role = roSILENT) : d.commanding = false := by
  unfold Dev.commanding
  rw [h]
  rfl

theorem joining_of_silent (h : d.role = roSILENT) (hp : 1 ≤ d.rd pgRED RED.RPH) : d.joining = true := by
  unfold Dev.joining
  rw [h, decide_eq_true hp]
  rfl

theorem joining_of_commanding (h : d.commanding = true) : d.joining = false := by
  cases hj : d.joining with
  | false => rfl
  | true =>
    unfold Dev.joining at hj
    rw [Bool.and_eq_true, beq_iff_eq] at hj
    exact absurd h (not_true (commanding_of_silent hj.1))

theorem joinComplete_other {equal : Bool} (h : d.rd pgRED RED.RPH ≠ 1) : joinComplete equal d = d := if_pos h

theorem joinComplete_commanding {equal : Bool} (h : d.rd pgRED RED.RPH = 1) (hc : d.commanding = true) : joinComplete equal d =
    if equal then pushDecision (.resync 2 0) ((d.wr pgRED RED.RPH 2).redMap fun r => { r with
      pass := 1, cursor := 0, captured := false, items := [], bulk := [], istart := 0 })
    else d.wr pgRED RED.CONFMIS 1 := (if_neg (not_not_intro h)).trans (if_pos hc)

theorem joinComplete_waits {equal : Bool} (h : d.rd pgRED RED.RPH = 1) (hs : d.role = roSILENT) (hn : d.red.same = none) :
    joinComplete equal d = d := by
  unfold joinComplete
  rw [if_neg (not_not_intro h), if_neg (not_true (commanding_of_silent hs)), if_pos (joining_of_silent hs (by omega)), hn]

theorem joinComplete_joining {equal same : Bool} (h : d.rd pgRED RED.RPH = 1) (hs : d.role = roSILENT) (hn : d.red.same = some same) :
    joinComplete equal d = if equal && same then d.wr pgRED RED.CONFMIS 0 else resyncFail 1 d := by
  unfold joinComplete
  rw [if_neg (not_not_intro h), if_neg (not_true (commanding_of_silent hs)), if_pos (joining_of_silent hs (by omega)), hn]

theorem bulkPassEnd_ends (hc : d.commanding = true) (hp : d.rd pgRED RED.RPH = 2) (ht : d.bulkTotal ≤ d.red.cursor) : bulkPassEnd d =
    if d.red.dirty.length ≤ 16384 ∨ 3 ≤ d.red.pass then
      pushDecision (.resync 3 0) ((d.wr pgRED RED.RPH 3).redMap fun r => { r with captured := false, w := 0 })
    else showLeft (d.redMap fun r => { r with pass := r.pass + 1, cursor := 0 }) :=
  if_pos (by rw [hc, hp, decide_eq_true ht]; rfl)

theorem bulkPassEnd_stays (h : d.commanding = false ∨ d.rd pgRED RED.RPH ≠ 2 ∨ d.red.cursor < d.bulkTotal) : bulkPassEnd d = d := by
  refine if_neg ?_
  rw [Bool.and_eq_true, Bool.and_eq_true, beq_iff_eq, decide_eq_true_eq]
  rintro ⟨⟨h1, h2⟩, h3⟩
  rcases h with h | h | h
  · exact not_true h h1
  · exact h h2
  · omega

theorem snapshotComplete_joining (hp : d.rd pgRED RED.RPH = 3) (hs : d.role = roSILENT) : snapshotComplete d =
    if d.blocksCame then d.redMap fun r => { r with ready := true } else d :=
  (if_neg (not_not_intro hp)).trans (if_pos (joining_of_silent hs (by omega)))

theorem snapshotComplete_commanding (hp : d.rd pgRED RED.RPH = 3) (hc : d.commanding = true) : snapshotComplete d =
    if d.red.captured && d.red.bulk.isEmpty then pushDecision (.resync 4 0) (d.wr pgRED RED.RPH 4) else d := by
  unfold snapshotComplete
  rw [if_neg (not_not_intro hp), joining_of_commanding hc, hc]
  rfl

theorem replayCatchUp_commanding (hp : d.rd pgRED RED.RPH = 4) (hc : d.commanding = true) : replayCatchUp d =
    pushDecision (.resync 5 0) ((d.wr pgRED RED.RPH 5).redMap fun r => { r with clean := 0 }) :=
  (if_neg (not_not_intro hp)).trans (if_pos hc)

theorem replayCatchUp_joining (hp : d.rd pgRED RED.RPH = 4) (hs : d.role = roSILENT) : replayCatchUp d =
    if d.red.opened.isNone then (d.wr pgRED RED.RPH 5).redMap fun r => { r with clean := 0 } else d := by
  unfold replayCatchUp
  rw [if_neg (not_not_intro hp), commanding_of_silent hs, joining_of_silent hs (by omega)]
  rfl

theorem checkComplete_clean (hp : d.rd pgRED RED.RPH = 5) (hn : 128 ≤ d.red.clean) (hr : d.role = roSILENT ∨ d.role = roALONE) :
    checkComplete d = d.redMap fun r => { r with d10 := true } := by
  refine if_pos ⟨hp, hn, ?_⟩
  rcases hr with hr | hr
  · rw [joining_of_silent hr (by omega)]
    rfl
  · rw [hr, beq_self_eq_true, Bool.or_true]

theorem checkComplete_stays (h : d.rd pgRED RED.RPH ≠ 5 ∨ d.red.clean < 128 ∨ (d.role ≠ roSILENT ∧ d.role ≠ roALONE)) : checkComplete d = d := by
  refine if_neg ?_
  rintro ⟨hp, hn, hr⟩
  rcases h with h | h | ⟨h1, h2⟩
  · exact h hp
  · omega
  · rw [Bool.or_eq_true, beq_iff_eq] at hr
    rcases hr with hr | hr
    · unfold Dev.joining at hr
      rw [Bool.and_eq_true, beq_iff_eq] at hr
      exact h1 hr.1
    · exact h2 hr

theorem resyncTimeout_stays (h : d.joining = false ∨ d.st ≤ d.red.since + 160000000000) : resyncTimeout d = d := by
  refine if_neg ?_
  rw [Bool.and_eq_true, decide_eq_true_eq]
  rintro ⟨h1, h2⟩
  rcases h with h | h
  · exact not_true h h1
  · omega

end

/-- Settles O58. -/
theorem tasksPairsAndHeadPair : Obligations.TasksPairsAndHeadPair := by
  refine ⟨fun s n t => ⟨fun h => ?_, fun h => ?_, fun h => ?_, fun c h hc => ?_, fun c x h hc hx => ?_⟩,
    fun s task t i hi => ⟨fun p hr hp => ⟨fun hn => ?_, fun hn => ?_⟩, fun h => ?_⟩,
    fun s task i p c hi hp hc hs hr hf hn => ?_,
    fun s task => ⟨fun h t => ?_, fun h => ?_, fun h => ?_, fun h => ?_, fun h hi => ?_⟩,
    fun task k d => ⟨fun x hx ht hk => ?_, fun x hx => (mem_due_adoptDue task k d x).mp hx, cfg_adoptDue task k d⟩,
    fun s p cause code x hcode => ?_,
    fun p task code d x hx => ⟨fun h => ?_, fun h => ?_, ?_⟩,
    fun s off => ⟨fun h => ⟨?_, ?_⟩, fun hs ho => ?_, fun n hs ho hc => ?_, fun hs ho => ?_, fun hs h1 h2 => ?_, mem8_spoilByte off s.dev⟩,
    fun s p pass => ⟨fun h => ?_, fun x hs ht hx => ⟨fun hr => ?_, fun hr hn => ?_⟩, fun x hs ht hx => ⟨fun hr => ?_, fun hr => ?_⟩⟩,
    fun s n => ⟨fun c v w mem x y hc hr hf hv hrun hy => ?_, fun blk h => ?_, fun h => ?_, fun h => ?_, fun h => ?_,
      fun x h => ⟨fun hx => ?_, fun ha ho hc => ⟨fun hg => ⟨fun hcm => ?_, fun hcm => ?_⟩, fun g eq y hg he hy => ?_⟩⟩⟩,
    fun s equal => ⟨fun h => ?_, fun h => ⟨fun hc => ?_, fun hc => ?_, fun hs hn => ?_, fun hs hn => ?_, fun b hs hn he => ?_⟩⟩,
    fun s => ⟨fun hc hp ht => ⟨fun h => ?_, fun h1 h2 => ?_⟩, fun h => ?_, fun h => ?_,
      fun hp => ⟨fun hs hb => ?_, fun hs hb => ?_, fun hc hcap hbulk => ?_, fun hc h => ?_⟩, fun h => ?_,
      fun hp => ⟨fun hc => ?_, fun hs ho => ?_, fun hs ho => ?_⟩, fun hp hn hr => ?_, fun h => ?_, fun hj ht => ?_, fun h => ?_⟩⟩
  · exact act_eq (f := axisTaskRun n t) (if_pos h)
  · exact act_same (f := axisTaskRun n t) (if_neg (not_true h))
  · exact act_same (f := seaDone n) (seaDone_idle h)
  · exact act_same (f := seaDone n) (seaDone_early h hc)
  · refine act_eq (f := seaDone n) ?_
    rcases hx with ⟨hs, rfl⟩ | ⟨src, y, z, hs, hy, rfl, rfl⟩
    · exact seaDone_reset h hc hs
    · rcases hy with ⟨rfl, hb⟩ | ⟨b, hb, rfl⟩
      · refine seaDone_copy h hc hs (List.find?_eq_none.mpr fun b hm => ?_)
        rw [Bool.and_eq_true, decide_eq_true_eq, decide_eq_true_eq]
        have := hb b hm
        omega
      · exact seaDone_failed h hc hs hb
  · exact act_eq (f := taskDispatch task t) ((taskDispatch_placed hi hr hp).trans (if_pos hn))
  · exact act_eq (f := taskDispatch task t) ((taskDispatch_placed hi hr hp).trans (if_neg (not_true hn)))
  · exact act_eq (f := taskDispatch task t) (taskDispatch_stays hi h)
  · have hres := taskResume_free hi hp hc hs hr hf hn
    obtain ⟨hst, hpair⟩ := mapInst_leaves task i.seq (fun i => { i with state := .running }) (resumedOn p task i c s.dev) p
    obtain ⟨hst2, hpair2⟩ := resumedOn_shows (task := task.val) (i := i) (c := c) hs
    exact ⟨_, act_eq (f := taskResume task) hres, rfl, hst.trans hst2, by
      show ((Dev.mapInst _ _ _ _).pair p).running = _
      rw [hpair, hpair2], by
      show ((Dev.mapInst _ _ _ _).pair p).eng = _
      rw [hpair, hpair2]⟩
  · exact act_eq (f := taskDispatch task t) (taskDispatch_idle (firstReady_none h))
  · refine act_same (f := taskResume task) ?_
    unfold taskResume
    rw [h]
  · exact act_same (f := tsuWriteAdopt task) (if_pos (.inl (dueBy_eq_nil h)))
  · exact act_same (f := tsuWriteAdopt task) (if_pos (.inr (by rw [h]; rfl)))
  · exact act_eq (f := tsuWriteAdopt task) (tsuWriteAdopt_adopts rfl (dueBy_ne_nil h) hi)
  · exact (mem_due_adoptDue task k d x).mpr ⟨hx, fun _ => hk⟩
  · have hcc := causeCode_of hcode
    have hfault : ∀ y, stopPair p code 0 s.dev = y → exec (.pairFault p cause) s = .next (s.withDev y) := fun y hy =>
      act_eq (f := faultPair p (causeCode cause)) (by rw [hcc]; exact hy)
    have hecc : ∀ y, stopPair p code 0 s.dev = y → exec (.uncorrectableEcc (.pair p cause)) s = .next (s.withDev y) := fun y hy =>
      act_eq (f := uncorrectable (.pair p cause)) (by rw [← hy, ← hcc]; rfl)
    refine ⟨fun h => ⟨hfault _ (stopPair_out h), hecc _ (stopPair_out h)⟩, fun h0 h4 hx => ?_⟩
    subst hx
    refine ⟨fun hw => ⟨hfault _ (stopPair_spare h0 h4 hw), hecc _ (stopPair_spare h0 h4 hw)⟩, fun hw hq => hfault _ ?_, fun hw hq => hfault _ ?_⟩
    · exact (stopPair_work h0 h4 hw).trans (noPairLeft_some hq)
    · exact (stopPair_work h0 h4 hw).trans (noPairLeft_none hq)
  · subst hx
    exact if_pos h
  · subst hx
    exact if_neg (Nat.not_lt.mpr h)
  · subst hx
    exact rd_recordTrap p code _ task 0 d
  · exact act_same (f := uncorrectable (.shared off)) (if_pos h)
  · exact act_same (f := uncorrectable (.dram off)) (if_pos h)
  · exact act_eq (f := uncorrectable (.shared off)) (eccShared_beyond hs ho)
  · obtain ⟨hst, hl, hf, -⟩ := moorFault_shows n 6 (sharedNoted off s.dev) (by decide)
    exact ⟨_, act_eq (f := uncorrectable (.shared off)) (eccShared_table hs ho hc), hst, hf, hl⟩
  · obtain ⟨hok, hst, hadr⟩ := rd_dramNoted off s.dev
    have heq : eccDram off s.dev = spoilByte off (dramNoted off s.dev) := (eccDram_eq hs).trans (if_neg (by omega))
    refine ⟨_, act_eq (f := uncorrectable (.dram off)) heq, ?_, mem_bad_spoilByte off _, hst, hadr⟩
    exact (congrArg (· != 0) hok).trans rfl
  · exact ⟨spoilByte off (dramNoted off s.dev), act_eq (f := uncorrectable (.dram off)) ((eccDram_eq hs).trans (if_pos ⟨h1, h2⟩)),
      mem_bad_spoilByte off _⟩
  · exact act_same (f := bistComplete p pass) (bistComplete_stays h)
  · subst hx
    exact act_eq (f := bistComplete p true) (bistComplete_passed hs ht hr)
  · subst hx
    exact act_eq (f := bistComplete p true) (bistComplete_revived hs ht hr hn)
  · subst hx
    exact act_eq (f := bistComplete p false) ((bistComplete_failed hs ht).trans (by rw [if_pos hr]; rfl))
  · subst hx
    exact act_eq (f := bistComplete p false) ((bistComplete_failed hs ht).trans (by rw [if_neg (not_true hr)]; rfl))
  · exact act_eq (f := repairInstall n (s.dev.blockCame n)) (repairInstall_done hc hr hf hv hrun hy)
  · exact act_same (f := repairInstall n blk) (repairInstall_refused h)
  · exact act_eq (f := repairTimeout n) (repairTimeout_due h)
  · exact act_same (f := repairTimeout n) (repairTimeout_stays h)
  · exact act_same (f := replayTask n) (replayTask_none h)
  · exact act_same (f := replayTask n) (replayTask_stays h hx)
  · exact act_eq (f := replayTask n) ((replayTask_lost h ha ho hc hg).trans (if_pos hcm))
  · exact act_same (f := replayTask n) ((replayTask_lost h ha ho hc hg).trans (if_neg (not_true hcm)))
  · have hj := replayTask_judged h ha ho hc hg he hy
    refine ⟨fun hcm => ?_, fun hcm hk => ?_, fun hcm hk => ?_⟩
    · exact act_eq (f := replayTask n) (hj.trans (if_pos hcm))
    · exact act_eq (f := replayTask n) (hj.trans ((if_neg (not_true hcm)).trans (if_pos hk)))
    · exact act_eq (f := replayTask n) (hj.trans ((if_neg (not_true hcm)).trans (if_neg (not_true hk))))
  · exact act_same (f := joinComplete equal) (joinComplete_other h)
  · exact act_eq (f := joinComplete true) (joinComplete_commanding h hc)
  · exact act_eq (f := joinComplete false) (joinComplete_commanding h hc)
  · exact act_same (f := joinComplete equal) (joinComplete_waits h hs hn)
  · exact act_eq (f := joinComplete true) (joinComplete_joining h hs hn)
  · refine act_eq (f := joinComplete equal) ((joinComplete_joining h hs hn).trans (if_neg ?_))
    rcases he with rfl | rfl
    · exact Bool.false_ne_true
    · rw [Bool.and_false]
      exact Bool.false_ne_true
  · exact act_eq (f := bulkPassEnd) ((bulkPassEnd_ends hc hp ht).trans (if_pos h))
  · exact act_eq (f := bulkPassEnd) ((bulkPassEnd_ends hc hp ht).trans (if_neg (by omega)))
  · exact act_same (f := bulkPassEnd) (bulkPassEnd_stays h)
  · exact act_same (f := snapshotComplete) (if_pos h)
  · exact act_eq (f := snapshotComplete) ((snapshotComplete_joining hp hs).trans (if_pos hb))
  · exact act_same (f := snapshotComplete) ((snapshotComplete_joining hp hs).trans (if_neg (not_true hb)))
  · exact act_eq (f := snapshotComplete) ((snapshotComplete_commanding hp hc).trans (if_pos (by rw [hcap, hbulk]; rfl)))
  · refine act_same (f := snapshotComplete) ((snapshotComplete_commanding hp hc).trans (if_neg ?_))
    rw [Bool.and_eq_true, List.isEmpty_iff]
    rintro ⟨h1, h2⟩
    exact h.elim (fun h => not_true h h1) fun h => h h2
  · exact act_same (f := replayCatchUp) (if_pos h)
  · exact act_eq (f := replayCatchUp) (replayCatchUp_commanding hp hc)
  · exact act_eq (f := replayCatchUp) ((replayCatchUp_joining hp hs).trans (if_pos (by rw [ho]; rfl)))
  · refine act_same (f := replayCatchUp) ((replayCatchUp_joining hp hs).trans (if_neg ?_))
    rw [Option.isNone_iff_eq_none]
    exact ho
  · exact act_eq (f := checkComplete) (checkComplete_clean hp hn hr)
  · exact act_same (f := checkComplete) (checkComplete_stays h)
  · exact act_eq (f := resyncTimeout) (if_pos (by rw [hj, decide_eq_true ht]; rfl))
  · exact act_same (f := resyncTimeout) (resyncTimeout_stays h)

end Sys2Proof.Machine
end

section
/-! PROOFS. Counting of the feedback units and the compare units that watch it (R383, R397 to R400). -/
namespace Sys2Proof.Machine

/-! ## Numbers of 32 bits -/

theorem toBits_sxt {x : Nat} (h : x < 2 ^ 32) : toBits 32 (sxt 32 x) = x := by
  unfold toBits sxt
  dsimp only
  split <;> omega

theorem toBits_lt (x : Int) : toBits 32 x < 2 ^ 32 := by
  unfold toBits
  omega

/-- What COUNT becomes without hysteresis and limits (R383). -/
theorem count_follows_raw {raw : Nat} (h : raw < 2 ^ 32) (q : Int) :
    toBits 32 (sxt 32 (toBits 32 (q - sxt 32 (toBits 32 (q - sxt 32 raw))))) = raw := by
  unfold toBits sxt
  dsimp only
  split <;> split <;> split <;> omega

theorem rd_lt (d : Dev) (p : Nat) (f : Fld) : d.rd p f < 2 ^ f.width := bitsOf_lt _ _ _

theorem foldl_same {α : Type} (f : Dev → α → Dev) (l : List α) {d : Dev} (h : ∀ x ∈ l, f d x = d) : l.foldl f d = d := by
  induction l with
  | nil => rfl
  | cons x l ih =>
    rw [List.foldl_cons, h x (.head _)]
    exact ih fun y hy => h y (.tail _ hy)

/-! ## An edge that no probe takes -/

theorem pinEdge_unwatched {src : Nat} {d : Dev} (h : ∀ e, e < 64 → d.rd pgCAP (CAP.SRC.nth 4 e) ≠ src) (level : Bool) (t : Nat) :
    pinEdge src level t d = d :=
  foldl_same _ _ fun e he => if_neg fun hw => h e (List.mem_range.1 he) hw.1

/-! ## The registers below those of the compare units -/

/-- The registers of the feedback units below those of their compare units stand. -/
def FbuStands (d d' : Dev) : Prop := ∀ p s o, 0x60 ≤ p → p < 0x68 → 0x40 ≤ o → o < 0xA0 → d'.reg p s o = d.reg p s o

section
variable {d d' d'' : Dev}

theorem FbuStands.refl (d : Dev) : FbuStands d d := fun _ _ _ _ _ _ _ => rfl

theorem FbuStands.trans (h : FbuStands d d') (h' : FbuStands d' d'') : FbuStands d d'' := fun p s o h1 h2 h3 h4 =>
  (h' p s o h1 h2 h3 h4).trans (h p s o h1 h2 h3 h4)

theorem FbuStands.ite {c : Prop} [Decidable c] (h : c → FbuStands d d') (h' : ¬ c → FbuStands d d'') :
    FbuStands d (if c then d' else d'') := by
  split
  · exact h ‹_›
  · exact h' ‹_›

theorem FbuStands.foldl {α : Type} (f : Dev → α → Dev) (l : List α) (h : ∀ d x, FbuStands d (f d x)) :
    ∀ d, FbuStands d (l.foldl f d) := by
  induction l with
  | nil => exact FbuStands.refl
  | cons x l ih => exact fun d => (h d x).trans (ih _)

theorem FbuStands.of {K : Nat → Prop} (h : Leaves K d d') (hK : ∀ p, 0x60 ≤ p → p < 0x68 → ¬ K p) : FbuStands d d' :=
  fun p s o h1 h2 h3 h4 => h.reg p s o (by omega) (by omega) (hK p h1 h2) (by unfold HDR.PEVT; dsimp only; omega)

theorem FbuStands.units (hregs : d'.regs = d.regs) (hconf : d'.conf = d.conf) : FbuStands d d' := fun p s o _ _ _ _ => by
  rw [reg_eq, reg_eq, hregs, hconf]

theorem FbuStands.rd (h : FbuStands d d') (c : Fin 8) {f : Fld} (hf : 0x40 ≤ f.off) (hf' : f.off < 0xA0) :
    d'.rd (pgFbu c) f = d.rd (pgFbu c) f := by
  unfold Dev.rd Dev.rdS
  rw [h (pgFbu c) 0 f.off (by unfold pgFbu; omega) (by unfold pgFbu; omega) hf hf']

end

section
variable (d : Dev) (c : Fin 8) (u : Fin 2)

theorem fbuStands_wrC (f : Fld) (v : Nat) (hf : 0xA0 ≤ f.off) (hf' : f.off < 0xC0) : FbuStands d (d.wrC c u f v) := by
  intro p s o h1 h2 h3 h4
  refine reg_setReg_off _ _ _ _ _ _ _ _ ?_
  unfold Fld.nth
  dsimp only
  omega

theorem fbuStands_mapFbu (f : FbuDyn → FbuDyn) : FbuStands d (d.mapFbu c f) := FbuStands.units rfl rfl

theorem fbuStands_mapCmp (f : Compare → Compare) : FbuStands d (d.mapCmp c u f) := FbuStands.units rfl rfl

theorem fbuStands_pinEdge (src : Nat) (level : Bool) (t : Nat) : FbuStands d (pinEdge src level t d) :=
  FbuStands.of (leaves_pinEdge src level t d) fun p h1 h2 => by unfold capPage eventPage pgEVT pgTSU pgCAP; omega

theorem fbuStands_emit (o : Out) : FbuStands d (d.emit o) := FbuStands.units (emit_regs _ _) (emit_conf _ _)

theorem fbuStands_fbuEvent (bit : Nat) (hb : bit < 32) : FbuStands d (fbuEvent c bit d) :=
  FbuStands.of (Leaves.raise (pgFbu c) bit bit d (by unfold pgFbu; omega) hb) fun p h1 h2 => by
    unfold eventPage pgEVT pgTSU; omega

theorem fbuStands_driveCmp (active : Bool) (t : Nat) : FbuStands d (driveCmp c u active t d) := by
  unfold driveCmp
  extract_lets d1 level
  have h1 : FbuStands d d1 := fbuStands_mapCmp d c u _
  refine h1.trans (FbuStands.ite (fun _ => FbuStands.refl d1) fun _ => ?_)
  exact ((fbuStands_wrC d1 c u FBU.OUT _ (by decide) (by decide)).trans (fbuStands_emit _ _)).trans (fbuStands_pinEdge _ _ _ _)

theorem fbuStands_fireCmp (t : Nat) : FbuStands d (fireCmp c u t d) := by
  unfold fireCmp
  extract_lets d1 d2 d3 d4 num d5
  have h1 : FbuStands d d1 := by
    show FbuStands d (match d.rdC c u FBU.CACT with
      | 0 => driveCmp c u true t d | 1 => driveCmp c u true t d | 2 => driveCmp c u false t d
      | _ => driveCmp c u (!((d.fbu c).cmp[u]).active) t d)
    split <;> exact fbuStands_driveCmp d c u _ t
  have h3 : FbuStands d1 d3 := ((fbuStands_wrC d1 c u FBU.CHITS _ (by decide) (by decide)).trans (fbuStands_mapCmp _ c u _)).trans
    (fbuStands_fbuEvent _ c 6 (by decide))
  have h4 : FbuStands d3 d4 := fbuStands_wrC d3 c u FBU.CVAL _ (by decide) (by decide)
  have h5 : FbuStands d4 d5 := fbuStands_wrC d4 c u FBU.CNUM _ (by decide) (by decide)
  have harm : ∀ d, FbuStands d (d.wrC c u FBU.ARMED 0) := fun d => fbuStands_wrC d c u FBU.ARMED 0 (by decide) (by decide)
  refine (h1.trans h3).trans (FbuStands.ite (fun _ => h4.trans ?_) fun _ => harm d3)
  exact FbuStands.ite (fun _ => FbuStands.refl d4) fun _ => h5.trans (FbuStands.ite (fun _ => harm d5) fun _ => FbuStands.refl d5)

theorem fbuStands_fireAfter (t lo hi : Nat) : FbuStands d (fireAfter c u t lo hi d) :=
  FbuStands.trans (d' := d.openUsed) (FbuStands.units rfl rfl) (fbuStands_fireCmp _ c u _)

end

theorem fbuStands_watchCount (s : Fin 8) (q0 q1 : Int) (t : Nat) : ∀ d, FbuStands d (watchCount s q0 q1 t d) :=
  FbuStands.foldl _ _ fun d c => FbuStands.foldl _ _ (fun d u => FbuStands.ite
    (fun _ => (fbuStands_mapCmp d c u _).trans (fbuStands_fireAfter _ c u _ 8 20)) fun _ => FbuStands.refl d) d

/-! ## COUNT and RAW -/

/-- The value that COUNT takes of `q` (R383, step 3). -/
def Dev.limited (d : Dev) (c : Fin 8) (q : Int) : Int :=
  sxt 32 (toBits 32 (if d.rd (pgFbu c) FBU.LIMEN = 1 then clampI (d.rdI (pgFbu c) FBU.SLMIN) (d.rdI (pgFbu c) FBU.SLMAX) q else q))

section
variable (c : Fin 8) (t : Nat) (d : Dev)

/-- A new COUNT: COUNT and SLSAT are written, and what it brings leaves the registers of every feedback unit. -/
theorem setCount_writes (q : Int) : ∃ (d1 : Dev) (b : Nat), FbuStands d d1 ∧
    FbuStands ((d1.wr (pgFbu c) FBU.COUNT (toBits 32 (d.limited c q))).wr (pgFbu c) FBU.SLSAT b) (setCount c q t d) := by
  unfold setCount
  extract_lets pg q0 lim q1 d1 at' was d2 d3
  refine ⟨d1, b2n at', fbuStands_mapFbu d c _, ?_⟩
  have h3 : FbuStands d2 d3 := FbuStands.ite (fun _ => fbuStands_fbuEvent d2 c 2 (by decide)) fun _ => FbuStands.refl d2
  exact h3.trans (FbuStands.ite (fun _ => FbuStands.refl d3) fun _ => (fbuStands_mapFbu d3 c _).trans (fbuStands_watchCount c _ _ t _))

/-- A field of a feedback unit that a new COUNT does not write: not COUNT, not SLSAT, not of a compare unit. -/
def besideCount (g : Fld) : Prop := 0x40 ≤ g.off ∧ g.off < 0xA0 ∧ g.off ≠ FBU.COUNT.off ∧ (g.off ≠ FBU.SLSAT.off ∨ 4 ≤ g.lsb)

theorem setCount_shows (q : Int) : (setCount c q t d).rd (pgFbu c) FBU.COUNT = toBits 32 (d.limited c q) ∧
    ∀ g, besideCount g → (setCount c q t d).rd (pgFbu c) g = d.rd (pgFbu c) g := by
  obtain ⟨d1, b, h1, h2⟩ := setCount_writes c t d q
  refine ⟨?_, fun g ⟨hlo, hhi, hc, hs⟩ => ?_⟩
  · rw [h2.rd c (by decide) (by decide), rd_wr_off _ _ FBU.SLSAT _ _ _ (by decide), rd_wr_self _ _ _ _ (by decide)]
    exact Nat.mod_eq_of_lt (toBits_lt _)
  · rw [h2.rd c hlo hhi, rd_wr_apart _ _ FBU.SLSAT g _ (by decide) ?_, rd_wr_off _ _ FBU.COUNT _ _ _ ?_, h1.rd c hlo hhi]
    · unfold FBU.COUNT at *
      dsimp only at *
      omega
    · unfold FBU.SLSAT at *
      dsimp only at *
      omega

theorem formCount_shows : (∀ g, besideCount g → (formCount c t d).rd (pgFbu c) g = d.rd (pgFbu c) g) ∧
    (d.on (pgFbu c) FBU.HYS = false → d.on (pgFbu c) FBU.LIMEN = false → (d.fbu c).lost = 0 →
      (formCount c t d).rd (pgFbu c) FBU.COUNT = d.rd (pgFbu c) FBU.RAW) := by
  refine ⟨(setCount_shows c t d _).2, fun hh hl h0 => ?_⟩
  have hlim : ¬ d.rd (pgFbu c) FBU.LIMEN = 1 := fun h => by
    unfold Dev.on at hl
    rw [h] at hl
    exact absurd hl (by decide)
  refine (setCount_shows c t d _).1.trans ?_
  unfold Dev.limited Dev.rdI
  rw [if_neg hlim, if_neg (not_true hh), h0, sub_zero, add_zero]
  exact count_follows_raw (rd_lt _ _ _) _

/-- A counting step moves RAW; COUNT follows it where neither hysteresis nor a limit holds it (R383). -/
theorem countStep_shows (k : Int) :
    (countStep c k t d).rd (pgFbu c) FBU.RAW = toBits 32 (d.rdI (pgFbu c) FBU.RAW + if d.on (pgFbu c) FBU.DIR then -k else k) ∧
    (d.on (pgFbu c) FBU.HYS = false → d.on (pgFbu c) FBU.LIMEN = false → (d.fbu c).lost = 0 →
      (countStep c k t d).rd (pgFbu c) FBU.COUNT = (countStep c k t d).rd (pgFbu c) FBU.RAW) := by
  unfold countStep
  dsimp only
  have hlt := toBits_lt (d.rdI (pgFbu c) FBU.RAW + if d.on (pgFbu c) FBU.DIR then -k else k)
  generalize toBits 32 (d.rdI (pgFbu c) FBU.RAW + if d.on (pgFbu c) FBU.DIR then -k else k) = v at hlt ⊢
  obtain ⟨hst, hcount⟩ := formCount_shows c t (d.wr (pgFbu c) FBU.RAW v)
  have hraw : (d.wr (pgFbu c) FBU.RAW v).rd (pgFbu c) FBU.RAW = v := (rd_wr_self _ _ _ _ (by decide)).trans (Nat.mod_eq_of_lt hlt)
  have hoff : ∀ g : Fld, g.off = FBU.HYS.off → (d.wr (pgFbu c) FBU.RAW v).on (pgFbu c) g = d.on (pgFbu c) g := by
    intro g hg
    unfold Dev.on
    rw [rd_wr_off _ _ FBU.RAW _ _ _ (by rw [hg]; decide)]
  rw [hst FBU.RAW (by unfold besideCount; decide), hraw]
  refine ⟨rfl, fun hh hl h0 => ?_⟩
  rw [hcount ((hoff FBU.HYS rfl).trans hh) ((hoff FBU.LIMEN rfl).trans hl)
    ((congrArg (fun io : LocalIo => io.fbu[c].lost) (wr_io _ _ _ _)).trans h0), hraw]

end

end Sys2Proof.Machine
end

section
/-! PROOFS. Step channels, pulse inputs, lines, serial frames and the safe chain (R384 to R415). -/
namespace Sys2Proof.Machine

/-! ## Step channels (R406) -/

theorem stp_setStp (n : Fin 16) (x : StepDyn) (d : Dev) : (d.setStp n x).stp n = x := Vector.getElem_set_self n.isLt

section
variable (n : Fin 16) (t : Nat) (d : Dev)

/-- The channel with its next step counted, and then shown idle after the last step of the cycle. -/
def stepMoved : Dev :=
  ((d.at t).setStp n { d.stp n with i := (d.stp n).i + 1 }).wr (pgSgc n) SGC.SPOS
    (toBits 32 (((d.at t).setStp n { d.stp n with i := (d.stp n).i + 1 }).rdI (pgSgc n) SGC.SPOS + (if (d.stp n).neg then -1 else 1)))

def stepShown : Dev := if (d.stp n).i + 1 = (d.stp n).m then (stepMoved n t d).wr (pgSgc n) SGC.RUN 0 else stepMoved n t d

/-- When a step leaves the pin. -/
def stepBegins : Nat :=
  (d.stp n).tick + 16 * ((d.stp n).a + (2 * (d.stp n).i + 1) * (d.period / 16 - (d.stp n).a) / (2 * (d.stp n).m))

/-- The step on the pins, before its edges reach the probes. -/
def stepOut : Dev := (stepShown n t d).emit (.step n ((d.stp n).neg != (stepMoved n t d).on (pgSgc n) SGC.SDINV)
  (!(stepMoved n t d).on (pgSgc n) SGC.SPINV) (stepBegins n d))

theorem stepPulse_eq (h : d.on (pgSgc n) SGC.SEN = true) (hm : (d.stp n).i < (d.stp n).m) : ∃ l1 l2 : Bool, ∃ t2 : Nat,
    stepPulse n t d = pinEdge (0x50 + n.val) l2 t2 (pinEdge (0x50 + n.val) l1 (stepBegins n d) (stepOut n t d)) := by
  unfold stepPulse
  extract_lets pg x begins d1 d2 idle d3
  rw [if_pos ⟨h, hm⟩]
  exact ⟨!idle, idle, _, rfl⟩

theorem stepMoved_shows : (stepMoved n t d).rd (pgSgc n) SGC.SPOS =
      toBits 32 (d.rdI (pgSgc n) SGC.SPOS + if (d.stp n).neg then -1 else 1) ∧
    (stepMoved n t d).stp n = { d.stp n with i := (d.stp n).i + 1 } ∧
    (stepMoved n t d).mem = d.mem ∧ (stepMoved n t d).out = d.out ∧
    ∀ p g, g.off ≠ SGC.SPOS.off → g.off < 4096 → (stepMoved n t d).rd p g = d.rd p g := by
  unfold stepMoved
  refine ⟨?_, ?_, wr_mem _ _ _ _, wr_out _ _ _ _, fun p g hg ho => ?_⟩
  · rw [rd_wr_self _ _ _ _ (by decide)]
    exact Nat.mod_eq_of_lt (toBits_lt _)
  · exact (congrArg (fun io : LocalIo => io.stp[n]) (wr_io _ _ _ _)).trans (stp_setStp n _ _)
  · exact rd_wr_off _ _ SGC.SPOS _ _ _ (by rw [Nat.mod_eq_of_lt ho]; exact fun h => hg h.symm)

theorem stepShown_shows : (stepShown n t d).rd (pgSgc n) SGC.SPOS = (stepMoved n t d).rd (pgSgc n) SGC.SPOS ∧
    (stepShown n t d).io = (stepMoved n t d).io ∧ (stepShown n t d).mem = (stepMoved n t d).mem ∧
    (stepShown n t d).out = (stepMoved n t d).out ∧
    (∀ g, g.off < 4096 → (stepShown n t d).rd pgCAP g = (stepMoved n t d).rd pgCAP g) ∧
    ((d.stp n).i + 1 = (d.stp n).m → (stepShown n t d).rd (pgSgc n) SGC.RUN = 0) := by
  have hn := n.isLt
  unfold stepShown
  split
  · refine ⟨rd_wr_off _ _ SGC.RUN _ _ _ (by decide), wr_io _ _ _ _, wr_mem _ _ _ _, wr_out _ _ _ _, fun g hg => ?_, fun _ =>
      rd_wr_self _ _ _ _ (by decide)⟩
    exact rd_wr_key _ _ SGC.RUN _ _ _ fun h => absurd (regKey_inj (by unfold pgSgc; omega) (by decide) (by decide) hg h).1
      (by unfold pgSgc pgCAP; omega)
  · exact ⟨rfl, rfl, rfl, rfl, fun _ _ => rfl, fun h => absurd h ‹_›⟩

end

theorem stepPulse_shows {n : Fin 16} (t : Nat) {d : Dev} (h : d.on (pgSgc n) SGC.SEN = true) (hm : (d.stp n).i < (d.stp n).m) :
    (stepPulse n t d).rd (pgSgc n) SGC.SPOS = toBits 32 (d.rdI (pgSgc n) SGC.SPOS + if (d.stp n).neg then -1 else 1) ∧
    ((stepPulse n t d).stp n).i = (d.stp n).i + 1 ∧
    ((d.stp n).i + 1 = (d.stp n).m → (stepPulse n t d).on (pgSgc n) SGC.RUN = false) ∧
    ((∀ e, e < 64 → d.rd pgCAP (CAP.SRC.nth 4 e) ≠ 0x50 + n.val) → (stepPulse n t d).mem = d.mem ∧
      ∃ at', (stepPulse n t d).out =
        .step n ((d.stp n).neg != d.on (pgSgc n) SGC.SDINV) (!d.on (pgSgc n) SGC.SPINV) at' :: d.out) := by
  have hn := n.isLt
  obtain ⟨l1, l2, t2, heq⟩ := stepPulse_eq n t d h hm
  obtain ⟨hpos, hstp, hmem, hout, hrd⟩ := stepMoved_shows n t d
  obtain ⟨spos, sio, smem, sout, srd, srun⟩ := stepShown_shows n t d
  have hk := (keeps_pinEdge (0x50 + n.val) l1 (stepBegins n d) (stepOut n t d)).trans (keeps_pinEdge (0x50 + n.val) l2 t2 _)
  rw [← heq] at hk
  have hfield : ∀ g : Fld, g.off < 4096 → g.off ≠ HDR.PEVT.off → (stepPulse n t d).rd (pgSgc n) g = (stepShown n t d).rd (pgSgc n) g :=
    fun g ho hv => hk.toLeaves.rd (by unfold pgSgc; omega) ho (by unfold capPage eventPage pgSgc pgEVT pgTSU pgCAP; omega) hv
  refine ⟨?_, ?_, fun hlast => ?_, fun hwatch => ?_⟩
  · rw [hfield _ (by decide) (by decide), spos, hpos]
  · have hio : (stepPulse n t d).io = (stepMoved n t d).io := hk.io.trans sio
    have hs : (stepPulse n t d).stp n = (stepMoved n t d).stp n := congrArg (fun io : LocalIo => io.stp[n]) hio
    rw [hs, hstp]
  · unfold Dev.on
    rw [hfield _ (by decide) (by decide), srun hlast]
    rfl
  · have hfree : ∀ e, e < 64 → (stepOut n t d).rd pgCAP (CAP.SRC.nth 4 e) ≠ 0x50 + n.val := fun e he hsrc => by
      have h4 : (CAP.SRC.nth 4 e).off < 4096 := by
        unfold Fld.nth CAP.SRC
        dsimp only
        omega
      have h5 : (CAP.SRC.nth 4 e).off ≠ SGC.SPOS.off := by
        unfold Fld.nth CAP.SRC SGC.SPOS
        dsimp only
        omega
      exact hwatch e he (((srd _ h4).trans (hrd _ _ h5 h4)).symm.trans hsrc)
    rw [heq, pinEdge_unwatched hfree, pinEdge_unwatched hfree]
    refine ⟨smem.trans hmem, stepBegins n d, ?_⟩
    have hon : ∀ g : Fld, g.off ≠ SGC.SPOS.off → g.off < 4096 → (stepMoved n t d).on (pgSgc n) g = d.on (pgSgc n) g :=
      fun g hg ho => by unfold Dev.on; rw [hrd _ g hg ho]
    unfold stepOut
    rw [emit_out, sout, hout, hon _ (by decide) (by decide), hon _ (by decide) (by decide)]

/-! ## Held changes of input lines (R384) -/

theorem eraseDups_of_all {t : Nat} {l : List Nat} (h : ∀ x ∈ l, x = t) (hne : l ≠ []) : l.eraseDups = [t] := by
  cases l with
  | nil => exact absurd rfl hne
  | cons x l =>
    have hx : x = t := h x (.head _)
    have hl : l.filter (fun b => !b == x) = [] := List.filter_eq_nil_iff.2 fun y hy => by
      rw [hx, h y (.tail _ hy)]
      simp
    rw [List.eraseDups_cons, hl, hx]
    rfl

theorem holdLine_cases (i : Nat) (v level : Bool) (t : Nat) (l : List Held) :
    ((∀ h ∈ l, h.line ≠ i) → level = v → holdLine i v level t l = l) ∧
    ((∀ h ∈ l, h.line ≠ i) → level ≠ v → holdLine i v level t l = l ++ [⟨i, level, t⟩]) ∧
    ((∃ h ∈ l, h.line = i) → level = v → holdLine i v level t l = l.filter fun h => h.line != i) ∧
    ((∃ h ∈ l, h.line = i) → level ≠ v → holdLine i v level t l = l) := by
  have hany : (l.any fun h => h.line == i) = true ↔ ∃ h ∈ l, h.line = i := by
    rw [List.any_eq_true]
    exact exists_congr fun h => and_congr_right fun _ => beq_iff_eq
  have hno : (∀ h ∈ l, h.line ≠ i) → ¬ (l.any fun h => h.line == i) = true := fun h hc => by
    obtain ⟨x, hx, hi⟩ := hany.1 hc
    exact h x hx hi
  unfold holdLine
  exact ⟨fun h hv => (if_neg (hno h)).trans (if_pos hv), fun h hv => (if_neg (hno h)).trans (if_neg hv),
    fun h hv => (if_pos (hany.2 h)).trans (if_pos hv), fun h hv => (if_pos (hany.2 h)).trans (if_neg hv)⟩

/-- What two lines without a held change hold after new levels at `t`. -/
theorem holdLine_two (va vb a b : Bool) (t : Nat) : ∀ l, l = holdLine 1 vb b t (holdLine 0 va a t []) →
    (∀ h ∈ l, h.t = t) ∧ heldLevel 0 va l = a ∧ heldLevel 1 vb l = b ∧ (l = [] → va = a ∧ vb = b) := by
  rintro l rfl
  by_cases ha : a = va <;> by_cases hb : b = vb <;> simp [holdLine, heldLevel, ha, hb]

/-! ## Feedback inputs past the filter -/

theorem fbu_mapFbu (c : Fin 8) (f : FbuDyn → FbuDyn) (d : Dev) : (d.mapFbu c f).fbu c = f (d.fbu c) := Vector.getElem_set_self c.isLt

theorem mapFbu_congr {c : Fin 8} {f g : FbuDyn → FbuDyn} {d : Dev} (h : f (d.fbu c) = g (d.fbu c)) : d.mapFbu c f = d.mapFbu c g := by
  unfold Dev.mapFbu
  rw [h]

theorem mapFbu_same {c : Fin 8} {f : FbuDyn → FbuDyn} {d : Dev} (h : f (d.fbu c) = d.fbu c) : d.mapFbu c f = d := by
  have hv : d.io.fbu.set c (f (d.fbu c)) = d.io.fbu := by
    rw [h]
    exact Vector.set_getElem_self c.isLt
  unfold Dev.mapFbu
  rw [hv]

theorem settleFbu_none {c : Fin 8} {now : Nat} {d : Dev} (h : ∀ e ∈ (d.fbu c).held, now < e.t + d.filterOf c) :
    settleFbu c now d = d := by
  have hnone : (d.fbu c).held.filter (fun h => decide (h.t + d.filterOf c ≤ now)) = [] :=
    List.filter_eq_nil_iff.2 fun e he => by
      have := h e he
      simp only [decide_eq_true_eq]
      omega
  have hall : (d.fbu c).held.filter (fun h => !decide (h.t + d.filterOf c ≤ now)) = (d.fbu c).held :=
    List.filter_eq_self.2 fun e he => by
      have := h e he
      simp only [Bool.not_eq_true', decide_eq_false_iff_not]
      omega
  unfold settleFbu
  dsimp only
  rw [hnone, mapFbu_same (by rw [hall])]
  rfl

theorem settleFbu_one {c : Fin 8} {now : Nat} {d : Dev} {e : Held} (h : (d.fbu c).held = [e]) (hdue : e.t + d.filterOf c ≤ now) :
    settleFbu c now d = countEdge c (if e.line = 0 then e.level else (d.fbu c).a) (if e.line = 1 then e.level else (d.fbu c).b)
      (if e.line = 2 then e.level else (d.fbu c).z) e.t (d.mapFbu c fun x => { x with held := [] }) := by
  have hf : (d.fbu c).held.filter (fun h => decide (h.t + d.filterOf c ≤ now)) = [e] := by
    rw [h]
    exact List.filter_eq_self.2 fun y hy => by rw [List.mem_singleton.1 hy]; exact decide_eq_true hdue
  have hm : (d.mapFbu c fun x => { x with held := x.held.filter fun h => !decide (h.t + d.filterOf c ≤ now) }) =
      d.mapFbu c fun x => { x with held := [] } := by
    have : (d.fbu c).held.filter (fun h => !decide (h.t + d.filterOf c ≤ now)) = [] := by
      rw [h]
      exact List.filter_eq_nil_iff.2 fun y hy => by rw [List.mem_singleton.1 hy, decide_eq_true hdue]; exact Bool.false_ne_true
    exact mapFbu_congr (by rw [this])
  have hone : ([e].map Held.t).eraseDups = [e.t] := rfl
  have hsame : [e].filter (fun h => h.t == e.t) = [e] :=
    List.filter_eq_self.2 fun y hy => by rw [List.mem_singleton.1 hy]; exact beq_self_eq_true _
  unfold settleFbu
  dsimp only
  rw [hf, hm, hone]
  dsimp only [List.foldl_cons, List.foldl_nil]
  rw [hsame, fbu_mapFbu]
  rfl

end Sys2Proof.Machine
end

section
/-! PROOFS. Pulse inputs, serial frames, and a trip of the safe chain (R387, R408, R411). -/
namespace Sys2Proof.Machine

/-! ## Pulse inputs (R408) -/

theorem pulseIn_mapPulse (i : Fin 4) (f : PulseDyn → PulseDyn) (d : Dev) : (d.mapPulse i f).pulseIn i = f (d.pulseIn i) :=
  Vector.getElem_set_self i.isLt

theorem mapPulse_congr {i : Fin 4} {f g : PulseDyn → PulseDyn} {d : Dev} (h : f (d.pulseIn i) = g (d.pulseIn i)) :
    d.mapPulse i f = d.mapPulse i g := by
  unfold Dev.mapPulse
  rw [h]

theorem mapPulse_same {i : Fin 4} {f : PulseDyn → PulseDyn} {d : Dev} (h : f (d.pulseIn i) = d.pulseIn i) : d.mapPulse i f = d := by
  have hv : d.io.pulse.set i (f (d.pulseIn i)) = d.io.pulse := by
    rw [h]
    exact Vector.set_getElem_self i.isLt
  unfold Dev.mapPulse
  rw [hv]

/-- The width of the filter of a pulse input. -/
def Dev.pulseFilter (d : Dev) (i : Fin 4) : Nat := filterLsb (d.rd pgSGU (SGU.FILT.nth 0x10 i))

theorem settlePulse_none {i : Fin 4} {now : Nat} {d : Dev} (h : ∀ e ∈ (d.pulseIn i).held, now < e.t + d.pulseFilter i) :
    settlePulse i now d = d := by
  have hnone : (d.pulseIn i).held.filter (fun h => decide (h.t + d.pulseFilter i ≤ now)) = [] :=
    List.filter_eq_nil_iff.2 fun e he => by
      have := h e he
      simp only [decide_eq_true_eq]
      omega
  have hall : (d.pulseIn i).held.filter (fun h => !decide (h.t + d.pulseFilter i ≤ now)) = (d.pulseIn i).held :=
    List.filter_eq_self.2 fun e he => by
      have := h e he
      simp only [Bool.not_eq_true', decide_eq_false_iff_not]
      omega
  unfold Dev.pulseFilter at hnone hall
  unfold settlePulse
  dsimp only
  rw [hnone, mapPulse_same (by rw [hall])]
  rfl

/-- Changes of one instant that the filter has passed count together. -/
theorem settlePulse_together {i : Fin 4} {now t : Nat} {d : Dev} (hne : (d.pulseIn i).held ≠ [])
    (h : ∀ e ∈ (d.pulseIn i).held, e.t = t) (hdue : t + d.pulseFilter i ≤ now) :
    settlePulse i now d = countPulse i (heldLevel 0 (d.pulseIn i).a (d.pulseIn i).held) (heldLevel 1 (d.pulseIn i).b (d.pulseIn i).held) t
      (d.mapPulse i fun x => { x with held := [] }) := by
  have hf : (d.pulseIn i).held.filter (fun h => decide (h.t + d.pulseFilter i ≤ now)) = (d.pulseIn i).held :=
    List.filter_eq_self.2 fun e he => by rw [h e he]; exact decide_eq_true hdue
  have hm : (d.mapPulse i fun x => { x with held := x.held.filter fun h => !decide (h.t + d.pulseFilter i ≤ now) }) =
      d.mapPulse i fun x => { x with held := [] } := by
    have : (d.pulseIn i).held.filter (fun h => !decide (h.t + d.pulseFilter i ≤ now)) = [] :=
      List.filter_eq_nil_iff.2 fun e he => by rw [h e he, decide_eq_true hdue]; exact Bool.false_ne_true
    exact mapPulse_congr (by rw [this])
  have hone : ((d.pulseIn i).held.map Held.t).eraseDups = [t] := eraseDups_of_all
    (fun x hx => by obtain ⟨e, he, rfl⟩ := List.mem_map.1 hx; exact h e he) (by simpa using hne)
  have hsame : (d.pulseIn i).held.filter (fun h => h.t == t) = (d.pulseIn i).held :=
    List.filter_eq_self.2 fun e he => by rw [h e he]; exact beq_self_eq_true _
  unfold Dev.pulseFilter at hf hm
  unfold settlePulse
  dsimp only
  rw [hf, hm, hone]
  dsimp only [List.foldl_cons, List.foldl_nil]
  rw [hsame, pulseIn_mapPulse]

/-- The step of a pulse input, in the direction of PDIR. -/
def Dev.pulseMove (d : Dev) (i : Fin 4) (k : Int) : Int := if d.on pgSGU (SGU.PDIR.nth 0x10 i) then -k else k

theorem pulseStep_still (mode : Nat) (a b : Bool) : pulseStep mode a b a b = 0 := by
  have h4 : ∀ m, m < 4 → pulseStep m a b a b = 0 := by cases a <;> cases b <;> decide
  by_cases h : mode < 4
  · exact h4 mode h
  · obtain ⟨k, rfl⟩ : ∃ k, mode = k + 4 := ⟨mode - 4, by omega⟩
    rfl

theorem pcnt_still (d : Dev) (i : Fin 4) : toBits 32 (d.rdI pgSGU (SGU.PCNT.nth 0x10 i) + d.pulseMove i 0) =
    d.rd pgSGU (SGU.PCNT.nth 0x10 i) := by
  have hz : d.pulseMove i 0 = 0 := by
    unfold Dev.pulseMove
    split <;> rfl
  rw [hz, add_zero]
  exact toBits_sxt (rd_lt d pgSGU (SGU.PCNT.nth 0x10 i))

theorem countPulse_shows (i : Fin 4) (a b : Bool) (t : Nat) (d : Dev) {k : Int}
    (hk : k = pulseStep (d.rd pgSGU (SGU.PMODE.nth 0x10 i)) (d.pulseIn i).a (d.pulseIn i).b a b) :
    ((countPulse i a b t d).pulseIn i).a = a ∧ ((countPulse i a b t d).pulseIn i).b = b ∧ (countPulse i a b t d).mem = d.mem ∧
    (countPulse i a b t d).rd pgSGU (SGU.PCNT.nth 0x10 i) = toBits 32 (d.rdI pgSGU (SGU.PCNT.nth 0x10 i) + d.pulseMove i k) := by
  have hi := i.isLt
  unfold countPulse
  extract_lets x f s d1 s1 tag d2 d3
  have hks : k = s := hk
  have hx : d1.pulseIn i = { d.pulseIn i with a := a, b := b } := pulseIn_mapPulse i _ d
  have h1 : ∀ g, d1.rd pgSGU g = d.rd pgSGU g := fun g => rfl
  split
  · refine ⟨by rw [hx], by rw [hx], rfl, ?_⟩
    rw [h1, hks, ‹s = 0›, pcnt_still]
  · have hx3 : d3.pulseIn i = { d.pulseIn i with a := a, b := b } := by
      refine (congrArg (fun io : LocalIo => io.pulse[i]) (?_ : d3.io = d1.io)).trans hx
      unfold d3 d2
      rw [wr_io, wr_io, wr_io]
    have hm : (d3.mapPulse i fun x => { x with t1 := tag, t2 := x.t1, up1 := some (decide (0 < s1)), up2 := x.up1 }).pulseIn i =
      { d3.pulseIn i with t1 := tag, t2 := (d3.pulseIn i).t1, up1 := some (decide (0 < s1)), up2 := (d3.pulseIn i).up1 } :=
      pulseIn_mapPulse i _ d3
    refine ⟨by rw [hm, hx3], by rw [hm, hx3], ?_, ?_⟩
    · show d3.mem = d.mem
      unfold d3 d2
      rw [wr_mem, wr_mem, wr_mem]
      rfl
    · show d3.rd pgSGU (SGU.PCNT.nth 0x10 i) = _
      unfold d3
      rw [rd_wr_off _ _ (f SGU.PT1) _ _ _ (by unfold f Fld.nth SGU.PT1 SGU.PCNT; dsimp only; omega),
        rd_wr_off _ _ (f SGU.PT2) _ _ _ (by unfold f Fld.nth SGU.PT2 SGU.PCNT; dsimp only; omega)]
      unfold d2
      rw [hks]
      exact (rd_wr_self d1 pgSGU (f SGU.PCNT) _ (show 0 + 32 ≤ 32 by decide)).trans (Nat.mod_eq_of_lt (toBits_lt _))

/-- Without a filter, new levels of two lines count at once. -/
theorem settlePulse_unfiltered {i : Fin 4} {a b : Bool} {t : Nat} {k : Int} {d : Dev} (hf : d.rd pgSGU (SGU.FILT.nth 0x10 i) = 0)
    (hh : (d.pulseIn i).held = holdLine 1 (d.pulseIn i).b b t (holdLine 0 (d.pulseIn i).a a t []))
    (hk : k = pulseStep (d.rd pgSGU (SGU.PMODE.nth 0x10 i)) (d.pulseIn i).a (d.pulseIn i).b a b) :
    ((settlePulse i t d).pulseIn i).a = a ∧ ((settlePulse i t d).pulseIn i).b = b ∧ (settlePulse i t d).mem = d.mem ∧
    (settlePulse i t d).rd pgSGU (SGU.PCNT.nth 0x10 i) = toBits 32 (d.rdI pgSGU (SGU.PCNT.nth 0x10 i) + d.pulseMove i k) := by
  obtain ⟨ht, ha, hb, hempty⟩ := holdLine_two (d.pulseIn i).a (d.pulseIn i).b a b t _ hh
  by_cases hl : (d.pulseIn i).held = []
  · obtain ⟨rfl, rfl⟩ := hempty hl
    rw [settlePulse_none fun e he => absurd (hl ▸ he) List.not_mem_nil, hk, pulseStep_still, pcnt_still]
    exact ⟨rfl, rfl, rfl, rfl⟩
  · have hw : d.pulseFilter i = 0 := by
      unfold Dev.pulseFilter
      rw [hf]
      rfl
    rw [settlePulse_together hl ht (by rw [hw]; exact Nat.le_refl t), ha, hb]
    exact countPulse_shows i a b t _ (hk.trans (by rw [pulseIn_mapPulse]; rfl))

/-- New levels at the pins are held; they reach the probes alone. -/
theorem pulsePins_shows (i : Fin 4) (a b : Bool) (t : Nat) (d : Dev) :
    (pulsePins i a b t d).pulseIn i =
      { d.pulseIn i with held := holdLine 1 (d.pulseIn i).b b t (holdLine 0 (d.pulseIn i).a a t (d.pulseIn i).held) } ∧
    (∀ g, g.off < 4096 → g.off ≠ HDR.PEVT.off → (pulsePins i a b t d).rd pgSGU g = d.rd pgSGU g) ∧
    ((∀ e, e < 64 → d.rd pgCAP (CAP.SRC.nth 4 e) ≠ 0x38 + 2 * i.val ∧ d.rd pgCAP (CAP.SRC.nth 4 e) ≠ 0x39 + 2 * i.val) →
      (pulsePins i a b t d).mem = d.mem) := by
  have hk := (keeps_pinEdge (0x38 + 2 * i.val) a t d).trans (keeps_pinEdge (0x38 + 2 * i.val + 1) b t _)
  refine ⟨?_, fun g ho hv => ?_, fun hwatch => ?_⟩
  · refine (pulseIn_mapPulse i _ _).trans ?_
    rw [show (pinEdge (0x38 + 2 * i.val + 1) b t (pinEdge (0x38 + 2 * i.val) a t d)).pulseIn i = d.pulseIn i from
      congrArg (fun io : LocalIo => io.pulse[i]) hk.io]
  · exact hk.toLeaves.rd (by decide) ho (by unfold capPage eventPage; decide) hv
  · have h1 : pinEdge (0x38 + 2 * i.val) a t d = d := pinEdge_unwatched (fun e he => (hwatch e he).1) a t
    have h2 : pinEdge (0x38 + 2 * i.val + 1) b t d = d := pinEdge_unwatched (fun e he h => (hwatch e he).2 (h.trans (by omega))) b t
    show (pinEdge (0x38 + 2 * i.val + 1) b t (pinEdge (0x38 + 2 * i.val) a t d)).mem = d.mem
    rw [h1, h2]

theorem filterLsb_pos {code : Nat} (h : code ≠ 0) : 0 < filterLsb code := by
  unfold filterLsb tenNs
  rw [if_neg h]
  positivity

/-- Without a filter, new levels count at once; with one they are held. -/
theorem pulseEdge_shows {i : Fin 4} {a b : Bool} (t : Nat) {k : Int} {d : Dev} (hs : d.stage ≠ 0) (hh : (d.pulseIn i).held = [])
    (hk : k = pulseStep (d.rd pgSGU (SGU.PMODE.nth 0x10 i)) (d.pulseIn i).a (d.pulseIn i).b a b) :
    ((∀ e, e < 64 → d.rd pgCAP (CAP.SRC.nth 4 e) ≠ 0x38 + 2 * i.val ∧ d.rd pgCAP (CAP.SRC.nth 4 e) ≠ 0x39 + 2 * i.val) →
      (pulseEdge i a b t d).mem = d.mem) ∧
    (d.rd pgSGU (SGU.FILT.nth 0x10 i) = 0 → ((pulseEdge i a b t d).pulseIn i).a = a ∧ ((pulseEdge i a b t d).pulseIn i).b = b ∧
      (pulseEdge i a b t d).rd pgSGU (SGU.PCNT.nth 0x10 i) = toBits 32 (d.rdI pgSGU (SGU.PCNT.nth 0x10 i) + d.pulseMove i k)) ∧
    (d.rd pgSGU (SGU.FILT.nth 0x10 i) ≠ 0 → ((pulseEdge i a b t d).pulseIn i).a = (d.pulseIn i).a ∧
      ((pulseEdge i a b t d).pulseIn i).b = (d.pulseIn i).b ∧
      (pulseEdge i a b t d).rd pgSGU (SGU.PCNT.nth 0x10 i) = d.rd pgSGU (SGU.PCNT.nth 0x10 i) ∧
      ((pulseEdge i a b t d).pulseIn i).held = holdLine 1 (d.pulseIn i).b b t (holdLine 0 (d.pulseIn i).a a t [])) := by
  have hi := i.isLt
  have hnone : settlePulse i t (d.at t) = d.at t := settlePulse_none fun e he => absurd (hh ▸ he : e ∈ []) List.not_mem_nil
  obtain ⟨hx, hrd, hmem⟩ := pulsePins_shows i a b t (d.at t)
  rw [show (d.at t).pulseIn i = d.pulseIn i from rfl, hh] at hx
  have hsgu : ∀ f : Fld, f.off < 0x100 → HDR.PEVT.off < f.off →
      (pulsePins i a b t (d.at t)).rd pgSGU (f.nth 0x10 i) = d.rd pgSGU (f.nth 0x10 i) := fun f ho hv =>
    hrd _ (by unfold Fld.nth; dsimp only; omega) (by unfold Fld.nth; dsimp only; omega)
  have heq : pulseEdge i a b t d = settlePulse i t (pulsePins i a b t (d.at t)) := by
    unfold pulseEdge
    rw [if_neg hs, hnone]
  rw [heq]
  have hfilt := hsgu SGU.FILT (by decide) (by decide)
  have hpcnt := hsgu SGU.PCNT (by decide) (by decide)
  have hmode := hsgu SGU.PMODE (by decide) (by decide)
  have hdir := hsgu SGU.PDIR (by decide) (by decide)
  have hmem' : (∀ e, e < 64 → d.rd pgCAP (CAP.SRC.nth 4 e) ≠ 0x38 + 2 * i.val ∧ d.rd pgCAP (CAP.SRC.nth 4 e) ≠ 0x39 + 2 * i.val) →
      (pulsePins i a b t (d.at t)).mem = d.mem := hmem
  generalize pulsePins i a b t (d.at t) = p at *
  by_cases hf : d.rd pgSGU (SGU.FILT.nth 0x10 i) = 0
  · obtain ⟨ha, hb, hm, hc⟩ := settlePulse_unfiltered (k := k) (a := a) (b := b) (t := t) (hfilt.trans hf) (by rw [hx]) (by rw [hx, hmode]; exact hk)
    refine ⟨fun h => hm.trans (hmem' h), fun _ => ⟨ha, hb, hc.trans ?_⟩, fun h => absurd hf h⟩
    unfold Dev.pulseMove Dev.rdI Dev.on
    rw [hpcnt, hdir]
  · have hw : 0 < p.pulseFilter i := by
      unfold Dev.pulseFilter
      rw [hfilt]
      exact filterLsb_pos hf
    have ht := (holdLine_two (d.pulseIn i).a (d.pulseIn i).b a b t _ rfl).1
    rw [settlePulse_none fun e he => by
      rw [hx] at he
      have := ht e he
      omega]
    exact ⟨hmem', fun h => absurd h hf, fun _ => ⟨by rw [hx], by rw [hx], hpcnt, by rw [hx]⟩⟩

end Sys2Proof.Machine
end

section
/-! PROOFS. Serial frames and a trip of the safe chain (R387, R411). -/
namespace Sys2Proof.Machine

/-! ## Serial frames (R387) -/

section
variable (c : Fin 8) (delay bits : Nat) (d : Dev)

/-- The registers of a frame: the sample of the tick is beside them. -/
theorem rd_serialSampled (p : Nat) (g : Fld) (hp : p < 1024) (ho : g.off < 4096) (hv : g.off ≠ HDR.PEVT.off) :
    (serialSampled c delay bits d).rd p g = (serialFrame c delay bits d).rd p g := by
  unfold serialSampled
  extract_lets was d1 s m d2
  refine Leaves.rd (K := fun _ => False) (Leaves.ite (fun _ => Leaves.refl _ d1) fun _ => ?_) hp ho id hv
  have h2 : Leaves (fun _ => False) d1 d2 := leaves_withMot d1 _
  refine h2.trans (Leaves.foldl _ _ (fun d n _ => ?_) d2)
  beta_reduce
  extract_lets d3
  have h3 : Leaves (fun _ => False) d d3 := Leaves.ite (fun _ => leaves_withMot d _) fun _ => Leaves.refl _ d
  exact h3.trans (Leaves.ite (fun _ => leaves_withMot d3 _) fun _ => Leaves.refl _ d3)

/-- A frame found late or marked as wrong, with its delay shown where it was not late. -/
def serialShown (err : Bool) : Dev :=
  let d := if delay ≤ 2000 then d.wr (pgFbu c) FBU.SDLY (delay / 10) else d
  showFerr c ((d.mapFbu c fun x => { x with serr := err }).wr (pgFbu c) FBU.SERR (b2n err))

/-- The first position of a channel. -/
def serialFirst (p : Nat) : Dev := formCount c d.st ((d.mapFbu c fun x => { x with serial := some p }).wr (pgFbu c) FBU.RAW p)

end

theorem serialFrame_late {c : Fin 8} {delay bits : Nat} {d : Dev} (hs : d.stage ≠ 0) (hm : d.rd (pgFbu c) FBU.MODE = 3)
    (hd : 2000 < delay) : serialFrame c delay bits d = fbuEvent c 4 (serialShown c delay d true) := by
  unfold serialFrame
  extract_lets pg pbits pofs err d1 d2
  have herr : err = true := by
    show (decide (2000 < delay) || _) = true
    rw [decide_eq_true hd]
    rfl
  rw [if_neg (not_or.2 ⟨hs, not_not.2 hm⟩), if_pos herr]
  unfold d2
  rw [herr]
  rfl

/-- The position of the first frame without Gray code. -/
theorem serialFrame_first {c : Fin 8} {delay bits : Nat} {d : Dev} (hs : d.stage ≠ 0) (hm : d.rd (pgFbu c) FBU.MODE = 3)
    (hd : delay ≤ 2000) (he : d.on (pgFbu c) FBU.EBIT = false) (hser : (d.fbu c).serial = none) :
    ∃ p, serialFrame c delay bits d = serialFirst c (serialShown c delay d false) p ∧
      ((serialShown c delay d false).on (pgFbu c) FBU.GRAY = false →
        p = framePos bits (d.rd (pgFbu c) FBU.POFS) (d.rd (pgFbu c) FBU.PBITS)) := by
  unfold serialFrame
  extract_lets pg pbits pofs err d1 d2 g p prev d3
  have herr : err = false := by
    show (decide (2000 < delay) || _ && _) = false
    rw [decide_eq_false (by omega), he]
    rfl
  have h2 : d2 = serialShown c delay d false := by
    unfold d2
    rw [herr]
    rfl
  have hprev : prev = none := by
    have h1 : d1.io = d.io := by
      show (if _ then _ else _ : Dev).io = _
      split
      · exact wr_io _ _ _ _
      · rfl
    have hio : d2.io = (d1.mapFbu c fun x => { x with serr := err }).io := by
      unfold d2 showFerr
      dsimp only
      rw [wr_io, wr_io]
    have hf : d2.fbu c = { d1.fbu c with serr := err } :=
      (congrArg (fun io : LocalIo => io.fbu[c]) hio).trans (fbu_mapFbu c _ d1)
    show (d2.fbu c).serial = none
    rw [hf]
    exact (congrArg (fun io : LocalIo => io.fbu[c].serial) h1).trans hser
  rw [if_neg (not_or.2 ⟨hs, not_not.2 hm⟩), if_neg (not_true herr)]
  clear_value prev
  subst hprev
  refine ⟨p, ?_, fun hg => ?_⟩
  · show formCount c d3.st (d3.wr (pgFbu c) FBU.RAW p) = _
    unfold d3
    clear_value p
    rw [h2]
    rfl
  · rw [← h2] at hg
    exact if_neg (not_true hg)

section
variable (c : Fin 8) (delay : Nat) (d : Dev) (err : Bool)

theorem serialShown_shows : (serialShown c delay d err).rd (pgFbu c) FBU.SERR = b2n err ∧
    (err = true → (serialShown c delay d err).rd (pgFbu c) FBU.FERR = 1) ∧
    (delay ≤ 2000 → (serialShown c delay d err).rd (pgFbu c) FBU.SDLY = delay / 10) ∧
    ∀ g, g.off ≠ FBU.SERR.off → g.off < 4096 → (serialShown c delay d err).rd (pgFbu c) g = d.rd (pgFbu c) g := by
  unfold serialShown showFerr
  extract_lets d1 pg
  have hb : b2n err < 2 := by cases err <;> decide
  refine ⟨?_, fun he => ?_, fun hd => ?_, fun g hg ho => ?_⟩
  · rw [rd_wr_beside _ _ FBU.FERR FBU.SERR _ (by decide) rfl (by decide), rd_wr_self _ _ _ _ (by decide)]
    exact Nat.mod_eq_of_lt hb
  · have hserr : (((d1.mapFbu c fun x => { x with serr := err }).wr (pgFbu c) FBU.SERR (b2n err)).fbu c).serr = true :=
      (congrArg (fun io : LocalIo => io.fbu[c].serr) (wr_io _ _ _ _)).trans ((congrArg FbuDyn.serr (fbu_mapFbu c _ d1)).trans he)
    rw [rd_wr_self _ _ _ _ (by decide), hserr, Bool.or_true, Bool.true_or]
    rfl
  · have h1 : d1.rd (pgFbu c) FBU.SDLY = delay / 10 := by
      unfold d1
      rw [if_pos hd, rd_wr_self _ _ _ _ (by decide)]
      exact Nat.mod_eq_of_lt (by unfold FBU.SDLY; dsimp only; omega)
    rw [rd_wr_beside _ _ FBU.FERR FBU.SDLY _ (by decide) rfl (by decide), rd_wr_beside _ _ FBU.SERR FBU.SDLY _ (by decide) rfl (by decide)]
    exact h1
  · have hoff : ∀ f : Fld, f.off = FBU.SERR.off → f.off % 4096 ≠ g.off % 4096 := fun f hf => by
      rw [hf, Nat.mod_eq_of_lt ho]
      exact fun h => hg h.symm
    rw [rd_wr_off _ _ FBU.FERR _ _ _ (hoff _ rfl), rd_wr_off _ _ FBU.SERR _ _ _ (hoff _ rfl)]
    show d1.rd (pgFbu c) g = _
    unfold d1
    split
    · exact rd_wr_off _ _ FBU.SDLY _ _ _ (hoff _ rfl)
    · rfl

theorem serialFirst_shows (p : Nat) : (serialFirst c d p).rd (pgFbu c) FBU.RAW = p % 2 ^ 32 ∧
    ∀ g, besideCount g → g.off ≠ FBU.RAW.off → (serialFirst c d p).rd (pgFbu c) g = d.rd (pgFbu c) g := by
  have hst := (formCount_shows c d.st ((d.mapFbu c fun x => { x with serial := some p }).wr (pgFbu c) FBU.RAW p)).1
  refine ⟨(hst FBU.RAW (by unfold besideCount; decide)).trans (rd_wr_self _ _ _ _ (by decide)), fun g hg hne => (hst g hg).trans ?_⟩
  obtain ⟨-, hlt, -⟩ := hg
  exact rd_wr_off _ _ FBU.RAW _ _ _ (show 0x4c % 4096 ≠ g.off % 4096 by
    have : g.off ≠ 0x4c := hne
    omega)

end

/-! ## A trip of the safe chain (R411) -/

/-- From released to holding: the chain with the cause, the time and the count of the trip. -/
def safTripped (cause : Nat) (d : Dev) : Dev :=
  let d := (d.wr pgSAF SAF.HOLD 1).wr pgSAF SAF.CAUSE cause
  (d.wr64 pgSAF 0 SAF.STRIPLO.off d.st).incW pgSAF SAF.TRIPS

theorem rd_safTrip_after (cause : Nat) (d : Dev) (g : Fld) (hg : besideSto g) (ho : g.off < 0x70) (hv : g.off ≠ HDR.PEVT.off) :
    (raise pgSAF 0 cause (tripSto (sendStop (safTripped cause d)))).rd pgSAF g =
      ((d.wr pgSAF SAF.HOLD 1).wr pgSAF SAF.CAUSE cause).rd pgSAF g := by
  rw [rd_raise pgSAF 0 cause pgSAF g _ (by decide) (by decide) (by decide) (by omega) not_eventPage_saf fun _ => hv,
    rd_tripSto _ g hg (by omega) hv, (leaves_sendStop (K := fun _ => False) _).rd (by decide) (by omega) id hv]
  unfold safTripped
  extract_lets d1
  refine (rd_wr_off _ pgSAF SAF.TRIPS _ pgSAF g ?_).trans ?_
  · unfold SAF.TRIPS
    dsimp only
    omega
  · unfold Dev.wr64 Dev.rd
    have h2 : SAF.STRIPLO.off = 0x70 := rfl
    rw [rdS_setReg_off _ _ _ _ _ _ _ _ (by omega), rdS_setReg_off _ _ _ _ _ _ _ _ (by omega)]

theorem bitOf_bitsOf {x l w i : Nat} (h : i < w) : bitOf (bitsOf x l w) i = bitOf x (l + i) := by
  unfold bitsOf
  rw [bitOf_eq_testBit, bitOf_eq_testBit, Nat.testBit_mod_two_pow, decide_eq_true h, Bool.true_and, Nat.testBit_div_two_pow,
    Nat.add_comm]

theorem rdBit_wrBit (d : Dev) (p : Nat) (f : Fld) {i : Nat} (v : Bool) (hi : i < f.width) (hf : f.lsb + f.width ≤ 32) :
    (d.wrBit p f i v).rdBit p f i = v := by
  have hself := rd_wr_self d p ⟨f.off, f.lsb + i, 1⟩ (b2n v) (show f.lsb + i + 1 ≤ 32 by omega)
  have hbit : bitsOf ((d.wrBit p f i v).reg p 0 f.off).toNat (f.lsb + i) 1 = b2n v % 2 := hself
  unfold Dev.rdBit Dev.rd Dev.rdS
  rw [bitOf_bitsOf hi]
  unfold bitsOf at hbit
  rw [pow_one] at hbit
  unfold bitOf
  rw [hbit]
  cases v <;> rfl

theorem safTrip_shows {cause : Nat} (n : Fin 4) (d : Dev) (hc : cause < 8) : (safTrip cause SAF.DEMAND n d).on pgSAF SAF.HOLD = true ∧
    (safTrip cause SAF.DEMAND n d).rdBit pgSAF SAF.DEMAND n = true ∧
    (d.on pgSAF SAF.HOLD = false → (safTrip cause SAF.DEMAND n d).rd pgSAF SAF.CAUSE = cause) ∧
    (d.on pgSAF SAF.HOLD = true → (safTrip cause SAF.DEMAND n d).rd pgSAF SAF.CAUSE = d.rd pgSAF SAF.CAUSE) := by
  have hn := n.isLt
  refine ⟨hold_safTrip _ _ _ _, ?_⟩
  have hoff : ∀ g : Fld, g.off = 0x64 → (d.wrBit pgSAF SAF.DEMAND n true).rd pgSAF g = d.rd pgSAF g := fun g hg =>
    rd_wr_off d pgSAF ⟨SAF.DEMAND.off, SAF.DEMAND.lsb + n.val, 1⟩ _ pgSAF g (show 0x68 % 4096 ≠ g.off % 4096 by rw [hg]; decide)
  have hhold : (d.wrBit pgSAF SAF.DEMAND n true).on pgSAF SAF.HOLD = d.on pgSAF SAF.HOLD := by
    unfold Dev.on
    rw [hoff SAF.HOLD rfl]
  have hbit := rdBit_wrBit d pgSAF SAF.DEMAND true hn (by decide)
  have hcause := hoff SAF.CAUSE rfl
  have hdef : safTrip cause SAF.DEMAND n d = if (d.wrBit pgSAF SAF.DEMAND n true).on pgSAF SAF.HOLD then d.wrBit pgSAF SAF.DEMAND n true
      else raise pgSAF 0 cause (tripSto (sendStop (safTripped cause (d.wrBit pgSAF SAF.DEMAND n true)))) := rfl
  rw [hdef, hhold]
  generalize d.wrBit pgSAF SAF.DEMAND n true = e at *
  by_cases h : d.on pgSAF SAF.HOLD = true
  · rw [if_pos h]
    exact ⟨hbit, fun h' => absurd (h.symm.trans h') (by decide), fun _ => hcause⟩
  · rw [if_neg h]
    refine ⟨?_, fun _ => ?_, fun h' => absurd h' h⟩
    · unfold Dev.rdBit
      rw [rd_safTrip_after _ _ _ (.inl (by decide)) (by decide) (by decide), rd_wr_off _ _ SAF.CAUSE _ _ _ (by decide),
        rd_wr_off _ _ SAF.HOLD _ _ _ (by decide)]
      exact hbit
    · rw [rd_safTrip_after _ _ _ (.inr (.inr (by decide))) (by decide) (by decide), rd_wr_self _ _ _ _ (by decide)]
      exact Nat.mod_eq_of_lt (by unfold SAF.CAUSE; dsimp only; omega)

end Sys2Proof.Machine
end

section
/-! PROOFS. Local feedback, step channels, pulse inputs and the safe chain by their events (spec/10). -/
namespace Sys2Proof.Machine

/-! ## Counting edges -/

/-- What new levels bring by the mode of the channel. -/
def lineCounted (c : Fin 8) (a b z : Bool) (t : Nat) (d : Dev) : Dev :=
  match d.rd (pgFbu c) FBU.MODE with
  | 1 => incEdge c a b t d
  | 2 => hallEdge c a b z t d
  | _ => d

section
variable {d : Dev} {c : Fin 8} {a b z : Bool} {t : Nat}

theorem lineCounted_eq {m : Dev}
    (hm : (d.rd (pgFbu c) FBU.MODE = 1 ∧ m = incEdge c a b t d) ∨ (d.rd (pgFbu c) FBU.MODE = 2 ∧ m = hallEdge c a b z t d) ∨
      (d.rd (pgFbu c) FBU.MODE ≠ 1 ∧ d.rd (pgFbu c) FBU.MODE ≠ 2 ∧ m = d)) : lineCounted c a b z t d = m := by
  unfold lineCounted
  rcases hm with ⟨h, rfl⟩ | ⟨h, rfl⟩ | ⟨h1, h2, rfl⟩
  · rw [h]
    rfl
  · rw [h]
    rfl
  · split
    · exact absurd ‹_› h1
    · exact absurd ‹_› h2
    · rfl

theorem countEdge_eq : countEdge c a b z t d =
    if (d.fbu c).z ≠ z ∧ ((lineCounted c a b z t d).mapFbu c fun x => { x with a := a, b := b, z := z }).on (pgFbu c) FBU.LSRC ∧
        (d.rd (pgFbu c) FBU.MODE = 1 ∨ d.rd (pgFbu c) FBU.MODE = 2) then
      latchSource c z t ((lineCounted c a b z t d).mapFbu c fun x => { x with a := a, b := b, z := z })
    else (lineCounted c a b z t d).mapFbu c fun x => { x with a := a, b := b, z := z } := rfl

theorem incEdge_bad {y : Dev} (hy : y = d.mapFbu c (fun x => { x with
      edgeA := if x.a != a then some t else x.edgeA, edgeB := if x.b != b then some t else x.edgeB }))
    (h : (d.fbu c).closeEdge a b (tenNs + d.filterOf c) t = true ∨
      stepOf (d.rd (pgFbu c) FBU.QM) (d.fbu c).a (d.fbu c).b a b = none) :
    incEdge c a b t d = raise (pgFbu c) 1 1 (y.inc (pgFbu c) FBU.QERR) := by
  subst hy
  unfold incEdge
  extract_lets pg x d1 bad
  have hq : d1.rd pg FBU.QM = d.rd (pgFbu c) FBU.QM := rfl
  rcases h with h | h
  · have hb : bad = true := h
    rw [hb]
    rfl
  · rw [hq, h]
    clear_value bad
    cases bad <;> rfl

theorem incEdge_good {y : Dev} (hy : y = d.mapFbu c (fun x => { x with
      edgeA := if x.a != a then some t else x.edgeA, edgeB := if x.b != b then some t else x.edgeB }))
    {k : Int} (h : (d.fbu c).closeEdge a b (tenNs + d.filterOf c) t = false)
    (hk : stepOf (d.rd (pgFbu c) FBU.QM) (d.fbu c).a (d.fbu c).b a b = some k) :
    incEdge c a b t d = if k = 0 then y else countStep c k t y := by
  subst hy
  unfold incEdge
  extract_lets pg x d1 bad
  have hq : d1.rd pg FBU.QM = d.rd (pgFbu c) FBU.QM := rfl
  have hb : bad = false := h
  rw [hq, hk, hb]

end

/-! ## Latches -/

theorem latchSource_cases (c : Fin 8) (rising : Bool) (t : Nat) (d : Dev) {e : Nat} (he : e = d.rd (pgFbu c) FBU.LEDGE) :
    ((e = 3 ∨ (e = 1 ∧ rising = true) ∨ (e = 2 ∧ rising = false)) →
      (d.on (pgFbu c) FBU.LAUTO = true → latchSource c rising t d = latchTake c t d) ∧
      (d.on (pgFbu c) FBU.LAUTO = false → d.on (pgFbu c) FBU.LARMD = true →
        latchSource c rising t d = latchTake c t (d.wr (pgFbu c) FBU.LARMD 0)) ∧
      (d.on (pgFbu c) FBU.LAUTO = false → d.on (pgFbu c) FBU.LARMD = false →
        latchSource c rising t d = d.inc (pgFbu c) FBU.LMISS)) ∧
    ((e = 0 ∨ (e = 1 ∧ rising = false) ∨ (e = 2 ∧ rising = true)) → latchSource c rising t d = d) := by
  unfold latchSource
  dsimp only
  rw [← he]
  refine ⟨fun h => ?_, fun h => if_pos ?_⟩
  · have hno : ¬ (!(e == 3 || (e == 1 && rising) || (e == 2 && !rising))) = true := by
      rcases h with rfl | ⟨rfl, rfl⟩ | ⟨rfl, rfl⟩
      · exact Bool.false_ne_true
      · decide
      · decide
    rw [if_neg hno]
    exact ⟨fun h => if_pos h, fun h h' => (if_neg (not_true h)).trans (if_pos h'),
      fun h h' => (if_neg (not_true h)).trans (if_neg (not_true h'))⟩
  · rcases h with rfl | ⟨rfl, rfl⟩ | ⟨rfl, rfl⟩
    · rfl
    · rfl
    · rfl

/-- A fold in which one element alone does something. -/
theorem foldl_once {α : Type} {f : Dev → α → Dev} {l : List α} {c : α} {d d' : Dev} (hn : l.Nodup) (hc : c ∈ l) (hf : f d c = d')
    (h : ∀ x ∈ l, x ≠ c → f d x = d ∧ f d' x = d') : l.foldl f d = d' := by
  obtain ⟨l1, l2, rfl⟩ := List.append_of_mem hc
  have hne1 : ∀ x ∈ l1, x ≠ c := fun x hx hxc => (List.nodup_append.1 hn).2.2 x hx c (.head _) hxc
  have hne2 : ∀ x ∈ l2, x ≠ c := fun x hx hxc => (List.nodup_cons.1 (List.nodup_append.1 hn).2.1).1 (hxc ▸ hx)
  rw [List.foldl_append, foldl_same f l1 fun x hx => (h x (List.mem_append_left _ hx) (hne1 x hx)).1, List.foldl_cons, hf]
  exact foldl_same f l2 fun x hx => (h x (List.mem_append_right _ (.tail _ hx)) (hne2 x hx)).2

theorem latchEdge_eq {pin : Fin 8} {rising : Bool} {t : Nat} {d x : Dev} (hs : d.stage ≠ 0)
    (hx : x = (pinEdge (0x30 + pin.val) rising t (d.at t)).mapFbu pin (fun y => { y with pin := rising })) :
    ((∀ c : Fin 8, x.latchesOn c pin = false) → latchEdge pin rising t d = x) ∧
    (∀ c : Fin 8, x.latchesOn c pin = true → (∀ c' : Fin 8, c' ≠ c →
        (latchSource c rising t (settleFbu c (t + x.filterOf c) x)).latchesOn c' pin = false ∧ x.latchesOn c' pin = false) →
      latchEdge pin rising t d = latchSource c rising t (settleFbu c (t + x.filterOf c) x)) := by
  unfold latchEdge
  dsimp only
  rw [if_neg hs, ← hx]
  exact ⟨fun h => foldl_same _ _ fun c _ => if_neg (not_true (h c)), fun c hc h =>
    foldl_once (List.nodup_finRange 8) (List.mem_finRange c) (if_pos hc) fun c' _ hne =>
      ⟨if_neg (not_true (h c' hne).2), if_neg (not_true (h c' hne).1)⟩⟩

/-! ## Compare units -/

/-- Does the change that the unit sees still pass its next value? -/
def Dev.spanPasses (d : Dev) (c : Fin 8) (u : Fin 2) : Bool :=
  ((d.fbu c).cmp[u]).span.any fun q => d.passes c u q.1 q.2

theorem compareInTurn_eq (c : Fin 8) (u : Fin 2) (t : Nat) (d : Dev) : compareInTurn c u t d =
    if (d.spanPasses c u || (d.rdC c u FBU.BPOL == 1 && d.cmpBehind c u t)) = true ∧ d.cmpArmed c u ∧ d.rdC c u FBU.CMODE = 2 ∧
        ((d.fbu c).cmp[u]).last + 2 * d.pulseLsb c u ≤ t then
      fireCmp c u (((d.fbu c).cmp[u]).last + 2 * d.pulseLsb c u) (d.at t)
    else d := by
  unfold compareInTurn
  extract_lets passed
  have hp : passed = d.spanPasses c u := by
    unfold passed Dev.spanPasses
    cases ((d.fbu c).cmp[u]).span <;> rfl
  rw [hp]

theorem spanPasses_iff {d : Dev} {c : Fin 8} {u : Fin 2} : d.spanPasses c u = true ↔
    ∃ q0 q1 : Int, ((d.fbu c).cmp[u]).span = some (q0, q1) ∧ d.passes c u q0 q1 = true := by
  unfold Dev.spanPasses
  rw [Option.any_eq_true]
  exact ⟨fun ⟨q, hq, hp⟩ => ⟨q.1, q.2, hq, hp⟩, fun ⟨q0, q1, hq, hp⟩ => ⟨(q0, q1), hq, hp⟩⟩

/-! ## The statement -/

theorem serialSampled_same {c : Fin 8} {delay bits : Nat} {d : Dev} (h : d.stage = 0 ∨ d.rd (pgFbu c) FBU.MODE ≠ 3) :
    serialSampled c delay bits d = d := by
  have hf : serialFrame c delay bits d = d := if_pos h
  unfold serialSampled
  dsimp only
  rw [hf, if_pos h]

theorem serialFrame_states (s : State) (c : FbuId) (delay : Nat) (bits : BitVec 64) :
    (s.dev.rd (pgFbu c) FBU.MODE ≠ 3 → exec (.serialFrame c delay bits) s = .next s) ∧
    (s.dev.stage ≠ 0 → s.dev.rd (pgFbu c) FBU.MODE = 3 → 2000 < delay → ∃ t, exec (.serialFrame c delay bits) s = .next t ∧
      t.dev.on (pgFbu c) FBU.SERR = true ∧ t.dev.on (pgFbu c) FBU.FERR = true ∧ t.dev.count c = s.dev.count c ∧
      t.dev.rd (pgFbu c) FBU.RAW = s.dev.rd (pgFbu c) FBU.RAW) ∧
    (s.dev.stage ≠ 0 → s.dev.rd (pgFbu c) FBU.MODE = 3 → delay ≤ 2000 → s.dev.on (pgFbu c) FBU.EBIT = false →
      (s.dev.fbu c).serial = none → ∃ t, exec (.serialFrame c delay bits) s = .next t ∧
        t.dev.on (pgFbu c) FBU.SERR = false ∧ t.dev.rd (pgFbu c) FBU.SDLY = min 255 (delay / 10) ∧
        (s.dev.on (pgFbu c) FBU.GRAY = false → t.dev.rd (pgFbu c) FBU.RAW =
          framePos bits.toNat (s.dev.rd (pgFbu c) FBU.POFS) (s.dev.rd (pgFbu c) FBU.PBITS) % 2 ^ 32)) := by
  have hc := c.isLt
  have hrd : ∀ g : Fld, g.off < 4096 → g.off ≠ HDR.PEVT.off → (serialSampled c delay bits.toNat s.dev).rd (pgFbu c) g =
      (serialFrame c delay bits.toNat s.dev).rd (pgFbu c) g := fun g ho hv =>
    rd_serialSampled c delay _ _ _ g (by unfold pgFbu; omega) ho hv
  refine ⟨fun h => ?_, fun hs hm hd => ⟨s.withDev (serialSampled c delay bits.toNat s.dev), rfl, ?_⟩,
    fun hs hm hd he hser => ⟨s.withDev (serialSampled c delay bits.toNat s.dev), rfl, ?_⟩⟩
  · exact act_same (f := serialSampled c delay bits.toNat) (serialSampled_same (.inr h))
  · have hst := fbuStands_fbuEvent (serialShown c delay s.dev true) c 4 (by decide)
    obtain ⟨hserr, hferr, -, hrest⟩ := serialShown_shows c delay s.dev true
    have hfield : ∀ g : Fld, 0x40 ≤ g.off → g.off < 0xA0 → (serialSampled c delay bits.toNat s.dev).rd (pgFbu c) g =
        (serialShown c delay s.dev true).rd (pgFbu c) g := fun g hlo hhi => by
      rw [hrd g (by omega) (by unfold HDR.PEVT; dsimp only; omega), serialFrame_late hs hm hd]
      exact hst.rd c hlo hhi
    refine ⟨?_, ?_, ?_, ?_⟩
    · show Dev.on (serialSampled c delay bits.toNat s.dev) _ _ = true
      unfold Dev.on
      rw [hfield _ (by decide) (by decide), hserr]
      rfl
    · show Dev.on (serialSampled c delay bits.toNat s.dev) _ _ = true
      unfold Dev.on
      rw [hfield _ (by decide) (by decide), hferr rfl]
      rfl
    · show Dev.count (serialSampled c delay bits.toNat s.dev) _ = _
      unfold Dev.count Dev.rdI
      rw [hfield _ (by decide) (by decide), hrest _ (by decide) (by decide)]
    · exact (hfield _ (by decide) (by decide)).trans (hrest _ (by decide) (by decide))
  · obtain ⟨p, hp, hgray⟩ := serialFrame_first (bits := bits.toNat) hs hm hd he hser
    obtain ⟨hraw, hrest⟩ := serialFirst_shows c (serialShown c delay s.dev false) p
    obtain ⟨hserr, -, hsdly, hstand⟩ := serialShown_shows c delay s.dev false
    refine ⟨?_, ?_, fun hg => ?_⟩
    · show Dev.on (serialSampled c delay bits.toNat s.dev) _ _ = false
      unfold Dev.on
      rw [hrd _ (by decide) (by decide), hp, hrest _ (by unfold besideCount; decide) (by decide), hserr]
      rfl
    · show Dev.rd (serialSampled c delay bits.toNat s.dev) _ _ = _
      rw [hrd _ (by decide) (by decide), hp, hrest _ (by unfold besideCount; decide) (by decide), hsdly hd]
      omega
    · have hg' : (serialShown c delay s.dev false).on (pgFbu c) FBU.GRAY = false := by
        unfold Dev.on at hg ⊢
        rw [hstand _ (by decide) (by decide)]
        exact hg
      show Dev.rd (serialSampled c delay bits.toNat s.dev) _ _ = _
      rw [hrd _ (by decide) (by decide), hp, hraw, hgray hg']

theorem compareEvents (s : State) (c : FbuId) (u : Fin 2) (t : Nat) (y : Compare) (hy : y = (s.dev.fbu c).cmp[u]) :
    (s.dev.rdC c u FBU.CACT = 0 → y.active = true → y.last + s.dev.pulseLsb c u ≤ t → exec (.comparePulseEnd c u t) s =
      .next (s.withDev (driveCmp c u false (y.last + s.dev.pulseLsb c u) (s.dev.at t)))) ∧
    ((s.dev.rdC c u FBU.CACT ≠ 0 ∨ y.active = false ∨ t < y.last + s.dev.pulseLsb c u) →
      exec (.comparePulseEnd c u t) s = .next s) ∧
    (((∃ q0 q1 : Int, y.span = some (q0, q1) ∧ s.dev.passes c u q0 q1 = true) ∨
        (s.dev.rdC c u FBU.BPOL = 1 ∧ s.dev.cmpBehind c u t = true)) → s.dev.cmpArmed c u = true →
      s.dev.rdC c u FBU.CMODE = 2 → y.last + 2 * s.dev.pulseLsb c u ≤ t → exec (.compareFiringInTurn c u t) s =
        .next (s.withDev (fireCmp c u (y.last + 2 * s.dev.pulseLsb c u) (s.dev.at t)))) ∧
    ((s.dev.cmpArmed c u = false ∨ s.dev.rdC c u FBU.CMODE ≠ 2 ∨ t < y.last + 2 * s.dev.pulseLsb c u ∨
      ((∀ q0 q1 : Int, y.span = some (q0, q1) → s.dev.passes c u q0 q1 = false) ∧
        (s.dev.rdC c u FBU.BPOL ≠ 1 ∨ s.dev.cmpBehind c u t = false))) →
      exec (.compareFiringInTurn c u t) s = .next s) := by
  subst hy
  refine ⟨fun h1 h2 h3 => act_eq (f := comparePulseEnd c u t) (if_pos ⟨h1, h2, h3⟩),
    fun h => act_same (f := comparePulseEnd c u t) (if_neg fun hn => ?_), fun h1 h2 h3 h4 => ?_, fun h => ?_⟩
  · obtain ⟨h1, h2, h3⟩ := hn
    rcases h with h | h | h
    · exact h h1
    · exact not_true h h2
    · omega
  · refine act_eq (f := compareInTurn c u t) ((compareInTurn_eq c u t s.dev).trans (if_pos ⟨?_, h2, h3, h4⟩))
    rcases h1 with h | ⟨h, h'⟩
    · rw [spanPasses_iff.2 h, Bool.true_or]
    · rw [h, h', beq_self_eq_true, Bool.true_and, Bool.or_true]
  · refine act_same (f := compareInTurn c u t) ((compareInTurn_eq c u t s.dev).trans (if_neg fun hn => ?_))
    obtain ⟨h1, h2, h3, h4⟩ := hn
    rcases h with h | h | h | ⟨hs, hb⟩
    · exact not_true h h2
    · exact h h3
    · omega
    · rcases Bool.or_eq_true_iff.1 h1 with h1 | h1
      · obtain ⟨q0, q1, hq, hp⟩ := spanPasses_iff.1 h1
        exact not_true (hs q0 q1 hq) hp
      · obtain ⟨hbp, hbe⟩ := Bool.and_eq_true_iff.1 h1
        exact hb.elim (fun h => h (beq_iff_eq.1 hbp)) fun h => not_true h hbe

theorem safeInputEvents (s : State) (n : Fin 4) (a b : Bool) (x : Dev) (hx : x = setSafePins n a b s.dev) :
    exec (.safeInputOk n a b) s = .next (s.withDev x) ∧
    (x.sien n = true → (x.stopA n = true ∨ x.stopB n = true) →
      exec (.safeInputDemand n a b) s = .next (s.withDev (safTrip 2 SAF.DEMAND n x))) ∧
    ((x.sien n = false ∨ (x.stopA n = false ∧ x.stopB n = false)) → exec (.safeInputDemand n a b) s = .next (s.withDev x)) ∧
    (s.dev.sien n = true → s.dev.stopA n ≠ s.dev.stopB n → exec (.safeDiscrepancy n) s = .next (s.withDev
      (safTrip 3 SAF.DISCL n (raise pgSAF 2 2 (s.dev.safeMap fun y => { y with disc := y.disc.set n true }))))) ∧
    ((s.dev.sien n = false ∨ s.dev.stopA n = s.dev.stopB n) → exec (.safeDiscrepancy n) s = .next s) := by
  subst hx
  refine ⟨rfl, fun h1 h2 => act_eq (f := safeInputDemand n a b) (if_pos ?_),
    fun h => act_eq (f := safeInputDemand n a b) (if_neg ?_), fun h1 h2 => act_eq (f := safeDiscrepancy n) (if_pos ?_),
    fun h => act_same (f := safeDiscrepancy n) (if_neg ?_)⟩
  · rw [h1, Bool.true_and, Bool.or_eq_true]
    exact h2
  · rw [Bool.and_eq_true, Bool.or_eq_true]
    rintro ⟨h1, h2⟩
    exact h.elim (fun h => not_true h h1) fun h => h2.elim (not_true h.1) (not_true h.2)
  · rw [h1, Bool.true_and, bne_iff_ne]
    exact h2
  · rw [Bool.and_eq_true, bne_iff_ne]
    rintro ⟨h1, h2⟩
    exact h.elim (fun h => not_true h h1) h2

theorem stoEvents (s : State) (n : Fin 4) :
    (s.dev.on pgSAF SAF.HOLD = true → s.dev.safe.timer[n] = true → exec (.stoDelayExpire n) s = .next (s.withDev
      (setSto n false (s.dev.safeMap fun y => { y with timer := y.timer.set n false })))) ∧
    ((s.dev.on pgSAF SAF.HOLD = false ∨ s.dev.safe.timer[n] = false) → exec (.stoDelayExpire n) s = .next s) := by
  refine ⟨fun h1 h2 => act_eq (f := stoDelayExpire n) (if_pos ?_), fun h => act_same (f := stoDelayExpire n) (if_neg ?_)⟩
  · rw [h1, h2]
    rfl
  · rw [Bool.and_eq_true]
    rintro ⟨h1, h2⟩
    exact h.elim (fun h => not_true h h1) fun h => not_true h h2

/-- Settles O59. -/
theorem localIoAndSafeChain : Obligations.LocalIoAndSafeChain := by
  refine ⟨fun s c a b z t => ⟨fun h => ⟨?_, fun u => ?_, ?_, fun delay bits => ?_, fun i => ?_⟩, fun h => ?_⟩, fun i t v level l => holdLine_cases i v level t l,
    fun d c now => ⟨settleFbu_none, fun h x hh hdue hx => ?_⟩, fun d c a b z t m y hm hy => ⟨fun h => ?_, fun h1 h2 h3 => ?_⟩,
    fun d c a b t x y hx hy => ⟨fun h => ?_, fun k hc hk => ⟨fun h => ?_, fun h => ?_⟩⟩, fun d c k t => countStep_shows c t d k,
    fun s c l x => ⟨rfl, fun h1 h2 h3 hx => ?_, fun h => ?_⟩, serialFrame_states, fun s c t x => ⟨fun h => ?_, fun h1 h2 hx => ?_⟩,
    fun d c t x hx => ⟨fun h => ?_, fun h1 h2 => ?_⟩, fun s pin rising t x hs hx => ⟨fun h => ?_, fun c hc h => ?_⟩,
    fun d c rising t e he => latchSource_cases c rising t d he, fun s pin level x hx => ⟨fun h => ?_, fun h => ?_⟩, compareEvents,
    fun s n t x hx => ⟨fun h hm => ?_, fun h => ?_⟩, fun s i a b t k hs hh hk => ?_, fun s n a b x hx => ?_, fun d cause n hc => safTrip_shows n d hc⟩
  · exact act_same (f := fbuEdge c a b z t) (if_pos h)
  · exact act_same (f := latchEdge c u t) (if_pos h)
  · exact act_same (f := indexEdge c t) (if_pos (.inl h))
  · exact act_same (f := serialSampled c delay bits.toNat) (serialSampled_same (.inl h))
  · exact act_same (f := pulseEdge i a b t) (if_pos h)
  · exact act_eq (f := fbuEdge c a b z t) (if_neg h)
  · rw [hx]
    exact settleFbu_one hh hdue
  · rw [countEdge_eq, lineCounted_eq hm, ← hy]
    refine if_neg fun hn => ?_
    obtain ⟨h1, h2, h3⟩ := hn
    rcases h with h | h | h
    · exact h1 h
    · exact not_true h h2
    · exact h3.elim h.1 h.2
  · rw [countEdge_eq, lineCounted_eq hm, ← hy]
    exact if_pos ⟨h1, h2, h3⟩
  · rw [hx] at h
    exact incEdge_bad hy h
  · rw [hx] at hc hk
    exact (incEdge_good hy hc hk).trans (if_pos h)
  · rw [hx] at hc hk
    exact (incEdge_good hy hc hk).trans (if_neg h)
  · subst hx
    refine act_eq (f := lineFault c l) (if_pos ?_)
    rw [h1, h2, h3]
    rfl
  · refine act_same (f := lineFault c l) (if_neg fun hn => ?_)
    simp only [Bool.and_eq_true, Bool.not_eq_true'] at hn
    obtain ⟨⟨h1, h2⟩, h3⟩ := hn
    rcases h with h | h | h
    · exact not_true h h1
    · exact not_true h h2
    · exact not_true h3 h
  · exact act_same (f := indexEdge c t) (if_pos (.inr h))
  · subst hx
    exact act_eq (f := indexEdge c t) (if_neg (not_or.2 ⟨h1, not_not.2 h2⟩))
  · subst hx
    refine if_neg fun hn => ?_
    obtain ⟨h1, h2⟩ := hn
    rcases h with h | h
    · exact absurd (h ▸ h1) (by decide)
    · exact not_true h h2
  · subst hx
    exact if_pos ⟨by rw [h1]; rfl, h2⟩
  · exact act_eq (f := latchEdge pin rising t) ((latchEdge_eq hs hx).1 h)
  · exact act_eq (f := latchEdge pin rising t) ((latchEdge_eq hs hx).2 c hc h)
  · subst hx
    exact act_eq (f := latchLevel pin level) (if_pos h)
  · subst hx
    exact act_eq (f := latchLevel pin level) (if_neg (not_true h))
  · subst hx
    exact ⟨s.withDev (stepPulse n t s.dev), rfl, stepPulse_shows t h hm⟩
  · subst hx
    refine act_same (f := stepPulse n t) (if_neg fun hn => ?_)
    obtain ⟨h1, h2⟩ := hn
    exact h.elim (fun h => not_true h h1) fun h => absurd h2 (by omega)
  · exact ⟨s.withDev (pulseEdge i a b t s.dev), rfl, pulseEdge_shows t hs hh hk⟩
  · obtain ⟨h1, h2, h3, h4, h5⟩ := safeInputEvents s n a b x hx
    obtain ⟨h6, h7⟩ := stoEvents s n
    exact ⟨h1, h2, h3, h4, h5, rfl, rfl, h6, h7⟩

end Sys2Proof.Machine
end

section
/-! PROOFS. The measurement cores: triggers, scans, results, and a fault of the die (spec/11). -/
namespace Sys2Proof.Machine

/-! ## The record of a core -/

section
variable {c : Fin 4} {d : Dev} {f g : Core → Core}

theorem core_mapCore (c : Fin 4) (f : Core → Core) (d : Dev) : (d.mapCore c f).core c = f (d.core c) := Vector.getElem_set_self c.isLt

theorem mapCore_congr (h : f (d.core c) = g (d.core c)) : d.mapCore c f = d.mapCore c g := by
  unfold Dev.mapCore
  rw [h]

theorem mapCore_same (h : f (d.core c) = d.core c) : d.mapCore c f = d := by
  have hv : d.mfe.core.set c (f (d.core c)) = d.mfe.core := by
    rw [h]
    exact Vector.set_getElem_self c.isLt
  unfold Dev.mapCore
  rw [hv]

end

/-! ## Triggers (R431, R432) -/

theorem passDues_none {c : Fin 4} {t : Nat} {d : Dev} (h : ∀ t0 ∈ (d.core c).due, t ≤ t0) : passDues c t d = d := by
  have hnone : (d.core c).due.filter (fun t0 => decide (t0 < t)) = [] :=
    List.filter_eq_nil_iff.2 fun t0 h0 => by
      have := h t0 h0
      simp only [decide_eq_true_eq]
      omega
  have hall : (d.core c).due.filter (fun t0 => !decide (t0 < t)) = (d.core c).due :=
    List.filter_eq_self.2 fun t0 h0 => by
      have := h t0 h0
      simp only [Bool.not_eq_true', decide_eq_false_iff_not]
      omega
  unfold passDues
  dsimp only
  rw [hnone, mapCore_same (by rw [hall])]
  rfl

theorem mfcTake_cases (d : Dev) (c : Fin 4) (own : Bool) (t : Nat) (x : Dev)
    (hx : x = d.mapCore c (fun x => { x with due := x.due ++ [t + d.mf c MFC.TDLY * 160] })) :
    (d.cstate c = 0 → mfcTake c own t d = d) ∧
    (4 ≤ d.cstate c → mfcTake c own t d = pendScan c (passDues c t d)) ∧
    (d.cstate c = 3 → mfcTake c false t d = pendScan c d ∧ mfcTake c true t d = x) ∧
    ((d.cstate c = 1 ∨ d.cstate c = 2) → (d.on (pgMfc c) MFC.PEND = false → mfcTake c own t d = x) ∧
      (d.on (pgMfc c) MFC.PEND = true → mfcTake c own t d = pendScan c d)) := by
  subst hx
  unfold mfcTake
  dsimp only
  refine ⟨fun h => if_pos h, fun h => ?_, fun h => ⟨?_, ?_⟩, fun h => ⟨fun hp => ?_, fun hp => ?_⟩⟩
  · rw [if_neg (by omega), if_pos h]
  · rw [if_neg (by omega), if_neg (by omega), if_pos (.inl ⟨h, rfl⟩)]
  · rw [if_neg (by omega), if_neg (by omega)]
    exact if_neg fun hn => hn.elim (fun hn => absurd hn.2 (by decide)) fun hn => hn.1 h
  · rw [if_neg (by omega), if_neg (by omega)]
    exact if_neg fun hn => hn.elim (fun hn => absurd hn.1 (by omega)) fun hn => not_true hp hn.2
  · rw [if_neg (by omega), if_neg (by omega), if_pos (.inr ⟨by omega, hp⟩)]

/-! ## The start of a scan (R431, R434) -/

theorem foldl_keeps {α β : Type} (v : Dev → β) (f : Dev → α → Dev) (h : ∀ d x, v (f d x) = v d) (l : List α) :
    ∀ d, v (l.foldl f d) = v d := by
  induction l with
  | nil => exact fun d => rfl
  | cons x l ih => exact fun d => (ih _).trans (h d x)

theorem adoptScan_keeps {β : Type} (v : Dev → β) (c : Fin 4)
    (h : ∀ (d : Dev) (o : Nat) (w : Word), v (d.setReg (pgMfc c) (adopted 0) o w) = v d) (d : Dev) : v (adoptScan c d) = v d :=
  (foldl_keeps v _ (fun d n => (h _ _ _).trans (h d _ _)) _ _).trans (foldl_keeps v _ (fun d i => h d _ _) _ d)

theorem core_adoptScan (c : Fin 4) (d : Dev) : (adoptScan c d).core c = d.core c :=
  congrArg (fun m : Mfe => m.core[c]) (adoptScan_keeps (fun d => d.mfe) c (fun d o w => setReg_mfe d _ _ o w) d)

/-- The copies of the adopted registers are beside the registers themselves. -/
theorem mf_adoptScan (c : Fin 4) (d : Dev) {f : Fld} (hf : f.off < 4096) : (adoptScan c d).mf c f = d.mf c f := by
  refine adoptScan_keeps (fun d => d.mf c f) c (fun d o w => ?_) d
  show bitsOf _ _ _ = bitsOf _ _ _
  rw [reg_setReg_key]
  unfold regKey adopted pgMfc
  have := c.isLt
  omega

section
variable {c : Fin 4} {t : Nat} {d : Dev}

theorem nextScan_due {t0 : Nat} {l : List Nat} (h : (d.core c).due = t0 :: l) (ht : t0 ≤ t + 320) : d.nextScan c t = some (some t0) := by
  unfold Dev.nextScan
  rw [h]
  exact if_pos ht

theorem nextScan_late (h : ∀ t0 ∈ (d.core c).due.head?, t + 320 < t0) :
    d.nextScan c t = if d.on (pgMfc c) MFC.PEND then some none else none := by
  unfold Dev.nextScan
  split
  · rename_i t0 l hl
    have : t + 320 < t0 := h t0 (by rw [hl]; rfl)
    exact if_neg (by omega)
  · rfl

theorem scanStart_due {t0 slack : Nat} {l : List Nat} (hs : d.cstate c = 1) (h : (d.core c).due = t0 :: l) (ht : t0 ≤ t + 320)
    (hk : slack = if predictable (d.mf c MFC.TSRC) then 320 else 800) : scanStart c t d =
      beginEntry c 0 t ((adoptScan c (d.at t)).mapCore c fun x => { x with
        due := l, late := x.late || decide (t0 + slack < t), aborted := false }) := by
  unfold scanStart
  rw [if_neg (not_not.2 hs), nextScan_due h ht]
  dsimp only
  rw [mf_adoptScan c _ (by decide), show (d.at t).mf c MFC.TSRC = d.mf c MFC.TSRC from rfl, ← hk]
  rw [mapCore_congr (g := fun x => { x with due := l, late := x.late || decide (t0 + slack < t), aborted := false })]
  rw [core_adoptScan, show (d.at t).core c = d.core c from rfl, h]
  rfl

theorem scanStart_pending (hs : d.cstate c = 1) (h : ∀ t0 ∈ (d.core c).due.head?, t + 320 < t0)
    (hp : d.on (pgMfc c) MFC.PEND = true) : scanStart c t d =
      beginEntry c 0 t (((adoptScan c (d.at t)).wr (pgMfc c) MFC.PEND 0).mapCore c fun x => { x with late := true, aborted := false }) := by
  unfold scanStart
  rw [if_neg (not_not.2 hs), nextScan_late h, if_pos hp]
  rfl

theorem scanStart_not (h : d.cstate c ≠ 1 ∨ ((∀ t0 ∈ (d.core c).due.head?, t + 320 < t0) ∧ d.on (pgMfc c) MFC.PEND = false)) :
    scanStart c t d = d := by
  unfold scanStart
  rcases h with h | ⟨h, hp⟩
  · rw [if_pos h]
  · rw [nextScan_late h, if_neg (not_true hp)]
    exact ite_self _

/-! ## Results (R433, R440, R441, R444) -/

theorem beginDump_shows (c : Fin 4) (t : Nat) (d : Dev) : (beginDump c t d).cstate c = 5 ∧ ((beginDump c t d).core c).phase = (d.core c).phase := by
  refine ⟨(rd_wr_self d (pgMfc c) MFC.CSTATE 5 (by decide)), ?_⟩
  exact (congrArg Core.phase (core_mapCore c _ _)).trans (congrArg (fun m : Mfe => m.core[c].phase) (wr_mfe _ _ _ _))

theorem phase_endConversion (c : Fin 4) (d : Dev) : ((endConversion c d).core c).phase = 3 :=
  congrArg Core.phase (core_mapCore c _ d)

/-- The result of a rundown with code `q`, and what follows it. -/
def rundownResult (c : Fin 4) (x : Core) (q : Int) (ovr ow : Bool) (d : Dev) : Dev :=
  let n := (d.entryNow c).1
  let d := writeResult c (some q) ovr ow false (some x.capt) d
  let d := if ovr then overrange c d else d
  endConversion c (if ow then mfcEvent c 1 n d else d)

def rundownTested (c : Fin 4) (t : Nat) (d : Dev) : Dev :=
  if d.bomode c = 2 then
    d.mapCore c fun x => { x with testing := true, since := t, burn := d.chanScan c MFC.BOCUR + 1 }
  else d

def rundownNext (c : Fin 4) (ovr : Bool) (t : Nat) (d : Dev) : Dev :=
  if ovr then beginDump c t (rundownTested c t d)
  else if (rundownTested c t d).bomode c = 2 then rundownTested c t d else nextEntry c t (rundownTested c t d)

theorem rundownComplete_eq {code : BitVec 25} {v : Int} (hv : v = correctCode (d.core c).gain (d.core c).offs code.toInt)
    (hs : d.cstate c = 4) (hp : (d.core c).phase = 2) (ht : (d.core c).since + 4 * 16000 ≤ t) : rundownComplete c code t d =
      rundownNext c (decide (v ≠ satS 24 v)) t (rundownResult c (d.core c) (satS 24 v) (decide (v ≠ satS 24 v))
        (decide (v ≠ satS 24 v) && decide (0 < v) && d.bomode c == 1) (d.at t)) := by
  subst hv
  exact if_neg fun hn => hn.elim (fun h => h hs) fun hn => hn.elim (fun h => h hp) fun h => absurd h (Nat.not_lt.2 ht)

theorem rundownNext_inRange (c : Fin 4) (t : Nat) (d : Dev) : rundownNext c false t d =
    if d.bomode c = 2 then d.mapCore c fun x => { x with testing := true, since := t, burn := d.chanScan c MFC.BOCUR + 1 }
    else nextEntry c t d := by
  unfold rundownNext
  rw [if_neg Bool.false_ne_true]
  unfold rundownTested
  by_cases hb : d.bomode c = 2
  · rw [if_pos hb, if_pos hb]
    exact if_pos hb
  · rw [if_neg hb, if_neg hb, if_neg hb]

/-- A rundown with its code in range. -/
theorem rundownComplete_inRange {code : BitVec 25} {v : Int} (hv : v = correctCode (d.core c).gain (d.core c).offs code.toInt)
    (hs : d.cstate c = 4) (hp : (d.core c).phase = 2) (ht : (d.core c).since + 4 * 16000 ≤ t) (hr : v = satS 24 v) :
    rundownComplete c code t d = rundownNext c false t
      (endConversion c (writeResult c (some v) false false false (some (d.core c).capt) (d.at t))) := by
  rw [rundownComplete_eq hv hs hp ht, ← hr, decide_eq_false (not_not.2 rfl), Bool.false_and, Bool.false_and]
  unfold rundownResult
  dsimp only
  rw [if_neg Bool.false_ne_true, if_neg Bool.false_ne_true]

/-- A rundown with its code out of range. -/
theorem rundownComplete_overrange {code : BitVec 25} {v : Int} (hv : v = correctCode (d.core c).gain (d.core c).offs code.toInt)
    (hs : d.cstate c = 4) (hp : (d.core c).phase = 2) (ht : (d.core c).since + 4 * 16000 ≤ t) (hr : v ≠ satS 24 v) :
    (rundownComplete c code t d).cstate c = 5 ∧ ((rundownComplete c code t d).core c).phase = 3 := by
  rw [rundownComplete_eq hv hs hp ht, decide_eq_true hr]
  unfold rundownNext
  rw [if_pos rfl]
  obtain ⟨hst, hph⟩ := beginDump_shows c t
    (rundownTested c t (rundownResult c (d.core c) (satS 24 v) true (true && decide (0 < v) && d.bomode c == 1) (d.at t)))
  refine ⟨hst, hph.trans ?_⟩
  have h5 : ((rundownResult c (d.core c) (satS 24 v) true (true && decide (0 < v) && d.bomode c == 1) (d.at t)).core c).phase = 3 :=
    phase_endConversion c _
  unfold rundownTested
  split
  · exact (congrArg Core.phase (core_mapCore c _ _)).trans h5
  · exact h5

theorem overloadTrip_shows (positive : Bool) (hs : d.cstate c = 4) (hp : (d.core c).phase = 1) :
    (overloadTrip c positive t d).cstate c = 5 ∧ ((overloadTrip c positive t d).core c).phase = 3 := by
  unfold overloadTrip
  extract_lets x d1 ow n d2 d3 d4
  rw [if_neg (not_or.2 ⟨not_not.2 hs, not_not.2 hp⟩)]
  exact ⟨(beginDump_shows c t _).1, (beginDump_shows c t _).2.trans (phase_endConversion c d4)⟩

end

end Sys2Proof.Machine
end

section
/-! PROOFS. Results, and a fault of the die, of one core leave the others (R435, R446, R447). -/
namespace Sys2Proof.Machine

/-! ## What a result of a core writes -/

/-- The page of a core, and those of events. -/
def mfcPage (c : Fin 4) (p : Nat) : Prop := eventPage p ∨ p = pgMfc c

/-- `d'` is `d` but for memory, the page of core `c`, and events; the cores themselves stand. -/
structure CoreWrites (c : Fin 4) (d d' : Dev) : Prop extends Leaves (mfcPage c) d d' where
  mfe : d'.mfe = d.mfe

theorem pgMfc_lt (c : Fin 4) : pgMfc c < 1024 := (corePage_mfc c).2

section
variable {c : Fin 4} {d d' d'' : Dev}

theorem CoreWrites.refl (d : Dev) : CoreWrites c d d := ⟨Leaves.refl _ d, rfl⟩

theorem CoreWrites.trans (h : CoreWrites c d d') (h' : CoreWrites c d' d'') : CoreWrites c d d'' :=
  ⟨h.toLeaves.trans h'.toLeaves, h'.mfe.trans h.mfe⟩

theorem CoreWrites.ite {p : Prop} [Decidable p] (h : p → CoreWrites c d d') (h' : ¬ p → CoreWrites c d d'') :
    CoreWrites c d (if p then d' else d'') := by
  split
  · exact h ‹_›
  · exact h' ‹_›

theorem CoreWrites.wr (d : Dev) (f : Fld) (v : Nat) (hf : f.off < 4096) : CoreWrites c d (d.wr (pgMfc c) f v) :=
  ⟨Leaves.wr d f v (.inr rfl) (pgMfc_lt c) hf, wr_mfe d _ f v⟩

theorem CoreWrites.wr64 (d : Dev) {o : Nat} (v : Nat) (ho : o + 4 < 4096) : CoreWrites c d (d.wr64 (pgMfc c) 0 o v) :=
  ⟨Leaves.wr64 d 0 v (.inr rfl) (pgMfc_lt c) ho, (setReg_mfe _ _ _ _ _).trans (setReg_mfe _ _ _ _ _)⟩

theorem CoreWrites.event (d : Dev) (bit arg : Nat) (hb : bit < 32) : CoreWrites c d (mfcEvent c bit arg d) :=
  ⟨(Leaves.raise (pgMfc c) bit arg d (pgMfc_lt c) hb).mono fun _ => .inl, (posted_raise (pgMfc c) bit arg d (pgMfc_lt c) hb).mfe⟩

theorem CoreWrites.image (n : Nat) (d : Dev) : CoreWrites c d (imageResult c n d) :=
  CoreWrites.ite (fun _ => ⟨leaves_setMemLE 4 d _ _, (keeps_setMemLE 4 d _ _).mfe⟩) fun _ => CoreWrites.refl d

theorem CoreWrites.capture (ain tag : Nat) (d : Dev) : CoreWrites c d (capResult ain tag d) :=
  ⟨Leaves.foldl _ _ (fun d u _ => Leaves.ite (fun _ => Leaves.refl _ d) fun _ => leaves_setCapUnit d u _) d,
    foldl_keeps (fun d => d.mfe) _ (fun d u => by dsimp only; split <;> rfl) _ d⟩

theorem entryNow_lt (d : Dev) (c : Fin 4) : (d.entryNow c).1 < 8 := Nat.mod_lt _ (by decide)

theorem nth_lt {f : Fld} {n : Nat} (hn : n < 8) (hf : f.off < 0x100) : (f.nth 0x20 n).off < 4096 := by
  unfold Fld.nth
  dsimp only
  omega

/-- The registers of a result of channel `n`. -/
def resultShown (c : Fin 4) (n : Nat) (x : Core) (code : Option Int) (ovr ow err : Bool) (capt : Option Nat) (d : Dev) : Dev :=
  let pg := pgMfc c
  let f := fun (g : Fld) => g.nth 0x20 n
  let d := match code with
    | some v => d.wr pg (f MFC.CODE) (toBits 24 v)
    | none => d
  let d := match capt with
    | some ns => (d.wr pg (f MFC.CAPT) ns).wr64 pg 0 (MFC.CTAGLO.off + 0x20 * n) x.t0
    | none => d
  let d := ((d.wr pg (f MFC.OVR) (b2n ovr)).wr pg (f MFC.OW) (b2n ow)).wr pg (f MFC.ERR) (b2n err)
  let d := (d.wr pg (f MFC.NOLOCK) (b2n x.nolock)).wr pg (f MFC.LATE) (b2n x.late)
  offerResult c n (imageResult c n (d.wr pg (f MFC.RCNT) (d.rd pg (f MFC.RCNT) + 1)))

/-- The result of a check entry. -/
def checkShown (c : Fin 4) (n : Nat) (code : Option Int) (d : Dev) : Dev :=
  match code with
  | none => d
  | some v =>
    let want := sxt 16 (d.mfScan c MFC.DACV) * 256
    let bad := decide ((d.mfScan c MFC.CHKTOL : Int) < |v - want|)
    let d := (d.wr (pgMfc c) MFC.CCODE (toBits 24 v)).wr (pgMfc c) MFC.CHKF (b2n bad)
    if bad then mfcEvent c 2 n (d.inc (pgMfc c) MFC.CHKFC) else d

/-- An entry that ends with ERR is counted. -/
def errNoted (c : Fin 4) (n : Nat) (err : Bool) (d : Dev) : Dev :=
  if err then mfcEvent c 5 n (d.inc (pgMfc c) MFC.ERRC) else d

theorem writeResult_eq (c : Fin 4) (code : Option Int) (ovr ow err : Bool) (capt : Option Nat) (d : Dev) :
    writeResult c code ovr ow err capt d =
      if (d.entryNow c).2 then checkShown c (d.entryNow c).1 code (errNoted c (d.entryNow c).1 err d)
      else resultShown c (d.entryNow c).1 (d.core c) code ovr ow err capt (errNoted c (d.entryNow c).1 err d) := rfl

theorem errNoted_writes (n : Nat) (err : Bool) (d : Dev) : CoreWrites c d (errNoted c n err d) :=
  CoreWrites.ite (fun _ => (CoreWrites.wr d MFC.ERRC _ (by decide)).trans (CoreWrites.event _ 5 n (by decide))) fun _ => CoreWrites.refl d

theorem checkShown_writes (n : Nat) (code : Option Int) (d : Dev) : CoreWrites c d (checkShown c n code d) := by
  unfold checkShown
  split
  · exact CoreWrites.refl d
  · extract_lets want bad d1
    have h1 : CoreWrites c d d1 := (CoreWrites.wr d MFC.CCODE _ (by decide)).trans (CoreWrites.wr _ MFC.CHKF _ (by decide))
    exact h1.trans (CoreWrites.ite (fun _ => (CoreWrites.wr d1 MFC.CHKFC _ (by decide)).trans (CoreWrites.event _ 2 n (by decide))) fun _ =>
      CoreWrites.refl d1)

theorem resultShown_writes {n : Nat} (hn : n < 8) (x : Core) (code : Option Int) (ovr ow err : Bool) (capt : Option Nat) (d : Dev) :
    CoreWrites c d (resultShown c n x code ovr ow err capt d) := by
  unfold resultShown
  extract_lets pg f d1 d2 d3 d4
  have hw : ∀ (d : Dev) (g : Fld) (v : Nat), g.off < 0x100 → CoreWrites c d (d.wr pg (f g) v) := fun d g v hg =>
    CoreWrites.wr d (f g) v (nth_lt hn hg)
  have h1 : CoreWrites c d d1 := by
    cases code with
    | none => exact CoreWrites.refl d
    | some v => exact hw d MFC.CODE _ (by decide)
  have h2 : CoreWrites c d1 d2 := by
    cases capt with
    | none => exact CoreWrites.refl d1
    | some ns => exact (hw d1 MFC.CAPT ns (by decide)).trans (CoreWrites.wr64 _ _ (by unfold MFC.CTAGLO; dsimp only; omega))
  have h3 : CoreWrites c d2 d3 :=
    ((hw d2 MFC.OVR _ (by decide)).trans (hw _ MFC.OW _ (by decide))).trans (hw _ MFC.ERR _ (by decide))
  have h4 : CoreWrites c d3 d4 := (hw d3 MFC.NOLOCK _ (by decide)).trans (hw _ MFC.LATE _ (by decide))
  exact (((h1.trans h2).trans (h3.trans h4)).trans (hw d4 MFC.RCNT _ (by decide))).trans
    ((CoreWrites.image n _).trans (CoreWrites.capture _ _ _))

theorem writeResult_writes (code : Option Int) (ovr ow err : Bool) (capt : Option Nat) (d : Dev) :
    CoreWrites c d (writeResult c code ovr ow err capt d) := by
  rw [writeResult_eq]
  exact CoreWrites.ite (fun _ => (errNoted_writes _ err d).trans (checkShown_writes _ code _)) fun _ =>
    (errNoted_writes _ err d).trans (resultShown_writes (entryNow_lt d c) _ _ _ _ _ _ _)

/-- What an abandoned burn-out test leaves. -/
def testAbandoned (c : Fin 4) (d : Dev) : Dev :=
  let y := mfcEvent c 5 (d.entryNow c).1 (d.inc (pgMfc c) MFC.ERRC)
  if (d.entryNow c).2 then y else imageResult c (d.entryNow c).1 (y.wr (pgMfc c) (MFC.ERR.nth 0x20 (d.entryNow c).1) 1)

/-- What an abandoned entry leaves, by the phase it is in. -/
def entryAbandoned (c : Fin 4) (d : Dev) : Dev :=
  match (d.core c).phase with
  | 0 => writeResult c none false false true none d
  | 1 => writeResult c none false false true (some (d.openBits 32 % ((d.core c).capt + 1))) d.openUsed
  | 2 => writeResult c none false false true (some (d.core c).capt) d
  | _ => d

theorem errResult_eq (c : Fin 4) (d : Dev) : errResult c d = if (d.core c).testing then testAbandoned c d else entryAbandoned c d := rfl

theorem errResult_writes (c : Fin 4) (d : Dev) : CoreWrites c d (errResult c d) := by
  rw [errResult_eq]
  refine CoreWrites.ite (fun _ => ?_) fun _ => ?_
  · have hy : CoreWrites c d (mfcEvent c 5 (d.entryNow c).1 (d.inc (pgMfc c) MFC.ERRC)) :=
      (CoreWrites.wr d MFC.ERRC _ (by decide)).trans (CoreWrites.event _ 5 _ (by decide))
    refine CoreWrites.ite (fun _ => hy) fun _ => hy.trans ?_
    exact (CoreWrites.wr _ _ 1 (nth_lt (entryNow_lt d c) (by decide))).trans (CoreWrites.image _ _)
  · unfold entryAbandoned
    split
    · exact writeResult_writes _ _ _ _ _ d
    · exact CoreWrites.trans (d' := d.openUsed) ⟨leaves_openUsed d, rfl⟩ (writeResult_writes _ _ _ _ _ _)
    · exact writeResult_writes _ _ _ _ _ d
    · exact CoreWrites.refl d

end

/-! ## Cores put OFF, and back (R446, R447) -/

/-- What a change of core `c` keeps: every page but its own and those of events, and whether a fault holds. -/
structure FaultStands (K : Nat → Prop) (d d' : Dev) : Prop extends Leaves K d d' where
  fault : d'.mfe.fault = d.mfe.fault

section
variable {K K' : Nat → Prop} {d d' d'' : Dev}

theorem FaultStands.refl (d : Dev) : FaultStands K d d := ⟨Leaves.refl _ d, rfl⟩

theorem FaultStands.trans (h : FaultStands K d d') (h' : FaultStands K d' d'') : FaultStands K d d'' :=
  ⟨h.toLeaves.trans h'.toLeaves, h'.fault.trans h.fault⟩

theorem FaultStands.mono (h : FaultStands K d d') (hK : ∀ p, K p → K' p) : FaultStands K' d d' := ⟨h.toLeaves.mono hK, h.fault⟩

theorem FaultStands.ite {p : Prop} [Decidable p] (h : p → FaultStands K d d') (h' : ¬ p → FaultStands K d d'') :
    FaultStands K d (if p then d' else d'') := by
  split
  · exact h ‹_›
  · exact h' ‹_›

theorem FaultStands.foldl {α : Type} (f : Dev → α → Dev) (l : List α) (h : ∀ d, ∀ x ∈ l, FaultStands K d (f d x)) :
    ∀ d, FaultStands K d (l.foldl f d) := by
  induction l with
  | nil => exact FaultStands.refl
  | cons x l ih => exact fun d => (h d x (.head _)).trans (ih (fun d y hy => h d y (.tail _ hy)) _)

end

section
variable (c : Fin 4) (d : Dev)

theorem CoreWrites.faultStands {c : Fin 4} {d d' : Dev} (h : CoreWrites c d d') : FaultStands (mfcPage c) d d' :=
  ⟨h.toLeaves, congrArg Mfe.fault h.mfe⟩

theorem faultStands_mapCore {K : Nat → Prop} (f : Core → Core) : FaultStands K d (d.mapCore c f) := ⟨leaves_mapCore d c f, rfl⟩

theorem abandonCore_stands (err : Bool) : FaultStands (mfcPage c) d (abandonCore c err d) := by
  unfold abandonCore
  extract_lets d1
  have h1 : CoreWrites c d d1 := CoreWrites.ite (fun _ => errResult_writes c d) fun _ => CoreWrites.refl d
  exact ((h1.trans (CoreWrites.wr d1 MFC.PEND 0 (by decide))).trans (CoreWrites.wr _ MFC.CSTATE 0 (by decide))).faultStands.trans
    (faultStands_mapCore c _ _)

theorem cstate_abandonCore (err : Bool) : (abandonCore c err d).cstate c = 0 := by
  unfold abandonCore
  extract_lets d1
  exact rd_wr_self (d1.mfPut c MFC.PEND 0) (pgMfc c) MFC.CSTATE 0 (by decide)

theorem validateCore_stands : FaultStands (mfcPage c) d (validateCore c d) :=
  FaultStands.ite (fun _ => FaultStands.trans (CoreWrites.wr d MFC.CSTATE 4 (by decide)).faultStands ⟨leaves_withMfe _ _, rfl⟩) fun _ =>
    FaultStands.refl d

theorem mfcEnableChanged_stands : FaultStands (mfcPage c) d (mfcEnableChanged c d) := by
  have hidle : FaultStands (mfcPage c) d (d.mfPut c MFC.CSTATE 1) := (CoreWrites.wr d MFC.CSTATE 1 (by decide)).faultStands
  unfold mfcEnableChanged
  exact FaultStands.ite (fun _ => FaultStands.ite (fun _ => FaultStands.refl d) fun _ =>
    FaultStands.ite (fun _ => hidle.trans (validateCore_stands c _)) fun _ => hidle) fun _ =>
    FaultStands.ite (fun _ => FaultStands.refl d) fun _ => abandonCore_stands c d false

/-- The pages of the other cores, and those of events. -/
def otherCores (p : Nat) : Prop := eventPage p ∨ ∃ c' : Fin 4, c' ≠ c ∧ p = pgMfc c'

theorem not_otherCores : ¬ otherCores c (pgMfc c) := by
  have hc := c.isLt
  rintro (h | ⟨c', hne, h⟩)
  · unfold eventPage pgMfc pgEVT pgTSU at h
    omega
  · exact hne (Fin.ext (by unfold pgMfc at h; omega))

/-- A pass over the cores, split at core `c`. -/
theorem foldCores_at (f : Dev → Fin 4 → Dev) (hf : ∀ d c, FaultStands (mfcPage c) d (f d c)) :
    ∃ d1, FaultStands (otherCores c) d d1 ∧ FaultStands (otherCores c) (f d1 c) ((List.finRange 4).foldl f d) := by
  obtain ⟨l1, l2, hl⟩ := List.append_of_mem (List.mem_finRange c)
  have hnd : (l1 ++ c :: l2).Nodup := hl ▸ List.nodup_finRange 4
  have hne1 : ∀ x ∈ l1, x ≠ c := fun x hx hxc => (List.nodup_append.1 hnd).2.2 x hx c (.head _) hxc
  have hne2 : ∀ x ∈ l2, x ≠ c := fun x hx hxc => (List.nodup_cons.1 (List.nodup_append.1 hnd).2.1).1 (hxc ▸ hx)
  have hother : ∀ (d : Dev) (x : Fin 4), x ≠ c → FaultStands (otherCores c) d (f d x) := fun d x hx =>
    (hf d x).mono fun p hp => hp.imp id fun h => ⟨x, hx, h⟩
  refine ⟨l1.foldl f d, FaultStands.foldl f l1 (fun d x hx => hother d x (hne1 x hx)) d, ?_⟩
  rw [hl, List.foldl_append, List.foldl_cons]
  exact FaultStands.foldl f l2 (fun d x hx => hother d x (hne2 x hx)) _

theorem FaultStands.cstate {c : Fin 4} {d d' : Dev} (h : FaultStands (otherCores c) d d') : d'.cstate c = d.cstate c :=
  h.toLeaves.rd (pgMfc_lt c) (by decide) (not_otherCores c) (by decide)

end

/-- DSTAT and the counts of a fault of the die, and the fault that now holds. -/
def dieFaulted (bits : Nat) (d : Dev) : Dev :=
  let d := d.wr pgMFE ⟨MFE.P5OK.off, 0, 5⟩ (Nat.land (d.rd pgMFE ⟨MFE.P5OK.off, 0, 5⟩) (31 - bits % 32))
  let d := if bitOf bits 3 then d.inc pgMFE MFE.LCRC else d
  let d := if bits % 8 ≠ 0 ∨ bitOf bits 4 then d.inc pgMFE MFE.FAULTS else d
  { d with mfe := { d.mfe with fault := true } }

theorem mfeDieFault_eq {bits : Nat} {d : Dev} (hs : d.stage ≠ 0) (hd : d.dieFitted = true) (hb : bits % 32 ≠ 0) :
    mfeDieFault bits d =
      (List.finRange 4).foldl (fun (d : Dev) (c : Fin 4) => abandonCore c true d) (raise pgMFE 2 2 (dieFaulted bits d)) :=
  if_neg fun h => h.elim hs fun h => h.elim (fun h => not_true (Bool.not_eq_eq_eq_not.1 h) hd) hb

/-- A fault of the die holds, and puts every core OFF. -/
theorem mfeDieFault_shows {bits : Nat} {d : Dev} (hs : d.stage ≠ 0) (hd : d.dieFitted = true) (hb : bits % 32 ≠ 0) :
    (mfeDieFault bits d).mfe.fault = true ∧ ∀ c : Fin 4, (mfeDieFault bits d).cstate c = 0 := by
  rw [mfeDieFault_eq hs hd hb]
  refine ⟨?_, fun c => ?_⟩
  · rw [(FaultStands.foldl (K := fun _ => True) _ _ (fun d c _ => (abandonCore_stands c d true).mono fun _ _ => trivial) _).fault,
      (posted_raise pgMFE 2 2 (dieFaulted bits d) (by decide) (by decide)).mfe]
    rfl
  · obtain ⟨d5, -, h⟩ := foldCores_at c (raise pgMFE 2 2 (dieFaulted bits d)) (fun d c => abandonCore c true d)
      fun d c => abandonCore_stands c d true
    exact h.cstate.trans (cstate_abandonCore c d5 true)

/-- The device when every bit of DSTAT reads 1 again. -/
def dieRestored (d : Dev) : Dev :=
  let d := d.wr pgMFE ⟨MFE.P5OK.off, 0, 5⟩ 31
  { d with mfe := { d.mfe with fault := false } }

theorem mfeFaultRecovery_eq {d : Dev} (hs : d.stage ≠ 0) (hf : d.mfe.fault = true) :
    mfeFaultRecovery d = (List.finRange 4).foldl (fun (d : Dev) (c : Fin 4) => mfcEnableChanged c d) (dieRestored d) :=
  if_pos ⟨hs, hf⟩

theorem rd_dieRestored (d : Dev) {p : Nat} (g : Fld) (hp : p < 1024) (hne : p ≠ pgMFE) (ho : g.off < 4096) :
    (dieRestored d).rd p g = d.rd p g :=
  rd_wr_key d pgMFE ⟨MFE.P5OK.off, 0, 5⟩ 31 p g fun h => hne (regKey_inj (by decide) hp (show MFE.P5OK.off < 4096 by decide) ho h).1.symm

theorem mfeFaultRecovery_shows {d : Dev} (hs : d.stage ≠ 0) (hf : d.mfe.fault = true) : (mfeFaultRecovery d).mfe.fault = false ∧
    (mfeFaultRecovery d).rd pgMFE ⟨MFE.P5OK.off, 0, 5⟩ = 31 ∧
    ∀ c : Fin 4, d.on (pgMfc c) HDR.EN = true → d.cstate c = 0 → d.on pgCAL CAL.VBUSY = false → (mfeFaultRecovery d).cstate c = 1 := by
  rw [mfeFaultRecovery_eq hs hf]
  have hall := FaultStands.foldl (K := corePage) (fun d c => mfcEnableChanged c d) (List.finRange 4)
    (fun d c _ => (mfcEnableChanged_stands c d).mono fun p hp => hp.imp id fun h => by
      have := c.isLt
      unfold pgMfc at h
      omega) (dieRestored d)
  refine ⟨hall.fault, (hall.toLeaves.rd (by decide) (by decide) ?_ (by decide)).trans (rd_wr_self d pgMFE ⟨MFE.P5OK.off, 0, 5⟩ 31 (by decide)),
    fun c hen hc hv => ?_⟩
  · unfold corePage eventPage
    decide
  · obtain ⟨d1, h1, h2⟩ := foldCores_at c (dieRestored d) (fun d c => mfcEnableChanged c d) fun d c => mfcEnableChanged_stands c d
    have hcl := c.isLt
    have hfar : ∀ p, p = pgSTG ∨ p = pgCAL → ¬ otherCores c p := by
      rintro p (rfl | rfl) (h | ⟨c', -, h⟩)
      · revert h
        unfold eventPage
        decide
      · unfold pgMfc pgSTG at h
        omega
      · revert h
        unfold eventPage
        decide
      · unfold pgMfc pgCAL at h
        omega
    have hmfc : ∀ g : Fld, g.off < 4096 → g.off ≠ HDR.PEVT.off → d1.rd (pgMfc c) g = d.rd (pgMfc c) g := fun g ho hne =>
      (h1.toLeaves.rd (pgMfc_lt c) ho (not_otherCores c) hne).trans (rd_dieRestored d g (pgMfc_lt c) (by unfold pgMfc pgMFE; omega) ho)
    have hstage : d1.stage = d.stage :=
      (h1.toLeaves.rd (by decide) (by decide) (hfar _ (.inl rfl)) (by decide)).trans (rd_dieRestored d STG.STAGE (by decide) (by decide) (by decide))
    have hbusy : d1.rd pgCAL CAL.VBUSY = d.rd pgCAL CAL.VBUSY :=
      (h1.toLeaves.rd (by decide) (by decide) (hfar _ (.inr rfl)) (by decide)).trans (rd_dieRestored d CAL.VBUSY (by decide) (by decide) (by decide))
    have hon : (d1.on (pgMfc c) HDR.EN && !d1.mfe.fault && d1.stage != 0) = true := by
      unfold Dev.on at hen ⊢
      rw [hmfc _ (by decide) (by decide), hen, h1.fault, hstage, bne_iff_ne.2 hs]
      rfl
    have hc1 : ¬ d1.cstate c ≠ 0 := fun h => h ((hmfc MFC.CSTATE (by decide) (by decide)).trans hc)
    have hb1 : ¬ d1.on pgCAL CAL.VBUSY = true := by
      unfold Dev.on at hv ⊢
      rw [hbusy]
      exact not_true hv
    have heq : mfcEnableChanged c d1 = d1.mfPut c MFC.CSTATE 1 := by
      unfold mfcEnableChanged
      dsimp only
      rw [if_pos hon, if_neg hc1, if_neg hb1]
    refine h2.cstate.trans ?_
    show (mfcEnableChanged c d1).cstate c = 1
    rw [heq]
    exact rd_wr_self d1 (pgMfc c) MFC.CSTATE 1 (by decide)

end Sys2Proof.Machine
end

section
/-! PROOFS. The measurement cores, the line tracker and the events of the capture engine (spec/11, spec/12). -/
namespace Sys2Proof.Machine

/-! ## Waking, dumps and burn-out tests (R439, R441, R444) -/

section
variable {c : Fin 4} {t : Nat} {d : Dev}

/-- Does a sleeping core wake at `t`? -/
def Dev.wakes (d : Dev) (c : Fin 4) (t : Nat) : Bool :=
  if predictable (d.mf c MFC.TSRC) then decide (d.nextDue c t ≤ t + 200 * 16000) else (d.core c).due != []

theorem wakeStart_eq (c : Fin 4) (t : Nat) (d : Dev) : wakeStart c t d =
    if d.cstate c = 2 ∧ d.wakes c t then (d.at t).wr (pgMfc c) MFC.CSTATE 3 else d := rfl

theorem wakes_predictable (h : predictable (d.mf c MFC.TSRC) = true) : d.wakes c t = decide (d.nextDue c t ≤ t + 200 * 16000) := if_pos h

theorem wakes_other (h : predictable (d.mf c MFC.TSRC) = false) : d.wakes c t = ((d.core c).due != []) := if_neg (not_true h)

/-- Has waking delayed a start? -/
def Dev.wokeLate (d : Dev) (c : Fin 4) (t : Nat) : Bool := (d.core c).due.head?.any fun t0 => decide (t0 < t)

theorem wakeComplete_eq (c : Fin 4) (t : Nat) (d : Dev) : wakeComplete c t d =
    if d.cstate c = 3 then ((d.at t).wr (pgMfc c) MFC.CSTATE 1).mapCore c fun x => { x with late := d.wokeLate c t } else d := by
  unfold wakeComplete Dev.wokeLate
  cases (d.core c).due <;> rfl

theorem wokeLate_iff : d.wokeLate c t = true ↔ ∃ t0 ∈ (d.core c).due.head?, t0 < t := by
  unfold Dev.wokeLate
  rw [Option.any_eq_true]
  exact exists_congr fun t0 => and_congr_right fun _ => decide_eq_true_iff

/-- The end of the test of a core, with its result where it reads high. -/
def burnoutShown (c : Fin 4) (high : Bool) (d : Dev) : Dev :=
  if high then
    mfcEvent c 1 (d.entryNow c).1 (if (d.entryNow c).2 then d else
      imageResult c (d.entryNow c).1 (d.wr (pgMfc c) (MFC.OW.nth 0x20 (d.entryNow c).1) 1))
  else d

/-- The test of a core is over. -/
def testEnded (c : Fin 4) (t : Nat) (d : Dev) : Dev := (d.at t).mapCore c fun y => { y with testing := false, burn := 0 }

theorem burnoutTestComplete_eq (high : Bool) (ht : (d.core c).testing = true) (hs : (d.core c).since + 50 * 16000 ≤ t) :
    burnoutTestComplete c high t d =
      if (burnoutShown c high (testEnded c t d)).cstate c = 4 then
        nextEntry c t (burnoutShown c high (testEnded c t d))
      else burnoutShown c high (testEnded c t d) := by
  refine if_neg fun hn => hn.elim (fun h => not_true (Bool.not_eq_eq_eq_not.1 h) ht) fun h => absurd hs (Nat.not_le.2 h)

theorem burnoutTestComplete_not (high : Bool) (h : (d.core c).testing = false ∨ t < (d.core c).since + 50 * 16000) :
    burnoutTestComplete c high t d = d := if_pos (h.imp (fun h => by rw [h]; rfl) id)

theorem cstate_burnoutShown (c : Fin 4) (high : Bool) (d : Dev) : (burnoutShown c high d).cstate c = d.cstate c := by
  unfold burnoutShown
  split
  · refine (rd_raise (pgMfc c) 1 _ (pgMfc c) MFC.CSTATE _ (pgMfc_lt c) (by decide) (pgMfc_lt c) (by decide) ?_ fun _ => by decide).trans ?_
    · have := c.isLt
      unfold eventPage pgMfc pgEVT pgTSU
      omega
    · split
      · rfl
      · have hn := entryNow_lt d c
        have himg : ∀ (n : Nat) (d : Dev), (imageResult c n d).regs = d.regs ∧ (imageResult c n d).conf = d.conf := fun n d => by
          unfold imageResult
          split
          · exact ⟨rfl, rfl⟩
          · exact ⟨rfl, rfl⟩
        obtain ⟨hr, hc⟩ := himg (d.entryNow c).1 (d.wr (pgMfc c) (MFC.OW.nth 0x20 (d.entryNow c).1) 1)
        refine Eq.trans (b := (d.wr (pgMfc c) (MFC.OW.nth 0x20 (d.entryNow c).1) 1).rd (pgMfc c) MFC.CSTATE) ?_ ?_
        · unfold Dev.rd Dev.rdS
          rw [reg_eq, reg_eq, hr, hc]
        · refine rd_wr_off d (pgMfc c) (MFC.OW.nth 0x20 (d.entryNow c).1) 1 (pgMfc c) MFC.CSTATE ?_
          unfold Fld.nth MFC.OW MFC.CSTATE
          dsimp only
          omega
  · rfl

theorem cstate_testEnded (c : Fin 4) (high : Bool) (t : Nat) (d : Dev) : (burnoutShown c high (testEnded c t d)).cstate c = d.cstate c :=
  (cstate_burnoutShown c high _).trans rfl

theorem burnoutTestComplete_waits (high : Bool) (ht : (d.core c).testing = true) (hs : (d.core c).since + 50 * 16000 ≤ t)
    (h : d.cstate c ≠ 4) : burnoutTestComplete c high t d = burnoutShown c high (testEnded c t d) :=
  (burnoutTestComplete_eq high ht hs).trans (if_neg fun hn => h ((cstate_testEnded c high t d).symm.trans hn))

theorem burnoutTestComplete_goesOn (high : Bool) (ht : (d.core c).testing = true) (hs : (d.core c).since + 50 * 16000 ≤ t)
    (h : d.cstate c = 4) : burnoutTestComplete c high t d = nextEntry c t (burnoutShown c high (testEnded c t d)) :=
  (burnoutTestComplete_eq high ht hs).trans (if_pos ((cstate_testEnded c high t d).trans h))

end

/-! ## The line (R428, R429) -/

section
variable {t : Nat} {d : Dev}

/-- The line tracker after a crossing. -/
def crossed (t : Nat) (l : List Nat) (d : Dev) : Dev :=
  { d.at t with mfe := { d.mfe with crossing := some (t / 4 * 4), periods := l } }

/-- A crossing that ends a good period. -/
def periodTaken (t : Nat) (l : List Nat) (d : Dev) : Dev :=
  if d.on pgMFE MFE.LOCK then setLper ((l.take 8).foldl (· + ·) 0 / 128) (crossed t l d)
  else if steadyRun 8 l then raise pgMFE 0 0 ((setLper ((l.take 8).foldl (· + ·) 0 / 128) (crossed t l d)).wr pgMFE MFE.LOCK 1)
  else crossed t l d

theorem lineCrossing_first (hs : d.stage ≠ 0) (hl : d.on pgMFE MFE.LEN = true) (hc : d.mfe.crossing = none) :
    lineCrossing t d = crossed t [] d := by
  unfold lineCrossing
  rw [if_neg (not_or.2 ⟨hs, by rw [hl]; decide⟩)]
  dsimp only
  rw [show (d.at t).mfe.crossing = none from hc]
  rfl

theorem lineCrossing_next {t0 : Nat} (hs : d.stage ≠ 0) (hl : d.on pgMFE MFE.LEN = true) (hc : d.mfe.crossing = some t0) :
    lineCrossing t d = if !periodOk (t / 4 * 4 - t0) then loseLine (crossed t [] d)
      else periodTaken t (((t / 4 * 4 - t0) :: d.mfe.periods).take 9) d := by
  unfold lineCrossing
  rw [if_neg (not_or.2 ⟨hs, by rw [hl]; decide⟩)]
  dsimp only
  rw [show (d.at t).mfe.crossing = some t0 from hc]
  rfl

theorem lineLost_some {t0 : Nat} (hc : d.mfe.crossing = some t0) : lineLost t d =
    if d.stage ≠ 0 ∧ t0 + 25000 * 16000 ≤ t then
      loseLine { d.at t with mfe := { d.mfe with crossing := none, periods := [] } } else d := by
  unfold lineLost
  rw [hc]
  rfl

theorem lineLost_none (hc : d.mfe.crossing = none) : lineLost t d = d := by
  unfold lineLost
  rw [hc]

end

/-! ## Rearming (R466, R472) -/

theorem rearmDone_ready {u : Fin 16} {t : Nat} {d x : Dev} (hx : x = d.at t) (hs : d.rd (pgCapu u) CAPU.USTATE = 3)
    (ht : (d.capUnit u).closedAt + d.rd (pgCapu u) CAPU.HOLD * 16000 ≤ x.st) :
    ((d.capUnit u).reserved = false → capFits u x = false → rearmDone u t d = capOverflow u 1 x) ∧
    (∀ y : Dev, ((d.capUnit u).reserved = true ∧ y = x) ∨ ((d.capUnit u).reserved = false ∧ capFits u x = true ∧ y = capReserve u x) →
      rearmDone u t d = if y.rd (pgCapu u) CAPU.NPP ≤ 7 then capArmed u y else y) := by
  have ht' : (d.capUnit u).closedAt + d.rd (pgCapu u) CAPU.HOLD * 16000 ≤ (d.at t).st := by
    rw [← hx]
    exact ht
  have hno : ¬ ((d.at t).rd (pgCapu u) CAPU.USTATE ≠ 3 ∨
      (d.at t).st < ((d.at t).capUnit u).closedAt + (d.at t).rd (pgCapu u) CAPU.HOLD * 16000) :=
    not_or.2 ⟨not_not.2 hs, Nat.not_lt.2 ht'⟩
  unfold rearmDone
  dsimp only
  rw [if_neg hno, ← hx]
  have hres : (x.capUnit u).reserved = (d.capUnit u).reserved := by rw [hx]; rfl
  rw [hres]
  refine ⟨fun hr hf => if_pos (by rw [hr, hf]; decide), fun y hy => ?_⟩
  rcases hy with ⟨hr, rfl⟩ | ⟨hr, hf, rfl⟩
  · rw [if_neg (by rw [hr]; exact fun h => absurd h.1 (by decide)), if_pos hr]
  · rw [if_neg (by rw [hf]; exact fun h => absurd h.2 (by decide)), if_neg (not_true hr)]

/-! ## The statement -/

theorem measurementEvents (s : State) (c : CoreId) (t : Nat) :
    ((s.dev.cstate c ≠ 5 ∨ t < (s.dev.core c).since + max 300 (s.dev.mfScan c MFC.DUMPT) * 16000) →
      exec (.dumpComplete c t) s = .next s) ∧
    (s.dev.cstate c = 5 → (s.dev.core c).since + max 300 (s.dev.mfScan c MFC.DUMPT) * 16000 ≤ t →
      exec (.dumpComplete c t) s = .next (s.withDev
        (nextEntry c t ((s.dev.at t).mapCore c fun x => { x with testing := false, burn := 0 })))) ∧
    (s.dev.cstate c = 2 → predictable (s.dev.mf c MFC.TSRC) = true → s.dev.nextDue c t ≤ t + 200 * 16000 →
      exec (.wakeStart c t) s = .next (s.withDev ((s.dev.at t).wr (pgMfc c) MFC.CSTATE 3))) ∧
    (s.dev.cstate c = 2 → predictable (s.dev.mf c MFC.TSRC) = false → (s.dev.core c).due ≠ [] →
      exec (.wakeStart c t) s = .next (s.withDev ((s.dev.at t).wr (pgMfc c) MFC.CSTATE 3))) ∧
    ((s.dev.cstate c ≠ 2 ∨ (predictable (s.dev.mf c MFC.TSRC) = true ∧ t + 200 * 16000 < s.dev.nextDue c t) ∨
      (predictable (s.dev.mf c MFC.TSRC) = false ∧ (s.dev.core c).due = [])) → exec (.wakeStart c t) s = .next s) ∧
    (∀ slow : Bool, s.dev.cstate c = 3 → (slow = true ↔ ∃ t0 ∈ (s.dev.core c).due.head?, t0 < t) →
      exec (.wakeComplete c t) s = .next (s.withDev
        (((s.dev.at t).wr (pgMfc c) MFC.CSTATE 1).mapCore c fun x => { x with late := slow }))) ∧
    (s.dev.cstate c ≠ 3 → exec (.wakeComplete c t) s = .next s) := by
  refine ⟨fun h => ?_, fun h1 h2 => ?_, fun h1 h2 h3 => ?_, fun h1 h2 h3 => ?_, fun h => ?_, fun slow h1 h2 => ?_, fun h => ?_⟩
  · refine act_same (f := dumpComplete c t) (if_neg fun hn => ?_)
    obtain ⟨h1, h2⟩ := hn
    exact h.elim (fun h => h h1) fun h => absurd h2 (Nat.not_le.2 h)
  · exact act_eq (f := dumpComplete c t) (if_pos ⟨h1, h2⟩)
  · exact act_eq (f := wakeStart c t) ((wakeStart_eq c t s.dev).trans (if_pos ⟨h1, (wakes_predictable h2).trans (decide_eq_true h3)⟩))
  · exact act_eq (f := wakeStart c t) ((wakeStart_eq c t s.dev).trans (if_pos ⟨h1, (wakes_other h2).trans (bne_iff_ne.2 h3)⟩))
  · refine act_same (f := wakeStart c t) ((wakeStart_eq c t s.dev).trans (if_neg fun hn => ?_))
    obtain ⟨h1, h2⟩ := hn
    rcases h with h | ⟨hp, h⟩ | ⟨hp, h⟩
    · exact h h1
    · rw [wakes_predictable hp, decide_eq_true_eq] at h2
      exact absurd h2 (Nat.not_le.2 h)
    · rw [wakes_other hp, h] at h2
      exact absurd h2 (by decide)
  · have hslow : slow = s.dev.wokeLate c t := Bool.eq_iff_iff.2 (h2.trans wokeLate_iff.symm)
    rw [hslow]
    exact act_eq (f := wakeComplete c t) ((wakeComplete_eq c t s.dev).trans (if_pos h1))
  · exact act_same (f := wakeComplete c t) ((wakeComplete_eq c t s.dev).trans (if_neg h))

theorem apertureEvents (s : State) (c : CoreId) (t : Nat) :
    (s.dev.cstate c = 4 → (s.dev.core c).phase = 0 →
      (s.dev.core c).since + s.dev.chanScan c MFC.SETTLE * 16000 ≤ t + 160 → ∃ t', exec (.settleEnd c t) s = .next t' ∧
        (t'.dev.core c).phase = 1 ∧ (t'.dev.core c).t0 = t ∧ (t'.dev.core c).capt = s.dev.aperture c ∧
        t'.dev.regs = s.dev.regs ∧ t'.dev.mem = s.dev.mem) ∧
    ((s.dev.cstate c ≠ 4 ∨ (s.dev.core c).phase ≠ 0 ∨
      t + 160 < (s.dev.core c).since + s.dev.chanScan c MFC.SETTLE * 16000) → exec (.settleEnd c t) s = .next s) ∧
    (s.dev.cstate c = 4 → (s.dev.core c).phase = 1 → (s.dev.core c).t0 + (s.dev.core c).capt * 16 ≤ t + 160 →
      exec (.apertureEnd c t) s = .next (s.withDev ((s.dev.at t).mapCore c fun x => { x with phase := 2, since := t }))) ∧
    ((s.dev.cstate c ≠ 4 ∨ (s.dev.core c).phase ≠ 1 ∨ t + 160 < (s.dev.core c).t0 + (s.dev.core c).capt * 16) →
      exec (.apertureEnd c t) s = .next s) := by
  refine ⟨fun h1 h2 h3 => ?_, fun h => ?_, fun h1 h2 h3 => act_eq (f := apertureEnd c t) (if_pos ⟨h1, h2, h3⟩), fun h => ?_⟩
  · refine ⟨_, act_eq (f := settleEnd c t) (if_pos ⟨h1, h2, h3⟩), ?_, ?_, ?_, rfl, rfl⟩
    · exact congrArg Core.phase (core_mapCore c _ _)
    · exact congrArg Core.t0 (core_mapCore c _ _)
    · exact congrArg Core.capt (core_mapCore c _ _)
  · refine act_same (f := settleEnd c t) (if_neg fun hn => ?_)
    obtain ⟨h1, h2, h3⟩ := hn
    exact h.elim (fun h => h h1) fun h => h.elim (fun h => h h2) fun h => absurd h3 (Nat.not_le.2 h)
  · refine act_same (f := apertureEnd c t) (if_neg fun hn => ?_)
    obtain ⟨h1, h2, h3⟩ := hn
    exact h.elim (fun h => h h1) fun h => h.elim (fun h => h h2) fun h => absurd h3 (Nat.not_le.2 h)

theorem lineEvents (s : State) (t : Nat) (x : Dev) :
    ((s.dev.stage = 0 ∨ s.dev.on pgMFE MFE.LEN = false) → exec (.lineCrossing t) s = .next s) ∧
    (s.dev.stage ≠ 0 → s.dev.on pgMFE MFE.LEN = true →
      (s.dev.mfe.crossing = none → exec (.lineCrossing t) s = .next (s.withDev
        { s.dev.at t with mfe := { s.dev.mfe with crossing := some (t / 4 * 4), periods := [] } })) ∧
      (∀ t0, s.dev.mfe.crossing = some t0 →
        (periodOk (t / 4 * 4 - t0) = false → exec (.lineCrossing t) s = .next (s.withDev (loseLine
          { s.dev.at t with mfe := { s.dev.mfe with crossing := some (t / 4 * 4), periods := [] } }))) ∧
        (∀ l, periodOk (t / 4 * 4 - t0) = true → l = ((t / 4 * 4 - t0) :: s.dev.mfe.periods).take 9 →
          x = { s.dev.at t with mfe := { s.dev.mfe with crossing := some (t / 4 * 4), periods := l } } →
          (s.dev.on pgMFE MFE.LOCK = true → exec (.lineCrossing t) s =
            .next (s.withDev (setLper ((l.take 8).foldl (· + ·) 0 / 128) x))) ∧
          (s.dev.on pgMFE MFE.LOCK = false → steadyRun 8 l = true → exec (.lineCrossing t) s = .next (s.withDev
            (raise pgMFE 0 0 ((setLper ((l.take 8).foldl (· + ·) 0 / 128) x).wr pgMFE MFE.LOCK 1)))) ∧
          (s.dev.on pgMFE MFE.LOCK = false → steadyRun 8 l = false → exec (.lineCrossing t) s = .next (s.withDev x))))) ∧
    (s.dev.mfe.crossing = none → exec (.lineLost t) s = .next s) ∧
    (∀ t0, s.dev.mfe.crossing = some t0 →
      ((s.dev.stage = 0 ∨ t < t0 + 25000 * 16000) → exec (.lineLost t) s = .next s) ∧
      (s.dev.stage ≠ 0 → t0 + 25000 * 16000 ≤ t → exec (.lineLost t) s = .next (s.withDev (loseLine
        { s.dev.at t with mfe := { s.dev.mfe with crossing := none, periods := [] } })))) := by
  refine ⟨fun h => ?_, fun hs hl => ⟨fun hc => ?_, fun t0 hc => ⟨fun hp => ?_, fun l hp hl' hx => ?_⟩⟩, fun hc => ?_,
    fun t0 hc => ⟨fun h => ?_, fun h1 h2 => ?_⟩⟩
  · exact act_same (f := lineCrossing t) (if_pos (h.imp id fun h => by rw [h]; rfl))
  · exact act_eq (f := lineCrossing t) (lineCrossing_first hs hl hc)
  · refine act_eq (f := lineCrossing t) ((lineCrossing_next hs hl hc).trans (if_pos ?_))
    rw [hp]
    rfl
  · have heq : lineCrossing t s.dev = periodTaken t l s.dev := by
      rw [lineCrossing_next hs hl hc, ← hl', hp]
      exact if_neg Bool.false_ne_true
    have hxc : x = crossed t l s.dev := hx
    rw [hxc]
    refine ⟨fun h => ?_, fun h h' => ?_, fun h h' => ?_⟩
    · exact act_eq (f := lineCrossing t) (heq.trans (if_pos h))
    · exact act_eq (f := lineCrossing t) (heq.trans ((if_neg (not_true h)).trans (if_pos h')))
    · exact act_eq (f := lineCrossing t) (heq.trans ((if_neg (not_true h)).trans (if_neg (not_true h'))))
  · exact act_same (f := lineLost t) (lineLost_none hc)
  · refine act_same (f := lineLost t) ((lineLost_some hc).trans (if_neg fun hn => ?_))
    exact h.elim hn.1 fun h => absurd hn.2 (Nat.not_le.2 h)
  · exact act_eq (f := lineLost t) ((lineLost_some hc).trans (if_pos ⟨h1, h2⟩))

theorem captureEvents (s : State) (e : BitVec 6) (rising : Bool) (u : CapId) (t : Nat) (x : Dev) (hx : x = s.dev.at t) :
    (s.dev.stage = 0 → exec (.edgeProbeEdge e rising t) s = .next s ∧ exec .throttle s = .next s) ∧
    (s.dev.edgeLevel e.toNat = rising → exec (.edgeProbeEdge e rising t) s = .next s) ∧
    (s.dev.stage ≠ 0 → s.dev.edgeLevel e.toNat ≠ rising →
      (edgeSrcOn (s.dev.rd pgCAP (CAP.SRC.nth 4 e.toNat)) = false → exec (.edgeProbeEdge e rising t) s = .next (s.withDev x)) ∧
      (edgeSrcOn (s.dev.rd pgCAP (CAP.SRC.nth 4 e.toNat)) = true → exec (.edgeProbeEdge e rising t) s =
        .next (s.withDev (capEdge e.toNat rising (s.dev.tagOf (trimGroup (s.dev.rd pgCAP (CAP.SRC.nth 4 e.toNat))) t) x)))) ∧
    (s.dev.stage ≠ 0 → exec .throttle s = .next (s.withDev (raise pgCAP 0 0 s.dev))) := by
  subst hx
  have hedge : s.dev.stage ≠ 0 → s.dev.edgeLevel e.toNat ≠ rising → edgeProbeEdge e rising t s.dev =
      capEdge e.toNat rising (s.dev.tagOf (trimGroup (s.dev.rd pgCAP (CAP.SRC.nth 4 e.toNat))) t) (s.dev.at t) := fun hs hl =>
    if_neg (not_or.2 ⟨hs, hl⟩)
  have he : e.toNat % 64 = e.toNat := Nat.mod_eq_of_lt e.isLt
  refine ⟨fun h => ⟨act_same (f := edgeProbeEdge e rising t) (if_pos (.inl h)), act_same (f := throttle) (if_pos h)⟩,
    fun h => act_same (f := edgeProbeEdge e rising t) (if_pos (.inr h)), fun hs hl => ⟨fun hsrc => ?_, fun _ => ?_⟩,
    fun h => act_eq (f := throttle) (if_neg h)⟩
  · refine act_eq (f := edgeProbeEdge e rising t) ((hedge hs hl).trans ?_)
    refine if_pos ?_
    show (!edgeSrcOn (s.dev.rd pgCAP (CAP.SRC.nth 4 (e.toNat % 64)))) = true
    rw [he, hsrc]
    rfl
  · exact act_eq (f := edgeProbeEdge e rising t) (hedge hs hl)

/-- Settles O60. -/
theorem measurementAndCapture : Obligations.MeasurementAndCapture := by
  refine ⟨fun s c t => ⟨fun h1 h2 => act_eq (f := mfcTrigger c t) (if_pos ⟨h1, h2⟩), fun h => ?_⟩, fun d c own t x hx => ?_,
    fun s c t => ⟨fun t0 slack l h1 h2 h3 h4 => ?_, fun h1 h2 h3 => ?_, fun h => ?_, apertureEvents s c t⟩,
    fun s c code t v x hv => ⟨fun h => ?_, fun h1 h2 h3 h4 hx => ⟨fun hb => ?_, fun hb => ?_⟩, fun h1 h2 h3 h4 => ?_⟩,
    fun s c positive t => ⟨fun h => ?_, fun h1 h2 => ?_, measurementEvents s c t⟩,
    fun s c high t x => ⟨fun h => ?_, fun h1 h2 hx => ⟨fun h => ?_, fun h => ?_, fun h h' => ?_⟩⟩, lineEvents,
    fun s bits => ⟨fun h => ?_, fun h1 h2 h3 => ?_, fun h => ?_, fun h1 h2 => ?_⟩, fun s e rising u t x hx => ?_⟩
  · refine act_same (f := mfcTrigger c t) (if_neg fun hn => ?_)
    exact h.elim (fun h => not_true h hn.1) fun h => h hn.2
  · obtain ⟨h1, h2, h3, h4⟩ := mfcTake_cases d c own t x hx
    exact ⟨h1, h2, h3, h4, fun h => if_neg (not_true h), fun h => if_pos h, passDues_none⟩
  · exact act_eq (f := scanStart c t) (scanStart_due h1 h2 h3 h4)
  · exact act_eq (f := scanStart c t) (scanStart_pending h1 h2 h3)
  · exact act_same (f := scanStart c t) (scanStart_not h)
  · exact act_same (f := rundownComplete c code t) (if_pos h)
  · subst hx
    exact act_eq (f := rundownComplete c code t) ((rundownComplete_inRange hv h1 h2 h3 h4).trans ((rundownNext_inRange _ _ _).trans (if_pos hb)))
  · subst hx
    exact act_eq (f := rundownComplete c code t) ((rundownComplete_inRange hv h1 h2 h3 h4).trans ((rundownNext_inRange _ _ _).trans (if_neg hb)))
  · obtain ⟨h5, h6⟩ := rundownComplete_overrange hv h1 h2 h3 h4
    exact ⟨s.withDev (rundownComplete c code t s.dev), rfl, h5, h6, rfl⟩
  · exact act_same (f := overloadTrip c positive t) (if_pos h)
  · obtain ⟨h5, h6⟩ := overloadTrip_shows (t := t) positive h1 h2
    exact ⟨s.withDev (overloadTrip c positive t s.dev), rfl, h5, h6, rfl⟩
  · exact act_same (f := burnoutTestComplete c high t) (burnoutTestComplete_not high h)
  · rw [show x = testEnded c t s.dev from hx]
    exact act_eq (f := burnoutTestComplete c false t) (burnoutTestComplete_goesOn false h1 h2 h)
  · rw [show x = testEnded c t s.dev from hx]
    exact act_eq (f := burnoutTestComplete c false t) (burnoutTestComplete_waits false h1 h2 h)
  · rw [show x = testEnded c t s.dev from hx]
    refine act_eq (f := burnoutTestComplete c true t) ((burnoutTestComplete_waits true h1 h2 h).trans ?_)
    exact congrArg (mfcEvent c 1 (s.dev.entryNow c).1) (if_neg (not_true h'))
  · refine act_same (f := mfeDieFault bits.toNat) (if_pos (h.imp id fun h => h.imp (fun h => by rw [h]; rfl) fun h => by rw [h]; rfl))
  · have hb : bits.toNat % 32 ≠ 0 := fun h => h3 (BitVec.eq_of_toNat_eq (by have := bits.isLt; show bits.toNat = 0; omega))
    exact ⟨s.withDev (mfeDieFault bits.toNat s.dev), rfl, mfeDieFault_shows h1 h2 hb⟩
  · refine act_same (f := mfeFaultRecovery) (if_neg fun hn => ?_)
    exact h.elim hn.1 fun h => not_true h hn.2
  · exact ⟨s.withDev (mfeFaultRecovery s.dev), rfl, mfeFaultRecovery_shows h1 h2⟩
  · obtain ⟨h1, h2, h3, h4⟩ := captureEvents s e rising u t x hx
    refine ⟨h1, h2, h3, h4, fun h5 h6 h7 => ?_, fun h => ?_, fun h5 h6 => ?_, fun h => ?_⟩
    · subst hx
      exact act_eq (f := autoTimeout u t) (if_pos ⟨h5, h6, h7⟩)
    · subst hx
      refine act_eq (f := autoTimeout u t) (if_neg fun hn => ?_)
      obtain ⟨h5, h6, h7⟩ := hn
      exact h.elim (fun h => h h5) fun h => h.elim (fun h => h h6) fun h => absurd h7 (Nat.not_le.2 h)
    · obtain ⟨hover, hrest⟩ := rearmDone_ready hx h5 h6
      exact ⟨fun hr hf => act_eq (f := rearmDone u t) (hover hr hf), fun y hy =>
        ⟨fun h => act_eq (f := rearmDone u t) ((hrest y hy).trans (if_pos h)),
          fun h => act_eq (f := rearmDone u t) ((hrest y hy).trans (if_neg (Nat.not_le.2 h)))⟩⟩
    · subst hx
      exact act_eq (f := rearmDone u t) (if_pos h)

end Sys2Proof.Machine
end
